-- ==== Sys2Proof/Word.lean ====
section
/-! DEFINITION. The word types of the LX2 and their plainest arithmetic (R5, R6, R122). -/

namespace Sys2Proof

/-- A scalar register, an address, a control register: 64 bits (R152). -/
abbrev Word := BitVec 64

/-- The smallest addressable unit (R5). -/
abbrev Byte := BitVec 8

/-- The bits of one vector register (R152). -/
abbrev VecBits := BitVec 8192

/-- The bits of one predicate register (R152). -/
abbrev PredBits := BitVec 512

/-- Number of a scalar, vector or predicate register. -/
abbrev Reg := Fin 32

/-- Bits `hi` down to `lo` of an instruction word read as a number (R165). -/
def field (w lo n : Nat) : Nat := w / 2 ^ lo % 2 ^ n

end Sys2Proof
end

