-- ==== Sys2Proof/Syntax.lean ====
section
/-! DEFINITION. The instructions of the LX2: one constructor per row of the opcode table (R169, and the steps of 95_what_each_step_holds.md). -/

namespace Sys2Proof

/-- Access size of a scalar access: 1, 2, 4 or 8 bytes (R166, SM). -/
inductive Size | b | h | w | d
  deriving DecidableEq, Repr

/-- Number of bytes of a size. -/
def Size.bytes : Size → Nat | .b => 1 | .h => 2 | .w => 4 | .d => 8

/-- Scopes in the order of their codes 0 to 6 (R84). -/
inductive Scope | strand | core | cluster | die | package | span | system
  deriving DecidableEq, Repr

/-- Width codes of SETVL: 16, 32 or 64 bits (R163, R167). -/
inductive VWidth | w16 | w32 | w64
  deriving DecidableEq, Repr

/-- Type tags of vector registers (R155). -/
inductive Tag | i64 | i32 | i16 | i16p | fp32 | bf16
  deriving DecidableEq, Repr

/-- Memory formats of the VM format field (R173). -/
inductive MemFmt | native | e4m3 | e5m2 | e2m1 | int8 | int4 | nested | bf16
  deriving DecidableEq, Repr

/-- Formats VQSCALE names, codes 1 to 4 (R170). -/
inductive QFmt | e4m3 | e5m2 | e2m1 | int8
  deriving DecidableEq, Repr

/-- Formats MDRAIN names (R297). -/
inductive DrainFmt | native | e4m3 | e5m2 | int8 | bf16
  deriving DecidableEq, Repr

/-- The assigned CSRs (R160, R164). -/
inductive Csr
  | fflags | rmode | satf | planes | bscale | rngseed | rngctr | clscope
  | lcount | lstart | lend | uivec | uiepc | uicause | status
  | bump (i : Fin 8) | vtaga | vtagb
  | vl | vstart | vconv | vdirty | vcid | coord | cycle | instret
  | cntld | cntst | cntcp | cnttl
  | stvec | sepc | scause | stval | sscratch | asid | troot
  | dbgctl | dbgstat | bkaddr (i : Fin 4) | perfsel | dbgReserved | perfcnt (i : Fin 4)
  deriving DecidableEq, Repr

/-- A strand's coordinates within a launch of this package (R25, R26). -/
structure StrandId where
  launch : Nat
  stage : Fin 8
  vcid : Fin 1024
  deriving DecidableEq, Repr

/-- Who waits: a strand, or an engine that runs a job (R436, R445). -/
inductive Waiter
  | strand (h : StrandId)
  | job (j : Nat)
  deriving DecidableEq, Repr

/-- A gang's coordinates within a launch of this package (R25). -/
structure GangId where
  launch : Nat
  stage : Fin 8
  gang : Fin 64
  deriving DecidableEq, Repr

/-- The atomic operations of scalar atomics (R217). -/
inductive AmoOp | add | min | max | minu | maxu | and | or | xor | swap | cas
  deriving DecidableEq, Repr

/-- What a fabric request asks of the target package (R371, R372, R375). -/
inductive SpanOp
  | load (bytes : Nat)
  | store (data : List Byte)
  | atomic (op : AmoOp) (wide : Bool) (operand : Word) (compare : Word)
  | merge (mask data : Byte)
  | atomicFloat (op : AmoOp) (operand : BitVec 32)
  | topk (operand : Word)
  | versionedLoad (n : BitVec 32) (bytes : Nat)
  | versionedStore (n : BitVec 32) (data : List Byte)
  /-- A piece of a VPUB, with the offset and the length of its whole range (R277). -/
  | publish (n : BitVec 32) (bytes start total : Nat)
  | versionQuery (w : Fin 5)
  | retire (slot : Fin 16) (n : BitVec 32)
  | barrierArrival (stage : Fin 8) (id : Fin 36) (arrivals : Nat)
  | sxRecord (sid : Fin 16) (gen : Byte) (key source run position : Nat) (payload : List Nat) (scale receiver : Nat)
  | sxAbort (sid : Fin 16) (gen : Byte)
  deriving DecidableEq, Repr

/-- A fabric request as its flits carry it: source rank, job tag, request tag and its incarnation, class, sequence number of its
first flit, window offset (R371, R374, R375, R378). -/
structure SpanReq where
  src : Fin 4096
  job : BitVec 16
  tag : Fin 4096
  inc : Fin 16
  cls : Fin 16
  seq : Fin 65536
  offset : Nat
  op : SpanOp
  deriving DecidableEq, Repr

/-- A fabric reply: the bytes of a load or atomic, or the cause the target returns (R371, R378). -/
inductive Answer
  | data (bytes : List Byte)
  | error (cause : Byte)
  deriving DecidableEq, Repr

/-- What the flits of a message carry besides the header: a request or a message that is not answered, a reply, a cancel with the
sequence numbers of the request it names (R375, R378, R455). -/
inductive FlitBody
  | request (op : SpanOp)
  | reply (a : Answer)
  | cancel (first : Fin 65536) (count : Fin 17)
  deriving DecidableEq, Repr

/-- How a flit arrives: at which port, and how often its tag failed before it came through; 2: not at all (R452). -/
structure FlitIn where
  port : Fin 8
  fails : Fin 3
  deriving DecidableEq, Repr

/-- How a message arrives that is no request: its source, class and sequence number, and how its flits came (R374, R375). -/
structure Heading where
  src : Fin 4096
  cls : Fin 16
  seq : Fin 65536
  flit : FlitIn
  deriving DecidableEq, Repr

/-- Who reaches a register over the host link: the function, and whether its request carries the TEE bit (R380, R381). -/
structure Caller where
  function : Fin 64
  tee : Bool
  deriving DecidableEq, Repr

/-- A write of a queue's doorbell: who writes, and which queue's (R357, R381). -/
structure Bell where
  by_ : Caller
  queue : Fin 64
  deriving DecidableEq, Repr

/-- The sequence numbers of a message: its first flit's and the count of its flits (R374). -/
structure FlitRun where
  first : Fin 65536
  count : Fin 17
  deriving DecidableEq, Repr

/-- The module, partition and queue registers whose write has no row of its own (R380, R395, R453).
`asidRoot` is no register the spec names: it stands for the root of an ASID that the queue's owner sets (R352, log 12). DESIGN CHOICE. -/
inductive PlainReg
  | clmask | health | pcap | portstat (port : Fin 8)
  | pstat (p : Fin 8) | pjobtag (p : Fin 8) | pjobrt (p : Fin 8) | pjobself (p : Fin 8)
  | pexp (p : Fin 8) | pdeadsel (p : Fin 8)
  | asidRoot (p : Fin 8) (asid : Fin 1024)
  | qring (q : Fin 64) | qstatus (q : Fin 64) | qstvec (q : Fin 64) | qsscratch (q : Fin 64)
  deriving DecidableEq, Repr

/-- Where a message reaches Golium: the management link, MCTP over vendor-defined messages or the mailbox of the PF, a VF's session,
or the Golium controller of a link partner (R376, R389, R392, R395). -/
inductive SpdmLink
  | management | vdm | mailbox | vf (n : Fin 64) | partner (port : Fin 8)
  deriving DecidableEq, Repr

/-- An SPDM request: where it arrives, and whether it is malformed (R389, R456). -/
structure SpdmMsg where
  link : SpdmLink
  malformed : Bool
  deriving DecidableEq, Repr

/-- A signed debug policy (R391). -/
structure DebugPolicy where
  format : Nat
  digest : BitVec 384
  nonce : BitVec 256
  grant : BitVec 16
  signature : List Byte
  deriving DecidableEq, Repr

/-- The four firmware images (R388). -/
inductive Image | golium | command | matrixBoot | link
  deriving DecidableEq, Repr

/-- An access of the host or a CXL device to device memory (R82, R379), of the host to the registers in BAR 0 of its function (R380),
or a read of a module register by MCTP (R395). -/
inductive HostOp
  | load (bytes : Nat)
  | store (data : List Byte)
  | atomic (op : AmoOp) (wide : Bool) (operand : Word) (compare : Word)
  | barRead
  | barWrite (v : Word)
  | linkRead (l : SpdmLink) (r : PlainReg)
  deriving DecidableEq, Repr

/-- A host access: the function whose requester id it carries, its TEE bit, its device physical address or its offset in BAR 0
(R380, R382, R456). -/
structure HostAcc where
  function : Fin 64
  tee : Bool
  addr : Nat
  op : HostOp
  deriving DecidableEq, Repr

/-- One constructor per row of the opcode table: the 300 encoded instructions, then the 98 steps that have no encoding. -/
inductive Instr
  /-- ADD (R180). Writes trunc64 of the sum of two scalar registers. -/
  | add (d : Reg) (a : Reg) (b : Reg)
  /-- SUB (R180). Writes trunc64 of the difference of two scalar registers. -/
  | sub (d : Reg) (a : Reg) (b : Reg)
  /-- AND (R180). Writes the bitwise AND of two scalar registers. -/
  | and (d : Reg) (a : Reg) (b : Reg)
  /-- OR (R180). Writes the bitwise OR of two scalar registers. -/
  | or (d : Reg) (a : Reg) (b : Reg)
  /-- XOR (R180). Writes the bitwise XOR of two scalar registers. -/
  | xor (d : Reg) (a : Reg) (b : Reg)
  /-- SLL (R180). Shifts left by the low six bits of xb. -/
  | sll (d : Reg) (a : Reg) (b : Reg)
  /-- SRL (R180). Shifts right logically by the low six bits of xb. -/
  | srl (d : Reg) (a : Reg) (b : Reg)
  /-- SRA (R180). Shifts right arithmetically by the low six bits of xb. -/
  | sra (d : Reg) (a : Reg) (b : Reg)
  /-- SLT (R180). Writes 1 if xa is below xb, signed. -/
  | slt (d : Reg) (a : Reg) (b : Reg)
  /-- SLTU (R180). Writes 1 if xa is below xb, unsigned. -/
  | sltu (d : Reg) (a : Reg) (b : Reg)
  /-- MIN (R180). Writes the signed minimum. -/
  | min (d : Reg) (a : Reg) (b : Reg)
  /-- MAX (R180). Writes the signed maximum. -/
  | max (d : Reg) (a : Reg) (b : Reg)
  /-- MINU (R180). Writes the unsigned minimum. -/
  | minu (d : Reg) (a : Reg) (b : Reg)
  /-- MAXU (R180). Writes the unsigned maximum. -/
  | maxu (d : Reg) (a : Reg) (b : Reg)
  /-- ADDW (R180). Writes the sign-extended 32-bit sum. -/
  | addw (d : Reg) (a : Reg) (b : Reg)
  /-- SUBW (R180). Writes the sign-extended 32-bit difference. -/
  | subw (d : Reg) (a : Reg) (b : Reg)
  /-- MUL (R181). Writes bits 63:0 of the product. -/
  | mul (d : Reg) (a : Reg) (b : Reg)
  /-- MULH (R181). Writes bits 127:64 of the signed product. -/
  | mulh (d : Reg) (a : Reg) (b : Reg)
  /-- MULHU (R181). Writes bits 127:64 of the unsigned product. -/
  | mulhu (d : Reg) (a : Reg) (b : Reg)
  /-- DIV (R181). Signed division rounded toward zero, never trapping. -/
  | div (d : Reg) (a : Reg) (b : Reg)
  /-- DIVU (R181). Unsigned division, never trapping. -/
  | divu (d : Reg) (a : Reg) (b : Reg)
  /-- REM (R181). Signed remainder with the sign of the dividend. -/
  | rem (d : Reg) (a : Reg) (b : Reg)
  /-- REMU (R181). Unsigned remainder. -/
  | remu (d : Reg) (a : Reg) (b : Reg)
  /-- CLZ (R182). Counts leading zero bits, 64 for zero. -/
  | clz (d : Reg) (a : Reg)
  /-- CTZ (R182). Counts trailing zero bits, 64 for zero. -/
  | ctz (d : Reg) (a : Reg)
  /-- POPC (R182). Counts one bits. -/
  | popc (d : Reg) (a : Reg)
  /-- SEXTB (R182). Sign-extends bits 7:0. -/
  | sextb (d : Reg) (a : Reg)
  /-- SEXTH (R182). Sign-extends bits 15:0. -/
  | sexth (d : Reg) (a : Reg)
  /-- SEXTW (R182). Sign-extends bits 31:0. -/
  | sextw (d : Reg) (a : Reg)
  /-- ZEXTW (R182). Zero-extends bits 31:0. -/
  | zextw (d : Reg) (a : Reg)
  /-- BSWAP (R182). Reverses the eight bytes. -/
  | bswap (d : Reg) (a : Reg)
  /-- ADDI (R183). Adds a signed 15-bit immediate. -/
  | addi (d : Reg) (a : Reg) (i : BitVec 15)
  /-- ANDI (R183). ANDs with the sign-extended immediate. -/
  | andi (d : Reg) (a : Reg) (i : BitVec 15)
  /-- ORI (R183). ORs with the sign-extended immediate. -/
  | ori (d : Reg) (a : Reg) (i : BitVec 15)
  /-- XORI (R183). XORs with the sign-extended immediate. -/
  | xori (d : Reg) (a : Reg) (i : BitVec 15)
  /-- SLTI (R183). Signed compare with the immediate. -/
  | slti (d : Reg) (a : Reg) (i : BitVec 15)
  /-- SLTIU (R183). Unsigned compare with the sign-extended immediate. -/
  | sltiu (d : Reg) (a : Reg) (i : BitVec 15)
  /-- SLLI (R184). Shifts left by an immediate amount. -/
  | slli (d : Reg) (a : Reg) (s : Fin 64)
  /-- SRLI (R184). Shifts right logically by an immediate amount. -/
  | srli (d : Reg) (a : Reg) (s : Fin 64)
  /-- SRAI (R184). Shifts right arithmetically by an immediate amount. -/
  | srai (d : Reg) (a : Reg) (s : Fin 64)
  /-- LI (R185). Sets xd to the sign-extended 20-bit immediate. -/
  | li (d : Reg) (i : BitVec 20)
  /-- LIS (R185). Shifts xd left by 20 and adds the zero-extended immediate. -/
  | lis (d : Reg) (i : BitVec 20)
  /-- ADDPC (R185). Writes pc plus a signed byte offset. -/
  | addpc (d : Reg) (i : BitVec 20)
  /-- LD (R186). Scalar load of 1 to 8 bytes, sign-extended. -/
  | ld (d : Reg) (a : Reg) (cls : Fin 16) (sz : Size) (o : BitVec 8)
  /-- LDU (R186). Scalar load of 1 to 4 bytes, zero-extended. -/
  | ldu (d : Reg) (a : Reg) (cls : Fin 16) (sz : Size) (o : BitVec 8)
  /-- ST (R186). Scalar store of 1 to 8 bytes, counted until performed. -/
  | st (s : Reg) (a : Reg) (cls : Fin 16) (sz : Size) (o : BitVec 8)
  /-- BEQ (R189). Branches when the registers are equal. -/
  | beq (a : Reg) (b : Reg) (o : BitVec 12)
  /-- BNE (R189). Branches when the registers differ. -/
  | bne (a : Reg) (b : Reg) (o : BitVec 12)
  /-- BLT (R189). Branches when xa is below xb, signed. -/
  | blt (a : Reg) (b : Reg) (o : BitVec 12)
  /-- BGE (R189). Branches when xa is at or above xb, signed. -/
  | bge (a : Reg) (b : Reg) (o : BitVec 12)
  /-- BLTU (R189). Branches when xa is below xb, unsigned. -/
  | bltu (a : Reg) (b : Reg) (o : BitVec 12)
  /-- BGEU (R189). Branches when xa is at or above xb, unsigned. -/
  | bgeu (a : Reg) (b : Reg) (o : BitVec 12)
  /-- JAL (R190). Jumps by a word offset and links pc + 4. -/
  | jal (d : Reg) (o : BitVec 20)
  /-- JALR (R190). Jumps to a register plus offset and links pc + 4. -/
  | jalr (d : Reg) (a : Reg) (i : BitVec 15)
  /-- STRIP (R191). Bumps address registers, subtracts vl from the count and branches while positive. -/
  | strip (n : Reg) (mask : BitVec 8) (o : BitVec 12)
  /-- LOOP (R192). Starts a hardware loop with a register count. -/
  | loop (n : Reg) (off : Fin 524288)
  /-- LOOPI (R192). Starts a hardware loop with an immediate count. -/
  | loopi (n : Reg) (off : Fin 524288)
  /-- JOIN_W (R50). Re-attachment point at which the stream waits for every detached member. -/
  | joinW
  /-- JOIN_N (R50). Re-attachment point at which only waiting cores rejoin. -/
  | joinN
  /-- DETACH (R195). Detaches the core to private fetch. -/
  | detach
  /-- EXIT (R196). Waits for loads and stores counters, registers barrier arrivals and ends the strand or forked program. -/
  | exit
  /-- YIELD (R197). Zeroes the slot's deficit in the core arbiter. -/
  | yield
  /-- FORK (R198). Queues a program for the matrix control core and raises the tiles counter. -/
  | fork (a : Reg) (b : Reg)
  /-- RENDEZVOUS (R199). Meets the strand and its forked program at an id, ordering their accesses. -/
  | rendezvous (id : Fin 16)
  /-- FENCE (R200). Orders accesses of the masked classes at a scope and discards clean L0 lines. -/
  | fence (mask : BitVec 16) (sc : Scope)
  /-- BAR_ARRIVE (R201). Returns the phase token and registers arrival at a barrier. -/
  | barArrive (d : Reg) (b : Reg) (id : Fin 36) (sc : Scope)
  /-- BAR_WAIT (R202). Waits for a barrier generation or returns its distance. -/
  | barWait (d : Reg) (a : Reg) (id : Fin 36)
  /-- BAR_INIT (R203). Discards registered arrivals and sets the barrier phase. -/
  | barInit (a : Reg) (id : Fin 36)
  /-- UIRET (R205). Returns from a user-level interrupt handler. -/
  | uiret
  /-- UIMASK (R204). Reads and sets STATUS.UIE. -/
  | uimask (d : Reg) (a : Reg)
  /-- CSRR (R208). Reads a CSR. -/
  | csrr (d : Reg) (csr : Csr)
  /-- CSRW (R208). Writes a CSR and returns its old value. -/
  | csrw (d : Reg) (a : Reg) (csr : Csr)
  /-- CSRS (R208). Sets CSR bits and returns the old value. -/
  | csrs (d : Reg) (a : Reg) (csr : Csr)
  /-- CSRC (R208). Clears CSR bits and returns the old value. -/
  | csrc (d : Reg) (a : Reg) (csr : Csr)
  /-- SETVL (R209). Grants vl as the request clamped to MVL of a width. -/
  | setvl (d : Reg) (a : Reg) (w : VWidth)
  /-- VTAG (R210). Sets the tags of a range of vector registers. -/
  | vtag (v : Reg) (n : Reg) (t : Tag)
  /-- SVSET (R211). Stores a scalar into a shape variable of the launch context. -/
  | svset (a : Reg) (k : Fin 32)
  /-- SVGET (R211). Loads a shape variable into a scalar register. -/
  | svget (d : Reg) (k : Fin 32)
  /-- LAUNCH (R212). Checks a launch record and places it in its queue. -/
  | launch (d : Reg) (a : Reg)
  /-- SYSCALL (R213). Traps to the supervisor with cause 0x0C. -/
  | syscall
  /-- ERET (R214). Restores VCONV, VSTART, pc and privilege from trap state. -/
  | eret
  /-- INVAS (R215). Removes guest-stage translations and retires at completion. -/
  | invas (a : Reg) (b : Reg) (allAddr : Bool) (allAsid : Bool)
  /-- BANKCFG (R71). Queries or queues a switch of a logical cluster-memory bank. -/
  | bankcfg (d : Reg) (a : Reg) (b : Reg)
  /-- BRK (R213). Traps with cause 0x0B and HIT 0. -/
  | brk
  /-- LDV (R273). Scalar versioned load of 8 bytes. -/
  | ldv (d : Reg) (a : Reg) (b : Reg) (cls : Fin 16)
  /-- VRQRY (R276). Reads a word of a granule's version record or the region's state. -/
  | vrqry (d : Reg) (a : Reg) (w : Fin 5)
  /-- VPUB (R277). Raises LATEST to a version over a range. -/
  | vpub (v : Reg) (a : Reg) (b : Reg) (cls : Fin 16)
  /-- VRETIRE (R278). Advances or deactivates a region cursor at its directory. -/
  | vretire (a : Reg) (b : Reg) (slot : Fin 16)
  /-- VRDECL (R279). Declares a versioned region from a descriptor and returns a status. -/
  | vrdecl (d : Reg) (a : Reg)
  /-- VRFREE (R281). Ends a versioned region, writing latest data back. -/
  | vrfree (d : Reg) (a : Reg)
  /-- JOB (R301). Snapshots a job card and queues it to an engine. -/
  | job (d : Reg) (a : Reg)
  /-- STREAM (R282). Binds a prefetch stream to an address register. -/
  | stream (n : Fin 8) (b : Reg) (sz : Size)
  /-- STREAMOFF (R282). Unbinds the stream of an address register. -/
  | streamoff (n : Fin 8)
  /-- SXOPEN (R331). Opens or joins a sorted-exchange session. -/
  | sxopen (d : Reg) (a : Reg) (sid : Fin 16)
  /-- SXSPLIT (R332). Stages a splitter table for the next round. -/
  | sxsplit (d : Reg) (a : Reg) (sid : Fin 16)
  /-- SXROUND (R333). Closes the strand's part of a round and waits for its completion. -/
  | sxround (d : Reg) (sid : Fin 16)
  /-- SXRESPLIT (R332). Stages a quantile resplit for the next round. -/
  | sxresplit (d : Reg) (sid : Fin 16)
  /-- SXCLOSE (R334). Leaves a session for the strand. -/
  | sxclose (d : Reg) (sid : Fin 16)
  /-- SXCLOSE_ABORT (R334). Retires the session's generation for every participant. -/
  | sxcloseAbort (d : Reg) (sid : Fin 16)
  /-- SXSEND (R336). Injects active records continuing the current run. -/
  | sxsend (k : Reg) (p : Reg) (sid : Fin 16) (m : Reg)
  /-- SXSEND_NEW (R336). Injects active records starting a new run. -/
  | sxsendNew (k : Reg) (p : Reg) (sid : Fin 16) (m : Reg)
  /-- SXRECV (R337). Receives records of the current round from the receive buffer. -/
  | sxrecv (k : Reg) (p : Reg) (sid : Fin 16) (f : Reg)
  /-- SXSTAT (R338). Returns the strand's view of a session. -/
  | sxstat (d : Reg) (sid : Fin 16)
  /-- AMOADD (R217). 64-bit atomic add. -/
  | amoadd (d : Reg) (a : Reg) (b : Reg) (cls : Fin 16)
  /-- AMOMIN (R217). 64-bit atomic signed minimum. -/
  | amomin (d : Reg) (a : Reg) (b : Reg) (cls : Fin 16)
  /-- AMOMAX (R217). 64-bit atomic signed maximum. -/
  | amomax (d : Reg) (a : Reg) (b : Reg) (cls : Fin 16)
  /-- AMOMINU (R217). 64-bit atomic unsigned minimum. -/
  | amominu (d : Reg) (a : Reg) (b : Reg) (cls : Fin 16)
  /-- AMOMAXU (R217). 64-bit atomic unsigned maximum. -/
  | amomaxu (d : Reg) (a : Reg) (b : Reg) (cls : Fin 16)
  /-- AMOAND (R217). 64-bit atomic AND. -/
  | amoand (d : Reg) (a : Reg) (b : Reg) (cls : Fin 16)
  /-- AMOOR (R217). 64-bit atomic OR. -/
  | amoor (d : Reg) (a : Reg) (b : Reg) (cls : Fin 16)
  /-- AMOXOR (R217). 64-bit atomic XOR. -/
  | amoxor (d : Reg) (a : Reg) (b : Reg) (cls : Fin 16)
  /-- AMOSWAP (R217). 64-bit atomic swap. -/
  | amoswap (d : Reg) (a : Reg) (b : Reg) (cls : Fin 16)
  /-- AMOCAS (R217). 64-bit atomic compare and swap. -/
  | amocas (d : Reg) (a : Reg) (b : Reg) (cls : Fin 16)
  /-- AMOADD_W (R217). 32-bit atomic add. -/
  | amoaddW (d : Reg) (a : Reg) (b : Reg) (cls : Fin 16)
  /-- AMOMIN_W (R217). 32-bit atomic signed minimum. -/
  | amominW (d : Reg) (a : Reg) (b : Reg) (cls : Fin 16)
  /-- AMOMAX_W (R217). 32-bit atomic signed maximum. -/
  | amomaxW (d : Reg) (a : Reg) (b : Reg) (cls : Fin 16)
  /-- AMOMINU_W (R217). 32-bit atomic unsigned minimum. -/
  | amominuW (d : Reg) (a : Reg) (b : Reg) (cls : Fin 16)
  /-- AMOMAXU_W (R217). 32-bit atomic unsigned maximum. -/
  | amomaxuW (d : Reg) (a : Reg) (b : Reg) (cls : Fin 16)
  /-- AMOAND_W (R217). 32-bit atomic AND. -/
  | amoandW (d : Reg) (a : Reg) (b : Reg) (cls : Fin 16)
  /-- AMOOR_W (R217). 32-bit atomic OR. -/
  | amoorW (d : Reg) (a : Reg) (b : Reg) (cls : Fin 16)
  /-- AMOXOR_W (R217). 32-bit atomic XOR. -/
  | amoxorW (d : Reg) (a : Reg) (b : Reg) (cls : Fin 16)
  /-- AMOSWAP_W (R217). 32-bit atomic swap. -/
  | amoswapW (d : Reg) (a : Reg) (b : Reg) (cls : Fin 16)
  /-- AMOCAS_W (R217). 32-bit atomic compare and swap. -/
  | amocasW (d : Reg) (a : Reg) (b : Reg) (cls : Fin 16)
  /-- TOPKINS (R220). Posts a score and expert id insert into a top-k record. -/
  | topkins (a : Reg) (b : Reg) (cls : Fin 16)
  /-- WAITC (R99). Waits until the outstanding-operation counters fall to the given limits. -/
  | waitc (l : Fin 16) (s : Fin 16) (p : Fin 16) (t : Fin 16)
  /-- VADD (R226). Element-wise add of two vectors. -/
  | vadd (d : Reg) (a : Reg) (b : Reg) (m : Reg)
  /-- VSUB (R226). Element-wise subtract of two vectors. -/
  | vsub (d : Reg) (a : Reg) (b : Reg) (m : Reg)
  /-- VMUL (R226). Element-wise multiply of two vectors. -/
  | vmul (d : Reg) (a : Reg) (b : Reg) (m : Reg)
  /-- VMIN (R226). Element-wise minimum of two vectors. -/
  | vmin (d : Reg) (a : Reg) (b : Reg) (m : Reg)
  /-- VMAX (R226). Element-wise maximum of two vectors. -/
  | vmax (d : Reg) (a : Reg) (b : Reg) (m : Reg)
  /-- VABS (R226). Element-wise absolute value. -/
  | vabs (d : Reg) (a : Reg) (m : Reg)
  /-- VNEG (R226). Element-wise negation. -/
  | vneg (d : Reg) (a : Reg) (m : Reg)
  /-- VMERGE (R227). Selects each element from va or vb by predicate. -/
  | vmerge (d : Reg) (a : Reg) (b : Reg) (m : Reg)
  /-- VMV (R227). Copies active elements. -/
  | vmv (d : Reg) (a : Reg) (m : Reg)
  /-- VBCAST (R227). Broadcasts element 0 of a vector. -/
  | vbcast (d : Reg) (a : Reg) (m : Reg)
  /-- VADD_VX (R226). Adds a scalar to each element. -/
  | vaddVx (d : Reg) (a : Reg) (x : Reg) (m : Reg)
  /-- VSUB_VX (R226). Subtracts a scalar from each element. -/
  | vsubVx (d : Reg) (a : Reg) (x : Reg) (m : Reg)
  /-- VMUL_VX (R226). Multiplies each element by a scalar. -/
  | vmulVx (d : Reg) (a : Reg) (x : Reg) (m : Reg)
  /-- VMIN_VX (R226). Minimum of each element and a scalar. -/
  | vminVx (d : Reg) (a : Reg) (x : Reg) (m : Reg)
  /-- VMAX_VX (R226). Maximum of each element and a scalar. -/
  | vmaxVx (d : Reg) (a : Reg) (x : Reg) (m : Reg)
  /-- VMERGE_VX (R227). Selects each element from va or a scalar by predicate. -/
  | vmergeVx (d : Reg) (a : Reg) (x : Reg) (m : Reg)
  /-- VBCAST_VX (R227). Broadcasts a scalar read as the destination's tag. -/
  | vbcastVx (d : Reg) (x : Reg) (m : Reg)
  /-- VAND (R228). Element-wise AND. -/
  | vand (d : Reg) (a : Reg) (b : Reg) (m : Reg)
  /-- VOR (R228). Element-wise OR. -/
  | vor (d : Reg) (a : Reg) (b : Reg) (m : Reg)
  /-- VXOR (R228). Element-wise XOR. -/
  | vxor (d : Reg) (a : Reg) (b : Reg) (m : Reg)
  /-- VSLL (R229). Element-wise left shift. -/
  | vsll (d : Reg) (a : Reg) (b : Reg) (m : Reg)
  /-- VSRL (R229). Element-wise logical right shift. -/
  | vsrl (d : Reg) (a : Reg) (b : Reg) (m : Reg)
  /-- VSRA (R229). Element-wise arithmetic right shift. -/
  | vsra (d : Reg) (a : Reg) (b : Reg) (m : Reg)
  /-- VMINU (R228). Element-wise unsigned minimum. -/
  | vminu (d : Reg) (a : Reg) (b : Reg) (m : Reg)
  /-- VMAXU (R228). Element-wise unsigned maximum. -/
  | vmaxu (d : Reg) (a : Reg) (b : Reg) (m : Reg)
  /-- VMULH (R228). High half of the signed product. -/
  | vmulh (d : Reg) (a : Reg) (b : Reg) (m : Reg)
  /-- VMULHU (R228). High half of the unsigned product. -/
  | vmulhu (d : Reg) (a : Reg) (b : Reg) (m : Reg)
  /-- VADC (R230). Adds with carry in and out through a predicate. -/
  | vadc (d : Reg) (a : Reg) (b : Reg) (p : Reg)
  /-- VSBC (R230). Subtracts with borrow in and out through a predicate. -/
  | vsbc (d : Reg) (a : Reg) (b : Reg) (p : Reg)
  /-- VADDS (R231). Signed saturating add. -/
  | vadds (d : Reg) (a : Reg) (b : Reg) (m : Reg)
  /-- VSUBS (R231). Signed saturating subtract. -/
  | vsubs (d : Reg) (a : Reg) (b : Reg) (m : Reg)
  /-- VADDSU (R231). Unsigned saturating add. -/
  | vaddsu (d : Reg) (a : Reg) (b : Reg) (m : Reg)
  /-- VSUBSU (R231). Unsigned saturating subtract. -/
  | vsubsu (d : Reg) (a : Reg) (b : Reg) (m : Reg)
  /-- VSRAR (R231). Signed rounding right shift. -/
  | vsrar (d : Reg) (a : Reg) (b : Reg) (m : Reg)
  /-- VSRLR (R231). Unsigned rounding right shift. -/
  | vsrlr (d : Reg) (a : Reg) (b : Reg) (m : Reg)
  /-- VDOT2 (R232). Packed two-way INT16 dot product accumulated with saturation. -/
  | vdot2 (d : Reg) (a : Reg) (b : Reg) (m : Reg)
  /-- VABSD (R228). Absolute difference of signed elements. -/
  | vabsd (d : Reg) (a : Reg) (b : Reg) (m : Reg)
  /-- VCLZ (R228). Counts leading zero bits of each element. -/
  | vclz (d : Reg) (a : Reg) (m : Reg)
  /-- VPOPC (R228). Counts one bits of each element. -/
  | vpopc (d : Reg) (a : Reg) (m : Reg)
  /-- VAND_VX (R228). AND with a scalar. -/
  | vandVx (d : Reg) (a : Reg) (x : Reg) (m : Reg)
  /-- VOR_VX (R228). OR with a scalar. -/
  | vorVx (d : Reg) (a : Reg) (x : Reg) (m : Reg)
  /-- VXOR_VX (R228). XOR with a scalar. -/
  | vxorVx (d : Reg) (a : Reg) (x : Reg) (m : Reg)
  /-- VSLL_VX (R229). Left shift by a scalar amount. -/
  | vsllVx (d : Reg) (a : Reg) (x : Reg) (m : Reg)
  /-- VSRL_VX (R229). Logical right shift by a scalar amount. -/
  | vsrlVx (d : Reg) (a : Reg) (x : Reg) (m : Reg)
  /-- VSRA_VX (R229). Arithmetic right shift by a scalar amount. -/
  | vsraVx (d : Reg) (a : Reg) (x : Reg) (m : Reg)
  /-- VMINU_VX (R228). Unsigned minimum with a scalar. -/
  | vminuVx (d : Reg) (a : Reg) (x : Reg) (m : Reg)
  /-- VMAXU_VX (R228). Unsigned maximum with a scalar. -/
  | vmaxuVx (d : Reg) (a : Reg) (x : Reg) (m : Reg)
  /-- VMULH_VX (R228). High half of the signed product with a scalar. -/
  | vmulhVx (d : Reg) (a : Reg) (x : Reg) (m : Reg)
  /-- VMULHU_VX (R228). High half of the unsigned product with a scalar. -/
  | vmulhuVx (d : Reg) (a : Reg) (x : Reg) (m : Reg)
  /-- VADDS_VX (R231). Signed saturating add of a scalar. -/
  | vaddsVx (d : Reg) (a : Reg) (x : Reg) (m : Reg)
  /-- VSUBS_VX (R231). Signed saturating subtract of a scalar. -/
  | vsubsVx (d : Reg) (a : Reg) (x : Reg) (m : Reg)
  /-- VADDSU_VX (R231). Unsigned saturating add of a scalar. -/
  | vaddsuVx (d : Reg) (a : Reg) (x : Reg) (m : Reg)
  /-- VSUBSU_VX (R231). Unsigned saturating subtract of a scalar. -/
  | vsubsuVx (d : Reg) (a : Reg) (x : Reg) (m : Reg)
  /-- VSRAR_VX (R231). Signed rounding shift by a scalar amount. -/
  | vsrarVx (d : Reg) (a : Reg) (x : Reg) (m : Reg)
  /-- VSRLR_VX (R231). Unsigned rounding shift by a scalar amount. -/
  | vsrlrVx (d : Reg) (a : Reg) (x : Reg) (m : Reg)
  /-- VABSD_VX (R228). Absolute difference with a scalar. -/
  | vabsdVx (d : Reg) (a : Reg) (x : Reg) (m : Reg)
  /-- VAND_VI (R228). AND with an immediate. -/
  | vandVi (d : Reg) (a : Reg) (i : BitVec 5) (m : Reg)
  /-- VOR_VI (R228). OR with an immediate. -/
  | vorVi (d : Reg) (a : Reg) (i : BitVec 5) (m : Reg)
  /-- VXOR_VI (R228). XOR with an immediate. -/
  | vxorVi (d : Reg) (a : Reg) (i : BitVec 5) (m : Reg)
  /-- VSLL_VI (R229). Left shift by an immediate. -/
  | vsllVi (d : Reg) (a : Reg) (i : BitVec 5) (m : Reg)
  /-- VSRL_VI (R229). Logical right shift by an immediate. -/
  | vsrlVi (d : Reg) (a : Reg) (i : BitVec 5) (m : Reg)
  /-- VSRA_VI (R229). Arithmetic right shift by an immediate. -/
  | vsraVi (d : Reg) (a : Reg) (i : BitVec 5) (m : Reg)
  /-- VMINU_VI (R228). Unsigned minimum with an immediate. -/
  | vminuVi (d : Reg) (a : Reg) (i : BitVec 5) (m : Reg)
  /-- VMAXU_VI (R228). Unsigned maximum with an immediate. -/
  | vmaxuVi (d : Reg) (a : Reg) (i : BitVec 5) (m : Reg)
  /-- VADDS_VI (R231). Signed saturating add of an immediate. -/
  | vaddsVi (d : Reg) (a : Reg) (i : BitVec 5) (m : Reg)
  /-- VSUBS_VI (R231). Signed saturating subtract of an immediate. -/
  | vsubsVi (d : Reg) (a : Reg) (i : BitVec 5) (m : Reg)
  /-- VADDSU_VI (R231). Unsigned saturating add of an immediate. -/
  | vaddsuVi (d : Reg) (a : Reg) (i : BitVec 5) (m : Reg)
  /-- VSUBSU_VI (R231). Unsigned saturating subtract of an immediate. -/
  | vsubsuVi (d : Reg) (a : Reg) (i : BitVec 5) (m : Reg)
  /-- VSRAR_VI (R231). Signed rounding shift by an immediate. -/
  | vsrarVi (d : Reg) (a : Reg) (i : BitVec 5) (m : Reg)
  /-- VSRLR_VI (R231). Unsigned rounding shift by an immediate. -/
  | vsrlrVi (d : Reg) (a : Reg) (i : BitVec 5) (m : Reg)
  /-- VFMA (R233). Fused a times b plus d with one rounding. -/
  | vfma (d : Reg) (a : Reg) (b : Reg) (m : Reg)
  /-- VFMS (R233). Fused a times b minus d with one rounding. -/
  | vfms (d : Reg) (a : Reg) (b : Reg) (m : Reg)
  /-- VFNMA (R233). Fused d minus a times b with one rounding. -/
  | vfnma (d : Reg) (a : Reg) (b : Reg) (m : Reg)
  /-- VDIV (R234). Correctly rounded division. -/
  | vdiv (d : Reg) (a : Reg) (b : Reg) (m : Reg)
  /-- VSQRT (R234). Correctly rounded square root. -/
  | vsqrt (d : Reg) (a : Reg) (m : Reg)
  /-- VRCP (R235). BF16 reciprocal unit. -/
  | vrcp (d : Reg) (a : Reg) (m : Reg)
  /-- VRSQ (R235). BF16 reciprocal square root unit. -/
  | vrsq (d : Reg) (a : Reg) (m : Reg)
  /-- VEXP2 (R235). BF16 power-of-two unit. -/
  | vexp2 (d : Reg) (a : Reg) (m : Reg)
  /-- VLOG2 (R235). BF16 base-two logarithm unit. -/
  | vlog2 (d : Reg) (a : Reg) (m : Reg)
  /-- VTANH (R235). BF16 hyperbolic tangent unit. -/
  | vtanh (d : Reg) (a : Reg) (m : Reg)
  /-- VCLASS (R235). Writes a one-hot class mask of each FP element. -/
  | vclass (d : Reg) (a : Reg) (m : Reg)
  /-- VFMA_VX (R233). Fused multiply-add with a scalar multiplicand. -/
  | vfmaVx (d : Reg) (a : Reg) (x : Reg) (m : Reg)
  /-- VFMS_VX (R233). Fused multiply-subtract with a scalar multiplicand. -/
  | vfmsVx (d : Reg) (a : Reg) (x : Reg) (m : Reg)
  /-- VFNMA_VX (R233). Fused negated multiply-add with a scalar multiplicand. -/
  | vfnmaVx (d : Reg) (a : Reg) (x : Reg) (m : Reg)
  /-- VDIV_VX (R234). Division by a scalar. -/
  | vdivVx (d : Reg) (a : Reg) (x : Reg) (m : Reg)
  /-- VCMPEQ (R236). Sets predicate bits where elements are equal. -/
  | vcmpeq (p : Reg) (a : Reg) (b : Reg) (m : Reg)
  /-- VCMPNE (R236). Sets predicate bits where elements differ. -/
  | vcmpne (p : Reg) (a : Reg) (b : Reg) (m : Reg)
  /-- VCMPLT (R236). Signed or FP less-than compare. -/
  | vcmplt (p : Reg) (a : Reg) (b : Reg) (m : Reg)
  /-- VCMPLE (R236). Signed or FP less-or-equal compare. -/
  | vcmple (p : Reg) (a : Reg) (b : Reg) (m : Reg)
  /-- VCMPLTU (R236). Unsigned less-than compare. -/
  | vcmpltu (p : Reg) (a : Reg) (b : Reg) (m : Reg)
  /-- VCMPLEU (R236). Unsigned less-or-equal compare. -/
  | vcmpleu (p : Reg) (a : Reg) (b : Reg) (m : Reg)
  /-- VCMPUN (R236). Unordered compare, true where either is NaN. -/
  | vcmpun (p : Reg) (a : Reg) (b : Reg) (m : Reg)
  /-- VCMPEQ_VX (R236). Equality compare with a scalar. -/
  | vcmpeqVx (p : Reg) (a : Reg) (x : Reg) (m : Reg)
  /-- VCMPNE_VX (R236). Inequality compare with a scalar. -/
  | vcmpneVx (p : Reg) (a : Reg) (x : Reg) (m : Reg)
  /-- VCMPLT_VX (R236). Less-than compare with a scalar. -/
  | vcmpltVx (p : Reg) (a : Reg) (x : Reg) (m : Reg)
  /-- VCMPLE_VX (R236). Less-or-equal compare with a scalar. -/
  | vcmpleVx (p : Reg) (a : Reg) (x : Reg) (m : Reg)
  /-- VCMPLTU_VX (R236). Unsigned less-than compare with a scalar. -/
  | vcmpltuVx (p : Reg) (a : Reg) (x : Reg) (m : Reg)
  /-- VCMPLEU_VX (R236). Unsigned less-or-equal compare with a scalar. -/
  | vcmpleuVx (p : Reg) (a : Reg) (x : Reg) (m : Reg)
  /-- VCMPUN_VX (R236). Unordered compare with a scalar. -/
  | vcmpunVx (p : Reg) (a : Reg) (x : Reg) (m : Reg)
  /-- PAND (R237). Predicate AND below vl. -/
  | pand (d : Reg) (a : Reg) (b : Reg)
  /-- POR (R237). Predicate OR below vl. -/
  | por (d : Reg) (a : Reg) (b : Reg)
  /-- PXOR (R237). Predicate XOR below vl. -/
  | pxor (d : Reg) (a : Reg) (b : Reg)
  /-- PANDN (R237). Predicate AND-NOT below vl. -/
  | pandn (d : Reg) (a : Reg) (b : Reg)
  /-- PNOT (R237). Predicate NOT below vl. -/
  | pnot (d : Reg) (a : Reg)
  /-- PSHL (R238). Shifts predicate bits up by a scalar amount. -/
  | pshl (d : Reg) (a : Reg) (x : Reg)
  /-- PSHR (R238). Shifts predicate bits down by a scalar amount. -/
  | pshr (d : Reg) (a : Reg) (x : Reg)
  /-- PMV (R237). Copies predicate bits below vl. -/
  | pmv (d : Reg) (a : Reg)
  /-- PSET (R237). Sets predicate bits to a pattern. -/
  | pset (d : Reg) (t : Fin 4)
  /-- PCNT (R239). Counts set predicate bits below vl. -/
  | pcnt (d : Reg) (a : Reg)
  /-- PFIRST (R239). Writes the lowest set predicate index. -/
  | pfirst (d : Reg) (a : Reg)
  /-- PLAST (R239). Writes the highest set predicate index. -/
  | plast (d : Reg) (a : Reg)
  /-- PMOVX (R239). Moves 64 predicate bits to a scalar register. -/
  | pmovx (d : Reg) (a : Reg) (j : Fin 8)
  /-- PFROMX (R240). Moves a scalar register into 64 predicate bits. -/
  | pfromx (d : Reg) (a : Reg) (j : Fin 8)
  /-- VSLIDE1UP (R241). Slides elements up by one with a scalar fill. -/
  | vslide1up (d : Reg) (a : Reg) (x : Reg) (m : Reg)
  /-- VSLIDE1DN (R241). Slides elements down by one with a scalar fill. -/
  | vslide1dn (d : Reg) (a : Reg) (x : Reg) (m : Reg)
  /-- VSLIDEUP (R241). Slides elements up by a scalar amount. -/
  | vslideup (d : Reg) (a : Reg) (x : Reg) (m : Reg)
  /-- VSLIDEDN (R241). Slides elements down by a scalar amount, zero-filling. -/
  | vslidedn (d : Reg) (a : Reg) (x : Reg) (m : Reg)
  /-- VGATHER (R242). Gathers register elements by index. -/
  | vgather (d : Reg) (a : Reg) (b : Reg) (m : Reg)
  /-- VCOMPRESS (R243). Packs selected elements to the bottom. -/
  | vcompress (d : Reg) (a : Reg) (m : Reg)
  /-- VEXPAND (R243). Spreads elements into selected positions. -/
  | vexpand (d : Reg) (a : Reg) (m : Reg)
  /-- VREV (R244). Reverses elements below vl. -/
  | vrev (d : Reg) (a : Reg) (m : Reg)
  /-- VHAD (R245). Applies one Hadamard butterfly stage at distance 2^k. -/
  | vhad (d : Reg) (a : Reg) (k : Fin 9) (m : Reg)
  /-- VZIP (R244). Interleaves two registers. -/
  | vzip (d : Reg) (a : Reg) (b : Reg) (m : Reg)
  /-- VUNZIP (R244). Takes the even elements of two concatenated registers. -/
  | vunzip (d : Reg) (a : Reg) (b : Reg) (m : Reg)
  /-- VREDSUM (R246). Ordered sum reduction into element 0. -/
  | vredsum (d : Reg) (a : Reg) (b : Reg) (m : Reg)
  /-- VREDSUMU (R246). Unordered sum reduction into element 0. -/
  | vredsumu (d : Reg) (a : Reg) (b : Reg) (m : Reg)
  /-- VREDMAX (R246). Maximum reduction into element 0. -/
  | vredmax (d : Reg) (a : Reg) (b : Reg) (m : Reg)
  /-- VREDMIN (R246). Minimum reduction into element 0. -/
  | vredmin (d : Reg) (a : Reg) (b : Reg) (m : Reg)
  /-- VSCAN (R247). Ordered inclusive prefix sum. -/
  | vscan (d : Reg) (a : Reg) (b : Reg) (m : Reg)
  /-- VSCANF (R247). Unordered prefix sum. -/
  | vscanf (d : Reg) (a : Reg) (b : Reg) (m : Reg)
  /-- VCVT (R248). Converts elements between register types. -/
  | vcvt (d : Reg) (a : Reg) (q : Fin 4) (t : Tag) (m : Reg)
  /-- VCVTS (R249). Converts FP32 to BF16 with stochastic rounding. -/
  | vcvts (d : Reg) (a : Reg) (q : Fin 2) (m : Reg)
  /-- VRAND (R250). Writes counter-based random bits. -/
  | vrand (d : Reg) (m : Reg)
  /-- VQSCALE (R251). Computes E8M0 block scale codes. -/
  | vqscale (d : Reg) (a : Reg) (f : QFmt) (m : Reg)
  /-- VIOTA (R252). Writes the prefix count of predicate bits. -/
  | viota (d : Reg) (m : Reg)
  /-- VMVXS (R253). Moves a vector element to a scalar register. -/
  | vmvxs (d : Reg) (a : Reg) (i : Reg) (m : Reg)
  /-- VMVSX (R253). Moves a scalar into element 0. -/
  | vmvsx (d : Reg) (x : Reg) (m : Reg)
  /-- VSORT (R254). Stable ascending sort of keys with indices. -/
  | vsort (d : Reg) (a : Reg) (m : Reg)
  /-- VSORTD (R254). Stable descending sort of keys with indices. -/
  | vsortd (d : Reg) (a : Reg) (m : Reg)
  /-- VMERGEK (R255). Merges two sorted key halves with indices. -/
  | vmergek (d : Reg) (a : Reg) (b : Reg)
  /-- VSEGHEAD (R256). Marks the first element of each run of equal values. -/
  | vseghead (p : Reg) (a : Reg) (m : Reg)
  /-- VTOPK (R257). Writes the k best-ranked values and their indices. -/
  | vtopk (d : Reg) (a : Reg) (x : Reg) (m : Reg)
  /-- VACCRD (R299). Reads a row of the visible accumulator bank. -/
  | vaccrd (d : Reg) (x : Reg) (m : Reg)
  /-- VACCWR (R299). Writes a row of the visible accumulator bank. -/
  | vaccwr (s : Reg) (x : Reg) (m : Reg)
  /-- VLD (R264). Unit-stride vector load with widening. -/
  | vld (d : Reg) (n : Fin 8) (cls : Fin 16) (f : MemFmt) (m : Reg)
  /-- VLDS (R265). Strided vector load. -/
  | vlds (d : Reg) (n : Fin 8) (s : Reg) (cls : Fin 16) (f : MemFmt) (m : Reg)
  /-- VLDX (R266). Indexed vector load. -/
  | vldx (d : Reg) (n : Fin 8) (i : Reg) (cls : Fin 16) (f : MemFmt) (m : Reg)
  /-- VLDSEG (R267). Segment load of records into several registers. -/
  | vldseg (d : Reg) (n : Fin 8) (e : Reg) (cls : Fin 16) (f : MemFmt) (m : Reg)
  /-- VLDB (R268). Background indexed load with a duplicate mask. -/
  | vldb (d : Reg) (n : Fin 8) (i : Reg) (cls : Fin 16) (f : MemFmt) (p : Reg)
  /-- VST (R264). Unit-stride vector store with narrowing. -/
  | vst (s : Reg) (n : Fin 8) (cls : Fin 16) (f : MemFmt) (m : Reg)
  /-- VSTS (R265). Strided vector store. -/
  | vsts (s : Reg) (n : Fin 8) (x : Reg) (cls : Fin 16) (f : MemFmt) (m : Reg)
  /-- VSTX (R266). Indexed scatter, highest element wins. -/
  | vstx (s : Reg) (n : Fin 8) (i : Reg) (cls : Fin 16) (f : MemFmt) (m : Reg)
  /-- VSTXU (R266). Indexed scatter, any duplicate wins. -/
  | vstxu (s : Reg) (n : Fin 8) (i : Reg) (cls : Fin 16) (f : MemFmt) (m : Reg)
  /-- VSTSEG (R267). Segment store of records from several registers. -/
  | vstseg (s : Reg) (n : Fin 8) (e : Reg) (cls : Fin 16) (f : MemFmt) (m : Reg)
  /-- VAMOX_ADD (R269). Indexed atomic add in ascending element order. -/
  | vamoxAdd (s : Reg) (n : Fin 8) (i : Reg) (cls : Fin 16) (m : Reg)
  /-- VAMOX_ADDU (R269). Indexed atomic add in any order. -/
  | vamoxAddu (s : Reg) (n : Fin 8) (i : Reg) (cls : Fin 16) (m : Reg)
  /-- VAMOX_MIN (R269). Indexed atomic minimum. -/
  | vamoxMin (s : Reg) (n : Fin 8) (i : Reg) (cls : Fin 16) (m : Reg)
  /-- VAMOX_MAX (R269). Indexed atomic maximum. -/
  | vamoxMax (s : Reg) (n : Fin 8) (i : Reg) (cls : Fin 16) (m : Reg)
  /-- VAMOX_AND (R269). Indexed atomic AND. -/
  | vamoxAnd (s : Reg) (n : Fin 8) (i : Reg) (cls : Fin 16) (m : Reg)
  /-- VAMOX_OR (R269). Indexed atomic OR. -/
  | vamoxOr (s : Reg) (n : Fin 8) (i : Reg) (cls : Fin 16) (m : Reg)
  /-- VAMOX_XOR (R269). Indexed atomic XOR. -/
  | vamoxXor (s : Reg) (n : Fin 8) (i : Reg) (cls : Fin 16) (m : Reg)
  /-- VAMOX_SWAP (R269). Indexed atomic swap in ascending element order. -/
  | vamoxSwap (s : Reg) (n : Fin 8) (i : Reg) (cls : Fin 16) (m : Reg)
  /-- VLDV (R274). Vector versioned load, waiting for the version. -/
  | vldv (d : Reg) (n : Fin 8) (v : Reg) (cls : Fin 16) (m : Reg)
  /-- VSTV (R275). Vector versioned store creating a version in each granule. -/
  | vstv (s : Reg) (n : Fin 8) (v : Reg) (cls : Fin 16)
  /-- VPUSH (R272). Appends one entry to a FIFO bank. -/
  | vpush (s : Reg) (n : Fin 8) (cls : Fin 16) (m : Reg)
  /-- VPOP (R272). Removes the oldest entry of a FIFO bank. -/
  | vpop (d : Reg) (n : Fin 8) (cls : Fin 16) (m : Reg)
  /-- MGATHER (R291). Gathers indexed rows into slices of the A latch. -/
  | mgather (a : Reg) (b : Reg) (g : Reg) (n : Fin 4) (s : Fin 4)
  /-- MLDB (R292). Fills the B latch in the current mode's layout. -/
  | mldb (a : Reg)
  /-- MCFG (R290). Sets the matrix engine mode and block configuration. -/
  | mcfg (a : Reg)
  /-- MMA (R293). Multiplies the latches and accumulates into the working bank. -/
  | mma (s : Fin 4)
  /-- MZERO (R294). Zeroes the working bank. -/
  | mzero
  /-- MSWAP (R294). Exchanges working and visible banks at quiescence. -/
  | mswap
  /-- MWAIT (R295). Waits until pending matrix instructions fall to a count. -/
  | mwait (w : Reg)
  /-- MDRAIN (R297). Writes the visible bank out, clipped and converted. -/
  | mdrain (a : Reg) (b : Reg) (f : DrainFmt)
  /-- MSTAT (R296). Reads engine status and optionally clears its sticky flags. -/
  | mstat (d : Reg) (clear : Bool)
  /-- ANISE_FETCH (R41). Anise fetches, decodes and multicasts a convoy to attached cores. -/
  | aniseFetch (g : GangId)
  /-- PRIVATE_FETCH (R46). A detached core fetches convoys into its private buffer. -/
  | privateFetch (h : StrandId)
  /-- DRIFT_EVICTION (R47). After 2,048 cycles holding its gang at the drift limit, a core is detached. -/
  | driftEviction (h : StrandId)
  /-- ISSUE_VISIT (R362). The core arbiter visits a slot and issues convoys against its deficit. -/
  | issueVisit (h : StrandId)
  /-- ASYNC_REPORT_TAKEN (R411). A pending asynchronous report is taken at a convoy boundary. -/
  | asyncReportTaken (h : StrandId)
  /-- USER_INTERRUPT_TAKEN (R315). A pending notification is taken between convoys into the user handler. -/
  | userInterruptTaken (h : StrandId)
  /-- PARKING (R31). A strand waiting over 4,096 cycles while another slot is ready is parked and saved. -/
  | parking (h : StrandId)
  /-- SWAP_ON_WAIT (R32). A gang whose live members all wait is swapped out for a runnable gang. -/
  | swapOnWait (g : GangId)
  /-- PRE_EMPTION (R363). A gang's slot is taken for a higher-level gang or a suspended queue. -/
  | preEmption (g : GangId)
  /-- TIME_SHARING_EXPIRY (R363). A gang holding its slot 2^20 cycles while a same-level gang waits yields it. -/
  | timeSharingExpiry (g : GangId)
  /-- STRAND_RESTORE (R365). A ready parked or swapped strand is restored and resumes. -/
  | strandRestore (h : StrandId)
  /-- GANG_RESIDENT (R29). A runnable gang is placed on a free gang slot and its strands start. -/
  | gangResident (g : GangId) (c : Fin 64) (k : Fin 4)
  /-- BANK_SWITCH_BEGIN (R72). A queued bank switch begins once accepted accesses complete. -/
  | bankSwitchBegin (g : GangId) (b : Fin 44)
  /-- BANK_SWITCH_END (R73). After 2,048 cycles the bank takes its new configuration and waiting accesses proceed. -/
  | bankSwitchEnd (g : GangId) (b : Fin 44)
  /-- STORE_PERFORMED (R98). A counted store, atomic or push reaches its event and decrements its counter. -/
  | storePerformed (h : StrandId)
  /-- VLDB_DATA_WRITE (R268). The background data and duplicate mask of a VLDB are written. -/
  | vldbDataWrite (h : StrandId)
  /-- TRANSIT_WALK_RETRY (R434). The walk of an in-transit wait is repeated on INVAS completion or every 65,536 cycles. -/
  | transitWalkRetry (h : StrandId)
  /-- TRANSIT_TIMEOUT (R435). An in-transit wait of 2^30 cycles takes cause 0x10. -/
  | transitTimeout (w : Waiter)
  /-- VERSIONED_STORE_STEP (R112). The indivisible creation of a version in a granule at its home slice. -/
  | versionedStoreStep (r : Nat) (q : Nat) (n : BitVec 32) (data : BitVec 1024)
  /-- VERSION_WAIT_WAKE (R116). Entries of the wait list are woken after LATEST or the horizon rises. -/
  | versionWaitWake (r : Nat) (q : Nat)
  /-- WAIT_LIST_RETRY (R116). A load refused at a full wait list is presented again every 256 cycles. -/
  | waitListRetry (h : StrandId)
  /-- HORIZON_PROPAGATION (R119). A raised horizon takes effect at a home slice. -/
  | horizonPropagation (r : Nat) (q : Nat)
  /-- BARRIER_REGISTRATION (R93). An arrival registers once its named accesses are performed. -/
  | barrierRegistration (h : StrandId) (id : Fin 36)
  /-- WATCHDOG_TIMEOUT (R445). A wait reaching 2^30 cycles traps with 0x1C or 0x0D. -/
  | watchdogTimeout (w : Waiter)
  /-- FORKED_PROGRAM_START (R52). The matrix control core starts the next queued forked program. -/
  | forkedProgramStart (c : Fin 64)
  /-- MATRIX_INSTRUCTION_BEGIN (R287). The engine begins a queued matrix instruction once earlier ones allow. -/
  | matrixInstructionBegin (c : Fin 64)
  /-- MATRIX_INSTRUCTION_COMPLETE (R287). A matrix instruction completes and PEND falls. -/
  | matrixInstructionComplete (c : Fin 64)
  /-- COPY (R305). A COPY job moves bytes, optionally reading or creating versions. -/
  | copy (j : Nat)
  /-- TILE (R306). A TILE job copies a clipped box of a tensor with padding. -/
  | tile (j : Nat)
  /-- GATHER (R307). A GATHER job moves indexed rows to dense rows. -/
  | gather (j : Nat)
  /-- SCATTER (R307). A SCATTER job moves dense rows to indexed rows. -/
  | scatter (j : Nat)
  /-- PAGEGATHER (R308). A PAGEGATHER job gathers logical pages through a block table. -/
  | pagegather (j : Nat)
  /-- FILL (R309). A FILL job writes a repeated 8-byte value. -/
  | fill (j : Nat)
  /-- DIGEST (R309). A DIGEST job writes the SHA-256 of a range. -/
  | digest (j : Nat)
  /-- JOB_COMPLETION (R312). The engine writes the completion record to the ring, decrements the counter and notifies. -/
  | jobCompletion (j : Nat)
  /-- DOORBELL (R357). A doorbell write supplies the queue's new tail count. -/
  | doorbell (bell : Bell) (tail : Word)
  /-- RING_ENTRY_TAKE (R357). The command processor takes and checks a ring entry. -/
  | ringEntryTake (q : Fin 64)
  /-- ITEM_START (R355). An item starts: tail read, shape evaluation and gangs made runnable. -/
  | itemStart (n : Nat)
  /-- QUEUE_CREDIT_TICK (R358). Every 4,096 cycles each queue gains WEIGHT credits and loses one per held slot. -/
  | queueCreditTick
  /-- LAUNCH_COMPLETE (R106). A launch completes after its strands exit and its jobs complete. -/
  | launchComplete (l : Nat)
  /-- VERSION_WAIT_NODE_COMPLETE (R361). A version-wait node completes once LATEST reaches VER in its range. -/
  | versionWaitNodeComplete (l : Nat) (node : Word)
  /-- SX_ROUND_COMPLETE (R327). A round completes when every participant has arrived, closed or exited. -/
  | sxRoundComplete (p : Fin 8) (sid : Fin 16)
  /-- SX_RECORD_DELIVERY (R328). A merged and combined record lands in its receiver's buffer or is dropped. -/
  | sxRecordDelivery (p : Fin 8) (sid : Fin 16) (rx : Nat)
  /-- SPAN_REQUEST (R371). A span-window request is checked against the job and export map and served at the target. -/
  | spanRequest (p : Fin 8) (f : FlitIn) (r : SpanReq)
  /-- FABRIC_REPLY (R378). A reply returns with its tag and incarnation, or is discarded as late. -/
  | fabricReply (h : Heading) (tag : Fin 4096) (inc : Fin 16) (a : Answer)
  /-- CANCEL (R455). A cancel flit prevents an unperformed request from being performed. -/
  | cancel (h : Heading) (first : Fin 65536) (count : Fin 17)
  /-- FABRIC_REQUEST_TIMEOUT (R455). After 2^24 cycles without reply the request is cancelled and cause 0x28 taken. -/
  | fabricRequestTimeout (tag : Fin 4096)
  /-- LOCKED_ROUTE_TIMEOUT (R454). A request held 2^27 cycles by locked ports takes cause 0x29. -/
  | lockedRouteTimeout (tag : Fin 4096)
  /-- PORT_UNLOCK (R452). Successful re-attestation renews keys and unlocks the port. -/
  | portUnlock (port : Fin 8) (partner : Fin 4)
  /-- PORT_DOWN (R452). Failed or overlong re-attestation leaves the port down until reset. -/
  | portDown (port : Fin 8)
  /-- LINK_TRAINING (R377). Link partners train, negotiate a version and install keys. -/
  | linkTraining (port : Fin 8) (partner : Fin 4) (ok : Bool)
  /-- LINK_KEY_UPDATE (R376). A new link key is installed before the flit counter reaches 2^48. -/
  | linkKeyUpdate (port : Fin 8)
  /-- PCFG_WRITE (R384). A checked write of a partition's configuration. -/
  | pcfgWrite (f : Caller) (p : Fin 8) (v : Word)
  /-- PMEM_WRITE (R385). A checked write of a partition memory grant. -/
  | pmemWrite (f : Caller) (p : Fin 8) (i : Fin 16) (v : Word)
  /-- PARTITION_ENABLE_COMPLETE (R385). After a fresh key and zeroing of the grant, EN reads 1. -/
  | partitionEnableComplete (p : Fin 8)
  /-- PROOT_WRITE (R386). Sets the partition-stage root for later walks. -/
  | prootWrite (f : Caller) (p : Fin 8) (v : Word)
  /-- PINVAL_WRITE (R386). Removes partition-stage translations, BUSY until complete. -/
  | pinvalWrite (f : Caller) (p : Fin 8) (v : Word)
  /-- PJOBN_WRITE (R370). Golium reads the job's rank table. -/
  | pjobnWrite (f : Caller) (p : Fin 8) (v : Word)
  /-- PEXPN_WRITE (R371). Golium reads and checks the export map. -/
  | pexpnWrite (f : Caller) (p : Fin 8) (v : Word)
  /-- PDEADWORD_WRITE (R387). Sets a 64-bit word of the dead-expert bitmap at every home slice. -/
  | pdeadwordWrite (f : Caller) (p : Fin 8) (v : Word)
  /-- QCFG_WRITE (R357). Configures a queue; enabling resets its head, suspending pre-empts its gangs. -/
  | qcfgWrite (f : Caller) (q : Fin 64) (v : Word)
  /-- REGISTER_WRITE (R380). A write to a module, partition or queue register without a row of its own. -/
  | registerWrite (f : Caller) (r : PlainReg) (v : Word)
  /-- LOCK_INTERFACE (R381). The VF enters CONFIG_LOCKED and its configuration is measured. -/
  | lockInterface (vf : Fin 64)
  /-- START_INTERFACE (R381). The VF enters RUN and launches are accepted. -/
  | startInterface (vf : Fin 64)
  /-- STOP_INTERFACE (R456). The VF returns to CONFIG_UNLOCKED, abandoning work and destroying the key. -/
  | stopInterface (vf : Fin 64)
  /-- VF_ERROR (R456). An integrity failure, untrusted request or session end puts the VF in ERROR. -/
  | vfError (vf : Fin 64)
  /-- HEARTBEAT_TIMEOUT (R456). Three heartbeat periods without a heartbeat put the VF in ERROR. -/
  | heartbeatTimeout (vf : Fin 64)
  /-- GET_VERSION (R389). SPDM request answered by Golium. -/
  | getVersion (m : SpdmMsg)
  /-- GET_CAPABILITIES (R389). SPDM request answered by Golium. -/
  | getCapabilities (m : SpdmMsg)
  /-- NEGOTIATE_ALGORITHMS (R389). SPDM request answered by Golium. -/
  | negotiateAlgorithms (m : SpdmMsg)
  /-- GET_DIGESTS (R389). SPDM request returning certificate digests. -/
  | getDigests (m : SpdmMsg)
  /-- GET_CERTIFICATE (R389). SPDM request returning the identity certificate. -/
  | getCertificate (m : SpdmMsg)
  /-- CHALLENGE (R389). SPDM challenge signed with the module identity key. -/
  | challenge (m : SpdmMsg)
  /-- GET_MEASUREMENTS (R390). Returns the current digest of each measurement block. -/
  | getMeasurements (m : SpdmMsg)
  /-- KEY_EXCHANGE (R389). Starts an SPDM session by ECDHE P-384. -/
  | keyExchange (m : SpdmMsg)
  /-- FINISH (R389). Completes an SPDM session handshake. -/
  | finish (m : SpdmMsg)
  /-- KEY_UPDATE (R389). Updates the keys of an SPDM session. -/
  | keyUpdate (m : SpdmMsg)
  /-- HEARTBEAT (R389). Keeps an SPDM session alive. -/
  | heartbeat (m : SpdmMsg)
  /-- END_SESSION (R389). Ends an SPDM session. -/
  | endSession (m : SpdmMsg)
  /-- GET_DEBUG_NONCE (R392). Issues a fresh debug nonce for the partition. -/
  | getDebugNonce (p : Fin 8)
  /-- DEBUG_POLICY_SUBMIT (R391). Verifies a signed debug policy, opens the debug block and returns a status. -/
  | debugPolicySubmit (p : Fin 8) (d : DebugPolicy)
  /-- MEASUREMENT_LOG_READ (R390). Returns the measurement log over the management link. -/
  | measurementLogRead
  /-- FUSE_MINIMUM_RAISE (R388). Raises the fused minimum security version on request. -/
  | fuseMinimumRaise (im : Image)
  /-- POWER_ON (R393). Power applied: Golium ROM starts bring-up. -/
  | powerOn
  /-- BRING_UP_STAGE (R393). A bring-up stage completes or fails and STAGE advances. -/
  | bringUpStage (ok : Bool)
  /-- THERMAL_HOLD (R394). A junction at 115 °C stops all issue and sets THOLD. -/
  | thermalHold
  /-- THERMAL_RESUME (R394). Issue resumes when the junction falls below 100 °C. -/
  | thermalResume
  /-- THERMAL_TRIP (R394). At 125 °C power is removed from the compute dies. -/
  | thermalTrip
  /-- CLUSTER_DRAIN (R458). A cluster marked for fencing stops receiving gangs and drains. -/
  | clusterDrain (c : Fin 64)
  /-- CLUSTER_FENCE (R458). A drained cluster is fenced and its CLMASK bit cleared. -/
  | clusterFence (c : Fin 64)
  /-- ROW_SPARE (R458). A DRAM row with 16 corrected errors is spared. -/
  | rowSpare
  /-- PAGE_RETIRE (R443). A page whose uncorrectable line was rewritten is retired. -/
  | pageRetire (page : Nat)
  /-- MODULE_RESET (R284). A module reset clears the matrix state, the measurement log, RADV, down ports and CYCLE, and returns every VF to CONFIG_UNLOCKED. -/
  | moduleReset
  /-- POWER_LOSS (R396). The supply is lost, all volatile state is lost, and only Golium's non-volatile counts survive. -/
  | powerLoss
  /-- LANE_FAILURE (R377). A lane of a Volette port fails and the link continues at half width on 16 lanes. -/
  | laneFailure (port : Fin 8)
  /-- PEER_MODULE_STOPPED (R454). A destination's Golium reports its module stopped, and requests to that peer become unreachable. -/
  | peerModuleStopped (rank : Fin 4096)
  /-- TAG_HOLD_EXPIRY (R455). A request tag held unused for 2^25 cycles after a timeout becomes free again for new requests. -/
  | tagHoldExpiry (tag : Fin 4096)
  /-- HOST_ACCESS (R82). The host or a CXL device performs a load, store or atomic on device memory as an agent. -/
  | hostAccess (a : HostAcc)
  deriving DecidableEq, Repr

end Sys2Proof
end

