-- ==== Sys2Proof/WellFormed.lean ====
section
/-! DEFINITION. Which terms of `Instr` stand for a legal instruction: the field values that R166, R167, R170 and R423 reserve. -/

namespace Sys2Proof

/-- Number of one bits among the low `n` bits. -/
def popcount (v : Nat) : Nat → Nat
  | 0 => 0
  | n + 1 => v / 2 ^ n % 2 + popcount v n

/-- Bytes a fabric request asks for or carries. -/
def SpanOp.length : SpanOp → Nat
  | .load n => n
  | .store l => l.length
  | .atomic _ wide _ _ => if wide then 8 else 4
  | .merge _ _ => 1
  | .atomicFloat _ _ => 4
  | .topk _ => 32
  | .versionedLoad _ n => n
  | .versionedStore _ l => l.length
  | .publish _ n _ _ => n
  | .versionQuery _ => 32
  | .retire _ _ => 0
  | .barrierArrival _ _ _ => 0
  | .sxRecord _ _ _ _ _ _ _ _ _ => 0
  | .sxAbort _ _ => 0

/-- A message lies within its window and carries at most 4 KiB (R58, R372). -/
def SpanReq.inRange (r : SpanReq) : Bool :=
  decide (r.offset + r.op.length ≤ 2 ^ 40 ∧ r.op.length ≤ 4096)

/-- Bytes a host access reads or writes. -/
def HostOp.length : HostOp → Nat
  | .load n => n
  | .store l => l.length
  | .atomic _ wide _ _ => if wide then 8 else 4
  | .barRead => 8
  | .barWrite _ => 8
  | .linkRead _ _ => 0

/-- A host access names device physical addresses below host memory (R65, R82). -/
def HostAcc.inRange (a : HostAcc) : Bool := decide (a.addr + a.op.length ≤ 2 ^ 51)

/-- Whether the operands of an instruction are none that the spec reserves. -/
def Instr.wf : Instr → Bool
  | .add _ _ _ => true
  | .sub _ _ _ => true
  | .and _ _ _ => true
  | .or _ _ _ => true
  | .xor _ _ _ => true
  | .sll _ _ _ => true
  | .srl _ _ _ => true
  | .sra _ _ _ => true
  | .slt _ _ _ => true
  | .sltu _ _ _ => true
  | .min _ _ _ => true
  | .max _ _ _ => true
  | .minu _ _ _ => true
  | .maxu _ _ _ => true
  | .addw _ _ _ => true
  | .subw _ _ _ => true
  | .mul _ _ _ => true
  | .mulh _ _ _ => true
  | .mulhu _ _ _ => true
  | .div _ _ _ => true
  | .divu _ _ _ => true
  | .rem _ _ _ => true
  | .remu _ _ _ => true
  | .clz _ _ => true
  | .ctz _ _ => true
  | .popc _ _ => true
  | .sextb _ _ => true
  | .sexth _ _ => true
  | .sextw _ _ => true
  | .zextw _ _ => true
  | .bswap _ _ => true
  | .addi _ _ _ => true
  | .andi _ _ _ => true
  | .ori _ _ _ => true
  | .xori _ _ _ => true
  | .slti _ _ _ => true
  | .sltiu _ _ _ => true
  | .slli _ _ _ => true
  | .srli _ _ _ => true
  | .srai _ _ _ => true
  | .li _ _ => true
  | .lis _ _ => true
  | .addpc _ _ => true
  | .ld _ _ _ _ _ => true
  | .ldu _ _ _ sz _ => decide (sz ≠ .d)
  | .st _ _ _ _ _ => true
  | .beq _ _ _ => true
  | .bne _ _ _ => true
  | .blt _ _ _ => true
  | .bge _ _ _ => true
  | .bltu _ _ _ => true
  | .bgeu _ _ _ => true
  | .jal _ _ => true
  | .jalr _ _ _ => true
  | .strip _ mask _ => decide (popcount mask.toNat 8 ≤ 4)
  | .loop _ off => decide (off.val ≠ 0)
  | .loopi n off => decide (n.val ≠ 0 ∧ off.val ≠ 0)
  | .joinW => true
  | .joinN => true
  | .detach => true
  | .exit => true
  | .yield => true
  | .fork _ _ => true
  | .rendezvous _ => true
  | .fence _ _ => true
  | .barArrive _ _ _ _ => true
  | .barWait _ _ _ => true
  | .barInit _ _ => true
  | .uiret => true
  | .uimask _ _ => true
  | .csrr _ _ => true
  | .csrw _ _ _ => true
  | .csrs _ _ _ => true
  | .csrc _ _ _ => true
  | .setvl _ _ _ => true
  | .vtag v n _ => decide (v.val + n.val + 1 ≤ 32)
  | .svset _ _ => true
  | .svget _ _ => true
  | .launch _ _ => true
  | .syscall => true
  | .eret => true
  | .invas _ _ _ _ => true
  | .bankcfg _ _ _ => true
  | .brk => true
  | .ldv _ _ _ _ => true
  | .vrqry _ _ _ => true
  | .vpub _ _ _ _ => true
  | .vretire _ _ _ => true
  | .vrdecl _ _ => true
  | .vrfree _ _ => true
  | .job _ _ => true
  | .stream _ _ _ => true
  | .streamoff _ => true
  | .sxopen _ _ _ => true
  | .sxsplit _ _ _ => true
  | .sxround _ _ => true
  | .sxresplit _ _ => true
  | .sxclose _ _ => true
  | .sxcloseAbort _ _ => true
  | .sxsend _ _ _ _ => true
  | .sxsendNew _ _ _ _ => true
  | .sxrecv _ _ _ _ => true
  | .sxstat _ _ => true
  | .amoadd _ _ _ _ => true
  | .amomin _ _ _ _ => true
  | .amomax _ _ _ _ => true
  | .amominu _ _ _ _ => true
  | .amomaxu _ _ _ _ => true
  | .amoand _ _ _ _ => true
  | .amoor _ _ _ _ => true
  | .amoxor _ _ _ _ => true
  | .amoswap _ _ _ _ => true
  | .amocas _ _ _ _ => true
  | .amoaddW _ _ _ _ => true
  | .amominW _ _ _ _ => true
  | .amomaxW _ _ _ _ => true
  | .amominuW _ _ _ _ => true
  | .amomaxuW _ _ _ _ => true
  | .amoandW _ _ _ _ => true
  | .amoorW _ _ _ _ => true
  | .amoxorW _ _ _ _ => true
  | .amoswapW _ _ _ _ => true
  | .amocasW _ _ _ _ => true
  | .topkins _ _ _ => true
  | .waitc _ _ _ _ => true
  | .vadd _ _ _ _ => true
  | .vsub _ _ _ _ => true
  | .vmul _ _ _ _ => true
  | .vmin _ _ _ _ => true
  | .vmax _ _ _ _ => true
  | .vabs _ _ _ => true
  | .vneg _ _ _ => true
  | .vmerge _ _ _ _ => true
  | .vmv _ _ _ => true
  | .vbcast _ _ _ => true
  | .vaddVx _ _ _ _ => true
  | .vsubVx _ _ _ _ => true
  | .vmulVx _ _ _ _ => true
  | .vminVx _ _ _ _ => true
  | .vmaxVx _ _ _ _ => true
  | .vmergeVx _ _ _ _ => true
  | .vbcastVx _ _ _ => true
  | .vand _ _ _ _ => true
  | .vor _ _ _ _ => true
  | .vxor _ _ _ _ => true
  | .vsll _ _ _ _ => true
  | .vsrl _ _ _ _ => true
  | .vsra _ _ _ _ => true
  | .vminu _ _ _ _ => true
  | .vmaxu _ _ _ _ => true
  | .vmulh _ _ _ _ => true
  | .vmulhu _ _ _ _ => true
  | .vadc _ _ _ _ => true
  | .vsbc _ _ _ _ => true
  | .vadds _ _ _ _ => true
  | .vsubs _ _ _ _ => true
  | .vaddsu _ _ _ _ => true
  | .vsubsu _ _ _ _ => true
  | .vsrar _ _ _ _ => true
  | .vsrlr _ _ _ _ => true
  | .vdot2 _ _ _ _ => true
  | .vabsd _ _ _ _ => true
  | .vclz _ _ _ => true
  | .vpopc _ _ _ => true
  | .vandVx _ _ _ _ => true
  | .vorVx _ _ _ _ => true
  | .vxorVx _ _ _ _ => true
  | .vsllVx _ _ _ _ => true
  | .vsrlVx _ _ _ _ => true
  | .vsraVx _ _ _ _ => true
  | .vminuVx _ _ _ _ => true
  | .vmaxuVx _ _ _ _ => true
  | .vmulhVx _ _ _ _ => true
  | .vmulhuVx _ _ _ _ => true
  | .vaddsVx _ _ _ _ => true
  | .vsubsVx _ _ _ _ => true
  | .vaddsuVx _ _ _ _ => true
  | .vsubsuVx _ _ _ _ => true
  | .vsrarVx _ _ _ _ => true
  | .vsrlrVx _ _ _ _ => true
  | .vabsdVx _ _ _ _ => true
  | .vandVi _ _ _ _ => true
  | .vorVi _ _ _ _ => true
  | .vxorVi _ _ _ _ => true
  | .vsllVi _ _ _ _ => true
  | .vsrlVi _ _ _ _ => true
  | .vsraVi _ _ _ _ => true
  | .vminuVi _ _ _ _ => true
  | .vmaxuVi _ _ _ _ => true
  | .vaddsVi _ _ _ _ => true
  | .vsubsVi _ _ _ _ => true
  | .vaddsuVi _ _ _ _ => true
  | .vsubsuVi _ _ _ _ => true
  | .vsrarVi _ _ _ _ => true
  | .vsrlrVi _ _ _ _ => true
  | .vfma _ _ _ _ => true
  | .vfms _ _ _ _ => true
  | .vfnma _ _ _ _ => true
  | .vdiv _ _ _ _ => true
  | .vsqrt _ _ _ => true
  | .vrcp _ _ _ => true
  | .vrsq _ _ _ => true
  | .vexp2 _ _ _ => true
  | .vlog2 _ _ _ => true
  | .vtanh _ _ _ => true
  | .vclass _ _ _ => true
  | .vfmaVx _ _ _ _ => true
  | .vfmsVx _ _ _ _ => true
  | .vfnmaVx _ _ _ _ => true
  | .vdivVx _ _ _ _ => true
  | .vcmpeq _ _ _ _ => true
  | .vcmpne _ _ _ _ => true
  | .vcmplt _ _ _ _ => true
  | .vcmple _ _ _ _ => true
  | .vcmpltu _ _ _ _ => true
  | .vcmpleu _ _ _ _ => true
  | .vcmpun _ _ _ _ => true
  | .vcmpeqVx _ _ _ _ => true
  | .vcmpneVx _ _ _ _ => true
  | .vcmpltVx _ _ _ _ => true
  | .vcmpleVx _ _ _ _ => true
  | .vcmpltuVx _ _ _ _ => true
  | .vcmpleuVx _ _ _ _ => true
  | .vcmpunVx _ _ _ _ => true
  | .pand _ _ _ => true
  | .por _ _ _ => true
  | .pxor _ _ _ => true
  | .pandn _ _ _ => true
  | .pnot _ _ => true
  | .pshl _ _ _ => true
  | .pshr _ _ _ => true
  | .pmv _ _ => true
  | .pset _ _ => true
  | .pcnt _ _ => true
  | .pfirst _ _ => true
  | .plast _ _ => true
  | .pmovx _ _ _ => true
  | .pfromx _ _ _ => true
  | .vslide1up _ _ _ _ => true
  | .vslide1dn _ _ _ _ => true
  | .vslideup _ _ _ _ => true
  | .vslidedn _ _ _ _ => true
  | .vgather _ _ _ _ => true
  | .vcompress _ _ _ => true
  | .vexpand _ _ _ => true
  | .vrev _ _ _ => true
  | .vhad _ _ _ _ => true
  | .vzip _ _ _ _ => true
  | .vunzip _ _ _ _ => true
  | .vredsum _ _ _ _ => true
  | .vredsumu _ _ _ _ => true
  | .vredmax _ _ _ _ => true
  | .vredmin _ _ _ _ => true
  | .vscan _ _ _ _ => true
  | .vscanf _ _ _ _ => true
  | .vcvt _ _ _ t _ => decide (t ≠ .i16p)
  | .vcvts _ _ _ _ => true
  | .vrand _ _ => true
  | .vqscale _ _ _ _ => true
  | .viota _ _ => true
  | .vmvxs _ _ _ _ => true
  | .vmvsx _ _ _ => true
  | .vsort d _ _ => decide (d.val ≠ 31)
  | .vsortd d _ _ => decide (d.val ≠ 31)
  | .vmergek d _ _ => decide (d.val ≠ 31)
  | .vseghead _ _ _ => true
  | .vtopk d _ _ _ => decide (d.val ≠ 31)
  | .vaccrd _ _ _ => true
  | .vaccwr _ _ _ => true
  | .vld _ _ _ _ _ => true
  | .vlds _ _ _ _ _ _ => true
  | .vldx _ _ _ _ _ _ => true
  | .vldseg d _ e _ _ _ => decide (2 ≤ e.val ∧ e.val ≤ 8 ∧ d.val + e.val ≤ 32)
  | .vldb _ _ _ _ _ _ => true
  | .vst _ _ _ _ _ => true
  | .vsts _ _ _ _ _ _ => true
  | .vstx _ _ _ _ _ _ => true
  | .vstxu _ _ _ _ _ _ => true
  | .vstseg s _ e _ _ _ => decide (2 ≤ e.val ∧ e.val ≤ 8 ∧ s.val + e.val ≤ 32)
  | .vamoxAdd _ _ _ _ _ => true
  | .vamoxAddu _ _ _ _ _ => true
  | .vamoxMin _ _ _ _ _ => true
  | .vamoxMax _ _ _ _ _ => true
  | .vamoxAnd _ _ _ _ _ => true
  | .vamoxOr _ _ _ _ _ => true
  | .vamoxXor _ _ _ _ _ => true
  | .vamoxSwap _ _ _ _ _ => true
  | .vldv _ _ _ _ _ => true
  | .vstv _ _ _ _ => true
  | .vpush _ _ _ _ => true
  | .vpop _ _ _ _ => true
  | .mgather _ _ _ _ _ => true
  | .mldb _ => true
  | .mcfg _ => true
  | .mma _ => true
  | .mzero => true
  | .mswap => true
  | .mwait _ => true
  | .mdrain _ _ _ => true
  | .mstat _ _ => true
  | .aniseFetch _ => true
  | .privateFetch _ => true
  | .driftEviction _ => true
  | .issueVisit _ => true
  | .asyncReportTaken _ => true
  | .userInterruptTaken _ => true
  | .parking _ => true
  | .swapOnWait _ => true
  | .preEmption _ => true
  | .timeSharingExpiry _ => true
  | .strandRestore _ => true
  | .gangResident _ _ _ => true
  | .bankSwitchBegin _ _ => true
  | .bankSwitchEnd _ _ => true
  | .storePerformed _ => true
  | .vldbDataWrite _ => true
  | .transitWalkRetry _ => true
  | .transitTimeout _ => true
  | .versionedStoreStep _ _ _ _ => true
  | .versionWaitWake _ _ => true
  | .waitListRetry _ => true
  | .horizonPropagation _ _ => true
  | .barrierRegistration _ _ => true
  | .watchdogTimeout _ => true
  | .forkedProgramStart _ => true
  | .matrixInstructionBegin _ => true
  | .matrixInstructionComplete _ => true
  | .copy _ => true
  | .tile _ => true
  | .gather _ => true
  | .scatter _ => true
  | .pagegather _ => true
  | .fill _ => true
  | .digest _ => true
  | .jobCompletion _ => true
  | .doorbell _ _ => true
  | .ringEntryTake _ => true
  | .itemStart _ => true
  | .queueCreditTick => true
  | .launchComplete _ => true
  | .versionWaitNodeComplete _ _ => true
  | .sxRoundComplete _ _ => true
  | .sxRecordDelivery _ _ _ => true
  | .spanRequest _ _ r => r.inRange
  | .fabricReply _ _ _ _ => true
  | .cancel _ _ _ => true
  | .fabricRequestTimeout _ => true
  | .lockedRouteTimeout _ => true
  | .portUnlock _ _ => true
  | .portDown _ => true
  | .linkTraining _ _ _ => true
  | .linkKeyUpdate _ => true
  | .pcfgWrite _ _ _ => true
  | .pmemWrite _ _ _ _ => true
  | .partitionEnableComplete _ => true
  | .prootWrite _ _ _ => true
  | .pinvalWrite _ _ _ => true
  | .pjobnWrite _ _ _ => true
  | .pexpnWrite _ _ _ => true
  | .pdeadwordWrite _ _ _ => true
  | .qcfgWrite _ _ _ => true
  | .registerWrite _ _ _ => true
  | .lockInterface _ => true
  | .startInterface _ => true
  | .stopInterface _ => true
  | .vfError _ => true
  | .heartbeatTimeout _ => true
  | .getVersion _ => true
  | .getCapabilities _ => true
  | .negotiateAlgorithms _ => true
  | .getDigests _ => true
  | .getCertificate _ => true
  | .challenge _ => true
  | .getMeasurements _ => true
  | .keyExchange _ => true
  | .finish _ => true
  | .keyUpdate _ => true
  | .heartbeat _ => true
  | .endSession _ => true
  | .getDebugNonce _ => true
  | .debugPolicySubmit _ _ => true
  | .measurementLogRead => true
  | .fuseMinimumRaise _ => true
  | .powerOn => true
  | .bringUpStage _ => true
  | .thermalHold => true
  | .thermalResume => true
  | .thermalTrip => true
  | .clusterDrain _ => true
  | .clusterFence _ => true
  | .rowSpare => true
  | .pageRetire _ => true
  | .moduleReset => true
  | .powerLoss => true
  | .laneFailure _ => true
  | .peerModuleStopped _ => true
  | .tagHoldExpiry _ => true
  | .hostAccess a => a.inRange

end Sys2Proof
end

