-- ==== Sys2Proof/Decode.lean ====
section
/-! DEFINITION. The decoder: words to instructions, every reserved word rejected by name (R165-R170, R420, R423); then the encoder. -/

namespace Sys2Proof

/-- Why a word is no instruction; each is a reserved encoding and takes cause 0x01 (R420). -/
inductive DecodeError
  | reservedMajor      -- a major that R169 does not assign
  | reservedFunction   -- a function code that R169 does not list
  | reservedField      -- a field that must be zero, or whose value is reserved
  | reservedOperands   -- operands that R423 reserves together
  | truncated          -- fewer than four bytes
  deriving DecidableEq, Repr

/-- The six register fields by place: 24:20, 19:15, 14:10, 9:5, 4:0 and 16:12 (R166). -/
def rd (w : Nat) : Reg := Fin.ofNat 32 (w / 2 ^ 20)
def ra (w : Nat) : Reg := Fin.ofNat 32 (w / 2 ^ 15)
def rb (w : Nat) : Reg := Fin.ofNat 32 (w / 2 ^ 10)
def rm (w : Nat) : Reg := Fin.ofNat 32 (w / 2 ^ 5)
def r0 (w : Nat) : Reg := Fin.ofNat 32 w
def ri (w : Nat) : Reg := Fin.ofNat 32 (w / 2 ^ 12)

/-- Size codes of SM and STREAM (R166). -/
def Size.ofCode : Nat → Size | 0 => .b | 1 => .h | 2 => .w | _ => .d
def Size.code : Size → Nat | .b => 0 | .h => 1 | .w => 2 | .d => 3

/-- Scope codes (R84); 7 is reserved. -/
def Scope.ofCode : Nat → Option Scope
  | 0 => some .strand | 1 => some .core | 2 => some .cluster | 3 => some .die
  | 4 => some .package | 5 => some .span | 6 => some .system | _ => none
def Scope.code : Scope → Nat
  | .strand => 0 | .core => 1 | .cluster => 2 | .die => 3 | .package => 4 | .span => 5 | .system => 6

/-- Width codes of SETVL (R163); 3 to 31 are reserved. -/
def VWidth.ofCode : Nat → Option VWidth | 0 => some .w16 | 1 => some .w32 | 2 => some .w64 | _ => none
def VWidth.code : VWidth → Nat | .w16 => 0 | .w32 => 1 | .w64 => 2

/-- Tag codes (R155); 6 and 7 are reserved. -/
def Tag.ofCode : Nat → Option Tag
  | 0 => some .i64 | 1 => some .i32 | 2 => some .i16 | 3 => some .i16p | 4 => some .fp32 | 5 => some .bf16
  | _ => none
def Tag.code : Tag → Nat | .i64 => 0 | .i32 => 1 | .i16 => 2 | .i16p => 3 | .fp32 => 4 | .bf16 => 5

/-- Memory format codes (R173). -/
def MemFmt.ofCode : Nat → MemFmt
  | 0 => .native | 1 => .e4m3 | 2 => .e5m2 | 3 => .e2m1 | 4 => .int8 | 5 => .int4 | 6 => .nested | _ => .bf16
def MemFmt.code : MemFmt → Nat
  | .native => 0 | .e4m3 => 1 | .e5m2 => 2 | .e2m1 => 3 | .int8 => 4 | .int4 => 5 | .nested => 6 | .bf16 => 7

/-- VQSCALE format codes 1 to 4 (R170). -/
def QFmt.ofCode : Nat → Option QFmt
  | 1 => some .e4m3 | 2 => some .e5m2 | 3 => some .e2m1 | 4 => some .int8 | _ => none
def QFmt.code : QFmt → Nat | .e4m3 => 1 | .e5m2 => 2 | .e2m1 => 3 | .int8 => 4

/-- MDRAIN format codes (R297, R423). -/
def DrainFmt.ofCode : Nat → Option DrainFmt
  | 0 => some .native | 1 => some .e4m3 | 2 => some .e5m2 | 4 => some .int8 | 7 => some .bf16 | _ => none
def DrainFmt.code : DrainFmt → Nat | .native => 0 | .e4m3 => 1 | .e5m2 => 2 | .int8 => 4 | .bf16 => 7

/-- The CSR a number names, if assigned (R160, R164). -/
def Csr.ofCode (n : Nat) : Option Csr :=
  if n < 0x10 then
    match n with
    | 0 => some .fflags | 1 => some .rmode | 2 => some .satf | 3 => some .planes
    | 4 => some .bscale | 5 => some .rngseed | 6 => some .rngctr | 7 => some .clscope
    | 8 => some .lcount | 9 => some .lstart | 10 => some .lend | 11 => some .uivec
    | 12 => some .uiepc | 13 => some .uicause | 14 => some .status | _ => none
  else if n < 0x18 then some (.bump (Fin.ofNat 8 n))
  else if n < 0x100 then
    match n with
    | 0x18 => some .vtaga | 0x19 => some .vtagb | _ => none
  else if n < 0x200 then
    match n - 0x100 with
    | 0 => some .vl | 1 => some .vstart | 2 => some .vconv | 3 => some .vdirty
    | 4 => some .vcid | 5 => some .coord | 6 => some .cycle | 7 => some .instret
    | 8 => some .cntld | 9 => some .cntst | 10 => some .cntcp | 11 => some .cnttl | _ => none
  else if n < 0x300 then
    match n - 0x200 with
    | 0 => some .stvec | 1 => some .sepc | 2 => some .scause | 3 => some .stval
    | 4 => some .sscratch | 5 => some .asid | 6 => some .troot | _ => none
  else
    match n - 0x300 with
    | 0 => some .dbgctl | 1 => some .dbgstat
    | 2 => some (.bkaddr 0) | 3 => some (.bkaddr 1) | 4 => some (.bkaddr 2) | 5 => some (.bkaddr 3)
    | 6 => some .perfsel | 7 => some .dbgReserved
    | 8 => some (.perfcnt 0) | 9 => some (.perfcnt 1) | 10 => some (.perfcnt 2) | 11 => some (.perfcnt 3)
    | _ => none

/-- The number of a CSR (R160). -/
def Csr.code : Csr → Nat
  | .fflags => 0 | .rmode => 1 | .satf => 2 | .planes => 3 | .bscale => 4 | .rngseed => 5 | .rngctr => 6
  | .clscope => 7 | .lcount => 8 | .lstart => 9 | .lend => 10 | .uivec => 11 | .uiepc => 12 | .uicause => 13
  | .status => 14 | .bump i => 0x10 + i.val | .vtaga => 0x18 | .vtagb => 0x19
  | .vl => 0x100 | .vstart => 0x101 | .vconv => 0x102 | .vdirty => 0x103 | .vcid => 0x104 | .coord => 0x105
  | .cycle => 0x106 | .instret => 0x107 | .cntld => 0x108 | .cntst => 0x109 | .cntcp => 0x10A | .cnttl => 0x10B
  | .stvec => 0x200 | .sepc => 0x201 | .scause => 0x202 | .stval => 0x203 | .sscratch => 0x204
  | .asid => 0x205 | .troot => 0x206
  | .dbgctl => 0x300 | .dbgstat => 0x301 | .bkaddr i => 0x302 + i.val | .perfsel => 0x306
  | .dbgReserved => 0x307 | .perfcnt i => 0x308 + i.val

/-- A number as a member of a range, where it lies in it. -/
def finOf (n x : Nat) : Option (Fin n) := if h : x < n then some ⟨x, h⟩ else none

/-- A field whose value must be assigned. -/
def need {α β : Type} (o : Option α) (k : α → Except DecodeError β) : Except DecodeError β :=
  match o with
  | some a => k a
  | none => .error .reservedField

/-- A field that must hold the value shown (R165, last point). -/
def ifZero {β : Type} (c : Prop) [Decidable c] (r : Except DecodeError β) : Except DecodeError β :=
  if c then r else .error .reservedField

/-- Major 0x01 (R169). -/
def decodeAlu (w : Nat) : Except DecodeError Instr :=
  match w % 1024 with
  | 0 => .ok (.add (rd w) (ra w) (rb w))
  | 1 => .ok (.sub (rd w) (ra w) (rb w))
  | 2 => .ok (.and (rd w) (ra w) (rb w))
  | 3 => .ok (.or (rd w) (ra w) (rb w))
  | 4 => .ok (.xor (rd w) (ra w) (rb w))
  | 5 => .ok (.sll (rd w) (ra w) (rb w))
  | 6 => .ok (.srl (rd w) (ra w) (rb w))
  | 7 => .ok (.sra (rd w) (ra w) (rb w))
  | 8 => .ok (.slt (rd w) (ra w) (rb w))
  | 9 => .ok (.sltu (rd w) (ra w) (rb w))
  | 10 => .ok (.min (rd w) (ra w) (rb w))
  | 11 => .ok (.max (rd w) (ra w) (rb w))
  | 12 => .ok (.minu (rd w) (ra w) (rb w))
  | 13 => .ok (.maxu (rd w) (ra w) (rb w))
  | 14 => .ok (.addw (rd w) (ra w) (rb w))
  | 15 => .ok (.subw (rd w) (ra w) (rb w))
  | _ => .error .reservedFunction

/-- Major 0x02 (R169). -/
def decodeMulDiv (w : Nat) : Except DecodeError Instr :=
  match w % 1024 with
  | 0 => .ok (.mul (rd w) (ra w) (rb w))
  | 1 => .ok (.mulh (rd w) (ra w) (rb w))
  | 2 => .ok (.mulhu (rd w) (ra w) (rb w))
  | 3 => .ok (.div (rd w) (ra w) (rb w))
  | 4 => .ok (.divu (rd w) (ra w) (rb w))
  | 5 => .ok (.rem (rd w) (ra w) (rb w))
  | 6 => .ok (.remu (rd w) (ra w) (rb w))
  | _ => .error .reservedFunction

/-- Major 0x03 (R169). -/
def decodeBits (w : Nat) : Except DecodeError Instr :=
  match w % 1024 with
  | 0 => ifZero (w / 2 ^ 10 % 32 = 0) <| .ok (.clz (rd w) (ra w))
  | 1 => ifZero (w / 2 ^ 10 % 32 = 0) <| .ok (.ctz (rd w) (ra w))
  | 2 => ifZero (w / 2 ^ 10 % 32 = 0) <| .ok (.popc (rd w) (ra w))
  | 3 => ifZero (w / 2 ^ 10 % 32 = 0) <| .ok (.sextb (rd w) (ra w))
  | 4 => ifZero (w / 2 ^ 10 % 32 = 0) <| .ok (.sexth (rd w) (ra w))
  | 5 => ifZero (w / 2 ^ 10 % 32 = 0) <| .ok (.sextw (rd w) (ra w))
  | 6 => ifZero (w / 2 ^ 10 % 32 = 0) <| .ok (.zextw (rd w) (ra w))
  | 7 => ifZero (w / 2 ^ 10 % 32 = 0) <| .ok (.bswap (rd w) (ra w))
  | _ => .error .reservedFunction

/-- Major 0x0A (R169). -/
def decodeShiftI (w : Nat) : Except DecodeError Instr :=
  match w / 2 ^ 6 % 4 with
  | 0 => ifZero (w / 2 ^ 8 % 128 = 0) <| .ok (.slli (rd w) (ra w) (Fin.ofNat 64 w))
  | 1 => ifZero (w / 2 ^ 8 % 128 = 0) <| .ok (.srli (rd w) (ra w) (Fin.ofNat 64 w))
  | 2 => ifZero (w / 2 ^ 8 % 128 = 0) <| .ok (.srai (rd w) (ra w) (Fin.ofNat 64 w))
  | _ => .error .reservedFunction

/-- Major 0x0E (R169). -/
def decodeLoad (w : Nat) : Except DecodeError Instr :=
  match w / 2 ^ 8 % 2 with
  | 0 => .ok (.ld (rd w) (ra w) (Fin.ofNat 16 (w / 2 ^ 11)) (Size.ofCode (w / 2 ^ 9 % 4)) (BitVec.ofNat 8 w))
  | 1 => .ok (.ldu (rd w) (ra w) (Fin.ofNat 16 (w / 2 ^ 11)) (Size.ofCode (w / 2 ^ 9 % 4)) (BitVec.ofNat 8 w))
  | _ => .error .reservedFunction

/-- Major 0x0F (R169). -/
def decodeStore (w : Nat) : Except DecodeError Instr :=
  match w / 2 ^ 8 % 2 with
  | 0 => .ok (.st (rd w) (ra w) (Fin.ofNat 16 (w / 2 ^ 11)) (Size.ofCode (w / 2 ^ 9 % 4)) (BitVec.ofNat 8 w))
  | _ => .error .reservedFunction

/-- Major 0x10 (R169). -/
def decodeBranch (w : Nat) : Except DecodeError Instr :=
  match w / 2 ^ 12 % 8 with
  | 0 => .ok (.beq (rd w) (ra w) (BitVec.ofNat 12 w))
  | 1 => .ok (.bne (rd w) (ra w) (BitVec.ofNat 12 w))
  | 2 => .ok (.blt (rd w) (ra w) (BitVec.ofNat 12 w))
  | 3 => .ok (.bge (rd w) (ra w) (BitVec.ofNat 12 w))
  | 4 => .ok (.bltu (rd w) (ra w) (BitVec.ofNat 12 w))
  | 5 => .ok (.bgeu (rd w) (ra w) (BitVec.ofNat 12 w))
  | _ => .error .reservedFunction

/-- Major 0x14 (R169). -/
def decodeLoop (w : Nat) : Except DecodeError Instr :=
  match w / 2 ^ 19 % 2 with
  | 0 => .ok (.loop (rd w) (Fin.ofNat 524288 w))
  | 1 => .ok (.loopi (rd w) (Fin.ofNat 524288 w))
  | _ => .error .reservedFunction

/-- Major 0x15 (R169). -/
def decodeGang (w : Nat) : Except DecodeError Instr :=
  match w % 32 with
  | 0 => ifZero (w / 2 ^ 5 % 1048576 = 0) <| .ok .joinW
  | 1 => ifZero (w / 2 ^ 5 % 1048576 = 0) <| .ok .joinN
  | 2 => ifZero (w / 2 ^ 5 % 1048576 = 0) <| .ok .detach
  | 3 => ifZero (w / 2 ^ 5 % 1048576 = 0) <| .ok .exit
  | 4 => ifZero (w / 2 ^ 5 % 1048576 = 0) <| .ok .yield
  | 5 => ifZero (w / 2 ^ 5 % 32 = 0 ∧ w / 2 ^ 20 % 32 = 0) <| .ok (.fork (ra w) (rb w))
  | 6 => ifZero (w / 2 ^ 9 % 65536 = 0) <| .ok (.rendezvous (Fin.ofNat 16 (w / 2 ^ 5)))
  | _ => .error .reservedFunction

/-- Major 0x16 (R169). -/
def decodeSync (w : Nat) : Except DecodeError Instr :=
  match w % 32 with
  | 0 => ifZero (w / 2 ^ 5 % 2 = 0) <| need (Scope.ofCode (w / 2 ^ 6 % 8)) fun sc => .ok (.fence (BitVec.ofNat 16 (w / 2 ^ 9)) sc)
  | 1 => ifZero (w / 2 ^ 5 % 2 = 0) <| need (finOf 36 (w / 2 ^ 9 % 64)) fun id => need (Scope.ofCode (w / 2 ^ 6 % 8)) fun sc => .ok (.barArrive (rd w) (ra w) id sc)
  | 2 => ifZero (w / 2 ^ 5 % 16 = 0) <| need (finOf 36 (w / 2 ^ 9 % 64)) fun id => .ok (.barWait (rd w) (ra w) id)
  | 3 => ifZero (w / 2 ^ 5 % 16 = 0 ∧ w / 2 ^ 20 % 32 = 0) <| need (finOf 36 (w / 2 ^ 9 % 64)) fun id => .ok (.barInit (ra w) id)
  | 4 => ifZero (w / 2 ^ 5 % 1048576 = 0) <| .ok .uiret
  | 5 => ifZero (w / 2 ^ 5 % 1024 = 0) <| .ok (.uimask (rd w) (ra w))
  | _ => .error .reservedFunction

/-- Major 0x17 (R169). -/
def decodeSystem (w : Nat) : Except DecodeError Instr :=
  match w % 32 with
  | 0 => ifZero (w / 2 ^ 15 % 32 = 0) <| need (Csr.ofCode (w / 2 ^ 5 % 1024)) fun csr => .ok (.csrr (rd w) csr)
  | 1 => need (Csr.ofCode (w / 2 ^ 5 % 1024)) fun csr => .ok (.csrw (rd w) (ra w) csr)
  | 2 => need (Csr.ofCode (w / 2 ^ 5 % 1024)) fun csr => .ok (.csrs (rd w) (ra w) csr)
  | 3 => need (Csr.ofCode (w / 2 ^ 5 % 1024)) fun csr => .ok (.csrc (rd w) (ra w) csr)
  | 4 => ifZero (w / 2 ^ 10 % 32 = 0) <| need (VWidth.ofCode (w / 2 ^ 5 % 32)) fun wd => .ok (.setvl (rd w) (ra w) wd)
  | 5 => ifZero (w / 2 ^ 5 % 32 = 0 ∧ w / 2 ^ 13 % 4 = 0) <| need (Tag.ofCode (w / 2 ^ 10 % 8)) fun t => .ok (.vtag (rd w) (ra w) t)
  | 6 => ifZero (w / 2 ^ 10 % 32 = 0 ∧ w / 2 ^ 20 % 32 = 0) <| .ok (.svset (ra w) (Fin.ofNat 32 (w / 2 ^ 5)))
  | 7 => ifZero (w / 2 ^ 10 % 1024 = 0) <| .ok (.svget (rd w) (Fin.ofNat 32 (w / 2 ^ 5)))
  | 8 => ifZero (w / 2 ^ 5 % 1024 = 0) <| .ok (.launch (rd w) (ra w))
  | 9 => ifZero (w / 2 ^ 5 % 1048576 = 0) <| .ok .syscall
  | 10 => ifZero (w / 2 ^ 5 % 1048576 = 0) <| .ok .eret
  | 11 => ifZero (w / 2 ^ 7 % 8 = 0 ∧ w / 2 ^ 20 % 32 = 0) <| .ok (.invas (ra w) (rb w) (w / 2 ^ 5 % 2 == 1) (w / 2 ^ 6 % 2 == 1))
  | 12 => ifZero (w / 2 ^ 5 % 32 = 0) <| .ok (.bankcfg (rd w) (ra w) (rb w))
  | 13 => ifZero (w / 2 ^ 5 % 1048576 = 0) <| .ok .brk
  | _ => .error .reservedFunction

/-- Major 0x18 (R169). -/
def decodeVersionScalar (w : Nat) : Except DecodeError Instr :=
  match w % 32 with
  | 0 => ifZero (w / 2 ^ 9 % 2 = 0) <| .ok (.ldv (rd w) (ra w) (rb w) (Fin.ofNat 16 (w / 2 ^ 5)))
  | 1 => ifZero (w / 2 ^ 10 % 32 = 0) <| need (finOf 5 (w / 2 ^ 5 % 32)) fun sel => .ok (.vrqry (rd w) (ra w) sel)
  | _ => .error .reservedFunction

/-- Major 0x19 (R169). -/
def decodeVersionControl (w : Nat) : Except DecodeError Instr :=
  match w % 32 with
  | 0 => ifZero (w / 2 ^ 9 % 2 = 0) <| .ok (.vpub (rd w) (ra w) (rb w) (Fin.ofNat 16 (w / 2 ^ 5)))
  | 1 => ifZero (w / 2 ^ 9 % 2 = 0 ∧ w / 2 ^ 20 % 32 = 0) <| .ok (.vretire (ra w) (rb w) (Fin.ofNat 16 (w / 2 ^ 5)))
  | 2 => ifZero (w / 2 ^ 5 % 1024 = 0) <| .ok (.vrdecl (rd w) (ra w))
  | 3 => ifZero (w / 2 ^ 5 % 1024 = 0) <| .ok (.vrfree (rd w) (ra w))
  | _ => .error .reservedFunction

/-- Major 0x1A (R169). -/
def decodeAsync (w : Nat) : Except DecodeError Instr :=
  match w % 32 with
  | 0 => ifZero (w / 2 ^ 5 % 1024 = 0) <| .ok (.job (rd w) (ra w))
  | 1 => ifZero (w / 2 ^ 7 % 8 = 0 ∧ w / 2 ^ 15 % 32 = 0 ∧ w / 2 ^ 23 % 4 = 2) <| .ok (.stream (Fin.ofNat 8 (w / 2 ^ 20)) (rb w) (Size.ofCode (w / 2 ^ 5 % 4)))
  | 2 => ifZero (w / 2 ^ 5 % 32768 = 0 ∧ w / 2 ^ 23 % 4 = 2) <| .ok (.streamoff (Fin.ofNat 8 (w / 2 ^ 20)))
  | _ => .error .reservedFunction

/-- Major 0x1B (R169). -/
def decodeSxControl (w : Nat) : Except DecodeError Instr :=
  match w % 32 with
  | 0 => ifZero (w / 2 ^ 9 % 64 = 0) <| .ok (.sxopen (rd w) (ra w) (Fin.ofNat 16 (w / 2 ^ 5)))
  | 1 => ifZero (w / 2 ^ 9 % 64 = 0) <| .ok (.sxsplit (rd w) (ra w) (Fin.ofNat 16 (w / 2 ^ 5)))
  | 2 => ifZero (w / 2 ^ 9 % 2048 = 0) <| .ok (.sxround (rd w) (Fin.ofNat 16 (w / 2 ^ 5)))
  | 3 => ifZero (w / 2 ^ 9 % 2048 = 0) <| .ok (.sxresplit (rd w) (Fin.ofNat 16 (w / 2 ^ 5)))
  | 4 =>
    match w / 2 ^ 9 % 2048 with
    | 0 => .ok (.sxclose (rd w) (Fin.ofNat 16 (w / 2 ^ 5)))
    | 1 => .ok (.sxcloseAbort (rd w) (Fin.ofNat 16 (w / 2 ^ 5)))
    | _ => .error .reservedField
  | _ => .error .reservedFunction

/-- Major 0x1C (R169). -/
def decodeSxData (w : Nat) : Except DecodeError Instr :=
  match w % 32 with
  | 0 => ifZero (w / 2 ^ 14 % 2 = 0) <| .ok (.sxsend (rd w) (ra w) (Fin.ofNat 16 (w / 2 ^ 10)) (rm w))
  | 1 => ifZero (w / 2 ^ 14 % 2 = 0) <| .ok (.sxsendNew (rd w) (ra w) (Fin.ofNat 16 (w / 2 ^ 10)) (rm w))
  | 2 => ifZero (w / 2 ^ 14 % 2 = 0) <| .ok (.sxrecv (rd w) (ra w) (Fin.ofNat 16 (w / 2 ^ 10)) (rm w))
  | 3 => ifZero (w / 2 ^ 5 % 32 = 0 ∧ w / 2 ^ 14 % 64 = 0) <| .ok (.sxstat (rd w) (Fin.ofNat 16 (w / 2 ^ 10)))
  | _ => .error .reservedFunction

/-- Major 0x1D (R169). -/
def decodeAtomic (w : Nat) : Except DecodeError Instr :=
  match w % 64 with
  | 0 => .ok (.amoadd (rd w) (ra w) (rb w) (Fin.ofNat 16 (w / 2 ^ 6)))
  | 1 => .ok (.amomin (rd w) (ra w) (rb w) (Fin.ofNat 16 (w / 2 ^ 6)))
  | 2 => .ok (.amomax (rd w) (ra w) (rb w) (Fin.ofNat 16 (w / 2 ^ 6)))
  | 3 => .ok (.amominu (rd w) (ra w) (rb w) (Fin.ofNat 16 (w / 2 ^ 6)))
  | 4 => .ok (.amomaxu (rd w) (ra w) (rb w) (Fin.ofNat 16 (w / 2 ^ 6)))
  | 5 => .ok (.amoand (rd w) (ra w) (rb w) (Fin.ofNat 16 (w / 2 ^ 6)))
  | 6 => .ok (.amoor (rd w) (ra w) (rb w) (Fin.ofNat 16 (w / 2 ^ 6)))
  | 7 => .ok (.amoxor (rd w) (ra w) (rb w) (Fin.ofNat 16 (w / 2 ^ 6)))
  | 8 => .ok (.amoswap (rd w) (ra w) (rb w) (Fin.ofNat 16 (w / 2 ^ 6)))
  | 9 => .ok (.amocas (rd w) (ra w) (rb w) (Fin.ofNat 16 (w / 2 ^ 6)))
  | 16 => .ok (.amoaddW (rd w) (ra w) (rb w) (Fin.ofNat 16 (w / 2 ^ 6)))
  | 17 => .ok (.amominW (rd w) (ra w) (rb w) (Fin.ofNat 16 (w / 2 ^ 6)))
  | 18 => .ok (.amomaxW (rd w) (ra w) (rb w) (Fin.ofNat 16 (w / 2 ^ 6)))
  | 19 => .ok (.amominuW (rd w) (ra w) (rb w) (Fin.ofNat 16 (w / 2 ^ 6)))
  | 20 => .ok (.amomaxuW (rd w) (ra w) (rb w) (Fin.ofNat 16 (w / 2 ^ 6)))
  | 21 => .ok (.amoandW (rd w) (ra w) (rb w) (Fin.ofNat 16 (w / 2 ^ 6)))
  | 22 => .ok (.amoorW (rd w) (ra w) (rb w) (Fin.ofNat 16 (w / 2 ^ 6)))
  | 23 => .ok (.amoxorW (rd w) (ra w) (rb w) (Fin.ofNat 16 (w / 2 ^ 6)))
  | 24 => .ok (.amoswapW (rd w) (ra w) (rb w) (Fin.ofNat 16 (w / 2 ^ 6)))
  | 25 => .ok (.amocasW (rd w) (ra w) (rb w) (Fin.ofNat 16 (w / 2 ^ 6)))
  | 32 => ifZero (w / 2 ^ 20 % 32 = 0) <| .ok (.topkins (ra w) (rb w) (Fin.ofNat 16 (w / 2 ^ 6)))
  | _ => .error .reservedFunction

/-- Major 0x20 (R169). -/
def decodeVCommon (w : Nat) : Except DecodeError Instr :=
  match w % 32 with
  | 0 => .ok (.vadd (rd w) (ra w) (rb w) (rm w))
  | 1 => .ok (.vsub (rd w) (ra w) (rb w) (rm w))
  | 2 => .ok (.vmul (rd w) (ra w) (rb w) (rm w))
  | 3 => .ok (.vmin (rd w) (ra w) (rb w) (rm w))
  | 4 => .ok (.vmax (rd w) (ra w) (rb w) (rm w))
  | 5 => ifZero (w / 2 ^ 10 % 32 = 0) <| .ok (.vabs (rd w) (ra w) (rm w))
  | 6 => ifZero (w / 2 ^ 10 % 32 = 0) <| .ok (.vneg (rd w) (ra w) (rm w))
  | 7 => .ok (.vmerge (rd w) (ra w) (rb w) (rm w))
  | 8 => ifZero (w / 2 ^ 10 % 32 = 0) <| .ok (.vmv (rd w) (ra w) (rm w))
  | 9 => ifZero (w / 2 ^ 10 % 32 = 0) <| .ok (.vbcast (rd w) (ra w) (rm w))
  | _ => .error .reservedFunction

/-- Major 0x21 (R169). -/
def decodeVCommonX (w : Nat) : Except DecodeError Instr :=
  match w % 32 with
  | 0 => .ok (.vaddVx (rd w) (ra w) (rb w) (rm w))
  | 1 => .ok (.vsubVx (rd w) (ra w) (rb w) (rm w))
  | 2 => .ok (.vmulVx (rd w) (ra w) (rb w) (rm w))
  | 3 => .ok (.vminVx (rd w) (ra w) (rb w) (rm w))
  | 4 => .ok (.vmaxVx (rd w) (ra w) (rb w) (rm w))
  | 7 => .ok (.vmergeVx (rd w) (ra w) (rb w) (rm w))
  | 9 => ifZero (w / 2 ^ 15 % 32 = 0) <| .ok (.vbcastVx (rd w) (rb w) (rm w))
  | _ => .error .reservedFunction

/-- Major 0x22 (R169). -/
def decodeVInt (w : Nat) : Except DecodeError Instr :=
  match w % 32 with
  | 0 => .ok (.vand (rd w) (ra w) (rb w) (rm w))
  | 1 => .ok (.vor (rd w) (ra w) (rb w) (rm w))
  | 2 => .ok (.vxor (rd w) (ra w) (rb w) (rm w))
  | 3 => .ok (.vsll (rd w) (ra w) (rb w) (rm w))
  | 4 => .ok (.vsrl (rd w) (ra w) (rb w) (rm w))
  | 5 => .ok (.vsra (rd w) (ra w) (rb w) (rm w))
  | 6 => .ok (.vminu (rd w) (ra w) (rb w) (rm w))
  | 7 => .ok (.vmaxu (rd w) (ra w) (rb w) (rm w))
  | 8 => .ok (.vmulh (rd w) (ra w) (rb w) (rm w))
  | 9 => .ok (.vmulhu (rd w) (ra w) (rb w) (rm w))
  | 10 => .ok (.vadc (rd w) (ra w) (rb w) (rm w))
  | 11 => .ok (.vsbc (rd w) (ra w) (rb w) (rm w))
  | 12 => .ok (.vadds (rd w) (ra w) (rb w) (rm w))
  | 13 => .ok (.vsubs (rd w) (ra w) (rb w) (rm w))
  | 14 => .ok (.vaddsu (rd w) (ra w) (rb w) (rm w))
  | 15 => .ok (.vsubsu (rd w) (ra w) (rb w) (rm w))
  | 16 => .ok (.vsrar (rd w) (ra w) (rb w) (rm w))
  | 17 => .ok (.vsrlr (rd w) (ra w) (rb w) (rm w))
  | 18 => .ok (.vdot2 (rd w) (ra w) (rb w) (rm w))
  | 19 => .ok (.vabsd (rd w) (ra w) (rb w) (rm w))
  | 20 => ifZero (w / 2 ^ 10 % 32 = 0) <| .ok (.vclz (rd w) (ra w) (rm w))
  | 21 => ifZero (w / 2 ^ 10 % 32 = 0) <| .ok (.vpopc (rd w) (ra w) (rm w))
  | _ => .error .reservedFunction

/-- Major 0x23 (R169). -/
def decodeVIntX (w : Nat) : Except DecodeError Instr :=
  match w % 32 with
  | 0 => .ok (.vandVx (rd w) (ra w) (rb w) (rm w))
  | 1 => .ok (.vorVx (rd w) (ra w) (rb w) (rm w))
  | 2 => .ok (.vxorVx (rd w) (ra w) (rb w) (rm w))
  | 3 => .ok (.vsllVx (rd w) (ra w) (rb w) (rm w))
  | 4 => .ok (.vsrlVx (rd w) (ra w) (rb w) (rm w))
  | 5 => .ok (.vsraVx (rd w) (ra w) (rb w) (rm w))
  | 6 => .ok (.vminuVx (rd w) (ra w) (rb w) (rm w))
  | 7 => .ok (.vmaxuVx (rd w) (ra w) (rb w) (rm w))
  | 8 => .ok (.vmulhVx (rd w) (ra w) (rb w) (rm w))
  | 9 => .ok (.vmulhuVx (rd w) (ra w) (rb w) (rm w))
  | 12 => .ok (.vaddsVx (rd w) (ra w) (rb w) (rm w))
  | 13 => .ok (.vsubsVx (rd w) (ra w) (rb w) (rm w))
  | 14 => .ok (.vaddsuVx (rd w) (ra w) (rb w) (rm w))
  | 15 => .ok (.vsubsuVx (rd w) (ra w) (rb w) (rm w))
  | 16 => .ok (.vsrarVx (rd w) (ra w) (rb w) (rm w))
  | 17 => .ok (.vsrlrVx (rd w) (ra w) (rb w) (rm w))
  | 19 => .ok (.vabsdVx (rd w) (ra w) (rb w) (rm w))
  | _ => .error .reservedFunction

/-- Major 0x24 (R169). -/
def decodeVIntI (w : Nat) : Except DecodeError Instr :=
  match w % 32 with
  | 0 => .ok (.vandVi (rd w) (ra w) (BitVec.ofNat 5 (w / 2 ^ 10)) (rm w))
  | 1 => .ok (.vorVi (rd w) (ra w) (BitVec.ofNat 5 (w / 2 ^ 10)) (rm w))
  | 2 => .ok (.vxorVi (rd w) (ra w) (BitVec.ofNat 5 (w / 2 ^ 10)) (rm w))
  | 3 => .ok (.vsllVi (rd w) (ra w) (BitVec.ofNat 5 (w / 2 ^ 10)) (rm w))
  | 4 => .ok (.vsrlVi (rd w) (ra w) (BitVec.ofNat 5 (w / 2 ^ 10)) (rm w))
  | 5 => .ok (.vsraVi (rd w) (ra w) (BitVec.ofNat 5 (w / 2 ^ 10)) (rm w))
  | 6 => .ok (.vminuVi (rd w) (ra w) (BitVec.ofNat 5 (w / 2 ^ 10)) (rm w))
  | 7 => .ok (.vmaxuVi (rd w) (ra w) (BitVec.ofNat 5 (w / 2 ^ 10)) (rm w))
  | 12 => .ok (.vaddsVi (rd w) (ra w) (BitVec.ofNat 5 (w / 2 ^ 10)) (rm w))
  | 13 => .ok (.vsubsVi (rd w) (ra w) (BitVec.ofNat 5 (w / 2 ^ 10)) (rm w))
  | 14 => .ok (.vaddsuVi (rd w) (ra w) (BitVec.ofNat 5 (w / 2 ^ 10)) (rm w))
  | 15 => .ok (.vsubsuVi (rd w) (ra w) (BitVec.ofNat 5 (w / 2 ^ 10)) (rm w))
  | 16 => .ok (.vsrarVi (rd w) (ra w) (BitVec.ofNat 5 (w / 2 ^ 10)) (rm w))
  | 17 => .ok (.vsrlrVi (rd w) (ra w) (BitVec.ofNat 5 (w / 2 ^ 10)) (rm w))
  | _ => .error .reservedFunction

/-- Major 0x25 (R169). -/
def decodeVFlt (w : Nat) : Except DecodeError Instr :=
  match w % 32 with
  | 0 => .ok (.vfma (rd w) (ra w) (rb w) (rm w))
  | 1 => .ok (.vfms (rd w) (ra w) (rb w) (rm w))
  | 2 => .ok (.vfnma (rd w) (ra w) (rb w) (rm w))
  | 3 => .ok (.vdiv (rd w) (ra w) (rb w) (rm w))
  | 4 => ifZero (w / 2 ^ 10 % 32 = 0) <| .ok (.vsqrt (rd w) (ra w) (rm w))
  | 5 => ifZero (w / 2 ^ 10 % 32 = 0) <| .ok (.vrcp (rd w) (ra w) (rm w))
  | 6 => ifZero (w / 2 ^ 10 % 32 = 0) <| .ok (.vrsq (rd w) (ra w) (rm w))
  | 7 => ifZero (w / 2 ^ 10 % 32 = 0) <| .ok (.vexp2 (rd w) (ra w) (rm w))
  | 8 => ifZero (w / 2 ^ 10 % 32 = 0) <| .ok (.vlog2 (rd w) (ra w) (rm w))
  | 9 => ifZero (w / 2 ^ 10 % 32 = 0) <| .ok (.vtanh (rd w) (ra w) (rm w))
  | 10 => ifZero (w / 2 ^ 10 % 32 = 0) <| .ok (.vclass (rd w) (ra w) (rm w))
  | _ => .error .reservedFunction

/-- Major 0x26 (R169). -/
def decodeVFltX (w : Nat) : Except DecodeError Instr :=
  match w % 32 with
  | 0 => .ok (.vfmaVx (rd w) (ra w) (rb w) (rm w))
  | 1 => .ok (.vfmsVx (rd w) (ra w) (rb w) (rm w))
  | 2 => .ok (.vfnmaVx (rd w) (ra w) (rb w) (rm w))
  | 3 => .ok (.vdivVx (rd w) (ra w) (rb w) (rm w))
  | _ => .error .reservedFunction

/-- Major 0x27 (R169). -/
def decodeVCmp (w : Nat) : Except DecodeError Instr :=
  match w % 32 with
  | 0 => .ok (.vcmpeq (rd w) (ra w) (rb w) (rm w))
  | 1 => .ok (.vcmpne (rd w) (ra w) (rb w) (rm w))
  | 2 => .ok (.vcmplt (rd w) (ra w) (rb w) (rm w))
  | 3 => .ok (.vcmple (rd w) (ra w) (rb w) (rm w))
  | 4 => .ok (.vcmpltu (rd w) (ra w) (rb w) (rm w))
  | 5 => .ok (.vcmpleu (rd w) (ra w) (rb w) (rm w))
  | 6 => .ok (.vcmpun (rd w) (ra w) (rb w) (rm w))
  | 16 => .ok (.vcmpeqVx (rd w) (ra w) (rb w) (rm w))
  | 17 => .ok (.vcmpneVx (rd w) (ra w) (rb w) (rm w))
  | 18 => .ok (.vcmpltVx (rd w) (ra w) (rb w) (rm w))
  | 19 => .ok (.vcmpleVx (rd w) (ra w) (rb w) (rm w))
  | 20 => .ok (.vcmpltuVx (rd w) (ra w) (rb w) (rm w))
  | 21 => .ok (.vcmpleuVx (rd w) (ra w) (rb w) (rm w))
  | 22 => .ok (.vcmpunVx (rd w) (ra w) (rb w) (rm w))
  | _ => .error .reservedFunction

/-- Major 0x28 (R169). -/
def decodeVPred (w : Nat) : Except DecodeError Instr :=
  match w % 1024 with
  | 0 => .ok (.pand (rd w) (ra w) (rb w))
  | 1 => .ok (.por (rd w) (ra w) (rb w))
  | 2 => .ok (.pxor (rd w) (ra w) (rb w))
  | 3 => .ok (.pandn (rd w) (ra w) (rb w))
  | 4 => ifZero (w / 2 ^ 10 % 32 = 0) <| .ok (.pnot (rd w) (ra w))
  | 5 => .ok (.pshl (rd w) (ra w) (rb w))
  | 6 => .ok (.pshr (rd w) (ra w) (rb w))
  | 7 => ifZero (w / 2 ^ 10 % 32 = 0) <| .ok (.pmv (rd w) (ra w))
  | 8 => ifZero (w / 2 ^ 12 % 256 = 0) <| .ok (.pset (rd w) (Fin.ofNat 4 (w / 2 ^ 10)))
  | 9 => ifZero (w / 2 ^ 10 % 32 = 0) <| .ok (.pcnt (rd w) (ra w))
  | 10 => ifZero (w / 2 ^ 10 % 32 = 0) <| .ok (.pfirst (rd w) (ra w))
  | 11 => ifZero (w / 2 ^ 10 % 32 = 0) <| .ok (.plast (rd w) (ra w))
  | 12 => ifZero (w / 2 ^ 13 % 4 = 0) <| .ok (.pmovx (rd w) (ra w) (Fin.ofNat 8 (w / 2 ^ 10)))
  | 13 => ifZero (w / 2 ^ 13 % 4 = 0) <| .ok (.pfromx (rd w) (ra w) (Fin.ofNat 8 (w / 2 ^ 10)))
  | _ => .error .reservedFunction

/-- Major 0x29 (R169). -/
noncomputable def decodeVPerm (w : Nat) : Except DecodeError Instr :=
  match w % 32 with
  | 0 => .ok (.vslide1up (rd w) (ra w) (rb w) (rm w))
  | 1 => .ok (.vslide1dn (rd w) (ra w) (rb w) (rm w))
  | 2 => .ok (.vslideup (rd w) (ra w) (rb w) (rm w))
  | 3 => .ok (.vslidedn (rd w) (ra w) (rb w) (rm w))
  | 4 => .ok (.vgather (rd w) (ra w) (rb w) (rm w))
  | 5 => ifZero (w / 2 ^ 10 % 32 = 0) <| .ok (.vcompress (rd w) (ra w) (rm w))
  | 6 => ifZero (w / 2 ^ 10 % 32 = 0) <| .ok (.vexpand (rd w) (ra w) (rm w))
  | 7 => ifZero (w / 2 ^ 10 % 32 = 0) <| .ok (.vrev (rd w) (ra w) (rm w))
  | 8 => need (finOf 9 (w / 2 ^ 10 % 32)) fun k => .ok (.vhad (rd w) (ra w) k (rm w))
  | 9 => .ok (.vzip (rd w) (ra w) (rb w) (rm w))
  | 10 => .ok (.vunzip (rd w) (ra w) (rb w) (rm w))
  | _ => .error .reservedFunction

/-- Major 0x2A (R169). -/
noncomputable def decodeVRed (w : Nat) : Except DecodeError Instr :=
  match w % 32 with
  | 0 => .ok (.vredsum (rd w) (ra w) (rb w) (rm w))
  | 1 => .ok (.vredsumu (rd w) (ra w) (rb w) (rm w))
  | 2 => .ok (.vredmax (rd w) (ra w) (rb w) (rm w))
  | 3 => .ok (.vredmin (rd w) (ra w) (rb w) (rm w))
  | 4 => .ok (.vscan (rd w) (ra w) (rb w) (rm w))
  | 5 => .ok (.vscanf (rd w) (ra w) (rb w) (rm w))
  | _ => .error .reservedFunction

/-- Major 0x2B (R169). -/
noncomputable def decodeVConv (w : Nat) : Except DecodeError Instr :=
  match w % 32 with
  | 0 => need (Tag.ofCode (w / 2 ^ 10 % 8)) fun t => .ok (.vcvt (rd w) (ra w) (Fin.ofNat 4 (w / 2 ^ 13)) t (rm w))
  | 1 => ifZero (w / 2 ^ 10 % 8 = 0 ∧ w / 2 ^ 14 % 2 = 0) <| .ok (.vcvts (rd w) (ra w) (Fin.ofNat 2 (w / 2 ^ 13)) (rm w))
  | 2 => ifZero (w / 2 ^ 10 % 1024 = 0) <| .ok (.vrand (rd w) (rm w))
  | 3 => ifZero (w / 2 ^ 13 % 4 = 0) <| need (QFmt.ofCode (w / 2 ^ 10 % 8)) fun f => .ok (.vqscale (rd w) (ra w) f (rm w))
  | 4 => ifZero (w / 2 ^ 10 % 1024 = 0) <| .ok (.viota (rd w) (rm w))
  | 5 => .ok (.vmvxs (rd w) (ra w) (rb w) (rm w))
  | 6 => ifZero (w / 2 ^ 15 % 32 = 0) <| .ok (.vmvsx (rd w) (rb w) (rm w))
  | _ => .error .reservedFunction

/-- Major 0x2C (R169). -/
noncomputable def decodeVSort (w : Nat) : Except DecodeError Instr :=
  match w % 32 with
  | 0 => ifZero (w / 2 ^ 10 % 32 = 0) <| .ok (.vsort (rd w) (ra w) (rm w))
  | 1 => ifZero (w / 2 ^ 10 % 32 = 0) <| .ok (.vsortd (rd w) (ra w) (rm w))
  | 2 => ifZero (w / 2 ^ 5 % 32 = 0) <| .ok (.vmergek (rd w) (ra w) (rb w))
  | 3 => ifZero (w / 2 ^ 10 % 32 = 0) <| .ok (.vseghead (rd w) (ra w) (rm w))
  | 4 => .ok (.vtopk (rd w) (ra w) (rb w) (rm w))
  | _ => .error .reservedFunction

/-- Major 0x2D (R169). -/
noncomputable def decodeVAcc (w : Nat) : Except DecodeError Instr :=
  match w % 32 with
  | 0 => ifZero (w / 2 ^ 15 % 32 = 0) <| .ok (.vaccrd (rd w) (rb w) (rm w))
  | 1 => ifZero (w / 2 ^ 15 % 32 = 0) <| .ok (.vaccwr (rd w) (rb w) (rm w))
  | _ => .error .reservedFunction

/-- Major 0x3A (R169). -/
noncomputable def decodeVamox (w : Nat) : Except DecodeError Instr :=
  match w / 2 ^ 5 % 8 with
  | 0 => .ok (.vamoxAdd (rd w) (Fin.ofNat 8 (w / 2 ^ 17)) (ri w) (Fin.ofNat 16 (w / 2 ^ 8)) (r0 w))
  | 1 => .ok (.vamoxAddu (rd w) (Fin.ofNat 8 (w / 2 ^ 17)) (ri w) (Fin.ofNat 16 (w / 2 ^ 8)) (r0 w))
  | 2 => .ok (.vamoxMin (rd w) (Fin.ofNat 8 (w / 2 ^ 17)) (ri w) (Fin.ofNat 16 (w / 2 ^ 8)) (r0 w))
  | 3 => .ok (.vamoxMax (rd w) (Fin.ofNat 8 (w / 2 ^ 17)) (ri w) (Fin.ofNat 16 (w / 2 ^ 8)) (r0 w))
  | 4 => .ok (.vamoxAnd (rd w) (Fin.ofNat 8 (w / 2 ^ 17)) (ri w) (Fin.ofNat 16 (w / 2 ^ 8)) (r0 w))
  | 5 => .ok (.vamoxOr (rd w) (Fin.ofNat 8 (w / 2 ^ 17)) (ri w) (Fin.ofNat 16 (w / 2 ^ 8)) (r0 w))
  | 6 => .ok (.vamoxXor (rd w) (Fin.ofNat 8 (w / 2 ^ 17)) (ri w) (Fin.ofNat 16 (w / 2 ^ 8)) (r0 w))
  | 7 => .ok (.vamoxSwap (rd w) (Fin.ofNat 8 (w / 2 ^ 17)) (ri w) (Fin.ofNat 16 (w / 2 ^ 8)) (r0 w))
  | _ => .error .reservedFunction

/-- Major 0x3B (R169). -/
noncomputable def decodeVSpecial (w : Nat) : Except DecodeError Instr :=
  match w / 2 ^ 5 % 8 with
  | 0 => .ok (.vldv (rd w) (Fin.ofNat 8 (w / 2 ^ 17)) (ri w) (Fin.ofNat 16 (w / 2 ^ 8)) (r0 w))
  | 1 => ifZero (w % 32 = 0) <| .ok (.vstv (rd w) (Fin.ofNat 8 (w / 2 ^ 17)) (ri w) (Fin.ofNat 16 (w / 2 ^ 8)))
  | 2 => ifZero (w / 2 ^ 12 % 32 = 0) <| .ok (.vpush (rd w) (Fin.ofNat 8 (w / 2 ^ 17)) (Fin.ofNat 16 (w / 2 ^ 8)) (r0 w))
  | 3 => ifZero (w / 2 ^ 12 % 32 = 0) <| .ok (.vpop (rd w) (Fin.ofNat 8 (w / 2 ^ 17)) (Fin.ofNat 16 (w / 2 ^ 8)) (r0 w))
  | _ => .error .reservedFunction

/-- Major 0x3C (R169). -/
noncomputable def decodeMOpnd (w : Nat) : Except DecodeError Instr :=
  match w % 32 with
  | 0 => ifZero (w / 2 ^ 9 % 2 = 0) <| .ok (.mgather (rd w) (ra w) (rb w) (Fin.ofNat 4 (w / 2 ^ 7)) (Fin.ofNat 4 (w / 2 ^ 5)))
  | 1 => ifZero (w / 2 ^ 5 % 32768 = 0) <| .ok (.mldb (rd w))
  | 2 => ifZero (w / 2 ^ 5 % 32768 = 0) <| .ok (.mcfg (rd w))
  | _ => .error .reservedFunction

/-- Major 0x3D (R169). -/
noncomputable def decodeMComp (w : Nat) : Except DecodeError Instr :=
  match w % 32 with
  | 0 => ifZero (w / 2 ^ 7 % 262144 = 0) <| .ok (.mma (Fin.ofNat 4 (w / 2 ^ 5)))
  | 1 => ifZero (w / 2 ^ 5 % 1048576 = 0) <| .ok .mzero
  | 2 => ifZero (w / 2 ^ 5 % 1048576 = 0) <| .ok .mswap
  | 3 => ifZero (w / 2 ^ 10 % 32768 = 0) <| .ok (.mwait (rm w))
  | _ => .error .reservedFunction

/-- Major 0x3E (R169). -/
noncomputable def decodeMDrain (w : Nat) : Except DecodeError Instr :=
  match w % 32 with
  | 0 => ifZero (w / 2 ^ 8 % 128 = 0) <| need (DrainFmt.ofCode (w / 2 ^ 5 % 8)) fun f => .ok (.mdrain (rd w) (ra w) f)
  | 1 => ifZero (w / 2 ^ 6 % 16384 = 0) <| .ok (.mstat (rd w) (w / 2 ^ 5 % 2 == 1))
  | _ => .error .reservedFunction

/-- The raw reading of a word: major, function, fields; bit 31 (C) is not looked at (R165). -/
noncomputable def decodeRaw (w : Nat) : Except DecodeError Instr :=
  match w / 2 ^ 25 % 64 with
  | 0x01 => decodeAlu w
  | 0x02 => decodeMulDiv w
  | 0x03 => decodeBits w
  | 0x04 => .ok (.addi (rd w) (ra w) (BitVec.ofNat 15 w))
  | 0x05 => .ok (.andi (rd w) (ra w) (BitVec.ofNat 15 w))
  | 0x06 => .ok (.ori (rd w) (ra w) (BitVec.ofNat 15 w))
  | 0x07 => .ok (.xori (rd w) (ra w) (BitVec.ofNat 15 w))
  | 0x08 => .ok (.slti (rd w) (ra w) (BitVec.ofNat 15 w))
  | 0x09 => .ok (.sltiu (rd w) (ra w) (BitVec.ofNat 15 w))
  | 0x0A => decodeShiftI w
  | 0x0B => .ok (.li (rd w) (BitVec.ofNat 20 w))
  | 0x0C => .ok (.lis (rd w) (BitVec.ofNat 20 w))
  | 0x0D => .ok (.addpc (rd w) (BitVec.ofNat 20 w))
  | 0x0E => decodeLoad w
  | 0x0F => decodeStore w
  | 0x10 => decodeBranch w
  | 0x11 => .ok (.jal (rd w) (BitVec.ofNat 20 w))
  | 0x12 => .ok (.jalr (rd w) (ra w) (BitVec.ofNat 15 w))
  | 0x13 => .ok (.strip (rd w) (BitVec.ofNat 8 (w / 2 ^ 12)) (BitVec.ofNat 12 w))
  | 0x14 => decodeLoop w
  | 0x15 => decodeGang w
  | 0x16 => decodeSync w
  | 0x17 => decodeSystem w
  | 0x18 => decodeVersionScalar w
  | 0x19 => decodeVersionControl w
  | 0x1A => decodeAsync w
  | 0x1B => decodeSxControl w
  | 0x1C => decodeSxData w
  | 0x1D => decodeAtomic w
  | 0x1E => ifZero (w % 512 = 0) <| .ok (.waitc (Fin.ofNat 16 (w / 2 ^ 21)) (Fin.ofNat 16 (w / 2 ^ 17)) (Fin.ofNat 16 (w / 2 ^ 13)) (Fin.ofNat 16 (w / 2 ^ 9)))
  | 0x20 => decodeVCommon w
  | 0x21 => decodeVCommonX w
  | 0x22 => decodeVInt w
  | 0x23 => decodeVIntX w
  | 0x24 => decodeVIntI w
  | 0x25 => decodeVFlt w
  | 0x26 => decodeVFltX w
  | 0x27 => decodeVCmp w
  | 0x28 => decodeVPred w
  | 0x29 => decodeVPerm w
  | 0x2A => decodeVRed w
  | 0x2B => decodeVConv w
  | 0x2C => decodeVSort w
  | 0x2D => decodeVAcc w
  | 0x30 => ifZero (w / 2 ^ 12 % 32 = 0) <| .ok (.vld (rd w) (Fin.ofNat 8 (w / 2 ^ 17)) (Fin.ofNat 16 (w / 2 ^ 8)) (MemFmt.ofCode (w / 2 ^ 5 % 8)) (r0 w))
  | 0x31 => .ok (.vlds (rd w) (Fin.ofNat 8 (w / 2 ^ 17)) (ri w) (Fin.ofNat 16 (w / 2 ^ 8)) (MemFmt.ofCode (w / 2 ^ 5 % 8)) (r0 w))
  | 0x32 => .ok (.vldx (rd w) (Fin.ofNat 8 (w / 2 ^ 17)) (ri w) (Fin.ofNat 16 (w / 2 ^ 8)) (MemFmt.ofCode (w / 2 ^ 5 % 8)) (r0 w))
  | 0x33 => .ok (.vldseg (rd w) (Fin.ofNat 8 (w / 2 ^ 17)) (ri w) (Fin.ofNat 16 (w / 2 ^ 8)) (MemFmt.ofCode (w / 2 ^ 5 % 8)) (r0 w))
  | 0x34 => .ok (.vldb (rd w) (Fin.ofNat 8 (w / 2 ^ 17)) (ri w) (Fin.ofNat 16 (w / 2 ^ 8)) (MemFmt.ofCode (w / 2 ^ 5 % 8)) (r0 w))
  | 0x35 => ifZero (w / 2 ^ 12 % 32 = 0) <| .ok (.vst (rd w) (Fin.ofNat 8 (w / 2 ^ 17)) (Fin.ofNat 16 (w / 2 ^ 8)) (MemFmt.ofCode (w / 2 ^ 5 % 8)) (r0 w))
  | 0x36 => .ok (.vsts (rd w) (Fin.ofNat 8 (w / 2 ^ 17)) (ri w) (Fin.ofNat 16 (w / 2 ^ 8)) (MemFmt.ofCode (w / 2 ^ 5 % 8)) (r0 w))
  | 0x37 => .ok (.vstx (rd w) (Fin.ofNat 8 (w / 2 ^ 17)) (ri w) (Fin.ofNat 16 (w / 2 ^ 8)) (MemFmt.ofCode (w / 2 ^ 5 % 8)) (r0 w))
  | 0x38 => .ok (.vstxu (rd w) (Fin.ofNat 8 (w / 2 ^ 17)) (ri w) (Fin.ofNat 16 (w / 2 ^ 8)) (MemFmt.ofCode (w / 2 ^ 5 % 8)) (r0 w))
  | 0x39 => .ok (.vstseg (rd w) (Fin.ofNat 8 (w / 2 ^ 17)) (ri w) (Fin.ofNat 16 (w / 2 ^ 8)) (MemFmt.ofCode (w / 2 ^ 5 % 8)) (r0 w))
  | 0x3A => decodeVamox w
  | 0x3B => decodeVSpecial w
  | 0x3C => decodeMOpnd w
  | 0x3D => decodeMComp w
  | 0x3E => decodeMDrain w
  | _ => .error .reservedMajor

/-- The decoder: a word read raw, then refused where its operands are reserved (R420, R423). -/
noncomputable def decode (w : Nat) : Except DecodeError Instr :=
  match decodeRaw w with
  | .ok i => if i.wf then .ok i else .error .reservedOperands
  | .error e => .error e

/-- Little-endian value of bytes (R5). -/
def leNat : List Byte → Nat
  | [] => 0
  | b :: bs => b.toNat + 256 * leNat bs

/-- The low `n` bytes of a number, little-endian (R5). -/
def leBytes : Nat → Nat → List Byte
  | 0, _ => []
  | n + 1, v => BitVec.ofNat 8 v :: leBytes n (v / 256)

/-- The decoder on bytes as memory holds them (R165). -/
noncomputable def decodeBytes : List Byte → Except DecodeError (Instr × List Byte)
  | a :: b :: c :: d :: rest =>
    match decode (leNat [a, b, c, d]) with
    | .ok i => .ok (i, rest)
    | .error e => .error e
  | _ => .error .truncated

/-- The host's question: the instruction the decoder reads from a word of the opcode table. -/
noncomputable def decodeTableWord (nbits w : Nat) : Option Instr :=
  match decodeBytes (leBytes 4 (w % 2 ^ nbits)) with
  | .ok (i, _) => some i
  | .error _ => none

/-- The word of an instruction, with C = 0, from the formats of R166 and R167; a step without encoding has none. -/
def encode : Instr → Option Nat
  | .add d a b => some (33554432 + d.val * 1048576 + a.val * 32768 + b.val * 1024)
  | .sub d a b => some (33554433 + d.val * 1048576 + a.val * 32768 + b.val * 1024)
  | .and d a b => some (33554434 + d.val * 1048576 + a.val * 32768 + b.val * 1024)
  | .or d a b => some (33554435 + d.val * 1048576 + a.val * 32768 + b.val * 1024)
  | .xor d a b => some (33554436 + d.val * 1048576 + a.val * 32768 + b.val * 1024)
  | .sll d a b => some (33554437 + d.val * 1048576 + a.val * 32768 + b.val * 1024)
  | .srl d a b => some (33554438 + d.val * 1048576 + a.val * 32768 + b.val * 1024)
  | .sra d a b => some (33554439 + d.val * 1048576 + a.val * 32768 + b.val * 1024)
  | .slt d a b => some (33554440 + d.val * 1048576 + a.val * 32768 + b.val * 1024)
  | .sltu d a b => some (33554441 + d.val * 1048576 + a.val * 32768 + b.val * 1024)
  | .min d a b => some (33554442 + d.val * 1048576 + a.val * 32768 + b.val * 1024)
  | .max d a b => some (33554443 + d.val * 1048576 + a.val * 32768 + b.val * 1024)
  | .minu d a b => some (33554444 + d.val * 1048576 + a.val * 32768 + b.val * 1024)
  | .maxu d a b => some (33554445 + d.val * 1048576 + a.val * 32768 + b.val * 1024)
  | .addw d a b => some (33554446 + d.val * 1048576 + a.val * 32768 + b.val * 1024)
  | .subw d a b => some (33554447 + d.val * 1048576 + a.val * 32768 + b.val * 1024)
  | .mul d a b => some (67108864 + d.val * 1048576 + a.val * 32768 + b.val * 1024)
  | .mulh d a b => some (67108865 + d.val * 1048576 + a.val * 32768 + b.val * 1024)
  | .mulhu d a b => some (67108866 + d.val * 1048576 + a.val * 32768 + b.val * 1024)
  | .div d a b => some (67108867 + d.val * 1048576 + a.val * 32768 + b.val * 1024)
  | .divu d a b => some (67108868 + d.val * 1048576 + a.val * 32768 + b.val * 1024)
  | .rem d a b => some (67108869 + d.val * 1048576 + a.val * 32768 + b.val * 1024)
  | .remu d a b => some (67108870 + d.val * 1048576 + a.val * 32768 + b.val * 1024)
  | .clz d a => some (100663296 + d.val * 1048576 + a.val * 32768)
  | .ctz d a => some (100663297 + d.val * 1048576 + a.val * 32768)
  | .popc d a => some (100663298 + d.val * 1048576 + a.val * 32768)
  | .sextb d a => some (100663299 + d.val * 1048576 + a.val * 32768)
  | .sexth d a => some (100663300 + d.val * 1048576 + a.val * 32768)
  | .sextw d a => some (100663301 + d.val * 1048576 + a.val * 32768)
  | .zextw d a => some (100663302 + d.val * 1048576 + a.val * 32768)
  | .bswap d a => some (100663303 + d.val * 1048576 + a.val * 32768)
  | .addi d a i => some (134217728 + d.val * 1048576 + a.val * 32768 + i.toNat)
  | .andi d a i => some (167772160 + d.val * 1048576 + a.val * 32768 + i.toNat)
  | .ori d a i => some (201326592 + d.val * 1048576 + a.val * 32768 + i.toNat)
  | .xori d a i => some (234881024 + d.val * 1048576 + a.val * 32768 + i.toNat)
  | .slti d a i => some (268435456 + d.val * 1048576 + a.val * 32768 + i.toNat)
  | .sltiu d a i => some (301989888 + d.val * 1048576 + a.val * 32768 + i.toNat)
  | .slli d a s => some (335544320 + d.val * 1048576 + a.val * 32768 + s.val)
  | .srli d a s => some (335544384 + d.val * 1048576 + a.val * 32768 + s.val)
  | .srai d a s => some (335544448 + d.val * 1048576 + a.val * 32768 + s.val)
  | .li d i => some (369098752 + d.val * 1048576 + i.toNat)
  | .lis d i => some (402653184 + d.val * 1048576 + i.toNat)
  | .addpc d i => some (436207616 + d.val * 1048576 + i.toNat)
  | .ld d a cls sz o => some (469762048 + d.val * 1048576 + a.val * 32768 + cls.val * 2048 + sz.code * 512 + o.toNat)
  | .ldu d a cls sz o => some (469762304 + d.val * 1048576 + a.val * 32768 + cls.val * 2048 + sz.code * 512 + o.toNat)
  | .st s a cls sz o => some (503316480 + s.val * 1048576 + a.val * 32768 + cls.val * 2048 + sz.code * 512 + o.toNat)
  | .beq a b o => some (536870912 + a.val * 1048576 + b.val * 32768 + o.toNat)
  | .bne a b o => some (536875008 + a.val * 1048576 + b.val * 32768 + o.toNat)
  | .blt a b o => some (536879104 + a.val * 1048576 + b.val * 32768 + o.toNat)
  | .bge a b o => some (536883200 + a.val * 1048576 + b.val * 32768 + o.toNat)
  | .bltu a b o => some (536887296 + a.val * 1048576 + b.val * 32768 + o.toNat)
  | .bgeu a b o => some (536891392 + a.val * 1048576 + b.val * 32768 + o.toNat)
  | .jal d o => some (570425344 + d.val * 1048576 + o.toNat)
  | .jalr d a i => some (603979776 + d.val * 1048576 + a.val * 32768 + i.toNat)
  | .strip n mask o => some (637534208 + n.val * 1048576 + mask.toNat * 4096 + o.toNat)
  | .loop n off => some (671088640 + n.val * 1048576 + off.val)
  | .loopi n off => some (671612928 + n.val * 1048576 + off.val)
  | .joinW => some (704643072)
  | .joinN => some (704643073)
  | .detach => some (704643074)
  | .exit => some (704643075)
  | .yield => some (704643076)
  | .fork a b => some (704643077 + a.val * 32768 + b.val * 1024)
  | .rendezvous id => some (704643078 + id.val * 32)
  | .fence mask sc => some (738197504 + mask.toNat * 512 + sc.code * 64)
  | .barArrive d b id sc => some (738197505 + d.val * 1048576 + b.val * 32768 + id.val * 512 + sc.code * 64)
  | .barWait d a id => some (738197506 + d.val * 1048576 + a.val * 32768 + id.val * 512)
  | .barInit a id => some (738197507 + a.val * 32768 + id.val * 512)
  | .uiret => some (738197508)
  | .uimask d a => some (738197509 + d.val * 1048576 + a.val * 32768)
  | .csrr d csr => some (771751936 + d.val * 1048576 + csr.code * 32)
  | .csrw d a csr => some (771751937 + d.val * 1048576 + a.val * 32768 + csr.code * 32)
  | .csrs d a csr => some (771751938 + d.val * 1048576 + a.val * 32768 + csr.code * 32)
  | .csrc d a csr => some (771751939 + d.val * 1048576 + a.val * 32768 + csr.code * 32)
  | .setvl d a w => some (771751940 + d.val * 1048576 + a.val * 32768 + w.code * 32)
  | .vtag v n t => some (771751941 + v.val * 1048576 + n.val * 32768 + t.code * 1024)
  | .svset a k => some (771751942 + a.val * 32768 + k.val * 32)
  | .svget d k => some (771751943 + d.val * 1048576 + k.val * 32)
  | .launch d a => some (771751944 + d.val * 1048576 + a.val * 32768)
  | .syscall => some (771751945)
  | .eret => some (771751946)
  | .invas a b allAddr allAsid => some (771751947 + a.val * 32768 + b.val * 1024 + allAddr.toNat * 32 + allAsid.toNat * 64)
  | .bankcfg d a b => some (771751948 + d.val * 1048576 + a.val * 32768 + b.val * 1024)
  | .brk => some (771751949)
  | .ldv d a b cls => some (805306368 + d.val * 1048576 + a.val * 32768 + b.val * 1024 + cls.val * 32)
  | .vrqry d a w => some (805306369 + d.val * 1048576 + a.val * 32768 + w.val * 32)
  | .vpub v a b cls => some (838860800 + v.val * 1048576 + a.val * 32768 + b.val * 1024 + cls.val * 32)
  | .vretire a b slot => some (838860801 + a.val * 32768 + b.val * 1024 + slot.val * 32)
  | .vrdecl d a => some (838860802 + d.val * 1048576 + a.val * 32768)
  | .vrfree d a => some (838860803 + d.val * 1048576 + a.val * 32768)
  | .job d a => some (872415232 + d.val * 1048576 + a.val * 32768)
  | .stream n b sz => some (889192449 + n.val * 1048576 + b.val * 1024 + sz.code * 32)
  | .streamoff n => some (889192450 + n.val * 1048576)
  | .sxopen d a sid => some (905969664 + d.val * 1048576 + a.val * 32768 + sid.val * 32)
  | .sxsplit d a sid => some (905969665 + d.val * 1048576 + a.val * 32768 + sid.val * 32)
  | .sxround d sid => some (905969666 + d.val * 1048576 + sid.val * 32)
  | .sxresplit d sid => some (905969667 + d.val * 1048576 + sid.val * 32)
  | .sxclose d sid => some (905969668 + d.val * 1048576 + sid.val * 32)
  | .sxcloseAbort d sid => some (905970180 + d.val * 1048576 + sid.val * 32)
  | .sxsend k p sid m => some (939524096 + k.val * 1048576 + p.val * 32768 + sid.val * 1024 + m.val * 32)
  | .sxsendNew k p sid m => some (939524097 + k.val * 1048576 + p.val * 32768 + sid.val * 1024 + m.val * 32)
  | .sxrecv k p sid f => some (939524098 + k.val * 1048576 + p.val * 32768 + sid.val * 1024 + f.val * 32)
  | .sxstat d sid => some (939524099 + d.val * 1048576 + sid.val * 1024)
  | .amoadd d a b cls => some (973078528 + d.val * 1048576 + a.val * 32768 + b.val * 1024 + cls.val * 64)
  | .amomin d a b cls => some (973078529 + d.val * 1048576 + a.val * 32768 + b.val * 1024 + cls.val * 64)
  | .amomax d a b cls => some (973078530 + d.val * 1048576 + a.val * 32768 + b.val * 1024 + cls.val * 64)
  | .amominu d a b cls => some (973078531 + d.val * 1048576 + a.val * 32768 + b.val * 1024 + cls.val * 64)
  | .amomaxu d a b cls => some (973078532 + d.val * 1048576 + a.val * 32768 + b.val * 1024 + cls.val * 64)
  | .amoand d a b cls => some (973078533 + d.val * 1048576 + a.val * 32768 + b.val * 1024 + cls.val * 64)
  | .amoor d a b cls => some (973078534 + d.val * 1048576 + a.val * 32768 + b.val * 1024 + cls.val * 64)
  | .amoxor d a b cls => some (973078535 + d.val * 1048576 + a.val * 32768 + b.val * 1024 + cls.val * 64)
  | .amoswap d a b cls => some (973078536 + d.val * 1048576 + a.val * 32768 + b.val * 1024 + cls.val * 64)
  | .amocas d a b cls => some (973078537 + d.val * 1048576 + a.val * 32768 + b.val * 1024 + cls.val * 64)
  | .amoaddW d a b cls => some (973078544 + d.val * 1048576 + a.val * 32768 + b.val * 1024 + cls.val * 64)
  | .amominW d a b cls => some (973078545 + d.val * 1048576 + a.val * 32768 + b.val * 1024 + cls.val * 64)
  | .amomaxW d a b cls => some (973078546 + d.val * 1048576 + a.val * 32768 + b.val * 1024 + cls.val * 64)
  | .amominuW d a b cls => some (973078547 + d.val * 1048576 + a.val * 32768 + b.val * 1024 + cls.val * 64)
  | .amomaxuW d a b cls => some (973078548 + d.val * 1048576 + a.val * 32768 + b.val * 1024 + cls.val * 64)
  | .amoandW d a b cls => some (973078549 + d.val * 1048576 + a.val * 32768 + b.val * 1024 + cls.val * 64)
  | .amoorW d a b cls => some (973078550 + d.val * 1048576 + a.val * 32768 + b.val * 1024 + cls.val * 64)
  | .amoxorW d a b cls => some (973078551 + d.val * 1048576 + a.val * 32768 + b.val * 1024 + cls.val * 64)
  | .amoswapW d a b cls => some (973078552 + d.val * 1048576 + a.val * 32768 + b.val * 1024 + cls.val * 64)
  | .amocasW d a b cls => some (973078553 + d.val * 1048576 + a.val * 32768 + b.val * 1024 + cls.val * 64)
  | .topkins a b cls => some (973078560 + a.val * 32768 + b.val * 1024 + cls.val * 64)
  | .waitc l s p t => some (1006632960 + l.val * 2097152 + s.val * 131072 + p.val * 8192 + t.val * 512)
  | .vadd d a b m => some (1073741824 + d.val * 1048576 + a.val * 32768 + b.val * 1024 + m.val * 32)
  | .vsub d a b m => some (1073741825 + d.val * 1048576 + a.val * 32768 + b.val * 1024 + m.val * 32)
  | .vmul d a b m => some (1073741826 + d.val * 1048576 + a.val * 32768 + b.val * 1024 + m.val * 32)
  | .vmin d a b m => some (1073741827 + d.val * 1048576 + a.val * 32768 + b.val * 1024 + m.val * 32)
  | .vmax d a b m => some (1073741828 + d.val * 1048576 + a.val * 32768 + b.val * 1024 + m.val * 32)
  | .vabs d a m => some (1073741829 + d.val * 1048576 + a.val * 32768 + m.val * 32)
  | .vneg d a m => some (1073741830 + d.val * 1048576 + a.val * 32768 + m.val * 32)
  | .vmerge d a b m => some (1073741831 + d.val * 1048576 + a.val * 32768 + b.val * 1024 + m.val * 32)
  | .vmv d a m => some (1073741832 + d.val * 1048576 + a.val * 32768 + m.val * 32)
  | .vbcast d a m => some (1073741833 + d.val * 1048576 + a.val * 32768 + m.val * 32)
  | .vaddVx d a x m => some (1107296256 + d.val * 1048576 + a.val * 32768 + x.val * 1024 + m.val * 32)
  | .vsubVx d a x m => some (1107296257 + d.val * 1048576 + a.val * 32768 + x.val * 1024 + m.val * 32)
  | .vmulVx d a x m => some (1107296258 + d.val * 1048576 + a.val * 32768 + x.val * 1024 + m.val * 32)
  | .vminVx d a x m => some (1107296259 + d.val * 1048576 + a.val * 32768 + x.val * 1024 + m.val * 32)
  | .vmaxVx d a x m => some (1107296260 + d.val * 1048576 + a.val * 32768 + x.val * 1024 + m.val * 32)
  | .vmergeVx d a x m => some (1107296263 + d.val * 1048576 + a.val * 32768 + x.val * 1024 + m.val * 32)
  | .vbcastVx d x m => some (1107296265 + d.val * 1048576 + x.val * 1024 + m.val * 32)
  | .vand d a b m => some (1140850688 + d.val * 1048576 + a.val * 32768 + b.val * 1024 + m.val * 32)
  | .vor d a b m => some (1140850689 + d.val * 1048576 + a.val * 32768 + b.val * 1024 + m.val * 32)
  | .vxor d a b m => some (1140850690 + d.val * 1048576 + a.val * 32768 + b.val * 1024 + m.val * 32)
  | .vsll d a b m => some (1140850691 + d.val * 1048576 + a.val * 32768 + b.val * 1024 + m.val * 32)
  | .vsrl d a b m => some (1140850692 + d.val * 1048576 + a.val * 32768 + b.val * 1024 + m.val * 32)
  | .vsra d a b m => some (1140850693 + d.val * 1048576 + a.val * 32768 + b.val * 1024 + m.val * 32)
  | .vminu d a b m => some (1140850694 + d.val * 1048576 + a.val * 32768 + b.val * 1024 + m.val * 32)
  | .vmaxu d a b m => some (1140850695 + d.val * 1048576 + a.val * 32768 + b.val * 1024 + m.val * 32)
  | .vmulh d a b m => some (1140850696 + d.val * 1048576 + a.val * 32768 + b.val * 1024 + m.val * 32)
  | .vmulhu d a b m => some (1140850697 + d.val * 1048576 + a.val * 32768 + b.val * 1024 + m.val * 32)
  | .vadc d a b p => some (1140850698 + d.val * 1048576 + a.val * 32768 + b.val * 1024 + p.val * 32)
  | .vsbc d a b p => some (1140850699 + d.val * 1048576 + a.val * 32768 + b.val * 1024 + p.val * 32)
  | .vadds d a b m => some (1140850700 + d.val * 1048576 + a.val * 32768 + b.val * 1024 + m.val * 32)
  | .vsubs d a b m => some (1140850701 + d.val * 1048576 + a.val * 32768 + b.val * 1024 + m.val * 32)
  | .vaddsu d a b m => some (1140850702 + d.val * 1048576 + a.val * 32768 + b.val * 1024 + m.val * 32)
  | .vsubsu d a b m => some (1140850703 + d.val * 1048576 + a.val * 32768 + b.val * 1024 + m.val * 32)
  | .vsrar d a b m => some (1140850704 + d.val * 1048576 + a.val * 32768 + b.val * 1024 + m.val * 32)
  | .vsrlr d a b m => some (1140850705 + d.val * 1048576 + a.val * 32768 + b.val * 1024 + m.val * 32)
  | .vdot2 d a b m => some (1140850706 + d.val * 1048576 + a.val * 32768 + b.val * 1024 + m.val * 32)
  | .vabsd d a b m => some (1140850707 + d.val * 1048576 + a.val * 32768 + b.val * 1024 + m.val * 32)
  | .vclz d a m => some (1140850708 + d.val * 1048576 + a.val * 32768 + m.val * 32)
  | .vpopc d a m => some (1140850709 + d.val * 1048576 + a.val * 32768 + m.val * 32)
  | .vandVx d a x m => some (1174405120 + d.val * 1048576 + a.val * 32768 + x.val * 1024 + m.val * 32)
  | .vorVx d a x m => some (1174405121 + d.val * 1048576 + a.val * 32768 + x.val * 1024 + m.val * 32)
  | .vxorVx d a x m => some (1174405122 + d.val * 1048576 + a.val * 32768 + x.val * 1024 + m.val * 32)
  | .vsllVx d a x m => some (1174405123 + d.val * 1048576 + a.val * 32768 + x.val * 1024 + m.val * 32)
  | .vsrlVx d a x m => some (1174405124 + d.val * 1048576 + a.val * 32768 + x.val * 1024 + m.val * 32)
  | .vsraVx d a x m => some (1174405125 + d.val * 1048576 + a.val * 32768 + x.val * 1024 + m.val * 32)
  | .vminuVx d a x m => some (1174405126 + d.val * 1048576 + a.val * 32768 + x.val * 1024 + m.val * 32)
  | .vmaxuVx d a x m => some (1174405127 + d.val * 1048576 + a.val * 32768 + x.val * 1024 + m.val * 32)
  | .vmulhVx d a x m => some (1174405128 + d.val * 1048576 + a.val * 32768 + x.val * 1024 + m.val * 32)
  | .vmulhuVx d a x m => some (1174405129 + d.val * 1048576 + a.val * 32768 + x.val * 1024 + m.val * 32)
  | .vaddsVx d a x m => some (1174405132 + d.val * 1048576 + a.val * 32768 + x.val * 1024 + m.val * 32)
  | .vsubsVx d a x m => some (1174405133 + d.val * 1048576 + a.val * 32768 + x.val * 1024 + m.val * 32)
  | .vaddsuVx d a x m => some (1174405134 + d.val * 1048576 + a.val * 32768 + x.val * 1024 + m.val * 32)
  | .vsubsuVx d a x m => some (1174405135 + d.val * 1048576 + a.val * 32768 + x.val * 1024 + m.val * 32)
  | .vsrarVx d a x m => some (1174405136 + d.val * 1048576 + a.val * 32768 + x.val * 1024 + m.val * 32)
  | .vsrlrVx d a x m => some (1174405137 + d.val * 1048576 + a.val * 32768 + x.val * 1024 + m.val * 32)
  | .vabsdVx d a x m => some (1174405139 + d.val * 1048576 + a.val * 32768 + x.val * 1024 + m.val * 32)
  | .vandVi d a i m => some (1207959552 + d.val * 1048576 + a.val * 32768 + i.toNat * 1024 + m.val * 32)
  | .vorVi d a i m => some (1207959553 + d.val * 1048576 + a.val * 32768 + i.toNat * 1024 + m.val * 32)
  | .vxorVi d a i m => some (1207959554 + d.val * 1048576 + a.val * 32768 + i.toNat * 1024 + m.val * 32)
  | .vsllVi d a i m => some (1207959555 + d.val * 1048576 + a.val * 32768 + i.toNat * 1024 + m.val * 32)
  | .vsrlVi d a i m => some (1207959556 + d.val * 1048576 + a.val * 32768 + i.toNat * 1024 + m.val * 32)
  | .vsraVi d a i m => some (1207959557 + d.val * 1048576 + a.val * 32768 + i.toNat * 1024 + m.val * 32)
  | .vminuVi d a i m => some (1207959558 + d.val * 1048576 + a.val * 32768 + i.toNat * 1024 + m.val * 32)
  | .vmaxuVi d a i m => some (1207959559 + d.val * 1048576 + a.val * 32768 + i.toNat * 1024 + m.val * 32)
  | .vaddsVi d a i m => some (1207959564 + d.val * 1048576 + a.val * 32768 + i.toNat * 1024 + m.val * 32)
  | .vsubsVi d a i m => some (1207959565 + d.val * 1048576 + a.val * 32768 + i.toNat * 1024 + m.val * 32)
  | .vaddsuVi d a i m => some (1207959566 + d.val * 1048576 + a.val * 32768 + i.toNat * 1024 + m.val * 32)
  | .vsubsuVi d a i m => some (1207959567 + d.val * 1048576 + a.val * 32768 + i.toNat * 1024 + m.val * 32)
  | .vsrarVi d a i m => some (1207959568 + d.val * 1048576 + a.val * 32768 + i.toNat * 1024 + m.val * 32)
  | .vsrlrVi d a i m => some (1207959569 + d.val * 1048576 + a.val * 32768 + i.toNat * 1024 + m.val * 32)
  | .vfma d a b m => some (1241513984 + d.val * 1048576 + a.val * 32768 + b.val * 1024 + m.val * 32)
  | .vfms d a b m => some (1241513985 + d.val * 1048576 + a.val * 32768 + b.val * 1024 + m.val * 32)
  | .vfnma d a b m => some (1241513986 + d.val * 1048576 + a.val * 32768 + b.val * 1024 + m.val * 32)
  | .vdiv d a b m => some (1241513987 + d.val * 1048576 + a.val * 32768 + b.val * 1024 + m.val * 32)
  | .vsqrt d a m => some (1241513988 + d.val * 1048576 + a.val * 32768 + m.val * 32)
  | .vrcp d a m => some (1241513989 + d.val * 1048576 + a.val * 32768 + m.val * 32)
  | .vrsq d a m => some (1241513990 + d.val * 1048576 + a.val * 32768 + m.val * 32)
  | .vexp2 d a m => some (1241513991 + d.val * 1048576 + a.val * 32768 + m.val * 32)
  | .vlog2 d a m => some (1241513992 + d.val * 1048576 + a.val * 32768 + m.val * 32)
  | .vtanh d a m => some (1241513993 + d.val * 1048576 + a.val * 32768 + m.val * 32)
  | .vclass d a m => some (1241513994 + d.val * 1048576 + a.val * 32768 + m.val * 32)
  | .vfmaVx d a x m => some (1275068416 + d.val * 1048576 + a.val * 32768 + x.val * 1024 + m.val * 32)
  | .vfmsVx d a x m => some (1275068417 + d.val * 1048576 + a.val * 32768 + x.val * 1024 + m.val * 32)
  | .vfnmaVx d a x m => some (1275068418 + d.val * 1048576 + a.val * 32768 + x.val * 1024 + m.val * 32)
  | .vdivVx d a x m => some (1275068419 + d.val * 1048576 + a.val * 32768 + x.val * 1024 + m.val * 32)
  | .vcmpeq p a b m => some (1308622848 + p.val * 1048576 + a.val * 32768 + b.val * 1024 + m.val * 32)
  | .vcmpne p a b m => some (1308622849 + p.val * 1048576 + a.val * 32768 + b.val * 1024 + m.val * 32)
  | .vcmplt p a b m => some (1308622850 + p.val * 1048576 + a.val * 32768 + b.val * 1024 + m.val * 32)
  | .vcmple p a b m => some (1308622851 + p.val * 1048576 + a.val * 32768 + b.val * 1024 + m.val * 32)
  | .vcmpltu p a b m => some (1308622852 + p.val * 1048576 + a.val * 32768 + b.val * 1024 + m.val * 32)
  | .vcmpleu p a b m => some (1308622853 + p.val * 1048576 + a.val * 32768 + b.val * 1024 + m.val * 32)
  | .vcmpun p a b m => some (1308622854 + p.val * 1048576 + a.val * 32768 + b.val * 1024 + m.val * 32)
  | .vcmpeqVx p a x m => some (1308622864 + p.val * 1048576 + a.val * 32768 + x.val * 1024 + m.val * 32)
  | .vcmpneVx p a x m => some (1308622865 + p.val * 1048576 + a.val * 32768 + x.val * 1024 + m.val * 32)
  | .vcmpltVx p a x m => some (1308622866 + p.val * 1048576 + a.val * 32768 + x.val * 1024 + m.val * 32)
  | .vcmpleVx p a x m => some (1308622867 + p.val * 1048576 + a.val * 32768 + x.val * 1024 + m.val * 32)
  | .vcmpltuVx p a x m => some (1308622868 + p.val * 1048576 + a.val * 32768 + x.val * 1024 + m.val * 32)
  | .vcmpleuVx p a x m => some (1308622869 + p.val * 1048576 + a.val * 32768 + x.val * 1024 + m.val * 32)
  | .vcmpunVx p a x m => some (1308622870 + p.val * 1048576 + a.val * 32768 + x.val * 1024 + m.val * 32)
  | .pand d a b => some (1342177280 + d.val * 1048576 + a.val * 32768 + b.val * 1024)
  | .por d a b => some (1342177281 + d.val * 1048576 + a.val * 32768 + b.val * 1024)
  | .pxor d a b => some (1342177282 + d.val * 1048576 + a.val * 32768 + b.val * 1024)
  | .pandn d a b => some (1342177283 + d.val * 1048576 + a.val * 32768 + b.val * 1024)
  | .pnot d a => some (1342177284 + d.val * 1048576 + a.val * 32768)
  | .pshl d a x => some (1342177285 + d.val * 1048576 + a.val * 32768 + x.val * 1024)
  | .pshr d a x => some (1342177286 + d.val * 1048576 + a.val * 32768 + x.val * 1024)
  | .pmv d a => some (1342177287 + d.val * 1048576 + a.val * 32768)
  | .pset d t => some (1342177288 + d.val * 1048576 + t.val * 1024)
  | .pcnt d a => some (1342177289 + d.val * 1048576 + a.val * 32768)
  | .pfirst d a => some (1342177290 + d.val * 1048576 + a.val * 32768)
  | .plast d a => some (1342177291 + d.val * 1048576 + a.val * 32768)
  | .pmovx d a j => some (1342177292 + d.val * 1048576 + a.val * 32768 + j.val * 1024)
  | .pfromx d a j => some (1342177293 + d.val * 1048576 + a.val * 32768 + j.val * 1024)
  | .vslide1up d a x m => some (1375731712 + d.val * 1048576 + a.val * 32768 + x.val * 1024 + m.val * 32)
  | .vslide1dn d a x m => some (1375731713 + d.val * 1048576 + a.val * 32768 + x.val * 1024 + m.val * 32)
  | .vslideup d a x m => some (1375731714 + d.val * 1048576 + a.val * 32768 + x.val * 1024 + m.val * 32)
  | .vslidedn d a x m => some (1375731715 + d.val * 1048576 + a.val * 32768 + x.val * 1024 + m.val * 32)
  | .vgather d a b m => some (1375731716 + d.val * 1048576 + a.val * 32768 + b.val * 1024 + m.val * 32)
  | .vcompress d a m => some (1375731717 + d.val * 1048576 + a.val * 32768 + m.val * 32)
  | .vexpand d a m => some (1375731718 + d.val * 1048576 + a.val * 32768 + m.val * 32)
  | .vrev d a m => some (1375731719 + d.val * 1048576 + a.val * 32768 + m.val * 32)
  | .vhad d a k m => some (1375731720 + d.val * 1048576 + a.val * 32768 + k.val * 1024 + m.val * 32)
  | .vzip d a b m => some (1375731721 + d.val * 1048576 + a.val * 32768 + b.val * 1024 + m.val * 32)
  | .vunzip d a b m => some (1375731722 + d.val * 1048576 + a.val * 32768 + b.val * 1024 + m.val * 32)
  | .vredsum d a b m => some (1409286144 + d.val * 1048576 + a.val * 32768 + b.val * 1024 + m.val * 32)
  | .vredsumu d a b m => some (1409286145 + d.val * 1048576 + a.val * 32768 + b.val * 1024 + m.val * 32)
  | .vredmax d a b m => some (1409286146 + d.val * 1048576 + a.val * 32768 + b.val * 1024 + m.val * 32)
  | .vredmin d a b m => some (1409286147 + d.val * 1048576 + a.val * 32768 + b.val * 1024 + m.val * 32)
  | .vscan d a b m => some (1409286148 + d.val * 1048576 + a.val * 32768 + b.val * 1024 + m.val * 32)
  | .vscanf d a b m => some (1409286149 + d.val * 1048576 + a.val * 32768 + b.val * 1024 + m.val * 32)
  | .vcvt d a q t m => some (1442840576 + d.val * 1048576 + a.val * 32768 + q.val * 8192 + t.code * 1024 + m.val * 32)
  | .vcvts d a q m => some (1442840577 + d.val * 1048576 + a.val * 32768 + q.val * 8192 + m.val * 32)
  | .vrand d m => some (1442840578 + d.val * 1048576 + m.val * 32)
  | .vqscale d a f m => some (1442840579 + d.val * 1048576 + a.val * 32768 + f.code * 1024 + m.val * 32)
  | .viota d m => some (1442840580 + d.val * 1048576 + m.val * 32)
  | .vmvxs d a i m => some (1442840581 + d.val * 1048576 + a.val * 32768 + i.val * 1024 + m.val * 32)
  | .vmvsx d x m => some (1442840582 + d.val * 1048576 + x.val * 1024 + m.val * 32)
  | .vsort d a m => some (1476395008 + d.val * 1048576 + a.val * 32768 + m.val * 32)
  | .vsortd d a m => some (1476395009 + d.val * 1048576 + a.val * 32768 + m.val * 32)
  | .vmergek d a b => some (1476395010 + d.val * 1048576 + a.val * 32768 + b.val * 1024)
  | .vseghead p a m => some (1476395011 + p.val * 1048576 + a.val * 32768 + m.val * 32)
  | .vtopk d a x m => some (1476395012 + d.val * 1048576 + a.val * 32768 + x.val * 1024 + m.val * 32)
  | .vaccrd d x m => some (1509949440 + d.val * 1048576 + x.val * 1024 + m.val * 32)
  | .vaccwr s x m => some (1509949441 + s.val * 1048576 + x.val * 1024 + m.val * 32)
  | .vld d n cls f m => some (1610612736 + d.val * 1048576 + n.val * 131072 + cls.val * 256 + f.code * 32 + m.val)
  | .vlds d n s cls f m => some (1644167168 + d.val * 1048576 + n.val * 131072 + s.val * 4096 + cls.val * 256 + f.code * 32 + m.val)
  | .vldx d n i cls f m => some (1677721600 + d.val * 1048576 + n.val * 131072 + i.val * 4096 + cls.val * 256 + f.code * 32 + m.val)
  | .vldseg d n e cls f m => some (1711276032 + d.val * 1048576 + n.val * 131072 + e.val * 4096 + cls.val * 256 + f.code * 32 + m.val)
  | .vldb d n i cls f p => some (1744830464 + d.val * 1048576 + n.val * 131072 + i.val * 4096 + cls.val * 256 + f.code * 32 + p.val)
  | .vst s n cls f m => some (1778384896 + s.val * 1048576 + n.val * 131072 + cls.val * 256 + f.code * 32 + m.val)
  | .vsts s n x cls f m => some (1811939328 + s.val * 1048576 + n.val * 131072 + x.val * 4096 + cls.val * 256 + f.code * 32 + m.val)
  | .vstx s n i cls f m => some (1845493760 + s.val * 1048576 + n.val * 131072 + i.val * 4096 + cls.val * 256 + f.code * 32 + m.val)
  | .vstxu s n i cls f m => some (1879048192 + s.val * 1048576 + n.val * 131072 + i.val * 4096 + cls.val * 256 + f.code * 32 + m.val)
  | .vstseg s n e cls f m => some (1912602624 + s.val * 1048576 + n.val * 131072 + e.val * 4096 + cls.val * 256 + f.code * 32 + m.val)
  | .vamoxAdd s n i cls m => some (1946157056 + s.val * 1048576 + n.val * 131072 + i.val * 4096 + cls.val * 256 + m.val)
  | .vamoxAddu s n i cls m => some (1946157088 + s.val * 1048576 + n.val * 131072 + i.val * 4096 + cls.val * 256 + m.val)
  | .vamoxMin s n i cls m => some (1946157120 + s.val * 1048576 + n.val * 131072 + i.val * 4096 + cls.val * 256 + m.val)
  | .vamoxMax s n i cls m => some (1946157152 + s.val * 1048576 + n.val * 131072 + i.val * 4096 + cls.val * 256 + m.val)
  | .vamoxAnd s n i cls m => some (1946157184 + s.val * 1048576 + n.val * 131072 + i.val * 4096 + cls.val * 256 + m.val)
  | .vamoxOr s n i cls m => some (1946157216 + s.val * 1048576 + n.val * 131072 + i.val * 4096 + cls.val * 256 + m.val)
  | .vamoxXor s n i cls m => some (1946157248 + s.val * 1048576 + n.val * 131072 + i.val * 4096 + cls.val * 256 + m.val)
  | .vamoxSwap s n i cls m => some (1946157280 + s.val * 1048576 + n.val * 131072 + i.val * 4096 + cls.val * 256 + m.val)
  | .vldv d n v cls m => some (1979711488 + d.val * 1048576 + n.val * 131072 + v.val * 4096 + cls.val * 256 + m.val)
  | .vstv s n v cls => some (1979711520 + s.val * 1048576 + n.val * 131072 + v.val * 4096 + cls.val * 256)
  | .vpush s n cls m => some (1979711552 + s.val * 1048576 + n.val * 131072 + cls.val * 256 + m.val)
  | .vpop d n cls m => some (1979711584 + d.val * 1048576 + n.val * 131072 + cls.val * 256 + m.val)
  | .mgather a b g n s => some (2013265920 + a.val * 1048576 + b.val * 32768 + g.val * 1024 + n.val * 128 + s.val * 32)
  | .mldb a => some (2013265921 + a.val * 1048576)
  | .mcfg a => some (2013265922 + a.val * 1048576)
  | .mma s => some (2046820352 + s.val * 32)
  | .mzero => some (2046820353)
  | .mswap => some (2046820354)
  | .mwait w => some (2046820355 + w.val * 32)
  | .mdrain a b f => some (2080374784 + a.val * 1048576 + b.val * 32768 + f.code * 32)
  | .mstat d clear => some (2080374785 + d.val * 1048576 + clear.toNat * 32)
  | .aniseFetch _ => none
  | .privateFetch _ => none
  | .driftEviction _ => none
  | .issueVisit _ => none
  | .asyncReportTaken _ => none
  | .userInterruptTaken _ => none
  | .parking _ => none
  | .swapOnWait _ => none
  | .preEmption _ => none
  | .timeSharingExpiry _ => none
  | .strandRestore _ => none
  | .gangResident _ _ _ => none
  | .bankSwitchBegin _ _ => none
  | .bankSwitchEnd _ _ => none
  | .storePerformed _ => none
  | .vldbDataWrite _ => none
  | .transitWalkRetry _ => none
  | .transitTimeout _ => none
  | .versionedStoreStep _ _ _ _ => none
  | .versionWaitWake _ _ => none
  | .waitListRetry _ => none
  | .horizonPropagation _ _ => none
  | .barrierRegistration _ _ => none
  | .watchdogTimeout _ => none
  | .forkedProgramStart _ => none
  | .matrixInstructionBegin _ => none
  | .matrixInstructionComplete _ => none
  | .copy _ => none
  | .tile _ => none
  | .gather _ => none
  | .scatter _ => none
  | .pagegather _ => none
  | .fill _ => none
  | .digest _ => none
  | .jobCompletion _ => none
  | .doorbell _ _ => none
  | .ringEntryTake _ => none
  | .itemStart _ => none
  | .queueCreditTick => none
  | .launchComplete _ => none
  | .versionWaitNodeComplete _ _ => none
  | .sxRoundComplete _ _ => none
  | .sxRecordDelivery _ _ _ => none
  | .spanRequest _ _ _ => none
  | .fabricReply _ _ _ _ => none
  | .cancel _ _ _ => none
  | .fabricRequestTimeout _ => none
  | .lockedRouteTimeout _ => none
  | .portUnlock _ _ => none
  | .portDown _ => none
  | .linkTraining _ _ _ => none
  | .linkKeyUpdate _ => none
  | .pcfgWrite _ _ _ => none
  | .pmemWrite _ _ _ _ => none
  | .partitionEnableComplete _ => none
  | .prootWrite _ _ _ => none
  | .pinvalWrite _ _ _ => none
  | .pjobnWrite _ _ _ => none
  | .pexpnWrite _ _ _ => none
  | .pdeadwordWrite _ _ _ => none
  | .qcfgWrite _ _ _ => none
  | .registerWrite _ _ _ => none
  | .lockInterface _ => none
  | .startInterface _ => none
  | .stopInterface _ => none
  | .vfError _ => none
  | .heartbeatTimeout _ => none
  | .getVersion _ => none
  | .getCapabilities _ => none
  | .negotiateAlgorithms _ => none
  | .getDigests _ => none
  | .getCertificate _ => none
  | .challenge _ => none
  | .getMeasurements _ => none
  | .keyExchange _ => none
  | .finish _ => none
  | .keyUpdate _ => none
  | .heartbeat _ => none
  | .endSession _ => none
  | .getDebugNonce _ => none
  | .debugPolicySubmit _ _ => none
  | .measurementLogRead => none
  | .fuseMinimumRaise _ => none
  | .powerOn => none
  | .bringUpStage _ => none
  | .thermalHold => none
  | .thermalResume => none
  | .thermalTrip => none
  | .clusterDrain _ => none
  | .clusterFence _ => none
  | .rowSpare => none
  | .pageRetire _ => none
  | .moduleReset => none
  | .powerLoss => none
  | .laneFailure _ => none
  | .peerModuleStopped _ => none
  | .tagHoldExpiry _ => none
  | .hostAccess _ => none

end Sys2Proof
end

