-- ==== Sys2Proof/Config.lean ====
section
/-! DEFINITION. What an implementation fixes and the free values: constants without a body, of which nothing can be proved (log 4). -/

namespace Sys2Proof.Config

/-- Free value number `k`: the value of a point the spec leaves open at the `k`-th time the machine meets one (log 4). -/
opaque free : Nat → Nat

/-- Which line of a region's pool holds the data of a slot of a granule: region base, granule, slot (R109; log 69). -/
opaque versionLine : Nat → Nat → Nat → Nat

/-- Which slice of its die homes a line, numbered by address bits 51:7: a fixed function that is not given (R23, R65; log 72). -/
opaque homeSlice : Nat → Nat

/-- SHA-384 of a byte string, used by measurements only (R390); its value enters no instruction result but a comparison (log 30). -/
opaque sha384 : List Byte → BitVec 384

/-- Whether an SLH-DSA-SHA2-192s signature verifies: key, message, signature (R388, R391; log 30). -/
opaque slhDsaVerify : List Byte → List Byte → List Byte → Bool

/-- The tenant debug key of a partition, measured at LOCK_INTERFACE (R390, R391; log 30). -/
opaque tenantDebugKey : Nat → List Byte

/-- A firmware image as stored in the module, its signature, its security version, and the Baleiz key in ROM (R388; log 30). -/
opaque imageBytes : Nat → List Byte
opaque imageSignature : Nat → List Byte
opaque imageVersion : Nat → Nat
opaque baleizKey : List Byte

/-- What the tray's straps say: the package's fabric rank, and the mesh and torus sizes minus 1 in the layout of a rank (R369;
log 38). -/
opaque strapRank : Fin 4096
opaque strapSizes : BitVec 12

/-- What the choice of a path reads: the hash that draws M from the source rank and the message's number, and how deep the output
queue of a port is at a cycle (R373; log 79). -/
opaque valiantHash : Nat → Nat → Nat
opaque queueDepth : Nat → Nat → Nat

/-- The 128-byte lines of a DRAM row, by a free value: the spec gives rows no addresses (R443; log 4). -/
opaque sparedRow : Nat → List Nat

/-- The salt of a direction of a port's link under its `k`-th key (R376; log 79). -/
opaque linkSalt : Nat → Nat → Bool → BitVec 32

/-- Whether the partner of a port finds the tag of a flit wrong, and how many messages it has acknowledged by then: by the port, the
number of its key and the flit's counter (R376, R452; log 90). -/
opaque linkFails : Nat → Nat → Nat → Bool
opaque linkAcked : Nat → Nat → Nat → Nat

/-- What the spec gives no number or layout for in a flit: OP, the payload of a message without data, and the class under which
barrier and session messages travel (R375; log 79). -/
opaque flitOp : FlitBody → BitVec 6
opaque flitBody : FlitBody → List Byte
opaque messageClass : SpanOp → Fin 16

end Sys2Proof.Config
end

