-- ==== Sys2Proof/Machine/Hart.lean ====
section
/-! DEFINITION. The context of a strand or of a forked program: registers, CSRs, counters, waits, reports (R152, R154, R160). -/

namespace Sys2Proof.Machine

/-- Trap causes (R409). -/
inductive Cause
  | illegal | convoy | privilege | tag | deterministic | misaligned | loopWrite | engine | vectorLength
  | phaseToken | breakpoint | syscall | waitTimeout
  | notPresent | permission | partition | atomicTarget | bank
  | versionMissing | versionCollision | versionOrder | versionExhausted | versionTimeout | notVersioned
  | sxNotOpen | sxKeyOrder | sxPayload | sxRetired | sxSplitters
  | fabricTimeout | portLocked | unreachable
  | memoryError | bankError | parity
  deriving DecidableEq, Repr

/-- The code of a cause (R409). -/
def Cause.code : Cause → Nat
  | .illegal => 0x01 | .convoy => 0x02 | .privilege => 0x03 | .tag => 0x04 | .deterministic => 0x05
  | .misaligned => 0x06 | .loopWrite => 0x07 | .engine => 0x08 | .vectorLength => 0x09
  | .phaseToken => 0x0A | .breakpoint => 0x0B | .syscall => 0x0C | .waitTimeout => 0x0D
  | .notPresent => 0x10 | .permission => 0x11 | .partition => 0x12 | .atomicTarget => 0x13 | .bank => 0x14
  | .versionMissing => 0x18 | .versionCollision => 0x19 | .versionOrder => 0x1A
  | .versionExhausted => 0x1B | .versionTimeout => 0x1C | .notVersioned => 0x1D
  | .sxNotOpen => 0x20 | .sxKeyOrder => 0x21 | .sxPayload => 0x22 | .sxRetired => 0x23 | .sxSplitters => 0x24
  | .fabricTimeout => 0x28 | .portLocked => 0x29 | .unreachable => 0x2A
  | .memoryError => 0x30 | .bankError => 0x31 | .parity => 0x32

/-- The CSRs with a value of their own; STATUS, VTAGA, VTAGB, VCID, COORD and the counters are computed views (R160). -/
structure Csrs where
  fflags : BitVec 5
  rmode : BitVec 2
  satf : Bool
  planes : BitVec 4
  bscale : Word
  rngseed : Word
  rngctr : BitVec 32
  clscope : BitVec 48
  lcount : Word
  lstart : Word
  lend : Word
  uivec : Word
  uiepc : Word
  uicause : Word
  bump : Vector Word 8
  vl : BitVec 10
  width : BitVec 2
  vstart : BitVec 10
  vconv : BitVec 2
  vdirty : BitVec 32
  instret : Word
  stvec : Word
  sepc : Word
  scause : Word
  stval : Word
  sscratch : Word
  asid : BitVec 10
  troot : Word
  deriving DecidableEq, Repr

/-- The fields of STATUS (R162). -/
structure Status where
  lact : Bool
  uih : Bool
  att : Bool
  det : Bool
  uie : Bool
  spriv : Bool
  priv : Bool
  deriving DecidableEq, Repr

/-- The debug block (R164). -/
structure Debug where
  ctl : BitVec 3
  hit : BitVec 4
  bkaddr : Vector Word 4
  perfsel : BitVec 32
  perfcnt : Vector Word 4
  deriving DecidableEq, Repr

/-- The four outstanding-operation counters (R98). -/
structure Counters where
  loads : BitVec 16
  stores : BitVec 16
  copies : BitVec 16
  tiles : BitVec 16
  deriving DecidableEq, Repr

/-- A store, atomic, push or shape-variable store whose event has not been reached, oldest first (R98). -/
structure PendingStore where
  cls : Fin 16
  counted : Bool        -- a store of the control core is held but not counted (R154, R207)
  deriving DecidableEq, Repr

/-- Where a VLDB element's bytes come from: device memory read later, bits read at issue, or data that could not be read, with the
cause of R441 (R268). -/
inductive VldbSource
  | device (pa : Nat)
  | value (raw : Nat)
  | bad (cause : Cause)
  deriving DecidableEq, Repr

/-- The scale of a block: 2^s, or a NaN scale (R135). -/
inductive BlockScale
  | pow (s : Int)
  | nan
  deriving DecidableEq, Repr

/-- One element of a VLDB in flight: its virtual address, its source, the bit of its first byte it starts at, its scale. -/
structure VldbElem where
  va : Word
  source : VldbSource
  sub : Nat
  scale : BlockScale
  deriving DecidableEq, Repr

/-- A VLDB whose destination is not written yet (R268). -/
structure PendingVldb where
  cls : Fin 16
  dest : Reg
  pred : Reg
  tag : Tag
  fmt : MemFmt
  planes : Nat
  elems : List VldbElem
  dup : PredBits
  deriving DecidableEq, Repr

/-- An element that a VLDB filled from data that could not be read: its register, its number, its address, the cause that the report
will have (R268, R441). -/
structure BadElem where
  reg : Reg
  elem : Nat
  va : Word
  cause : Cause
  deriving DecidableEq, Repr

/-- What the instruction whose meaning ran did with control: MODEL (log 2). -/
inductive Flow
  | seq                                              -- falls through
  | jump (target : Word)                             -- next convoy at the target
  | trapped (atIssue : Bool) (pos elem : Nat) (cause : Cause) (stval : Word)
  | held (elem : Nat)                                -- waits or stalls; issues again later
  | cut (elem : Nat)                                 -- stopped by a pre-emption between two groups, or before a whole instruction (R38)
  | ended                                            -- the strand or forked program ended
  deriving DecidableEq, Repr

/-- The instruction in issue: MODEL (log 2). -/
structure Issue where
  flow : Flow
  pos : Nat               -- position in its convoy
  runPos : Nat            -- first position of its run of element-wise instructions (R37)
  lim : Option Nat        -- element at which its run stops, found by an earlier pass over the run
  draws : Nat             -- VRAND and VCVTS of the convoy so far (R142)
  ir : BitVec 32          -- its word
  judging : Bool          -- only the checks of its convoy are being made (R421)
  deriving DecidableEq, Repr

/-- What a strand waits for (R30, R434): `versionRefused` a versioned load that met a full wait list (R116), `fetch` a page that its
instruction fetch meets in transit (R436). -/
inductive WaitKind
  | barrierArrive | barrier | sxRound | sxRecv | versionLoad | versionRefused | versionStore | push | pop | counters
  | rendezvous | fork | join | page | fetch
  deriving DecidableEq, Repr

/-- A wait in progress (R30, R33): where it stands, the address or granule it concerns, the word of its instruction (R409), in `elem` its
element, of a BAR.WAIT that has been met its distance, of an SXROUND the round it closes,
its place in the order of arrival (R74, R116), whether its condition was met, the cause that ends it (R445, R450). -/
structure Wait where
  kind : WaitKind
  pos : Nat
  elem : Nat
  addr : Word
  ir : BitVec 32
  since : Nat
  met : Bool
  expired : Option Cause
  deriving DecidableEq, Repr

/-- An SXROUND whose wait a trap abandoned: in a notification handler or not, its convoy, its wait. Issued again there it closes the round
it arrived for (R333, R415). -/
structure Abandoned where
  uih : Bool
  pc : Word
  wait : Wait
  deriving DecidableEq, Repr

/-- The turn of a push or pop that is held by a bank's switch: at which address, and its place in the order of arrival (R72, R74). -/
structure BankTurn where
  kind : WaitKind
  addr : Word
  since : Nat
  deriving DecidableEq, Repr

/-- A pending asynchronous report (R410, R411). -/
structure Report where
  src : BitVec 2
  pos : Nat
  cause : Nat
  stval : Word
  deriving DecidableEq, Repr

/-- A stream bound to an address register (R78, R282). -/
structure StreamBinding where
  reg : Fin 8
  base : Word
  length : Word
  size : Size
  position : Word
  deriving DecidableEq, Repr

/-- Whether a hart runs, is being aborted (R414), or has ended. -/
inductive Phase
  | absent
  | running
  | aborting (cause : Nat) (stvec : Word)
  | exited
  deriving DecidableEq, Repr

/-- Where a strand's context is (R31, R32, R363). -/
inductive Saved | resident | parked | swapped
  deriving DecidableEq, Repr

/-- What executes: a strand, or the matrix control core of a cluster running a forked program (R25, R52). -/
inductive Engine | strand | control (c : Fin 64)
  deriving DecidableEq, Repr

/-- An answer of the fabric kept for the instruction that will consume it (R378, R455). -/
structure FabricReply where
  pos : Nat
  elem : Nat
  answer : Answer
  deriving DecidableEq, Repr

/-- A strand or forked program. -/
structure Hart where
  id : StrandId                        -- the strand, or the strand that forked the program
  engine : Engine
  phase : Phase
  saved : Saved
  part : Fin 8
  queue : Fin 64
  rank : Fin 4096
  x : Vector Word 32
  shadow : Vector Word 7
  pc : Word
  v : Vector VecBits 32
  p : Vector PredBits 32
  tags : Vector Tag 32
  csr : Csrs
  st : Status
  dbg : Debug
  cnt : Counters
  pending : List PendingStore
  storesIssued : Nat
  vldbs : List PendingVldb
  badV : List BadElem                  -- elements a VLDB filled from uncorrectable data, not reported yet (R268)
  nextJob : BitVec 32
  notifs : List Word                   -- pending notifications, as UICAUSE values, oldest first (R315)
  notifLost : Bool
  reports : List Report
  reportLost : Bool
  streams : List StreamBinding
  wait : Option Wait
  turn : Option BankTurn               -- a push or pop that a bank's switch holds: a memory stall, no wait (R72, R74)
  paused : Option (Word × Wait)        -- the wait a notification interrupted, and its convoy (R316)
  abandoned : List Abandoned           -- SXROUNDs whose waits traps abandoned, newest first (R415)
  streamNo : Nat                       -- stream number of the next convoy, while attached (R42)
  savedV : Vector VecBits 32           -- vector registers in the save area (R365)
  savedMask : BitVec 32                -- which of them hold the newest value (R365)
  area : List Host.Cell                -- cells of its part of the save area when it was saved (R366)
  deficit : Int                        -- beats the visit may still charge (R362)
  first : Bool                         -- no convoy has issued in this visit (R362)
  skipBreak : Option Word              -- the convoy an ERET returned to, which is not matched again (R417)
  arrived : Bool                       -- reached pc by a control transfer: first-word check due (R422)
  parityAt : Option Word               -- register found with a parity error, in the layout of R409
  replies : List FabricReply
  delivery : Option Nat                -- the trap whose handler has not been fetched yet (R414): MODEL (log 2)
  due : Option Cause                   -- the wait that the convoy in issue enters again ends in this cause (R445): MODEL (log 2)
  restored : Bool                      -- came back from a save; held reports are taken before its wait goes on (R288, R415)
  cut : Option (Fin 4 × Fin 64)        -- position, element group: where a pre-emption stops the next convoy (R38, R364; log 75)
  iss : Issue
  deriving DecidableEq, Repr

/-- CSRs at strand start (R127, R141, R160, R163, R352). -/
def Csrs.start : Csrs where
  fflags := 0
  rmode := 0
  satf := false
  planes := 8
  bscale := 0
  rngseed := 0
  rngctr := 0
  clscope := 0xD24924924924
  lcount := 0
  lstart := 0
  lend := 0
  uivec := 0
  uiepc := 0
  uicause := 0
  bump := Vector.replicate 8 0
  vl := 0
  width := 1
  vstart := 0
  vconv := 0
  vdirty := 0
  instret := 0
  stvec := 0
  sepc := 0
  scause := 0
  stval := 0
  sscratch := 0
  asid := 0
  troot := 0

/-- STATUS at strand start (R162); DET comes from the launch record. -/
def Status.start : Status where
  lact := false
  uih := false
  att := true
  det := false
  uie := false
  spriv := false
  priv := false

/-- The debug block at strand start (R352). -/
def Debug.start : Debug where
  ctl := 0
  hit := 0
  bkaddr := Vector.replicate 4 0
  perfsel := 0
  perfcnt := Vector.replicate 4 0

def Counters.zero : Counters := { loads := 0, stores := 0, copies := 0, tiles := 0 }

def Issue.idle : Issue := { flow := .seq, pos := 0, runPos := 0, lim := none, draws := 0, ir := 0, judging := false }

/-- A hart at strand start, before a launch has set it (R152, R352); at reset no launch has run, so it is absent (log 1). -/
def Hart.idle : Hart where
  id := { launch := 0, stage := 0, vcid := 0 }
  engine := .strand
  phase := .absent
  saved := .resident
  part := 0
  queue := 0
  rank := 0
  x := Vector.replicate 32 0
  shadow := Vector.replicate 7 0
  pc := 0
  v := Vector.replicate 32 0
  p := Vector.replicate 32 0
  tags := Vector.replicate 32 .i32
  csr := Csrs.start
  st := Status.start
  dbg := Debug.start
  cnt := Counters.zero
  pending := []
  storesIssued := 0
  vldbs := []
  badV := []
  nextJob := 1
  notifs := []
  notifLost := false
  reports := []
  reportLost := false
  streams := []
  wait := none
  turn := none
  paused := none
  abandoned := []
  streamNo := 0
  savedV := Vector.replicate 32 0
  savedMask := 0
  area := []
  deficit := 0
  first := true
  skipBreak := none
  arrived := false
  parityAt := none
  replies := []
  delivery := none
  due := none
  restored := false
  cut := none
  iss := Issue.idle

end Sys2Proof.Machine
end

