-- ==== Sys2Proof/Machine/Units.lean ====
section
/-! DEFINITION. The units around the harts as plain data: gangs and banks, clusters, partitions, fabric, Golium. -/

namespace Sys2Proof.Machine

/-- Bytes by address: rising addresses, no entry for the byte 0 that an unlisted address reads as (log 3). -/
abbrev Memory := List Host.Cell

/-- Mode of a cluster-memory bank (R70). -/
inductive BankMode
  | cache
  | scratch
  | fifo (width : BitVec 4) (depthM1 : BitVec 16)
  deriving DecidableEq, Repr

/-- A logical bank of a gang (R68-R74). -/
structure Bank where
  mode : BankMode
  switching : Option BankMode      -- the switch that has begun (R72)
  queued : List BankMode           -- switches not begun, oldest first
  bytes : Memory                   -- scratchpad contents by offset
  entries : List (List Byte)       -- FIFO entries, oldest first
  receive : Bool                   -- a sorted-exchange receive buffer (R272, R328)
  bad : List Nat                   -- 32-byte words, in FIFO mode entries from the oldest, with an uncorrectable error (R441)
  deriving DecidableEq, Repr

/-- A gang of a launch (R25, R41-R51, R68). -/
structure Gang where
  id : GangId
  part : Fin 8
  queue : Fin 64
  slot : Option (Fin 64 × Fin 4)   -- gang slot: cluster and context (R28); none while swapped out or not started
  started : Bool
  home : Option (Fin 64)           -- cluster whose banks it keeps while it is swapped out with work unfinished (R289, R328)
  bound : Option (Fin 64)          -- cluster to which a forked program binds it (R289)
  runnable : Option Nat            -- order in which it became runnable (R29)
  banks : List Bank
  ring : List (Nat × Word)         -- control transfers of the stream the pilot resolved: stream number, next address (R44)
  joinAt : Option Word             -- JOIN.W at which the stream is held (R50)
  area : List Host.Cell            -- cells of its part of the save area when it was saved (R366)
  dirtyBad : List (Nat × Nat)      -- cache-mode bank and line of each dirty line with an uncorrectable error (R441; log 71)
  ended : Bool
  deriving DecidableEq, Repr

/-- Matrix instructions waiting in an engine's queue, with the values their operands had at issue (R284-R297). -/
inductive MatrixOp
  | gather (rows table : Word) (count : Word) (n s : Fin 4)
  | ldb (addr : Word)
  | cfg (v : Word)
  | mma (s : Fin 4)
  | zero
  | swap
  | drain (addr stride : Word) (f : DrainFmt)
  deriving DecidableEq, Repr

/-- A program queued by FORK (R52, R198); its accesses are translated as its strand's were at the FORK (log 36). -/
structure Fork where
  entry : Word
  arg : Word
  owner : StrandId
  asid : BitVec 10
  troot : Word
  super : Bool
  deriving DecidableEq, Repr

/-- Sticky flags of a matrix engine (R296). -/
structure MatrixFlags where
  nv : Bool
  of : Bool
  uf : Bool
  nx : Bool
  sat : Bool
  deriving DecidableEq, Repr

/-- A cluster: fencing, control core's queue, matrix engine (R21, R52, R284-R299, R458). -/
structure Cluster where
  enabled : Bool
  draining : Bool
  forks : List Fork
  mode : BitVec 3
  brow : BitVec 3
  bcol : BitVec 2
  trowsM1 : BitVec 11
  tcolsM1 : BitVec 10
  flags : MatrixFlags
  aLatch : Vector (BitVec 2048) 256
  bLatch : BitVec 131072
  bMode : Option (BitVec 3)        -- MODE under which MLDB filled the B latch; none while it is zero
  working : Vector (BitVec 8192) 256
  visible : Vector (BitVec 8192) 256
  queue : List MatrixOp
  busy : Bool                      -- the oldest queued instruction has begun (R287)
  owner : Option StrandId          -- strand that forked the program of the instruction that has begun (R288)
  stray : Option Word              -- where that program ended by a fault, while the instruction goes on (R288)
  parityFound : Bool               -- a cause 0x32 has been taken in it (R458)
  bankFaults : Nat                 -- causes 0x31 taken in its banks (R458)
  deriving DecidableEq, Repr

/-- An entry of the export map in force (R371). -/
structure ExportEntry where
  taddr : Nat
  len : Nat
  offset : Nat
  asid : Nat
  a : Bool
  w : Bool
  l : Bool
  deriving DecidableEq, Repr

/-- A granule of a versioned region whose record differs from its state at declaration (R110). -/
structure Granule where
  index : Nat
  latest : BitVec 32
  slots : List (Option (BitVec 32 × BitVec 1024))   -- K data slots with their versions
  deriving DecidableEq, Repr

/-- How a region starts (R108). -/
inductive RegionFill
  | zero
  | value (v : Word)
  | keep (contents : Memory)       -- the pages' bytes at the declaration, by offset in the region
  deriving DecidableEq, Repr

/-- A versioned region (R108-R119). -/
structure Region where
  part : Fin 8
  base : Nat                       -- translated address of the declaration
  pages : List Nat                 -- device physical address of each 64 KiB page, in order
  pool : List Nat
  depth : Nat
  cursors : List (Option (BitVec 32))   -- none: inactive
  scope : Fin 7
  fill : RegionFill
  granules : List Granule
  ahead : List (Nat × BitVec 32)   -- granules at which a newer horizon has taken effect than `seen` (R119)
  seen : BitVec 32                 -- horizon in effect at every other granule
  deriving DecidableEq, Repr

/-- A barrier instance in use (R92, R93): phase, registered arrivals, arrivals not yet registered. -/
inductive BarrierKey
  | gang (g : GangId) (id : Fin 36)
  | field (launch : Nat) (stage : Fin 8) (id : Fin 36)
  | span (launch : Nat) (stage : Fin 8) (id : Fin 36)
  deriving DecidableEq, Repr

/-- An arrival issued and not yet registered (R93): the stores that must be performed first. -/
structure Arrival where
  strand : StrandId
  mask : BitVec 16
  after : Nat                      -- the strand's stores issued up to here must be performed
  deriving DecidableEq, Repr

structure Barrier where
  key : BarrierKey
  phase : BitVec 8
  registered : List StrandId       -- registered for the collecting generation
  pending : List Arrival
  peers : List (Fin 4096 × Nat)    -- span barriers: generations other ranks have reported complete on their side
  announced : Bool                 -- this rank's side of the collecting generation has been reported to the other ranks
  deriving DecidableEq, Repr

/-- An address range of a footprint (R104, R302). -/
structure Footprint where
  reads : List (Nat × Nat)         -- base, length
  writes : List (Nat × Nat)
  deriving DecidableEq, Repr

/-- How far a launch is (R106, R355, R447). -/
inductive LaunchState | queued | running | complete | faulted
  deriving DecidableEq, Repr

/-- A launch (R25, R153, R348-R356). -/
structure Launch where
  id : Nat
  item : Nat                       -- order of issue among items
  die : Fin 2
  queue : Fin 64
  part : Fin 8
  asid : BitVec 10
  seq : Word
  record : Word
  node : Option (Nat × Word)       -- launch list and node that queued it
  stages : Nat
  det : Bool
  entry : Word
  arg0 : Word
  arg1 : Word
  stackBase : Word
  stackLog2 : Nat
  ctxBase : Word
  spanTag : BitVec 16
  tables : Word
  nexpr : Nat
  nbanks : Nat
  svMask : BitVec 32
  parent : Option Nat              -- launch whose strand executed LAUNCH (R351)
  foot : Footprint
  sv : Vector Word 32
  stvec : Word                     -- QSTVEC, QSSCRATCH and the ASID's root when it started (R352, R357)
  sscratch : Word
  troot : Word
  rank : Fin 4096                  -- this package's rank in the job when it started (R26, R163)
  area : List (Option Nat)         -- device address of each 64 KiB page of its save area, as it started (R366)
  began : Nat                      -- its place among the launches that have started (R363)
  byStrand : Bool                  -- queued by LAUNCH, not by the ring (R355)
  aborted : Bool                   -- one of its strands was aborted (R414, R447)
  state : LaunchState
  deriving DecidableEq, Repr

/-- What a job did, before its completion record is written (R310, R313). -/
structure JobResult where
  status : Nat
  fault : Nat
  foffset : Nat
  bread : Nat
  bdeliv : Nat
  vwait : Bool
  pclip : Bool
  fclip : Bool
  deriving DecidableEq, Repr

/-- Where an address leads (R57-R59, R65): a device address, an offset in a bank, an offset in another rank's window. -/
inductive Target
  | device (pa : Nat)
  | bank (b off : Nat)
  | remote (q off : Nat)
  deriving DecidableEq, Repr

/-- Bytes a job has read and still has to deliver: at which delivery offset, and where; no target names a version to create (R310). -/
structure Delivery where
  off : Nat
  read : Nat                       -- source bytes read for what lies below it (R313, R438)
  va : Word
  data : List Byte
  target : Option Target
  deriving DecidableEq, Repr

/-- Who issued a job (R105). -/
inductive JobContext
  | strand (s : StrandId)
  | queue (q : Fin 64) (list : Nat) (node : Word)
  deriving DecidableEq, Repr

/-- A wait of a job's engine (R116, R121, R436): its kind, the number of the access that waits, its address, the version it names, its
place in the order of arrival, whether the list of its granule has woken it. -/
structure JobWait where
  kind : WaitKind
  key : Nat
  va : Word
  version : Nat
  since : Nat
  woken : Bool
  deriving DecidableEq, Repr

/-- A job (R301-R313). -/
structure Job where
  item : Nat
  die : Fin 2
  ctx : JobContext
  id : BitVec 32
  part : Fin 8
  asid : BitVec 10
  troot : Word
  super : Bool                     -- privilege its accesses carry
  gang : Option GangId             -- whose banks it reaches
  det : Bool
  rank : Fin 4096
  card : List Byte                 -- the 128-byte card as snapshotted
  waited : Bool                    -- a version wait happened (VWAIT)
  hold : Option JobWait            -- what its engine waits for (R121, R436)
  expired : Option Cause           -- that wait is being ended by its limit (R436, R445): MODEL (log 2)
  begun : Bool                     -- its engine has started it (R105, R357)
  kept : List (Nat × List Byte)    -- bytes of a DIGEST's source by offset, as they were when it started (R309)
  progress : Nat                   -- bytes delivered so far (R310)
  todo : List Delivery             -- what is still to be delivered once everything has been read, in delivery order
  cures : List Nat                 -- uncorrectable lines that its deliveries write in full (R442)
  ending : Option JobResult        -- how it ends once that is done
  slot : Option Nat                -- TAIL its completion took (R312)
  replies : List (Nat × Answer)    -- answers of other ranks by access (R378)
  result : Option JobResult
  complete : Bool
  deriving DecidableEq, Repr

/-- A node of a launch list that has received an edge (R361). -/
inductive NodeState | partly | eligible | running | complete | skipped
  deriving DecidableEq, Repr

structure ListNode where
  addr : Word
  words : List Word                -- the 64 bytes as read
  edges : Nat
  run : Bool
  state : NodeState
  deriving DecidableEq, Repr

structure LaunchList where
  id : Nat
  queue : Fin 64
  seq : Word
  nodes : List ListNode
  stuck : List (Word × Bool)       -- edges whose node lies in a page in transit (R434)
  stopped : Bool
  done : Bool
  deriving DecidableEq, Repr

/-- A launch queue (R355-R359). -/
structure Queue where
  cfg : Word
  ring : Word
  status : Word
  stvec : Word
  sscratch : Word
  head : Word
  tail : Word
  nextSeq : Word
  credits : Int
  started : Word
  done : Word
  eidx : Nat
  ekind : Nat
  kind : Nat
  fcode : Nat
  faddr : Word
  fseq : Word
  owed : Bool                      -- a write of the status block waits for a page or for a free tag (R359, R378)
  lists : List LaunchList
  deriving DecidableEq, Repr

/-- Payload types of a session (R320). -/
inductive PayloadType | fp32 | bf16 | int32 | e4m3 | e5m2 | e2m1 | int8
  deriving DecidableEq, Repr

/-- Combiners of a session (R320). -/
inductive Combiner | none | add | max | min | first
  deriving DecidableEq, Repr

/-- A record in a session: key, where it was sent from, payload elements as sent, scale code (R317, R326). -/
structure SxRecord where
  key : Nat
  source : Nat
  run : Nat
  position : Nat
  payload : List Nat
  scale : Nat
  deriving DecidableEq, Repr

/-- The request a participant has staged for the next splitters (R330). -/
inductive SplitRequest | none | table (addr : Word) | resplit
  deriving DecidableEq, Repr

/-- What a strand has sent for a round: active records, runs begun, records in the current run, its last key (R318, R329). -/
structure SxRuns where
  sent : Nat
  runs : Nat
  runLen : Nat
  lastKey : Nat
  deriving DecidableEq, Repr

/-- A strand's part in a session (R318, R327, R330); `stale` once the generation it opened has been retired (R448). -/
structure SxParticipant where
  strand : StrandId
  rounds : Nat                     -- round count
  arrived : Bool                   -- its SXROUND for the next round has been executed
  closing : Option Nat             -- the round for which that SXROUND has arrived (R333)
  closingAt : Word                 -- the convoy of that SXROUND
  bad : List Nat                   -- rounds whose requests were bad: it takes 0x24 after its SXROUND for them retires (R330)
  closed : Bool
  stale : Bool
  request : SplitRequest
  now : SxRuns                     -- what it has sent for the round being collected
  later : SxRuns                   -- what it has sent since its SXROUND, for the round after (R327)
  deriving DecidableEq, Repr

/-- What a receiver got in a round (R338, R344). -/
structure SxTally where
  round : Nat
  received : Nat
  nulls : Nat
  dropped : Bool
  deriving DecidableEq, Repr

/-- A receiver: its buffer, and the streams not delivered yet (R328). -/
structure SxReceiver where
  index : Nat
  buffer : List (Nat × SxRecord)         -- round and record, oldest first
  incoming : List (Nat × List SxRecord)  -- rounds' streams still to land
  finished : Nat                         -- rounds up to this one have landed in full
  tallies : List SxTally
  last : Option (Nat × Nat)              -- round and key of the record received last (R337)
  missed : Bool                          -- records dropped before its strand joined
  cut : Bool                             -- its bank was switched away
  freeing : Option Nat                   -- round at the end of whose delivery the bank of a strand that closed is freed (R334)
  deriving DecidableEq, Repr

/-- A descriptor as read by SXOPEN (R320). -/
structure SxDescriptor where
  split : Word
  rxBank : Nat
  rpr : Nat
  receivers : Nat
  slog2 : Nat
  span : Nat                       -- PART: 0 gang, 1 field, 2 span
  elements : Nat
  det : Bool
  wideKey : Bool
  ptype : PayloadType
  comb : Combiner
  gen : BitVec 8
  deriving DecidableEq, Repr

/-- A session id of a partition that has been opened (R319-R330). -/
structure Session where
  part : Fin 8
  sid : Fin 16
  live : Bool
  retired : Option (BitVec 8)      -- last retired generation (R331, R451)
  descAddr : Word
  desc : SxDescriptor
  opener : StrandId
  ranks : Nat
  completed : Nat                  -- rounds completed
  participants : List SxParticipant
  records : List SxRecord          -- records of the round being collected
  samples : List (Nat × Nat × Nat) -- source, c, key
  laterRecords : List SxRecord     -- records sent after their senders' SXROUND: they belong to the round after (R327)
  laterSamples : List (Nat × Nat × Nat)
  sdrop : Bool                     -- samples were dropped in the last completed round
  splitters : List Nat
  receivers : List SxReceiver
  deriving DecidableEq, Repr

/-- TDISP state of a virtual function (R381). -/
inductive VfState | configUnlocked | configLocked | run | error
  deriving DecidableEq, Repr

/-- A partition (R370, R371, R380-R387, R391). -/
structure Partition where
  cfg : Word
  enabling : Bool                  -- EN written 1, grant not yet zeroed (R385)
  pstat : Fin 7
  proot : Word
  jobTag : Word
  jobRt : Word
  jobN : Word
  jobSelf : Word
  expAddr : Word
  expN : Word
  deadSel : Word
  deadWord : Word
  inval : Word
  pmem : Vector Word 16
  ranks : List (Option (Fin 4096)) -- rank table in force
  exports : List ExportEntry       -- export map in force
  dead : List (Nat × Word)         -- non-zero words of the dead-expert bitmap, by index
  roots : List (Nat × Word)        -- guest root of each ASID (log 12)
  keyGen : Nat                     -- how many keys the partition has had (R385)
  grant : BitVec 16                -- debug policy in force; 0 when none (R391)
  policy : Bool
  nonce : Option (BitVec 256)      -- latest debug nonce (R392)
  deriving DecidableEq, Repr

/-- State of a Volette port (R453). -/
inductive PortState | full | half | locked | down
  deriving DecidableEq, Repr

/-- Progress of an SPDM responder on one link (R389). -/
structure Spdm where
  version : Bool
  capabilities : Bool
  algorithms : Bool
  handshake : Bool
  session : Bool
  keyUpdates : Nat
  keys : Nat                       -- key sets its sessions have supplied: of the VF's IDE stream, of the link (R376, R382, R389)
  deriving DecidableEq, Repr

/-- Whether a session is open and has supplied keys (R389). -/
def Spdm.secure (x : Spdm) : Bool := x.session && x.keys != 0

/-- A message of this package as its flits carry it (R375). -/
structure Message where
  dest : Fin 4096
  src : Fin 4096
  tag : Fin 4096
  inc : Fin 16
  cls : Fin 16
  job : BitVec 16
  seq : Fin 65536
  body : FlitBody
  deriving DecidableEq, Repr

/-- A flit: its header and its 256 bytes of payload (R375). -/
structure Flit where
  header : BitVec 128
  payload : List Byte
  deriving DecidableEq, Repr

/-- A Volette port (R376, R377, R452, R453). -/
structure Port where
  state : PortState
  ver : Fin 4
  tagFail : BitVec 16
  late : BitVec 16
  genDrop : BitVec 16
  retrain : BitVec 8
  judged : BitVec 8                -- RETRAIN when it was last held against the limit of R459 (log 45)
  spdm : Spdm                      -- the session with the partner's Golium that its key comes from (R376)
  keyEpoch : Nat                   -- how many keys have been installed; 0: it has not trained
  flits : Nat                      -- counters of the two directions under this key: received, and sent (R376)
  sent : Nat
  seen : Nat                       -- flits of the two directions under all keys (R452)
  put : Nat
  failedAt : List Nat              -- received flits of the last 2^20 whose tag failed (R452)
  failedOut : List Nat             -- sent flits of the last 2^20 whose tag failed at the partner
  replay : List Message            -- sent and not acknowledged, oldest first (R452)
  deriving DecidableEq, Repr

/-- Who waits for a fabric request. -/
inductive Requester
  | hart (e : Engine) (id : StrandId) (pos elem : Nat)
  | job (n : Nat) (access : Nat)
  | unit (key : Nat)               -- a unit that is no strand and no job: 0 waits for no answer (log 31)
  deriving DecidableEq, Repr

/-- Who a device access to host memory says it is: requester ID, TEE bit, and the IDE stream it travels on (R382). -/
structure HostId where
  function : Fin 64
  tee : Bool
  stream : Option (Fin 64)
  deriving DecidableEq, Repr

/-- A fabric request of this package in flight (R378, R455). -/
structure FabricRequest where
  dest : Fin 4096
  via : Option (Fin 4096)          -- M of the Valiant path chosen for it (R373)
  by_ : Requester
  addr : Word
  req : SpanReq
  deriving DecidableEq, Repr

/-- A request of another rank that has arrived: for which partition, and through which port (R371, R451). -/
structure SpanArrival where
  part : Fin 8
  port : Fin 8
  req : SpanReq
  deriving DecidableEq, Repr

/-- One that waits here although its turn has come: for what, its place in the order of arrival, whether the list of its granule has
woken it (R116, R434). -/
structure SpanWait where
  arrival : SpanArrival
  kind : WaitKind
  since : Nat
  woken : Bool
  deriving DecidableEq, Repr

/-- The fabric side of the package (R369-R378, R452-R455). -/
structure Fabric where
  self : Fin 4096
  sizes : BitVec 12                -- strapped mesh and torus sizes minus 1, in the layout of a rank (R369)
  ports : Vector Port 8
  requests : List FabricRequest
  incs : List (Fin 4096 × Fin 16)  -- tags whose incarnation is not 0
  held : List (Fin 4096)           -- tags held after a timeout (R455)
  seqs : List (Fin 4096 × Fin 16 × Fin 65536)   -- next SEQ by destination and class, where not 0
  served : List (Fin 4096 × Fin 16 × Fin 65536)  -- next SEQ to perform by source and class, where not 0 (R374)
  early : List SpanArrival         -- requests of other ranks that arrived before an earlier SEQ (R374)
  waits : List SpanWait            -- requests of other ranks whose turn has come and that wait here: for a version, for a page (R116)
  passed : List (Fin 4096 × Fin 16 × Fin 65536 × Nat)   -- source, class, SEQ and flits of messages no turn waits for: requests
                                                        -- cancelled before they came, replies and cancels that have come (R374, R455)
  arrivals : List SpanArrival      -- barrier arrivals taken before their launch started here (R92, R356)
  stopped : List (Fin 8 × Fin 4096)   -- partitions and the ranks that became unreachable for their job (R454)
  atSource : List Message          -- messages that wait for a route to open, oldest first (R454)
  wire : List (Fin 8 × Flit)       -- flits put on the links, by port, newest first (R375)
  unitReplies : List (Nat × Word × Answer)   -- answers kept for a unit, by the unit and the address it asked (log 31)
  deriving DecidableEq, Repr

/-- Golium, module registers and non-volatile counts (R388-R396, R458, R459). -/
structure Golium where
  powered : Bool                   -- power reaches the compute dies
  stage : BitVec 8
  radv : Bool
  thold : Bool
  cerr : BitVec 16
  unconsumed : Nat                 -- errors met by write-backs and fills that no instruction consumed (R412)
  retired : BitVec 16              -- pages retired and rows spared since reset, as HEALTH shows them (R395)
  spared : BitVec 8
  pcap : BitVec 12
  fuses : Vector Nat 4             -- minimum security version of each image
  verified : Vector Bool 4
  log : List (Nat × BitVec 384)    -- measurement log, oldest first: block index, digest (R390)
  fencedCount : Nat                -- non-volatile counts (R396)
  sparedCount : Nat
  retiredCount : Nat
  trips : Nat
  management : Spdm
  mailbox : Spdm
  vfs : Vector VfState 64
  vdm : Spdm
  vfSpdm : Vector Spdm 64
  deriving DecidableEq, Repr

/-- What the machine has sent to the outside, newest first: host answers, fabric replies, SPDM answers, interrupts. -/
inductive Output
  | hostData (bytes : List Byte)
  | hostAbort
  | linkData (l : SpdmLink) (bytes : List Byte)   -- a module register read by MCTP (R395)
  | fabricReply (src : Fin 4096) (tag : Fin 4096) (inc : Fin 16) (a : Answer)
  | cancel (dest : Fin 4096) (cls : Fin 16) (seq : Fin 65536) (flits : Fin 17)
  | message (dest : Fin 4096) (req : SpanReq)   -- a message that is not answered: barrier, sorted exchange
  | spdm (l : SpdmLink) (code : Nat) (body : List Nat)
  | msix (vector : Nat)
  | mctpEvent (code : Nat)
  | status (code : Nat)
  | logRead (entries : List (Nat × BitVec 384))
  deriving DecidableEq, Repr

def MatrixFlags.clear : MatrixFlags := { nv := false, of := false, uf := false, nx := false, sat := false }

/-- A cluster after module reset (R21, R284). -/
def Cluster.reset : Cluster where
  enabled := true
  draining := false
  forks := []
  mode := 0
  brow := 0
  bcol := 0
  trowsM1 := 255
  tcolsM1 := 255
  flags := .clear
  aLatch := Vector.replicate 256 0
  bLatch := 0
  bMode := none
  working := Vector.replicate 256 0
  visible := Vector.replicate 256 0
  queue := []
  busy := false
  owner := none
  stray := none
  parityFound := false
  bankFaults := 0

/-- A partition after reset (R383, R385; the others by log 1). -/
def Partition.reset : Partition where
  cfg := 0
  enabling := false
  pstat := 0
  proot := 0
  jobTag := 0
  jobRt := 0
  jobN := 0
  jobSelf := 0
  expAddr := 0
  expN := 0
  deadSel := 0
  deadWord := 0
  inval := 0
  pmem := Vector.replicate 16 0
  ranks := []
  exports := []
  dead := []
  roots := []
  keyGen := 0
  grant := 0
  policy := false
  nonce := none

def Spdm.reset : Spdm :=
  { version := false, capabilities := false, algorithms := false, handshake := false, session := false, keyUpdates := 0, keys := 0 }

/-- A port after reset: PORTSTAT all zero (R453), its link not trained. -/
def Port.reset : Port where
  state := .full
  ver := 0
  tagFail := 0
  late := 0
  genDrop := 0
  retrain := 0
  judged := 0
  spdm := Spdm.reset
  keyEpoch := 0
  flits := 0
  sent := 0
  seen := 0
  put := 0
  failedAt := []
  failedOut := []
  replay := []

def Fabric.reset : Fabric where
  self := 0
  sizes := 0
  ports := Vector.replicate 8 Port.reset
  requests := []
  incs := []
  held := []
  seqs := []
  served := []
  early := []
  waits := []
  passed := []
  arrivals := []
  stopped := []
  atSource := []
  wire := []
  unitReplies := []

def Golium.reset : Golium where
  powered := true
  stage := 0
  radv := false
  thold := false
  cerr := 0
  unconsumed := 0
  retired := 0
  spared := 0
  pcap := 3300
  fuses := Vector.replicate 4 0
  verified := Vector.replicate 4 false
  log := []
  fencedCount := 0
  sparedCount := 0
  retiredCount := 0
  trips := 0
  management := Spdm.reset
  mailbox := Spdm.reset
  vfs := Vector.replicate 64 .configUnlocked
  vdm := Spdm.reset
  vfSpdm := Vector.replicate 64 Spdm.reset

/-- Place of a firmware image in the vectors of Golium, and its number in Config (R388). -/
def imageIndex : Image → Fin 4 | .golium => 0 | .command => 1 | .matrixBoot => 2 | .link => 3

/-- Whether an image has been verified, so that its processors run it (R24, R388). -/
def Golium.running (g : Golium) (i : Image) : Bool := g.verified[imageIndex i]

/-- Whether the host link is trained and the PF enumerable: stage 0x05 or later, no stage failed (R393). -/
def Golium.enumerable (g : Golium) : Bool := decide (5 ≤ g.stage.toNat ∧ g.stage.toNat < 0x80)

/-- Whether the module is ready: before that no partition and no queue is enabled (R393). -/
def Golium.ready (g : Golium) : Bool := g.stage == 7

/-- A queue after reset (R357, R359; registers without a reset value by log 1). -/
def Queue.reset : Queue where
  cfg := 0x0602000000000000
  ring := 0
  status := 0
  stvec := 0
  sscratch := 0
  head := 0
  tail := 0
  nextSeq := 1
  credits := 0
  started := 0
  done := 0
  eidx := 0
  ekind := 0
  kind := 0
  fcode := 0
  faddr := 0
  fseq := 0
  owed := false
  lists := []

end Sys2Proof.Machine
end

