-- ==== Sys2Proof/Machine/State.lean ====
section
/-! DEFINITION. The state of the machine, its state after module reset, and the reasons a step can stop. -/

namespace Sys2Proof.Machine

/-- Why the machine stops. Traps are no faults: they are next states (R407). -/
inductive Fault
  /-- Raised by `step` alone: power is off the compute dies (R394, R396) and no event is to come.
  Safe: nothing executes in that state on the hardware either. -/
  | noPower
  deriving DecidableEq, Repr

/-- Why an instruction has no meaning. -/
inductive Refusal
  /-- Raised by `exec` for an instruction the model gives no meaning. Safe: nothing is claimed of it. -/
  | notModelled (mnemonic : String)
  deriving DecidableEq, Repr

/-- The module. -/
structure State where
  hart : Hart                       -- the strand or forked program that issues next: MODEL (log 2)
  harts : List Hart                 -- every other strand and forked program
  seat : Nat                        -- the thread slot or control core that was visited last (R362): MODEL (log 2)
  gangs : List Gang
  launches : List Launch
  barriers : List Barrier
  clusters : Vector Cluster 64
  mem : Memory                      -- by device physical address, host memory included (R65)
  unkeyed : List (Nat × Nat)        -- device ranges, base and length, whose bytes stand under a destroyed key (R385)
  badLines : List Nat               -- 128-byte lines holding an uncorrectable error (R441)
  rewritten : List Nat              -- lines that have held one, rewritten in full, of pages not retired yet (R443, R458)
  hostGaps : List (HostId × Nat × Nat)  -- host ranges, base and length, that the host does not serve to a requester (R382, R441; log 71)
  regions : List Region
  sessions : List Session
  jobs : List Job
  items : Nat                       -- items accepted so far, their order of issue (R105): MODEL
  queues : Vector Queue 64
  parts : Vector Partition 8
  fabric : Fabric
  golium : Golium
  cycle : Word                      -- CYCLE (R160)
  outputs : List Output             -- sent to the outside, newest first: MODEL
  agenda : List Instr               -- steps to come from outside or inside, oldest first: MODEL (log 2)
  draws : Nat                       -- free values used so far: MODEL (log 4)
  deriving DecidableEq, Repr

/-- The module right after reset (R152, R21, R284, R355-R359, R383-R385, R388-R395; log 1 where the spec gives no value). -/
def State.reset : State where
  hart := Hart.idle
  harts := []
  seat := 0
  gangs := []
  launches := []
  barriers := []
  clusters := Vector.replicate 64 Cluster.reset
  mem := []
  unkeyed := []
  badLines := []
  rewritten := []
  hostGaps := []
  regions := []
  sessions := []
  jobs := []
  items := 0
  queues := Vector.replicate 64 Queue.reset
  parts := Vector.replicate 8 Partition.reset
  fabric := Fabric.reset
  golium := Golium.reset
  cycle := 0
  outputs := []
  agenda := []
  draws := 0

end Sys2Proof.Machine
end

