-- ==== Sys2Proof/Machine/Flit.lean ====
section
/-! DEFINITION. Fabric coordinates, the choice of a path, flits and their headers, the counters of a link (R369, R373-R376). -/

namespace Sys2Proof.Machine

/-! ### Coordinates and paths (R369, R373) -/

/-- The four fields of a fabric rank, x first: lowest bit, width, whether the dimension is a torus. -/
def rankFields : List (Nat × Nat × Bool) := [(0, 2, false), (2, 2, false), (4, 4, true), (8, 4, true)]

/-- Coordinates of a fabric rank. -/
def coords (r : Fin 4096) : List Nat := rankFields.map fun f => bits r.val f.1 f.2.1

/-- The strapped size of each dimension. -/
def sizesOf (v : BitVec 12) : List Nat := rankFields.map fun f => bits v.toNat f.1 f.2.1 + 1

/-- Whether no coordinate of a rank lies beyond its size. -/
def addressed (v : BitVec 12) (r : Fin 4096) : Bool := ((coords r).zip (sizesOf v)).all fun c => decide (c.1 < c.2)

/-- One dimension of a path: its size, and how far it is up and down; a mesh has one way only. -/
def wayOf (torus : Bool) (n a b : Nat) : Nat × Nat :=
  if torus then ((b + n - a) % n, (a + n - b) % n)
  else if a ≤ b then (b - a, if a = b then 0 else 16) else (16, a - b)

/-- The ways of a path from `a` to `b`, dimension by dimension. -/
def ways (v : BitVec 12) (a b : Fin 4096) : List (Nat × Nat) :=
  (((coords a).zip (coords b)).zip ((sizesOf v).zip (rankFields.map (·.2.2)))).map fun c => wayOf c.2.2 c.2.1 c.1.1 c.1.2

/-- First port of the minimal path, in the order +X, -X, +Y, -Y, +Z, -Z, +W, -W; of two equal ways the upward one (log 79). -/
def firstPort (v : BitVec 12) (a b : Fin 4096) : Fin 8 :=
  match (ways v a b).findIdx? fun w => w.1 != 0 || w.2 != 0 with
  | some i =>
    let w := (ways v a b).getD i (0, 0)
    Fin.ofNat 8 (2 * i + (if w.1 ≤ w.2 then 0 else 1))
  | none => 0

/-- The intermediate rank M of a Valiant path: a hash of the source and the message's number, over the installed coordinates. -/
def valiantRank (v : BitVec 12) (a : Fin 4096) (seq : Nat) : Fin 4096 :=
  let h := Config.valiantHash a.val seq
  Fin.ofNat 4096 ((rankFields.zip (sizesOf v)).foldl (fun m f => m + h / 2 ^ f.1.1 % f.2 * 2 ^ f.1.1) 0)

/-- One hop along a port: the rank next to it (R369, R373). -/
def neighbour (v : BitVec 12) (a : Fin 4096) (p : Fin 8) : Fin 4096 :=
  let f := rankFields.getD (p.val / 2) (0, 0, false)
  let n := bits v.toNat f.1 f.2.1 + 1
  let c := bits a.val f.1 f.2.1
  Fin.ofNat 4096 (a.val - c * 2 ^ f.1 + (if p.val % 2 = 0 then (c + 1) % n else (c + n - 1) % n) * 2 ^ f.1)

/-- The ranks a minimal path leaves, each with the port it leaves by. -/
def pathHops (v : BitVec 12) : Nat → Fin 4096 → Fin 4096 → List (Fin 4096 × Fin 8)
  | 0, _, _ => []
  | n + 1, a, b => if a = b then [] else (a, firstPort v a b) :: pathHops v n (neighbour v a (firstPort v a b)) b

/-- The hops of a route: the minimal path, or the Valiant path through M; none is longer than two diameters (R373). -/
def routeHops (v : BitVec 12) (a d : Fin 4096) : Option (Fin 4096) → List (Fin 4096 × Fin 8)
  | none => pathHops v 22 a d
  | some m => pathHops v 22 a m ++ pathHops v 22 m d

/-- Every route R373 allows: the minimal path, and the Valiant path through each rank of the installation. -/
def routes (v : BitVec 12) : List (Option (Fin 4096)) := none :: ((List.finRange 4096).filter (addressed v)).map some

/-- Whether a port carries flits: it has trained, and is neither locked nor down (R377, R452). -/
def Port.up (p : Port) : Bool := (p.state == .full || p.state == .half) && p.keyEpoch != 0

/-- Whether a property holds of every own port a route passes (R454; own ports only, log 13). -/
def Fabric.passes (f : Fabric) (d : Fin 4096) (ok : Port → Bool) (m : Option (Fin 4096)) : Bool :=
  (routeHops f.sizes f.self d m).all fun h => h.1 != f.self || ok f.ports[h.2]

/-- Whether every route to a rank passes a port that is down (R454). -/
def Fabric.cutOff (f : Fabric) (d : Fin 4096) : Bool :=
  f.ports.toList.any (·.state == .down) && ! (routes f.sizes).any (f.passes d (·.state != .down))

/-- The path a message takes by its length and the depth of the queues: M where it is the Valiant one (R373). -/
def Fabric.chosen (f : Fabric) (cycle : Nat) (d : Fin 4096) (seq : Nat) : Option (Fin 4096) :=
  let m := valiantRank f.sizes f.self seq
  let first := fun r => (((routeHops f.sizes f.self d r).head?).map (·.2.val)).getD 0
  let cost := fun r => Config.queueDepth (first r) cycle * (routeHops f.sizes f.self d r).length
  if cost (some m) < cost none then some m else none

/-- The port a message leaves by, and M of its path: the path chosen, or where that passes a port that carries no flit the first
route all of whose own ports do (R373, R453); none while there is no such route (R454). -/
def Fabric.exit (f : Fabric) (cycle : Nat) (d : Fin 4096) (seq : Nat) : Option (Fin 8 × Option (Fin 4096)) :=
  let r := f.chosen cycle d seq
  let way := if f.passes d Port.up r then some r else (routes f.sizes).find? (f.passes d Port.up)
  way.bind fun m => ((routeHops f.sizes f.self d m).head?).map fun h => (h.2, m)

/-! ### Flits (R375) -/

/-- Bytes of payload a flit carries. -/
def flitBytes : Nat := 256

/-- The payload of a message: a store's bytes, a reply's bytes; what another message carries has no layout given. -/
def payload : FlitBody → List Byte
  | .request (.store l) => l
  | .request (.versionedStore _ l) => l
  | .reply (.data l) => l
  | b => (Config.flitBody b).take flitBytes

/-- How many flits a message has: one at least. -/
def bodyFlits : FlitBody → Nat
  | .request (.store l) | .request (.versionedStore _ l) | .reply (.data l) => max 1 ((l.length + flitBytes - 1) / flitBytes)
  | _ => 1

/-- How many flits a request has. -/
def flitsOf (op : SpanOp) : Nat := bodyFlits (.request op)

/-- GEN and SID of a message: of the sorted exchange, else 0. -/
def sessionOf : FlitBody → Nat × Nat
  | .request (.sxRecord sid gen _ _ _ _ _ _ _) => (gen.toNat, sid.val)
  | .request (.sxAbort sid gen) => (gen.toNat, sid.val)
  | _ => (0, 0)

/-- Where a flit is on its path: on the minimal path, or on a Valiant path before M or after it. -/
inductive Via
  | minimal
  | before (m : Fin 4096)
  | after (m : Fin 4096)
  deriving DecidableEq, Repr

/-- Fields VIA and MID. -/
def Via.fields : Via → Nat × Nat
  | .minimal => (0, 0)
  | .before m => (1, m.val)
  | .after m => (2, m.val)

/-- Where the flits of a message are as they leave its source: after M where the source is M itself. -/
def Message.via (m : Message) (r : Option (Fin 4096)) : Via :=
  match r with
  | none => .minimal
  | some x => if x = m.src then .after x else .before x

/-- Header of flit `k` of a message, in the bit places of R375. -/
def flitHeader (via : Via) (ver : Fin 4) (m : Message) (k : Nat) : BitVec 128 :=
  let g := sessionOf m.body
  BitVec.ofNat 128 (m.dest.val * 2 ^ 116 + m.src.val * 2 ^ 104 + m.tag.val * 2 ^ 92 + m.inc.val * 2 ^ 88 + m.cls.val * 2 ^ 84
    + (Config.flitOp m.body).toNat * 2 ^ 78 + g.1 * 2 ^ 70 + g.2 * 2 ^ 66 + m.job.toNat * 2 ^ 50 + (m.seq.val + k) % 2 ^ 16 * 2 ^ 34
    + min flitBytes ((payload m.body).length - flitBytes * k) * 2 ^ 25 + via.fields.1 * 2 ^ 23
    + via.fields.2 * 2 ^ 11 + ver.val * 2 ^ 7)

/-- The flits of a message: header and 256 bytes of payload, the last padded with zeros. -/
def flits (via : Via) (ver : Fin 4) (m : Message) : List Flit :=
  (List.range (bodyFlits m.body)).map fun k =>
    let l := ((payload m.body).drop (flitBytes * k)).take flitBytes
    { header := flitHeader via ver m k, payload := l ++ List.replicate (flitBytes - l.length) 0 }

/-! ### Counters of a link and its replay buffer (R376, R452, R453) -/

/-- The nonce of a flit: the salt of its direction, then the direction's counter. -/
def flitNonce (port : Fin 8) (p : Port) (sending : Bool) : BitVec 96 :=
  Config.linkSalt port.val p.keyEpoch sending ++ BitVec.ofNat 64 (if sending then p.sent else p.flits)

/-- A range of a window as pieces within one 4 KiB page each: offset and length (R372). -/
def windowPieces (o n : Nat) : List (Nat × Nat) :=
  let first := min n (4096 - o % 4096)
  if n = 0 then [] else if n ≤ first then [(o, n)]
  else (o, first) :: (List.range ((n - first + 4095) / 4096)).map fun k => (o + first + 4096 * k, min 4096 (n - first - 4096 * k))

/-- A counter of 8 or 16 bits that saturates. -/
def satAdd16 (x : BitVec 16) (n : Nat) : BitVec 16 := BitVec.ofNat 16 (min 65535 (x.toNat + n))
def satAdd8 (x : BitVec 8) (n : Nat) : BitVec 8 := BitVec.ofNat 8 (min 255 (x.toNat + n))

/-- A new key, which the session of the two Golium controllers supplies: its counters start again (R376, R389). -/
def Port.newKey (p : Port) : Port :=
  { p with keyEpoch := p.keyEpoch + 1, flits := 0, sent := 0, spdm := { p.spdm with keys := p.spdm.keys + 1 } }

/-- A port with room for `n` more flits of a direction: before a counter reaches 2^48 a new key is installed, in place at version 3,
by retraining below it (R376, R377). -/
def Port.renewed (p : Port) (n : Nat) : Port :=
  if p.flits + n < 2 ^ 48 ∧ p.sent + n < 2 ^ 48 then p
  else if p.ver = 3 then p.newKey
  else { p.newKey with retrain := satAdd8 p.retrain 1 }

/-- A port that locks: it carries no flit, and its keys are discarded (R452). -/
def Port.lock (p : Port) : Port := { p with state := .locked, spdm := { p.spdm with session := false } }

/-- Whether a failure at flit `t` is the sixteenth of a direction within 2^20 flits (R452). -/
def sixteenth (failed : List Nat) (t : Nat) : Bool := decide (16 ≤ (failed.filter fun x => decide (t < x + 2 ^ 20)).length)

/-- One flit is sent under the next counter value: whether its tag fails at the partner, and the port (R376, R452). -/
def Port.put1 (i : Fin 8) (p : Port) : Bool × Port :=
  let q := p.renewed 1
  let bad := Config.linkFails i.val q.keyEpoch q.sent
  let failed := q.put :: q.failedOut.filter fun x => decide (q.put < x + 2 ^ 20)
  let r := { q with sent := q.sent + 1, put := q.put + 1, failedOut := if bad then failed else q.failedOut }
  (bad, if bad ∧ sixteenth failed q.put then r.lock else r)

/-- One flit is sent, and sealed and sent once more where the partner asks for it; when that fails too the port locks. -/
def Port.sendFlit (i : Fin 8) (p : Port) : Port :=
  let (bad, q) := p.put1 i
  if ¬ bad ∨ q.state = .locked then q
  else
    let (again, r) := q.put1 i
    if again then r.lock else r

/-- The flits of a message are sent, up to one at which the port locks; it stays in the replay buffer until it is acknowledged. -/
def Port.send (i : Fin 8) (p : Port) (m : Message) : Port :=
  let q := (List.range (bodyFlits m.body)).foldl (fun q _ => if q.state = .locked then q else q.sendFlit i) p
  { q with replay := p.replay.drop (Config.linkAcked i.val p.keyEpoch p.sent) ++ [m] }

/-- A message leaves by a route that is open, else it waits at its source. Where its port locks, all that the port's replay buffer
holds comes back and leaves by the routes that remain, with its SEQ (R452-R454); at most eight ports can lock. -/
def Fabric.leave (cycle : Nat) : Nat → Fabric → Message → Fabric
  | 0, f, m => { f with atSource := f.atSource ++ [m] }
  | n + 1, f, m =>
    match f.exit cycle m.dest m.seq.val with
    | none => { f with atSource := f.atSource ++ [m] }
    | some (i, r) =>
      let q := f.ports[i].send i m
      let f1 := { f with wire := ((flits (m.via r) q.ver m).map fun x => (i, x)).reverse ++ f.wire }
      if q.state = .locked then q.replay.foldl (Fabric.leave cycle n) { f1 with ports := f.ports.set i { q with replay := [] } }
      else { f1 with ports := f.ports.set i q }

/-- A message leaves. -/
def Fabric.post (f : Fabric) (cycle : Nat) (m : Message) : Fabric := f.leave cycle 9 m

/-- A port carries flits no more: what its replay buffer holds comes back and leaves by the routes that remain (R453). -/
def Fabric.reroute (f : Fabric) (cycle : Nat) (i : Fin 8) : Fabric :=
  f.ports[i].replay.foldl (fun f m => f.post cycle m) { f with ports := f.ports.set i { f.ports[i] with replay := [] } }

/-- A port has opened: what waits at its source leaves where it can (R454). -/
def Fabric.release (f : Fabric) (cycle : Nat) : Fabric := f.atSource.foldl (fun f m => f.post cycle m) { f with atSource := [] }

/-- Next SEQ for a destination and class (R374). -/
def Fabric.seqOf (f : Fabric) (d : Fin 4096) (cls : Fin 16) : Fin 65536 :=
  ((f.seqs.find? fun e => e.1 == d && e.2.1 == cls).map (·.2.2)).getD 0

/-- Sends a message: its flits take the next SEQs of their destination and class (R374). -/
def Fabric.transmit (f : Fabric) (cycle : Nat) (m : Message) : Fabric :=
  let sq := f.seqOf m.dest m.cls
  ({ f with
    seqs := (m.dest, m.cls, sq + Fin.ofNat 65536 (bodyFlits m.body)) :: f.seqs.filter fun e => ¬ (e.1 == m.dest && e.2.1 == m.cls)
  } : Fabric).post cycle { m with seq := sq }

end Sys2Proof.Machine
end

