-- ==== Sys2Proof/Machine/Translate.lean ====
section
/-! DEFINITION. Address windows, the two-stage walk, the memory grant and the export map (R57-R65, R371, R383-R386, R433). -/

namespace Sys2Proof.Machine

/-- Kinds of access a translation judges (R63, R437). -/
inductive AccessKind | load | store | atomic | fetch
  deriving DecidableEq, Repr

/-- On whose behalf an address is translated. -/
structure Ctx where
  part : Fin 8
  asid : Nat
  troot : Nat
  super : Bool
  gang : Option GangId
  rank : Fin 4096
  deriving DecidableEq, Repr

/-- Whether an address is stacked DRAM, second tier or CXL memory (R65); the whole CXL range counts as present (log 78). -/
def isDeviceMemory (a : Nat) : Bool :=
  decide (a < 0x8000000000 ∨ (0x100000000000 ≤ a ∧ a < 0x1C0000000000) ∨ (0x4000000000000 ≤ a ∧ a < 0x8000000000000))

/-- Whether an address is host memory (R65). -/
def isHostMemory (a : Nat) : Bool := decide (0x8000000000000 ≤ a ∧ a < 0x10000000000000)

/-- The die a device address has its home on (R65). -/
def homeDie (a : Nat) : Nat :=
  if a < 0x8000000000 then a / 0x4000000000
  else if a < 0x1C0000000000 then (if a < 0x160000000000 then 0 else 1)
  else a / 4096 % 2

/-- Whether a device address lies in the range a PMEM register grants (R385). -/
def grantCovers (g : Word) (a : Nat) : Bool :=
  let w := g.toNat
  bit w 63 && decide (bits w 22 22 * 2 ^ 30 ≤ a ∧ a < bits w 22 22 * 2 ^ 30 + bits w 44 12 * 2 ^ 30)

/-- Whether a device address lies in the partition's memory grant (R63, R385). -/
def Partition.grants (p : Partition) (a : Nat) : Bool := p.pmem.toList.any (grantCovers · a)

/-- What a walk of one stage ends with (R61, R433). -/
inductive Walk
  | leaf (addr : Nat) (pageBits : Nat) (entry : Nat)
  | notPresent
  | transit
  | fault (c : Cause)
  deriving DecidableEq, Repr

/-- The levels of a walk: lowest address bit indexed, index bits, table alignment in bits (R61). -/
def walkLevels : List (Nat × Nat × Nat) := [(39, 13, 16), (30, 9, 12), (21, 9, 12), (16, 5, 8), (12, 4, 7)]

/-- The address a table entry holds, without the bits below an alignment (R62). -/
def entryAddr (e align : Nat) : Nat := bits e 7 45 * 2 ^ 7 / 2 ^ align * 2 ^ align

/-- One walk (R61, R62, R433); `read` gives the table entry at an address of the table space. -/
def walk (read : Nat → Except Walk Nat) (va : Nat) : List (Nat × Nat × Nat) → Bool → Nat → Walk
  | [], _, _ => .notPresent
  | (sh, n, al) :: rest, top, table =>
    match read (table / 2 ^ al * 2 ^ al + 8 * bits va sh n) with
    | .error w => w
    | .ok e =>
      if bit e 0 = false then
        if bit e 1 ∧ bits e 52 2 = 3 ∧ ¬ top then .transit else .notPresent
      else if bits e 52 2 = 3 then .notPresent
      else if bit e 1 then
        if top then .notPresent else .leaf (entryAddr e sh + va % 2 ^ sh) sh e
      else walk read va rest false (bits e 7 45 * 2 ^ 7)

/-- Reads a table entry at a device address; an entry that cannot be read correctly is consumed by the walk (R412).
Partition-stage tables are not judged against the grant (R386). -/
def State.readTableEntry (s : State) (a : Nat) : Except Walk Nat :=
  if isHostMemory a ∨ isDeviceMemory a then
    if s.badLines.contains (a / 128 * 128) then .error (.fault .memoryError) else .ok (s.mem.getNat a 8)
  else .error .notPresent

/-- The partition stage: guest physical to device physical (R60, R386). -/
def State.walkPartition (s : State) (p : Partition) (gpa : Nat) : Walk :=
  match walk s.readTableEntry (gpa % 2 ^ 52) walkLevels true (bits p.proot.toNat 16 36 * 2 ^ 16) with
  | .leaf pa sh e =>
    if sh = 12 ∧ ¬ isHostMemory pa then .notPresent
    else if isHostMemory pa then .leaf pa sh e
    else if ¬ isDeviceMemory pa then .notPresent
    else if ¬ p.grants pa then .fault .partition
    else .leaf pa sh e
  | w => w

/-- A guest-stage table entry, read through the partition stage (R60); R, W and X of that stage's leaf are not judged for the read
of an entry (log 78). -/
def State.readGuestEntry (s : State) (p : Partition) (gpa : Nat) : Except Walk Nat :=
  match s.walkPartition p gpa with
  | .leaf pa _ _ => s.readTableEntry pa
  | w => .error w

/-- What translating an address gives. -/
inductive Trans
  | ok (pa : Nat)
  | transit
  | fault (c : Cause)
  deriving DecidableEq, Repr

/-- Whether the entries of both stages allow an access kind (R63, R437). -/
def permits (k : AccessKind) (g p : Nat) : Bool :=
  let e := fun i => bit g i && bit p i
  match k with
  | .load => e 2
  | .store => e 3
  | .atomic => e 2 && e 3
  | .fetch => e 4

/-- Translation of an address of translated space; `judgeU` is off for span requests (R371).
The order of the causes of one address is DEDUCED (log 7). -/
def State.translate (s : State) (c : Ctx) (k : AccessKind) (judgeU : Bool) (va : Nat) : Trans :=
  let p := s.parts[c.part]
  if bits p.cfg.toNat 32 10 < c.asid then .fault .partition
  else
    match walk (s.readGuestEntry p) va walkLevels true (bits c.troot 16 36 * 2 ^ 16) with
    | .notPresent => .fault .notPresent
    | .transit => .transit
    | .fault e => .fault e
    | .leaf gpa sh ge =>
      match s.walkPartition p gpa with
      | .notPresent => .fault .notPresent
      | .transit => .transit
      | .fault e => .fault e
      | .leaf pa _ pe =>
        if sh = 12 ∧ ¬ isHostMemory pa then .fault .notPresent
        else if judgeU ∧ ¬ c.super ∧ bit ge 5 = false then .fault .permission
        else if permits k ge pe then .ok pa
        else .fault .permission

/-- First address of the span windows and of the cluster window (R57). -/
def spanBase : Nat := 0x10000000000000
def clusterBase : Nat := 0x20000000000000
def clusterSize : Nat := 0xC00000

/-- What resolving an address gives. -/
inductive Resolve
  | ok (t : Target)
  | transit
  | fault (c : Cause)
  deriving DecidableEq, Repr

/-- The fabric rank of a job-relative rank, where reachable: some route to it passes no own port that is down, and it has not become
unreachable for the job (R370, R454; log 13); a coordinate beyond its size is never addressed (R369). -/
def State.fabricRank (s : State) (part : Fin 8) (q : Nat) : Option (Fin 4096) :=
  match s.parts[part].ranks[q]? with
  | some (some r) =>
    let cut := r != s.fabric.self && (! addressed s.fabric.sizes r || s.fabric.cutOff r)
    if cut ∨ s.fabric.stopped.contains (part, r) then none else some r
  | _ => none

/-- Root of an ASID's guest tables, as the queue's owner set it; 0 where none was set (R352, log 12). -/
def State.rootOf (s : State) (p : Fin 8) (asid : Nat) : Word :=
  ((s.parts[p].roots.find? (fun r => r.1 == asid)).map (·.2)).getD 0

/-- The export map (R371): where window offset `o` leads in partition `c.part`, for an access that carries no privilege. -/
def State.exportResolve (s : State) (c : Ctx) (k : AccessKind) (o : Nat) : Resolve :=
  match s.parts[c.part].exports.find? (fun e => decide (e.offset ≤ o ∧ o < e.offset + e.len)) with
  | none => .fault .notPresent
  | some e =>
    let allowed := match k with
      | .load => e.l
      | .store => e.w
      | .atomic => e.a
      | .fetch => false
    if allowed = false then .fault .permission
    else
      match s.translate { c with asid := e.asid, troot := (s.rootOf c.part e.asid).toNat } k false ((e.taddr + (o - e.offset)) % 2 ^ 52) with
      | .ok pa => .ok (.device pa)
      | .transit => .transit
      | .fault f => .fault f

/-- The context of a span request: the exporting partition, no privilege, no bank. -/
def State.spanCtx (s : State) (p : Fin 8) : Ctx where
  part := p
  asid := 0
  troot := 0
  super := false
  gang := none
  rank := s.fabric.self

/-- On whose behalf a job's accesses are translated (R301, R437). -/
def Job.reach (j : Job) : Ctx where
  part := j.part
  asid := j.asid.toNat
  troot := j.troot.toNat
  super := j.super
  gang := j.gang
  rank := j.rank

/-- The window an address falls in and what lies behind it (R57-R59). Banks are judged when they are accessed.
DESIGN CHOICE (log 96): a fetch from a span window takes 0x11 for every rank, an unreachable one too. -/
def State.resolve (s : State) (c : Ctx) (k : AccessKind) (va : Word) : Resolve :=
  let a := va.toNat
  if a < spanBase then
    match s.translate c k true a with
    | .ok pa => .ok (.device pa)
    | .transit => .transit
    | .fault f => .fault f
  else if a < clusterBase then
    let q := (a - spanBase) / 2 ^ 40
    let o := (a - spanBase) % 2 ^ 40
    if k = .fetch then .fault .permission
    else
      match s.fabricRank c.part q with
      | none => .fault .unreachable
      | some _ => if q = s.parts[c.part].jobSelf.toNat % 4096 then s.exportResolve c k o else .ok (.remote q o)
  else if a < clusterBase + clusterSize then
    if k = .fetch then .fault .permission
    else .ok (.bank ((a - clusterBase) / 0x40000) ((a - clusterBase) % 0x40000))
  else .fault .notPresent

end Sys2Proof.Machine
end

