-- ==== Sys2Proof/Machine/Ops.lean ====
section
/-! DEFINITION. Registers of the hart in issue, accesses to every kind of target, traps and their return (R88, R98, R152, R407-R416). -/

namespace Sys2Proof.Machine

/-! ### The hart in issue -/

/-- A change of the hart in issue and of nothing else. -/
def State.onHart (s : State) (f : Hart → Hart) : State := { s with hart := f s.hart }

/-- Scalar register read; x0 reads 0 (R152). -/
def Hart.getX (h : Hart) (r : Reg) : Word := if r = 0 then 0 else h.x[r]

/-- Scalar register write; a write to x0 is discarded (R152). -/
def Hart.setX (h : Hart) (r : Reg) (v : Word) : Hart := if r = 0 then h else { h with x := h.x.set r v }

/-- Predicate read; p0 reads all ones (R152). -/
def Hart.getP (h : Hart) (r : Reg) : PredBits := if r = 0 then BitVec.allOnes 512 else h.p[r]

/-- Predicate write; a write to p0 is discarded (R152). -/
def Hart.setP (h : Hart) (r : Reg) (v : PredBits) : Hart := if r = 0 then h else { h with p := h.p.set r v }

/-- The register an address-register number names: ai is x(16 + i) (R152). -/
def addrReg (n : Fin 8) : Reg := ⟨16 + n.val, by omega⟩

/-- What the instruction did with control (log 2). -/
def Hart.setFlow (h : Hart) (f : Flow) : Hart := { h with iss := { h.iss with flow := f } }

/-- Whether the hart runs on a matrix control core (R171). -/
def Hart.isControl (h : Hart) : Bool := match h.engine with | .control _ => true | .strand => false

/-- Member number of a strand in its gang (R26). -/
def memberOf (i : StrandId) : Nat := i.vcid.val % 16

/-- The gang of a strand (R26). -/
def gangOf (i : StrandId) : GangId :=
  { launch := i.launch, stage := i.stage, gang := ⟨i.vcid.val / 16, by have := i.vcid.isLt; omega⟩ }

/-- On whose behalf the hart's accesses are translated (R60, R437). -/
def Hart.ctx (h : Hart) : Ctx where
  part := h.part
  asid := h.csr.asid.toNat
  troot := h.csr.troot.toNat
  super := h.st.priv
  gang := some (gangOf h.id)
  rank := h.rank

/-- A free value: number `draws`, and the counter moves on (log 4). -/
def State.draw (s : State) : Nat × State := (Config.free s.draws, { s with draws := s.draws + 1 })

/-- Adds to each event counter that PERFSEL points at an event code, where counting is enabled (R418). -/
def Hart.count (h : Hart) (code n : Nat) : Hart :=
  if h.dbg.ctl.getLsbD 1 then
    let sel := h.dbg.perfsel.toNat
    let counts := Vector.ofFn (fun i : Fin 4 =>
      if bits sel (8 * i.val) 8 = code then h.dbg.perfcnt[i] + BitVec.ofNat 64 n else h.dbg.perfcnt[i])
    { h with dbg := { h.dbg with perfcnt := counts } }
  else h

/-! ### Finding records -/

def State.gang? (s : State) (g : GangId) : Option Gang := s.gangs.find? (fun x => x.id == g)

/-- Replaces a gang's record. -/
def State.setGang (s : State) (g : Gang) : State :=
  { s with gangs := s.gangs.map (fun x => if x.id == g.id then g else x) }

/-- Every hart, the one in issue first. -/
def State.allHarts (s : State) : List Hart := s.hart :: s.harts

/-- Applies a change to the strand of an id, wherever it stands. -/
def State.onStrand (s : State) (i : StrandId) (f : Hart → Hart) : State :=
  let g := fun h : Hart => if h.engine = .strand ∧ h.id = i ∧ h.phase ≠ .absent then f h else h
  { s with hart := g s.hart, harts := s.harts.map g }

def State.strand? (s : State) (i : StrandId) : Option Hart :=
  s.allHarts.find? (fun h => decide (h.engine = .strand ∧ h.id = i ∧ h.phase ≠ .absent))

/-! ### Versioned regions: records and data -/

/-- Granule of a region that a device address lies in (R109). -/
def Region.locate (r : Region) (pa : Nat) : Option Nat :=
  (r.pages.findIdx? (· == pa / 65536 * 65536)).map (fun i => i * 512 + pa % 65536 / 128)

/-- Little-endian bytes as a granule's data. -/
def granuleOfBytes (l : List Byte) : BitVec 1024 := BitVec.ofNat 1024 (leNat l)

/-- The initial fill of a granule (R108). -/
def Region.fillData (r : Region) (q : Nat) : BitVec 1024 :=
  match r.fill with
  | .zero => 0
  | .value v => granuleOfBytes ((List.replicate 16 (leBytes 8 v.toNat)).flatten)
  | .keep m => granuleOfBytes (m.getBytes (q * 128) 128)

/-- A granule's record and data; one never changed is as the declaration left it (R110). -/
def Region.granule (r : Region) (q : Nat) : Granule :=
  match r.granules.find? (fun g => g.index == q) with
  | some g => g
  | none => { index := q, latest := 0, slots := some (0, r.fillData q) :: List.replicate (r.depth - 1) none }

def Region.setGranule (r : Region) (g : Granule) : Region :=
  { r with granules := g :: r.granules.filter (fun x => x.index != g.index) }

/-- Greatest created version at or below `v`, with its data (R111, R114). -/
def Granule.created (g : Granule) (v : Nat) : Option (BitVec 32 × BitVec 1024) :=
  g.slots.foldl (fun best sl =>
    match sl, best with
    | some (n, d), none => if n.toNat ≤ v then some (n, d) else none
    | some (n, d), some (m, e) => if n.toNat ≤ v ∧ m.toNat < n.toNat then some (n, d) else some (m, e)
    | none, b => b) none

/-- Slot that holds the greatest created version at or below `v`. -/
def Granule.slotOf (g : Granule) (v : Nat) : Option Nat :=
  (g.created v).bind fun x => g.slots.findIdx? fun sl => sl.any fun y => y.1 == x.1

/-- The line of the region's pool where a slot's data stand: which one is open (R109; log 69). -/
def Region.dataLine (r : Region) (q slot : Nat) : Nat :=
  let k := Config.versionLine r.base q slot
  r.pool.getD (k / 512 % r.pool.length) 0 + k % 512 * 128

/-- The lines of a slot of every granule. -/
def Region.slotLines (r : Region) (slot : Nat) : List Nat := (List.range (r.pages.length * 512)).map fun q => r.dataLine q slot

/-- Data of the greatest created version: what a snapshot reads (R114). -/
def Granule.newest (g : Granule) : BitVec 1024 := ((g.created 0xFFFFFFFF).map (·.2)).getD 0

/-- The live region and granule a device address lies in (R109). -/
def State.regionAt (s : State) (part : Fin 8) (pa : Nat) : Option (Nat × Region × Nat) :=
  let rec go : List Region → Nat → Option (Nat × Region × Nat)
    | [], _ => none
    | r :: rs, i =>
      match (if r.part = part then r.locate pa else none) with
      | some q => some (i, r, q)
      | none => go rs (i + 1)
  go s.regions 0

def State.setRegion (s : State) (i : Nat) (r : Region) : State := { s with regions := s.regions.set i r }

/-- Whether a versioned access of a granule, at or below version `v`, meets an uncorrectable error (R412, R441). -/
def State.versionLost (s : State) (r : Region) (q v : Nat) : Bool :=
  ! s.badLines.isEmpty && ((r.granule q).slotOf v).any fun i => s.badLines.contains (r.dataLine q i)

/-! ### Accesses -/

/-- What one access gives: a value, a cause at its address, a wait (R30), or a memory stall. -/
inductive Acc (α : Type)
  | ok (a : α) (s : State)
  | fault (c : Cause)
  | wait (k : WaitKind)
  | stall (s : State)

/-- The bank behind a cluster-window address, where granted (R59). -/
def State.bank? (s : State) (g : Option GangId) (b : Nat) : Option Bank :=
  match g.bind s.gang? with
  | some g => g.banks[b]?
  | none => none

def State.setBank (s : State) (g : Option GangId) (b : Nat) (k : Bank) : State :=
  match g.bind s.gang? with
  | some g => s.setGang { g with banks := g.banks.set b k }
  | none => s

/-- The VF that owns a partition; 0 for the PF (R380, R383). -/
def Partition.vf (p : Partition) : Fin 64 := Fin.ofNat 64 (bits p.cfg.toNat 0 6)

/-- TDISP state of a partition's owner; a partition of the PF is never locked (R381). -/
def State.ownerState (s : State) (p : Fin 8) : VfState :=
  let v := s.parts[p].vf
  if v = 0 then .configUnlocked else s.golium.vfs[v]

/-- The IDE stream of a VF, while an SPDM session supplies its keys (R382, R389). -/
def State.stream? (s : State) (v : Fin 64) : Option (Fin 64) := if s.golium.vfSpdm[v].secure then some v else none

/-- Whether a request of a function carries the TEE bit: it counts on an IDE stream that has its keys (R381, R382, R389; log 101). -/
def State.trusts (s : State) (f : Fin 64) (tee : Bool) : Bool := tee && (s.stream? f).isSome

/-- How an access to host memory on behalf of a partition goes out: as its VF's, with the TEE bit and on the VF's IDE stream, in RUN;
else through the PF (R382). -/
def State.hostId (s : State) (p : Fin 8) : HostId :=
  if s.ownerState p = .run then { function := s.parts[p].vf, tee := true, stream := s.stream? s.parts[p].vf }
  else { function := 0, tee := false, stream := none }

/-- Whether the host does not serve a partition at an address, by the requester the access names: a read or atomic completes with
Unsupported Request, a posted write is dropped (R382, R385, R441; log 71). -/
def State.hostRefuses (s : State) (p : Fin 8) (pa : Nat) : Bool :=
  isHostMemory pa && s.hostGaps.any fun r => r.1 == s.hostId p && decide (r.2.1 ≤ pa ∧ pa < r.2.1 + r.2.2)

/-- Whether a gang holds a line dirty, and uncorrectable, in a cache-mode bank (R441; log 71). -/
def State.dirtyBad (s : State) (g : Option GangId) (line : Nat) : Bool :=
  match g.bind s.gang? with
  | some x => x.dirtyBad.any fun e => e.2 == line
  | none => false

/-- A stored bank mode that serves plain accesses (R59). -/
def Bank.isScratch (k : Bank) : Bool := k.mode == .scratch

/-- The context of an access at an address: one through a span window is held at its home slice and never meets the gang's cache
(R58). -/
def Ctx.at (c : Ctx) (va : Word) : Ctx := if spanBase ≤ va.toNat ∧ va.toNat < clusterBase then { c with gang := none } else c

/-- Reads `n` bytes of a local target; `det` is STATUS.DET of a plain load (R114, R187, R262, R412, R440). -/
def State.readTarget (s : State) (c : Ctx) (det : Bool) (t : Target) (n : Nat) : Acc (List Byte) :=
  match t with
  | .device pa =>
    match s.regionAt c.part pa with
    | some (_, r, q) =>
      if det then .fault .deterministic
      else if s.versionLost r q 0xFFFFFFFF then .fault .memoryError
      else .ok ((leBytes 128 (r.granule q).newest.toNat).drop (pa % 128) |>.take n) s
    | none =>
      if s.hostRefuses c.part pa then .fault .notPresent
      else if s.badLines.contains (pa / 128 * 128) then .fault .memoryError
      else if s.dirtyBad c.gang (pa / 128 * 128) then .fault .bankError
      else .ok (s.mem.getBytes pa n) s
  | .bank b off =>
    match s.bank? c.gang b with
    | none => .fault .bank
    | some k =>
      if k.switching.isSome then .stall s
      else if ¬ k.isScratch then .fault .bank
      else if k.bad.contains (off / 32) then .fault .bankError
      else .ok (k.bytes.getBytes off n) s
  | .remote _ _ => .fault .unreachable

/-- A write to be performed: where it leads, its bytes, its virtual address, and which bits of a single byte it changes. -/
structure Write where
  target : Target
  data : List Byte
  va : Word
  mask : Byte := 0xFF
  deriving DecidableEq, Repr

/-- Whether writes together cover every byte of a line (R442). -/
def coversLine (ws : List Write) (line : Nat) : Bool :=
  (List.range 128).all fun i => ws.any fun w =>
    match w.target with
    | .device pa => w.mask == 0xFF && decide (pa ≤ line + i ∧ line + i < pa + w.data.length)
    | _ => false

/-- The lines with an uncorrectable error that writes do not cover in full (R442). -/
def State.blockedLines (s : State) (ws : List Write) : List Nat :=
  s.badLines.filter fun l => ¬ coversLine ws l

/-- The bytes a write leaves, given those there: bits outside its mask are merged (R259). -/
def Write.merge (w : Write) (old : List Byte) : List Byte :=
  if w.mask = 0xFF then w.data else (w.data.zip old).map fun x => x.1 &&& w.mask ||| x.2 &&& ~~~ w.mask

/-- Lines that held an uncorrectable error have been rewritten in full: they read correctly from now on, and the pages of those that did
hold one can be retired (R442, R443). -/
def State.mend (s : State) (l : Nat → Bool) : State :=
  { s with badLines := s.badLines.filter fun x => ! l x, rewritten := s.badLines.filter l ++ s.rewritten }

/-- Lines have been rewritten in full, at home and in a gang's cache (R442). -/
def State.cure (s : State) (g : Option GangId) (l : Nat → Bool) : State :=
  let cured := fun x : Gang => { x with dirtyBad := x.dirtyBad.filter fun e => ! l e.2 }
  { s.mend l with gangs := s.gangs.map fun x => if some x.id = g then cured x else x }

/-- Performs one write of a partition; `blocked` lines keep their bytes, and so does host memory that the host does not serve it
(R382, R442). -/
def State.performWrite (s : State) (p : Fin 8) (g : Option GangId) (blocked : List Nat) (w : Write) : State :=
  match w.target with
  | .device pa =>
    if blocked.contains (pa / 128 * 128) ∨ s.hostRefuses p pa then s
    else { s with mem := s.mem.setBytes pa (w.merge (s.mem.getBytes pa w.data.length)) }
  | .bank b off =>
    match s.bank? g b with
    | some k =>
      let bad := if off % 32 = 0 ∧ w.data.length = 32 ∧ w.mask = 0xFF then k.bad.filter (· != off / 32) else k.bad
      s.setBank g b { k with bytes := k.bytes.setBytes off (w.merge (k.bytes.getBytes off w.data.length)), bad := bad }
    | none => s
  | .remote _ _ => s

/-- Performs writes of a partition to local targets; a line written in full becomes correct, at home and in the gang's cache (R442). -/
def State.performWrites (s : State) (p : Fin 8) (g : Option GangId) (ws : List Write) : State :=
  let blocked := s.blockedLines ws
  let t := ws.foldl (fun s w => s.performWrite p g blocked w) s
  t.cure g (coversLine ws)

/-- Dirty lines, by bank and line, that a gang's cache writes back: an uncorrectable one stays so at its home, and Golium counts it
(R412, R442). -/
def State.writeBackBad (s : State) (g : GangId) (p : Nat × Nat → Bool) : State :=
  match s.gang? g with
  | none => s
  | some x =>
    let (out, kept) := x.dirtyBad.partition p
    if out.isEmpty then s
    else
      { s.setGang { x with dirtyBad := kept } with
        badLines := s.badLines ++ (out.map (·.2)).filter fun l => ! s.badLines.contains l
        golium := { s.golium with unconsumed := s.golium.unconsumed + out.length } }

/-- Whether a plain write may be performed at a target: no region, a bank in scratchpad mode (R187, R440, R444). -/
def State.judgeWrite (s : State) (c : Ctx) (t : Target) : Acc Unit :=
  match t with
  | .device pa => if (s.regionAt c.part pa).isSome then .fault .notVersioned else .ok () s
  | .bank b _ =>
    match s.bank? c.gang b with
    | none => .fault .bank
    | some k => if k.switching.isSome then .stall s else if ¬ k.isScratch then .fault .bank else .ok () s
  | .remote _ _ => .ok () s

/-! ### Fabric requests -/

/-- Adds an asynchronous report; a seventeenth is dropped and LOST is set in the next taken (R411). -/
def Hart.addReport (h : Hart) (r : Report) : Hart :=
  if h.reports.length < 16 then { h with reports := h.reports ++ [r] } else { h with reportLost := true }

/-- The tag a new request takes: the lowest that is neither in use nor held (R378, R455). -/
def Fabric.freeTag (f : Fabric) : Option (Fin 4096) :=
  (List.finRange 4096).find? fun t => f.requests.all (fun r => r.req.tag != t) && ! f.held.contains t

def Fabric.incOf (f : Fabric) (t : Fin 4096) : Fin 16 := ((f.incs.find? (·.1 == t)).map (·.2)).getD 0

/-- A request as the message its flits carry. -/
def spanMessage (r : SpanReq) (d : Fin 4096) : Message :=
  { dest := d, src := r.src, tag := r.tag, inc := r.inc, cls := r.cls, job := r.job, seq := r.seq, body := .request r.op }

/-- A message that is not answered, to a job-relative rank: it takes no tag. Where the rank is unreachable nothing is sent. -/
def State.post (s : State) (part : Fin 8) (q off : Nat) (op : SpanOp) : State :=
  match s.fabricRank part q with
  | some d =>
    let cls := Config.messageClass op
    let r : SpanReq :=
      { src := s.fabric.self, job := BitVec.ofNat 16 s.parts[part].jobTag.toNat, tag := 0, inc := 0, cls := cls
        seq := s.fabric.seqOf d cls, offset := off, op := op }
    { s with fabric := s.fabric.transmit s.cycle.toNat (spanMessage r d), outputs := .message d r :: s.outputs }
  | none => s

/-- The other ranks of a partition's job. -/
def State.otherRanks (s : State) (part : Fin 8) : List Nat :=
  (List.range s.parts[part].ranks.length).filter fun q => q != s.parts[part].jobSelf.toNat % 4096

/-- Sends a request to a job-relative rank; none where no tag is free (R370, R374, R375, R378). -/
def State.sendRequest (s : State) (part : Fin 8) (q off : Nat) (cls : Fin 16) (op : SpanOp) (by_ : Requester) (va : Word) :
    Option (Fin 4096 × State) :=
  match s.fabricRank part q, s.fabric.freeTag with
  | some d, some t =>
    let f := s.fabric
    let sq := f.seqOf d cls
    let r : FabricRequest :=
      { dest := d, via := f.chosen s.cycle.toNat d sq.val, by_ := by_, addr := va
        req :=
          { src := f.self, job := BitVec.ofNat 16 s.parts[part].jobTag.toNat, tag := t, inc := f.incOf t, cls := cls
            seq := sq, offset := off, op := op } }
    some (t, { s with fabric := { f.transmit s.cycle.toNat (spanMessage r.req d) with requests := f.requests ++ [r] } })
  | _, _ => none

/-- Cause a reply's error code names (R371, R378, R409). -/
def causeOfCode (n : Nat) : Cause :=
  if n = 0x10 then .notPresent else if n = 0x11 then .permission else if n = 0x12 then .partition
  else if n = 0x13 then .atomicTarget else if n = 0x18 then .versionMissing else if n = 0x19 then .versionCollision
  else if n = 0x1A then .versionOrder else if n = 0x1B then .versionExhausted else if n = 0x1C then .versionTimeout
  else if n = 0x1D then .notVersioned else if n = 0x28 then .fabricTimeout else if n = 0x29 then .portLocked
  else if n = 0x2A then .unreachable else .memoryError

/-- A question of a unit to another rank: asked once; the answer is kept until the unit's step is done (R378; log 31). -/
def State.unitAsk (s : State) (key : Nat) (c : Ctx) (va : Word) (q off : Nat) (cls : Fin 16) (op : SpanOp) : Acc (List Byte) :=
  match s.fabric.unitReplies.find? fun r => r.1 == key && r.2.1 == va with
  | some (_, _, .data l) => .ok l s
  | some (_, _, .error e) => .fault (causeOfCode e.toNat)
  | none =>
    if s.fabric.requests.any fun r => r.by_ == .unit key && r.addr == va then .stall s
    else .stall (((s.sendRequest c.part q off cls op (.unit key) va).map (·.2)).getD s)

/-- A unit's step is done: the answers kept for it go. -/
def State.unitDone (s : State) (key : Nat) : State :=
  { s with fabric := { s.fabric with unitReplies := s.fabric.unitReplies.filter fun r => r.1 != key } }

/-- A read by a unit that is no strand and no job. -/
def State.unitRead (s : State) (key : Nat) (c : Ctx) (cls : Fin 16) (va : Word) (n : Nat) : Acc (List Byte) :=
  match s.resolve c .load va with
  | .fault e => .fault e
  | .transit => .wait .page
  | .ok (.remote q off) => s.unitAsk key c va q off cls (.load n)
  | .ok t => s.readTarget (c.at va) false t n

/-- Reads `n` words of 8 bytes by such a unit as loads of a class; all are asked for before the first answer is awaited. -/
def State.unitWords (s : State) (key : Nat) (c : Ctx) (cls : Fin 16) : Nat → Word → Acc (List Nat)
  | 0, _ => .ok [] s
  | n + 1, va =>
    match s.unitRead key c cls va 8 with
    | .ok l s1 =>
      match s1.unitWords key c cls n (va + 8) with
      | .ok ls s2 => .ok (leNat l :: ls) s2
      | e => e
    | .fault e => .fault e
    | .wait k => .wait k
    | .stall s1 =>
      match s1.unitWords key c cls n (va + 8) with
      | .ok _ s2 => .stall s2
      | e => e

/-- The fabric as an unfinished step of a unit leaves it: its questions have been asked. -/
def Acc.fabric {α : Type} (s : State) : Acc α → Fabric
  | .stall s' => s'.fabric
  | _ => s.fabric

/-- Words as one number, the first lowest. -/
def ofWords (l : List Nat) : Nat := l.foldr (fun w acc => w + 2 ^ 64 * acc) 0

/-- Judges a write of a unit: the write to perform; one to another rank waits for a free tag (R378). -/
def State.unitTarget (s : State) (c : Ctx) (va : Word) (data : List Byte) : Acc Write :=
  match s.resolve c .store va with
  | .fault e => .fault e
  | .transit => .wait .page
  | .ok t =>
    match t with
    | .remote _ _ => if s.fabric.freeTag.isNone then .stall s else .ok { target := t, data := data, va := va } s
    | _ =>
      match s.judgeWrite c t with
      | .ok () s' => .ok { target := t, data := data, va := va } s'
      | .fault e => .fault e
      | .wait k => .wait k
      | .stall s' => .stall s'

/-- Performs a unit's writes; those to another rank are posted. -/
def State.unitWrites (s : State) (c : Ctx) (by_ : Requester) (ws : List Write) : State :=
  let s1 := s.performWrites c.part c.gang ws
  ws.foldl (fun s w =>
    match w.target with
    | .remote q off => ((s.sendRequest c.part q off 0 (.store w.data) by_ w.va).map (·.2)).getD s
    | _ => s) s1

/-- The answer that has come for access `elem` of the instruction in issue. -/
def State.replyFor (s : State) (elem : Nat) : Option FabricReply :=
  s.hart.replies.find? fun r => r.pos == s.hart.iss.pos && r.elem == elem

/-- The hart once an instruction has consumed the answer of its access `elem`. -/
def Hart.consume (h : Hart) (elem : Nat) : Hart :=
  { h with replies := h.replies.filter fun x => ¬ (x.pos == h.iss.pos && x.elem == elem) }

/-- An access of the hart to another rank: sent once, and answered by FABRIC_REPLY; a request without a free tag stalls
(R372, R378, R454). -/
def State.remoteAccess (s : State) (va : Word) (q off : Nat) (cls : Fin 16) (op : SpanOp) (elem : Nat) : Acc (List Byte) :=
  let me := Requester.hart s.hart.engine s.hart.id s.hart.iss.pos elem
  match s.replyFor elem with
  | some r =>
    match r.answer with
    | .data l => .ok l (s.onHart (·.consume elem))
    | .error c => .fault (causeOfCode c.toNat)
  | none =>
    if s.fabric.requests.any (fun r => r.by_ == me) then .stall s
    else .stall (((s.sendRequest s.hart.part q off cls op me va).map (·.2)).getD s)

/-- Reports asynchronously what befell a store of the instruction in issue: to the strand, or for a program of a control core to its
forking strand, which takes the programs' faults (R288, R410, R442). -/
def State.reportLate (s : State) (c : Cause) (va : Word) : State :=
  match s.hart.engine with
  | .strand => s.onHart fun h => h.addReport { src := 0, pos := h.iss.pos, cause := c.code, stval := va }
  | .control _ => s.onStrand s.hart.id fun h => h.addReport { src := 1, pos := 0, cause := c.code, stval := va }

/-- The answer of a store, posted atomic or TOPKINS after which the instruction goes on, and that the strand is told of
asynchronously: a time-out, but not of a class-15 access, and of a plain store a line that it did not cover and that is uncorrectable
(R410, R442, R455; log 70). -/
def lateAnswer (cls : Fin 16) (op : SpanOp) (a : Answer) : Option Cause :=
  match a, op with
  | .error c, .store _ | .error c, .merge _ _ =>
    if c.toNat = Cause.memoryError.code then some .memoryError
    else if cls ≠ 15 ∧ c.toNat = Cause.fabricTimeout.code then some .fabricTimeout else none
  | .error c, _ => if cls ≠ 15 ∧ c.toNat = Cause.fabricTimeout.code then some .fabricTimeout else none
  | .data _, _ => none

/-- A store, posted atomic or TOPKINS to another rank. The peer's acceptance or refusal is awaited, so a refusal is precise
(R437, R439); what befalls it later is reported asynchronously (R410, R442, R455; log 70). -/
def State.remoteStore (s : State) (va : Word) (q off : Nat) (cls : Fin 16) (op : SpanOp) (elem : Nat) : Acc (List Byte) :=
  match (s.replyFor elem).bind fun r => lateAnswer cls op r.answer with
  | some c => .ok [] ((s.onHart (·.consume elem)).reportLate c va)
  | none => s.remoteAccess va q off cls op elem

/-! ### Instruction fetch -/

/-- What fetching a word gives (R59, R412, R436). -/
inductive Fetch
  | word (w : BitVec 32)
  | fault (c : Cause)
  | transit
  deriving DecidableEq, Repr

/-- The word at an address, fetched with X permission. -/
def State.fetch (s : State) (c : Ctx) (a : Word) : Fetch :=
  match s.resolve c .fetch a with
  | .fault e => .fault e
  | .transit => .transit
  | .ok t =>
    match s.readTarget c false t 4 with
    | .ok l _ => .word (BitVec.ofNat 32 (leNat l))
    | .fault e => .fault e
    | _ => .transit

/-- Whether a word continues its convoy: bit 31 (R35, R165). -/
def continues (w : BitVec 32) : Bool := w.getLsbD 31

/-! ### Traps -/

/-- SCAUSE as entry writes it (R408). -/
def scauseWord (cause pos src : Nat) (nest lost async : Bool) (vconv vstart : Nat) : Word :=
  BitVec.ofNat 64 (cause + nest.toNat * 2 ^ 8 + async.toNat * 2 ^ 16 + lost.toNat * 2 ^ 17 + pos % 4 * 2 ^ 18
    + src * 2 ^ 22 + vstart * 2 ^ 32 + vconv * 2 ^ 42)

/-- Trap entry on a strand (R407): the saved registers, the status, the pc; the stop is kept in SCAUSE. -/
def Hart.enterTrap (h : Hart) (sepc : Word) (src pos : Nat) (lost async : Bool) (cause : Nat) (stval : Word) : Hart :=
  { h with
    pc := h.csr.stvec
    wait := none
    abandoned := match h.wait with
      | some w => if w.kind = .sxRound then { uih := h.st.uih, pc := h.pc, wait := w } :: h.abandoned else h.abandoned
      | none => h.abandoned
    turn := none
    arrived := false
    delivery := some cause
    csr := { h.csr with
      sepc := sepc
      scause := scauseWord cause pos src h.st.priv lost async h.csr.vconv.toNat h.csr.vstart.toNat
      stval := stval
      vconv := 0
      vstart := 0 }
    st := { h.st with spriv := h.st.priv, priv := true, att := false } }

/-- A cause whose meeting at the fetch from STVEC aborts the strand (R414). -/
def Cause.abortsDelivery : Cause → Bool
  | .notPresent | .permission | .memoryError => true
  | _ => false

/-- Whether fetching up to `n` words of the convoy at an address meets cause 0x10, 0x11 or 0x30 (R414). -/
def State.unfetchable (s : State) (c : Ctx) : Nat → Word → Bool
  | 0, _ => false
  | n + 1, a =>
    match s.fetch c a with
    | .fault e => e.abortsDelivery
    | .word w => continues w && s.unfetchable c n (a + 4)
    | _ => false

/-- Whether the trap handler's first convoy cannot be fetched (R414). -/
def State.vectorDead (s : State) : Bool :=
  s.hart.csr.stvec == 0 || s.unfetchable { s.hart.ctx with super := true } 4 s.hart.csr.stvec

/-- A trap of this cause cannot be delivered: the strand is being aborted (R414). -/
def Hart.startAbort (h : Hart) (cause : Nat) : Hart :=
  { h with phase := .aborting cause h.csr.stvec, wait := none, delivery := none, st := { h.st with att := false } }

/-- A trap of the strand in issue is taken, or aborts the strand (R407, R414). A page in transit at STVEC is waited for first. -/
def State.enterTrap (s : State) (sepc : Word) (src pos : Nat) (lost async : Bool) (cause : Nat) (stval : Word) : State :=
  if s.vectorDead then s.onHart (·.startAbort cause)
  else s.onHart fun h => (h.enterTrap sepc src pos lost async cause stval).count 0x09 1

/-- Whether a cause is a memory fault, whose STVAL is an address (R288). -/
def Cause.isMemory : Cause → Bool
  | .misaligned | .notPresent | .permission | .partition | .atomicTarget | .bank | .notVersioned
  | .fabricTimeout | .portLocked | .unreachable | .memoryError | .bankError => true
  | _ => false

/-- The forked program that runs on a control core. -/
def State.program? (s : State) (c : Fin 64) : Option Hart :=
  s.allHarts.find? fun h => decide (h.engine = .control c ∧ h.phase = .running)

/-- A cause taken in a cluster that counts towards fencing it: 0x32, and 0x31 in its banks (R458). -/
def State.blame (s : State) (c : Option (Fin 64)) (code : Nat) : State :=
  match c with
  | none => s
  | some c =>
    if code = 0x32 then { s with clusters := s.clusters.set c { s.clusters[c] with parityFound := true } }
    else if code = 0x31 then { s with clusters := s.clusters.set c { s.clusters[c] with bankFaults := s.clusters[c].bankFaults + 1 } }
    else s

/-- The forked program of a cluster ends by a fault, which its forking strand takes (R288). -/
def State.endForkedByFault (s : State) (c : Fin 64) (cause : Cause) (stval : Word) : State :=
  match s.program? c with
  | none => s
  | some h =>
    let v := if cause.isMemory then stval else h.pc
    let cl := s.clusters[c]
    let kept := if cl.busy then cl.queue.take 1 else []
    let stop := fun k : Hart => if k.engine = .control c then { k with phase := .exited, wait := none }.setFlow .ended else k
    ({ s with
      hart := stop s.hart
      harts := s.harts.map stop
      clusters := s.clusters.set c { cl with queue := kept, stray := if cl.busy then some (cl.stray.getD h.pc) else none } }.blame
        (some c) cause.code).onStrand h.id fun o =>
        { o with cnt := { o.cnt with tiles := o.cnt.tiles - 1 } }.addReport { src := 1, pos := 0, cause := cause.code, stval := v }

/-- The instruction in issue takes a precise trap (R38, R407, R463). At issue the stop stands as it was; an element
fault leaves the first position of its run and the element. `sepc` is the convoy unless R409 names another. -/
def State.trapTo (s : State) (sepc : Word) (atIssue : Bool) (elem : Nat) (cause : Cause) (stval : Word) : State :=
  if s.hart.iss.judging then s.onHart (·.setFlow (.trapped atIssue s.hart.iss.pos elem cause stval))
  else
  match s.hart.engine with
  | .control c => s.endForkedByFault c cause stval
  | .strand =>
    let s1 := if atIssue then s else
      s.onHart fun h => { h with csr := { h.csr with
        vconv := BitVec.ofNat 2 h.iss.runPos, vstart := BitVec.ofNat 10 elem } }
    (s1.enterTrap sepc 0 s.hart.iss.pos false false cause.code stval).onHart
      (·.setFlow (.trapped atIssue s.hart.iss.pos elem cause stval))

/-- A trap whose SEPC is the convoy (R409). -/
def State.trap (s : State) (atIssue : Bool) (elem : Nat) (cause : Cause) (stval : Word) : State :=
  s.trapTo s.hart.pc atIssue elem cause stval

/-- A trap detected at issue whose STVAL is the instruction word (R409, R421). -/
def State.trapWord (s : State) (cause : Cause) : State :=
  s.trap true 0 cause (s.hart.iss.ir.zeroExtend 64)

/-! ### Wait lists of the home slices (R116) -/

/-- The next place in the order of arrival of waits, of strands, of engines and of other ranks' requests. -/
def State.ticket (s : State) : Nat :=
  let places := (s.allHarts.filterMap fun h => h.wait.map (·.since)) ++ (s.allHarts.filterMap fun h => h.turn.map (·.since)) ++
    (s.jobs.filterMap fun j => j.hold.map (·.since)) ++ s.fabric.waits.map (·.since)
  places.foldl (fun n k => max n (k + 1)) 0

/-- Version operand: bits 31:0 of a register. -/
def Hart.version (h : Hart) (x : Reg) : Nat := (h.getX x).toNat % 2 ^ 32

/-- The version a waiting LDV or VLDV names: bits 31:0 of the register its word names (R273, R274). -/
def Hart.waitVersion (h : Hart) (w : Nat) : Nat :=
  h.version (Fin.ofNat 32 (if bits w 25 6 = 0x18 then bits w 10 5 else bits w 12 5))

/-- Whose versioned load an entry of a wait list is (R116, R121). -/
inductive Waker
  | hart (e : Engine) (i : StrandId)
  | job (item : Nat)
  | span (since : Nat)
  deriving DecidableEq, Repr

/-- An entry of a wait list: the device address of the granule it waits at, the version, its place in the order of arrival (R116). -/
structure Parked where
  who : Waker
  part : Fin 8
  pa : Nat
  version : Nat
  since : Nat
  deriving DecidableEq, Repr

/-- The device address an access resolves to. -/
def Resolve.device? : Resolve → Option Nat
  | .ok (.device pa) => some pa
  | _ => none

/-- The entry of a waiting strand, of an engine, of another rank's request. -/
def State.parkedHart (s : State) (h : Hart) : Option Parked :=
  (h.wait.filter fun w => w.kind == .versionLoad && ! w.met).bind fun w =>
    (s.resolve h.ctx .load w.addr).device?.map fun pa =>
      { who := .hart h.engine h.id, part := h.part, pa := pa, version := h.waitVersion w.ir.toNat, since := w.since }
def State.parkedJob (s : State) (j : Job) : Option Parked :=
  (j.hold.filter fun w => w.kind == .versionLoad && ! w.woken).bind fun w =>
    (s.resolve j.reach .load w.va).device?.map fun pa =>
      { who := .job j.item, part := j.part, pa := pa, version := w.version, since := w.since }
def State.parkedSpan (s : State) (e : SpanWait) : Option Parked :=
  match e.arrival.req.op with
  | .versionedLoad v _ =>
    if e.kind = .versionLoad ∧ ¬ e.woken then
      (s.exportResolve (s.spanCtx e.arrival.part) .load e.arrival.req.offset).device?.map fun pa =>
        { who := .span e.since, part := e.arrival.part, pa := pa, version := v.toNat, since := e.since }
    else none
  | _ => none

/-- The entries of the wait lists, but for one of the hart in front, whose instruction is being issued. -/
def State.parked (s : State) : List Parked :=
  s.harts.filterMap s.parkedHart ++ s.jobs.filterMap s.parkedJob ++ s.fabric.waits.filterMap s.parkedSpan

/-- The slice that homes a device address: its die and its number there (R23). -/
def sliceOf (pa : Nat) : Nat × Nat := (homeDie pa, Config.homeSlice (pa / 128) % 128)

/-- Whether the wait list of the slice that homes what an access reaches holds 4,096 loads (R116). -/
def State.listFull (s : State) (r : Resolve) : Bool :=
  decide (4096 ≤ s.harts.length + s.jobs.length + s.fabric.waits.length) &&
    r.device?.any fun pa => decide (4096 ≤ (s.parked.filter fun e => sliceOf e.pa == sliceOf pa).length)

/-- What a versioned load that must wait enters: the list of its slice, or none where that is full (R116). -/
def State.listed (s : State) (k : WaitKind) (r : Resolve) : WaitKind := if k = .versionLoad ∧ s.listFull r then .versionRefused else k

/-- A wait for a page whose walk is repeated at once (R64, R434). -/
def Hart.walkAgain (h : Hart) : Hart :=
  match h.wait with
  | some w => if w.kind = .page ∨ w.kind = .fetch then { h with wait := some { w with met := true } } else h
  | none => h

/-- The place in the order of arrival of an instruction that must wait at an address: the one that its wait there, or its turn at a
bank that switches, has already (R72, R74, R116). -/
def State.place (s : State) (h : Hart) (kind : WaitKind) (addr : Word) : Nat :=
  match h.wait, h.turn with
  | some w, _ => if w.kind = kind ∧ w.addr = addr then w.since else s.ticket
  | none, some t => if t.kind = kind ∧ t.addr = addr then t.since else s.ticket
  | none, none => s.ticket

/-- The wait an instruction enters: the one it was in already keeps its place in the order of arrival (R74, R116); a versioned
load that meets a full wait list is refused a place (R116). -/
def State.newWait (s : State) (kind : WaitKind) (elem : Nat) (addr : Word) : Wait :=
  let h := s.hart
  let k := s.listed kind (s.resolve h.ctx .load addr)
  { kind := k, pos := h.iss.pos, elem := elem, addr := addr, ir := h.iss.ir, since := s.place h k addr, met := false, expired := none }

/-- The instruction in issue, a push or a pop, is held by the switch of its bank, with its place in the order of arrival (R72, R74). -/
def State.takeTurn (s : State) (kind : WaitKind) (addr : Word) : State :=
  s.onHart fun h => { h with turn := some { kind := kind, addr := addr, since := s.place h kind addr } }

/-- The instruction in issue waits under R30; it is issued again and tests its condition again. -/
def State.waitFor (s : State) (k : WaitKind) (elem : Nat) (addr : Word) : State :=
  s.onHart fun h => { h with wait := some (s.newWait k elem addr), turn := none }.setFlow (.held elem)

/-- The instruction in issue stalls on memory: no wait of R30, it is issued again. -/
def State.stall (s : State) (elem : Nat) : State := s.onHart fun h => { h with wait := none }.setFlow (.held elem)

/-- ERET's restoration (R214): VCONV and VSTART from SCAUSE, pc from SEPC, PRIV from SPRIV. -/
def Hart.returnTrap (h : Hart) : Hart :=
  { h with
    pc := h.csr.sepc
    csr := { h.csr with
      vconv := BitVec.ofNat 2 (bits h.csr.scause.toNat 42 2)
      vstart := BitVec.ofNat 10 (bits h.csr.scause.toNat 32 10) }
    st := { h.st with priv := h.st.spriv } }

/-! ### Scalar accesses of the hart in issue -/

/-- Stores held to be performed: the counter rises on a strand, not on a control core (R98, R154, R207). -/
def Hart.addPending (h : Hart) (cls : Fin 16) : Hart :=
  { h with
    pending := h.pending ++ [{ cls := cls, counted := ! h.isControl }]
    storesIssued := h.storesIssued + 1
    cnt := { h.cnt with stores := if h.isControl then h.cnt.stores else h.cnt.stores + 1 } }

/-- Whether the stores counter is full, so that a counted operation stalls (R98). -/
def Hart.storesFull (h : Hart) : Bool := ! h.isControl && h.cnt.stores == 0xFFFF

/-- A plain load of `n` bytes by the hart, as element `elem` of its instruction (R57-R66, R186, R262). While a convoy is only judged
a versioned region reads as its snapshot: its cause 0x05 comes after the six checks (R262, R421; log 16). -/
def State.loadBytes (s : State) (va : Word) (n : Nat) (cls : Fin 16) (elem : Nat) : Acc (List Byte) :=
  match s.resolve s.hart.ctx .load va with
  | .fault c => .fault c
  | .transit => .wait .page
  | .ok (.remote q off) => s.remoteAccess va q off cls (.load n) elem
  | .ok t => s.readTarget (s.hart.ctx.at va) (s.hart.st.det && ! s.hart.iss.judging) t n

/-- Judges a plain store of the hart, giving the write to perform (R186); another rank judges its own when it is sent. -/
def State.storeTarget (s : State) (va : Word) (data : List Byte) (mask : Byte) : Acc Write :=
  match s.resolve s.hart.ctx .store va with
  | .fault c => .fault c
  | .transit => .wait .page
  | .ok t =>
    match s.judgeWrite s.hart.ctx t with
    | .ok () s' => .ok { target := t, data := data, va := va, mask := mask } s'
    | .fault c => .fault c
    | .wait k => .wait k
    | .stall s' => .stall s'

/-- Sends a judged write of the hart to the rank it leads to, as access `key` of its instruction; a local one is performed later
(R186, R372). -/
def State.sendStore (s : State) (w : Write) (cls : Fin 16) (key : Nat) : Acc Unit :=
  match w.target with
  | .remote q off =>
    match s.remoteStore w.va q off cls (if w.mask = 0xFF then .store w.data else .merge w.mask (w.data.headD 0)) key with
    | .ok _ s' => .ok () s'
    | .fault c => .fault c
    | .wait k => .wait k
    | .stall s' => .stall s'
  | _ => .ok () s

/-- A write that a line with an uncorrectable error drops (R442). -/
def State.droppedWrite (s : State) (ws : List Write) : Option Write :=
  ws.find? fun w => match w.target with | .device pa => (s.blockedLines ws).contains (pa / 128 * 128) | _ => false

/-- Performs the local writes of a store instruction of the hart; a write that is dropped is reported (R186, R442). -/
def State.performStores (s : State) (ws : List Write) : State :=
  let s1 := s.performWrites s.hart.part s.hart.ctx.gang ws
  match s.droppedWrite ws with
  | some w => s1.reportLate .memoryError w.va
  | none => s1

/-- Performs the writes of a store instruction of the hart and counts it (R98). -/
def State.commitStore (s : State) (cls : Fin 16) (ws : List Write) : State := (s.performStores ws).onHart (·.addPending cls)

/-- What a wait found by an access amounts to: the cause that ends it, where its limit has been reached (R445). -/
def State.waitEnds (s : State) (k : WaitKind) : Option Cause :=
  match k with
  | .versionLoad | .versionRefused | .versionStore => s.hart.due
  | _ => none

/-- STVAL of an access's fault: a dirty line's error names the line, any other the address accessed (R441). -/
def faultAddr (c : Cause) (va : Word) : Word :=
  if c = .bankError ∧ va.toNat < spanBase then va &&& ~~~ 127 else va

/-- Ends a scalar access: its value goes to `k`; a fault, wait or stall stops the instruction (R177). -/
def State.withAcc {α : Type} (s : State) (va : Word) (a : Acc α) (k : α → State → State) : State :=
  match a with
  | .ok v s' => k v s'
  | .fault c => s.trap (c = .deterministic) 0 c (if c = .deterministic then s.hart.iss.ir.zeroExtend 64 else faultAddr c va)
  | .wait w =>
    match s.waitEnds w with
    | some c => s.trap false 0 c va
    | none => s.waitFor w 0 va
  | .stall s' => s'.stall 0

end Sys2Proof.Machine
end

