-- ==== Sys2Proof/Machine/Operands.lean ====
section
/-! DEFINITION. Operand forms shared by the scalar instructions: register, immediate, memory operand, branch target (R166, R178, R185, R186). -/

namespace Sys2Proof.Machine

/-- What a meaning answers. -/
abbrev Result := Host.Outcome State Fault Refusal

/-- The state a meaning leaves; none here answers with a fault or a refusal. -/
def resultState (r : Result) (s : State) : State :=
  match r with
  | .next t => t
  | _ => s

/-- A signed immediate widened to 64 bits (R166). -/
def signed {n : Nat} (i : BitVec n) : Word := i.signExtend 64

/-- Writes `f` of two scalar registers; sources are read before the destination is written (R178). -/
def State.alu2 (s : State) (d a b : Reg) (f : Word → Word → Word) : Result :=
  .next (s.onHart fun h => h.setX d (f (h.getX a) (h.getX b)))

/-- Writes `f` of one scalar register. -/
def State.alu1 (s : State) (d a : Reg) (f : Word → Word) : Result :=
  .next (s.onHart fun h => h.setX d (f (h.getX a)))

/-- A branch or jump target: words from the instruction that holds the offset (R165). -/
def wordTarget {n : Nat} (pc : Word) (o : BitVec n) : Word := pc + signed o * 4

/-- Address of an SM memory operand (R186). -/
def memOperand (h : Hart) (a : Reg) (sz : Size) (o : BitVec 8) : Word :=
  h.getX a + signed o * BitVec.ofNat 64 sz.bytes

/-- Whether an address is a multiple of `n`. -/
def aligned (a : Word) (n : Nat) : Bool := a.toNat % n == 0

/-- Little-endian bytes as a zero-extended word. -/
def wordOfBytes (l : List Byte) : Word := BitVec.ofNat 64 (leNat l)

/-- Little-endian bytes as a sign-extended word. -/
def signedOfBytes (l : List Byte) : Word := (BitVec.ofNat (8 * l.length) (leNat l)).signExtend 64

/-- An instruction the matrix control core does not accept takes cause 0x08 there (R171, R424). -/
def State.strandOnly (s : State) (k : State → State) : Result :=
  .next (if s.hart.isControl then s.trapWord .engine else k s)

/-- An instruction only the matrix control core accepts (R171, R424). -/
def State.controlOnly (s : State) (k : Fin 64 → State → State) : Result :=
  .next (match s.hart.engine with
    | .control c => k c s
    | .strand => s.trapWord .engine)

/-- A supervisor instruction takes cause 0x03 at user privilege (R171, R424). -/
def State.supervisorOnly (s : State) (k : State → State) : Result :=
  s.strandOnly fun s => if s.hart.st.priv then k s else s.trapWord .privilege

end Sys2Proof.Machine
end

