-- ==== Sys2Proof/Machine/Alu.lean ====
section
/-! DEFINITION. Integer operations on scalar registers: majors 0x01 to 0x0D (R180-R185). -/

namespace Sys2Proof.Machine

/-- Shift amount: the low six bits (R180). -/
def shiftAmount (b : Word) : Nat := b.toNat % 64

def boolWord (b : Bool) : Word := if b then 1 else 0

def execAdd (d a b : Reg) (s : State) : Result := s.alu2 d a b (· + ·)
def execSub (d a b : Reg) (s : State) : Result := s.alu2 d a b (· - ·)
def execAnd (d a b : Reg) (s : State) : Result := s.alu2 d a b (· &&& ·)
def execOr (d a b : Reg) (s : State) : Result := s.alu2 d a b (· ||| ·)
def execXor (d a b : Reg) (s : State) : Result := s.alu2 d a b (· ^^^ ·)
def execSll (d a b : Reg) (s : State) : Result := s.alu2 d a b fun x y => x <<< shiftAmount y
def execSrl (d a b : Reg) (s : State) : Result := s.alu2 d a b fun x y => x >>> shiftAmount y
def execSra (d a b : Reg) (s : State) : Result := s.alu2 d a b fun x y => x.sshiftRight (shiftAmount y)
def execSlt (d a b : Reg) (s : State) : Result := s.alu2 d a b fun x y => boolWord (x.slt y)
def execSltu (d a b : Reg) (s : State) : Result := s.alu2 d a b fun x y => boolWord (x.ult y)
def execMin (d a b : Reg) (s : State) : Result := s.alu2 d a b fun x y => if x.slt y then x else y
def execMax (d a b : Reg) (s : State) : Result := s.alu2 d a b fun x y => if x.slt y then y else x
def execMinu (d a b : Reg) (s : State) : Result := s.alu2 d a b fun x y => if x.ult y then x else y
def execMaxu (d a b : Reg) (s : State) : Result := s.alu2 d a b fun x y => if x.ult y then y else x
def execAddw (d a b : Reg) (s : State) : Result := s.alu2 d a b fun x y => ((x + y).truncate 32).signExtend 64
def execSubw (d a b : Reg) (s : State) : Result := s.alu2 d a b fun x y => ((x - y).truncate 32).signExtend 64

/-- High half of the signed product (R181). -/
def mulHigh (x y : Word) : Word := BitVec.ofInt 64 (x.toInt * y.toInt / 2 ^ 64)
/-- High half of the unsigned product (R181). -/
def mulHighU (x y : Word) : Word := BitVec.ofNat 64 (x.toNat * y.toNat / 2 ^ 64)
/-- Signed quotient rounded toward zero, with the edge cases of R181. -/
def divSigned (x y : Word) : Word := if y = 0 then BitVec.allOnes 64 else BitVec.ofInt 64 (x.toInt.tdiv y.toInt)
/-- Unsigned quotient (R181). -/
def divUnsigned (x y : Word) : Word := if y = 0 then BitVec.allOnes 64 else BitVec.ofNat 64 (x.toNat / y.toNat)
/-- Signed remainder with the sign of the dividend (R181). -/
def remSigned (x y : Word) : Word := if y = 0 then x else BitVec.ofInt 64 (x.toInt.tmod y.toInt)
/-- Unsigned remainder (R181). -/
def remUnsigned (x y : Word) : Word := if y = 0 then x else BitVec.ofNat 64 (x.toNat % y.toNat)

def execMul (d a b : Reg) (s : State) : Result := s.alu2 d a b (· * ·)
def execMulh (d a b : Reg) (s : State) : Result := s.alu2 d a b mulHigh
def execMulhu (d a b : Reg) (s : State) : Result := s.alu2 d a b mulHighU
def execDiv (d a b : Reg) (s : State) : Result := s.alu2 d a b divSigned
def execDivu (d a b : Reg) (s : State) : Result := s.alu2 d a b divUnsigned
def execRem (d a b : Reg) (s : State) : Result := s.alu2 d a b remSigned
def execRemu (d a b : Reg) (s : State) : Result := s.alu2 d a b remUnsigned

/-- Leading zero bits among the low `n` bits of a number (R182). -/
def leadingZeros (v : Nat) : Nat → Nat
  | 0 => 0
  | n + 1 => if v / 2 ^ n % 2 = 1 then 0 else leadingZeros v n + 1

/-- Trailing zero bits of a number of `n` bits (R182). -/
def trailingZeros (v : Nat) : Nat → Nat
  | 0 => 0
  | n + 1 => if v % 2 = 1 then 0 else trailingZeros (v / 2) n + 1

/-- The eight bytes in reverse order (R182). -/
def byteSwap (x : Word) : Word := BitVec.ofNat 64 (leNat (leBytes 8 x.toNat).reverse)

def execClz (d a : Reg) (s : State) : Result := s.alu1 d a fun x => BitVec.ofNat 64 (leadingZeros x.toNat 64)
def execCtz (d a : Reg) (s : State) : Result := s.alu1 d a fun x => BitVec.ofNat 64 (trailingZeros x.toNat 64)
def execPopc (d a : Reg) (s : State) : Result := s.alu1 d a fun x => BitVec.ofNat 64 (popcount x.toNat 64)
def execSextb (d a : Reg) (s : State) : Result := s.alu1 d a fun x => (x.truncate 8).signExtend 64
def execSexth (d a : Reg) (s : State) : Result := s.alu1 d a fun x => (x.truncate 16).signExtend 64
def execSextw (d a : Reg) (s : State) : Result := s.alu1 d a fun x => (x.truncate 32).signExtend 64
def execZextw (d a : Reg) (s : State) : Result := s.alu1 d a fun x => (x.truncate 32).zeroExtend 64
def execBswap (d a : Reg) (s : State) : Result := s.alu1 d a byteSwap

def execAddi (d a : Reg) (i : BitVec 15) (s : State) : Result := s.alu1 d a (· + signed i)
def execAndi (d a : Reg) (i : BitVec 15) (s : State) : Result := s.alu1 d a (· &&& signed i)
def execOri (d a : Reg) (i : BitVec 15) (s : State) : Result := s.alu1 d a (· ||| signed i)
def execXori (d a : Reg) (i : BitVec 15) (s : State) : Result := s.alu1 d a (· ^^^ signed i)
def execSlti (d a : Reg) (i : BitVec 15) (s : State) : Result := s.alu1 d a fun x => boolWord (x.slt (signed i))
def execSltiu (d a : Reg) (i : BitVec 15) (s : State) : Result := s.alu1 d a fun x => boolWord (x.ult (signed i))
def execSlli (d a : Reg) (n : Fin 64) (s : State) : Result := s.alu1 d a (· <<< n.val)
def execSrli (d a : Reg) (n : Fin 64) (s : State) : Result := s.alu1 d a (· >>> n.val)
def execSrai (d a : Reg) (n : Fin 64) (s : State) : Result := s.alu1 d a (·.sshiftRight n.val)

def execLi (d : Reg) (i : BitVec 20) (s : State) : Result := .next (s.onHart fun h => h.setX d (signed i))
/-- LIS reads its own destination (R185). -/
def execLis (d : Reg) (i : BitVec 20) (s : State) : Result := s.alu1 d d fun x => (x <<< 20) + i.zeroExtend 64
/-- ADDPC: the offset is in bytes (R185). -/
def execAddpc (d : Reg) (i : BitVec 20) (s : State) : Result := .next (s.onHart fun h => h.setX d (h.pc + signed i))

end Sys2Proof.Machine
end

