-- ==== Sys2Proof/Machine/Flags.lean ====
section
/-! DEFINITION. Sticky flags: FFLAGS, SATF, and the status views computed from the hart's fields (R127, R129, R162, R163, R464). -/

namespace Sys2Proof.Machine

/-- Exceptions an operation raises, before they are ORed into FFLAGS (R127). -/
structure Raised where
  nv : Bool := false
  dz : Bool := false
  of : Bool := false
  uf : Bool := false
  nx : Bool := false
  sat : Bool := false
  deriving DecidableEq, Repr

def Raised.none : Raised := {}

/-- Exceptions of two operations together. -/
def Raised.or (a b : Raised) : Raised :=
  { nv := a.nv || b.nv, dz := a.dz || b.dz, of := a.of || b.of, uf := a.uf || b.uf, nx := a.nx || b.nx, sat := a.sat || b.sat }

/-- The five FFLAGS bits, NV in bit 4 down to NX in bit 0 (R127). -/
def Raised.bits (r : Raised) : BitVec 5 :=
  BitVec.ofNat 5 (r.nv.toNat * 16 + r.dz.toNat * 8 + r.of.toNat * 4 + r.uf.toNat * 2 + r.nx.toNat)

/-- ORs exceptions into the sticky FFLAGS and SATF (R127, R129). -/
def Hart.raise (h : Hart) (r : Raised) : Hart :=
  { h with csr := { h.csr with fflags := h.csr.fflags ||| r.bits, satf := h.csr.satf || r.sat } }

/-- STATUS as software reads it (R162). -/
def Status.word (t : Status) : Word :=
  BitVec.ofNat 64 (t.priv.toNat + t.spriv.toNat * 2 + t.uie.toNat * 4 + t.det.toNat * 16 + t.att.toNat * 32
    + t.uih.toNat * 64 + t.lact.toNat * 128)

/-- VTAGA (`lo` 0) and VTAGB (`lo` 16) as software reads them (R163). -/
def tagWord (tags : Vector Tag 32) (lo : Nat) : Word :=
  BitVec.ofNat 64 ((List.range 16).foldl (fun acc i => acc + (tags.getD (lo + i) .i32).code * 2 ^ (3 * i)) 0)

/-- COORD as software reads it (R163). -/
def coordWord (h : Hart) : Word :=
  BitVec.ofNat 64 (h.id.vcid.val + h.id.stage.val * 2 ^ 10 + h.rank.val * 2 ^ 16)

end Sys2Proof.Machine
end

