-- ==== Sys2Proof/Machine/Num.lean ====
section
/-! DEFINITION. Floating point: exact values, one rounding, exceptions, the BF16 units, random bits (R123-R128, R133-R144, R464). -/

namespace Sys2Proof.Machine

/-- An exact magnitude with a sign: between `m * 2^e` (that value when `more` is false) and `(m + 1) * 2^e`. -/
structure Exact where
  neg : Bool
  m : Nat
  e : Int
  more : Bool := false
  deriving DecidableEq, Repr

/-- A floating-point operand: NaN (signalling or not), infinity, or a finite value (R123). -/
inductive Val
  | nan (signalling : Bool)
  | inf (neg : Bool)
  | fin (x : Exact)
  deriving DecidableEq, Repr

/-- Rounding modes of RMODE (R124). -/
inductive Rounding | nearest | zero | up | down
  deriving DecidableEq, Repr

def Rounding.ofBits (b : BitVec 2) : Rounding :=
  match b.toNat with | 0 => .nearest | 1 => .zero | 2 => .up | _ => .down

/-- A binary format: precision, least exponent of a normal number, exponent bits (R123, R130). -/
structure Fmt where
  prec : Nat
  emin : Int
  ebits : Nat
  deriving DecidableEq, Repr

def fp32 : Fmt := { prec := 24, emin := -126, ebits := 8 }
def bf16 : Fmt := { prec := 8, emin := -126, ebits := 8 }

/-- Number of bits of a format's encoding. -/
def Fmt.width (f : Fmt) : Nat := f.prec + f.ebits
/-- Encoding of +infinity: the exponent field all ones. -/
def Fmt.infBits (f : Fmt) : Nat := (2 ^ f.ebits - 1) * 2 ^ (f.prec - 1)
/-- The canonical NaN (R126). -/
def Fmt.nanBits (f : Fmt) : Nat := f.infBits + 2 ^ (f.prec - 2)
def Fmt.signBit (f : Fmt) : Nat := 2 ^ (f.width - 1)
def Fmt.withSign (f : Fmt) (neg : Bool) (b : Nat) : Nat := if neg then f.signBit + b else b

/-- The value of an encoding of FP32 or BF16 (R123). -/
def Fmt.decode (f : Fmt) (b : Nat) : Val :=
  let neg := bit b (f.width - 1)
  let ex := bits b (f.prec - 1) f.ebits
  let fr := bits b 0 (f.prec - 1)
  if ex = 2 ^ f.ebits - 1 then
    if fr = 0 then .inf neg else .nan (! bit fr (f.prec - 2))
  else if ex = 0 then .fin { neg := neg, m := fr, e := f.emin - (f.prec - 1 : Nat) }
  else .fin { neg := neg, m := 2 ^ (f.prec - 1) + fr, e := f.emin - (f.prec - 1 : Nat) + (ex - 1 : Nat) }

/-- Rounds a magnitude to a multiple of `2^q`: the multiple, and whether it differs from the exact value (R124). -/
def Exact.roundTo (x : Exact) (q : Int) (r : Rounding) : Nat × Bool :=
  let sh := (q - x.e).toNat
  let n := if x.e ≥ q then x.m * 2 ^ (x.e - q).toNat else x.m / 2 ^ sh
  let rem := if x.e ≥ q then 0 else x.m % 2 ^ sh
  let inexact := rem ≠ 0 ∨ x.more
  let half := 2 ^ sh / 2
  let above := sh ≠ 0 ∧ (half < rem ∨ (rem = half ∧ x.more))
  let tie := sh ≠ 0 ∧ rem = half ∧ ¬ x.more
  let inc := match r with
    | .nearest => above ∨ (tie ∧ n % 2 = 1)
    | .zero => False
    | .up => inexact ∧ ¬ x.neg
    | .down => inexact ∧ x.neg
  have : Decidable inc := by dsimp only [inc]; split <;> infer_instance
  (if inc then n + 1 else n, decide inexact)

/-- Exponent of the leading bit of a magnitude that is not zero. -/
def Exact.top (x : Exact) : Int := (Nat.log2 x.m : Nat) + x.e

/-- Overflow in a rounding mode (R125). -/
def Fmt.overflow (f : Fmt) (neg : Bool) (r : Rounding) : Nat :=
  let toInf := match r with
    | .nearest => true
    | .zero => false
    | .up => ! neg
    | .down => neg
  f.withSign neg (if toInf then f.infBits else f.infBits - 1)

/-- The one rounding of an exact value to a format, with its exceptions (R124, R125, R127, R464). -/
def Fmt.round (f : Fmt) (r : Rounding) (x : Exact) : Nat × Raised :=
  if x.m = 0 ∧ ¬ x.more then (f.withSign x.neg 0, .none)
  else
    let qmin := f.emin - (f.prec - 1 : Nat)
    let qu := if x.m = 0 then qmin else x.top - (f.prec - 1 : Nat)
    let q := max qu qmin
    let (n, inexact) := x.roundTo q r
    let enc := (q - qmin).toNat * 2 ^ (f.prec - 1) + n
    if f.infBits ≤ enc then (f.overflow x.neg r, { of := true, nx := true })
    else
      let u := x.roundTo qu r
      let tiny := x.m = 0 ∨ u.1 = 0 ∨ (Nat.log2 u.1 : Nat) + qu < f.emin
      (f.withSign x.neg enc, { nx := inexact, uf := inexact && decide tiny })

/-- Exact sum of two finite values; the sign of an exact zero follows R125. -/
def Exact.add (r : Rounding) (x y : Exact) : Exact :=
  let e := min x.e y.e
  let sx : Int := (if x.neg then -1 else 1) * (x.m * 2 ^ (x.e - e).toNat : Nat)
  let sy : Int := (if y.neg then -1 else 1) * (y.m * 2 ^ (y.e - e).toNat : Nat)
  let t := sx + sy
  if t = 0 then
    if x.neg = y.neg ∧ x.m = 0 ∧ y.m = 0 then { neg := x.neg, m := 0, e := e }
    else { neg := r == .down, m := 0, e := e }
  else { neg := decide (t < 0), m := t.natAbs, e := e }

def Exact.mul (x y : Exact) : Exact := { neg := x.neg != y.neg, m := x.m * y.m, e := x.e + y.e }

def Val.isSignalling : Val → Bool | .nan s => s | _ => false
def Val.isNan : Val → Bool | .nan _ => true | _ => false
def Val.negate : Val → Val
  | .nan s => .nan s
  | .inf n => .inf (! n)
  | .fin x => .fin { x with neg := ! x.neg }

/-- Integer square root by `n` bits, from the top. -/
def isqrtBits (v : Nat) : Nat → Nat → Nat
  | 0, r => r
  | n + 1, r => let t := r + 2 ^ n; isqrtBits v n (if t * t ≤ v then t else r)

/-- Greatest number whose square is at most `v`. -/
def isqrt (v : Nat) : Nat := isqrtBits v (Nat.log2 v / 2 + 1) 0

/-- Quotient with enough bits that one rounding of it is exact. -/
def Exact.div (x y : Exact) : Exact :=
  let k := 64 + Nat.log2 y.m
  { neg := x.neg != y.neg, m := x.m * 2 ^ k / y.m, e := x.e - y.e - k, more := decide (x.m * 2 ^ k % y.m ≠ 0) }

/-- Square root with enough bits that one rounding of it is exact. -/
def Exact.sqrt (x : Exact) : Exact :=
  let odd : Nat := (x.e % 2).toNat
  let v := x.m * 2 ^ odd * 2 ^ 64
  let y := isqrt v
  { neg := x.neg, m := y, e := (x.e - odd) / 2 - 32, more := decide (y * y ≠ v) }

/-- Delivers an operand or exact result in a format (R124-R126). -/
def Fmt.deliver (f : Fmt) (r : Rounding) (v : Val) : Nat × Raised :=
  match v with
  | .nan _ => (f.nanBits, .none)
  | .inf n => (f.withSign n f.infBits, .none)
  | .fin x => f.round r x

/-- The canonical NaN of an invalid operation (R126, R127). -/
def Fmt.invalid (f : Fmt) : Nat × Raised := (f.nanBits, { nv := true })

/-- Result of an operation with a NaN operand: NV where one is signalling (R126, R127). -/
def Fmt.nanOf (f : Fmt) (signalling : Bool) : Nat × Raised := (f.nanBits, { nv := signalling })

/-- Addition (R124-R126). -/
def Fmt.add (f : Fmt) (r : Rounding) (a b : Val) : Nat × Raised :=
  match a, b with
  | .nan s, t => f.nanOf (s || t.isSignalling)
  | _, .nan s => f.nanOf s
  | .inf n, .inf m => if n = m then (f.withSign n f.infBits, .none) else f.invalid
  | .inf n, _ => (f.withSign n f.infBits, .none)
  | _, .inf n => (f.withSign n f.infBits, .none)
  | .fin x, .fin y => f.round r (x.add r y)

def Fmt.sub (f : Fmt) (r : Rounding) (a b : Val) : Nat × Raised := f.add r a b.negate

/-- Product before rounding: none where the operation is invalid (R126). -/
def Val.mul : Val → Val → Option Val
  | .nan s, t => some (.nan (s || t.isSignalling))
  | _, .nan s => some (.nan s)
  | .inf n, .inf m => some (.inf (n != m))
  | .inf n, .fin y => if y.m = 0 then none else some (.inf (n != y.neg))
  | .fin x, .inf m => if x.m = 0 then none else some (.inf (x.neg != m))
  | .fin x, .fin y => some (.fin (x.mul y))

def Fmt.mul (f : Fmt) (r : Rounding) (a b : Val) : Nat × Raised :=
  match a.mul b with
  | none => f.invalid
  | some (.nan s) => f.nanOf s
  | some v => f.deliver r v

/-- a * b + c with one rounding; 0 times infinity is invalid whatever the addend (R124, R126). -/
def Fmt.fma (f : Fmt) (r : Rounding) (a b c : Val) : Nat × Raised :=
  match a.mul b with
  | none => f.invalid
  | some p => f.add r p c

/-- Division (R126, R127). -/
def Fmt.div (f : Fmt) (r : Rounding) (a b : Val) : Nat × Raised :=
  match a, b with
  | .nan s, t => f.nanOf (s || t.isSignalling)
  | _, .nan s => f.nanOf s
  | .inf _, .inf _ => f.invalid
  | .inf n, .fin y => (f.withSign (n != y.neg) f.infBits, .none)
  | .fin x, .inf m => (f.withSign (x.neg != m) 0, .none)
  | .fin x, .fin y =>
    if y.m = 0 then
      if x.m = 0 then f.invalid else (f.withSign (x.neg != y.neg) f.infBits, { dz := true })
    else f.round r (x.div y)

/-- Square root; below −0 it is invalid (R126). -/
def Fmt.sqrt (f : Fmt) (r : Rounding) (a : Val) : Nat × Raised :=
  match a with
  | .nan s => f.nanOf s
  | .inf true => f.invalid
  | .inf false => (f.infBits, .none)
  | .fin x =>
    if x.m = 0 then (f.withSign x.neg 0, .none)
    else if x.neg then f.invalid
    else f.round r x.sqrt

/-- Order of two values that are not NaN, −0 below +0 (R128). -/
def Val.ltTotal : Val → Val → Bool
  | .inf n, .inf m => n && ! m
  | .inf n, _ => n
  | _, .inf m => ! m
  | .fin x, .fin y =>
    let e := min x.e y.e
    let a := x.m * 2 ^ (x.e - e).toNat
    let b := y.m * 2 ^ (y.e - e).toNat
    match x.neg, y.neg with
    | true, false => true
    | false, true => false
    | false, false => decide (a < b)
    | true, true => decide (b < a)
  | _, _ => false

/-- Numeric comparison: −0 equals +0 (R236). -/
def Val.lt (a b : Val) : Bool :=
  match a, b with
  | .fin x, .fin y => if x.m = 0 ∧ y.m = 0 then false else a.ltTotal b
  | .nan _, _ => false
  | _, .nan _ => false
  | _, _ => a.ltTotal b
def Val.eq (a b : Val) : Bool :=
  match a, b with
  | .nan _, _ => false
  | _, .nan _ => false
  | _, _ => ! a.lt b && ! b.lt a

/-- Minimum or maximum of two encodings (R128). -/
def Fmt.minmax (f : Fmt) (isMax : Bool) (x y : Nat) : Nat × Raised :=
  let a := f.decode x
  let b := f.decode y
  let nv := a.isSignalling || b.isSignalling
  if a.isNan ∧ b.isNan then (f.nanBits, { nv := nv })
  else if a.isNan then (y, { nv := nv })
  else if b.isNan then (x, { nv := nv })
  else (if a.ltTotal b = isMax then y else x, .none)

/-! ### Narrow formats (R130, R133, R134) -/

/-- Value of an E4M3 byte. -/
def decodeE4m3 (b : Nat) : Val :=
  let ex := bits b 3 4
  let fr := bits b 0 3
  if ex = 15 ∧ fr = 7 then .nan false
  else if ex = 0 then .fin { neg := bit b 7, m := fr, e := -9 }
  else .fin { neg := bit b 7, m := 8 + fr, e := (ex : Int) - 10 }

/-- Value of an E5M2 byte. -/
def decodeE5m2 (b : Nat) : Val :=
  let ex := bits b 2 5
  let fr := bits b 0 2
  if ex = 31 then (if fr = 0 then .inf (bit b 7) else .nan false)
  else if ex = 0 then .fin { neg := bit b 7, m := fr, e := -16 }
  else .fin { neg := bit b 7, m := 4 + fr, e := (ex : Int) - 17 }

/-- Value of an E2M1 half byte. -/
def decodeE2m1 (b : Nat) : Val :=
  let ex := bits b 1 2
  let fr := bits b 0 1
  if ex = 0 then .fin { neg := bit b 3, m := fr, e := -1 }
  else .fin { neg := bit b 3, m := 2 + fr, e := (ex : Int) - 2 }

/-- An integer as an exact value. -/
def exactOfInt (i : Int) : Exact := { neg := decide (i < 0), m := i.natAbs, e := 0 }

/-- A value times a power of two, exactly. -/
def Val.scale (v : Val) (s : Int) : Val :=
  match v with
  | .fin x => .fin { x with e := x.e + s }
  | v => v

/-- Rounds to a narrow float format whose codes rise with the magnitude, saturating (R134); `maxCode` is its largest finite. -/
def narrowFloat (prec : Nat) (emin : Int) (maxCode : Nat) (x : Exact) : Nat × Bool :=
  if x.m = 0 then (0, false)
  else
    let qmin := emin - (prec - 1 : Nat)
    let q := max (x.top - (prec - 1 : Nat)) qmin
    let n := (x.roundTo q .nearest).1
    let enc := (q - qmin).toNat * 2 ^ (prec - 1) + n
    if maxCode < enc then (maxCode, true) else (enc, false)

/-- Stores an exact value divided by 2^s in a narrow format: its code, and whether it saturated (R134). -/
def narrow (f : MemFmt) (v : Val) (s : Int) : Nat × Bool :=
  let intFmt := fun (w : Nat) (x : Exact) =>
    let n : Int := (x.roundTo 0 .nearest).1
    let i := if x.neg then -n else n
    let lo : Int := -(2 ^ (w - 1) : Nat)
    let hi : Int := (2 ^ (w - 1) : Nat) - 1
    let c := max lo (min hi i)
    ((c % (2 ^ w : Nat)).toNat, decide (c ≠ i))
  match v with
  | .nan _ =>
    match f with
    | .e4m3 => (0x7F, false)
    | .e5m2 => (0x7E, false)
    | _ => (0, true)
  | .inf neg =>
    match f with
    | .e5m2 => (if neg then 0xFC else 0x7C, false)
    | .e4m3 => (if neg then 0xFE else 0x7E, true)
    | .e2m1 => (if neg then 0xF else 0x7, true)
    | .int4 => (if neg then 0x8 else 0x7, true)
    | _ => (if neg then 0x80 else 0x7F, true)
  | .fin x0 =>
    let x := { x0 with e := x0.e - s }
    match f with
    | .e4m3 => let r := narrowFloat 4 (-6) 0x7E x; ((if x.neg then 0x80 else 0) + r.1, r.2)
    | .e5m2 => let r := narrowFloat 3 (-14) 0x7B x; ((if x.neg then 0x80 else 0) + r.1, r.2)
    | .e2m1 => let r := narrowFloat 2 0 0x7 x; ((if x.neg then 8 else 0) + r.1, r.2)
    | .int4 => intFmt 4 x
    | _ => intFmt 8 x

/-! ### Conversions to integers (R144) -/

/-- A value rounded to an integer in a mode and clamped to `w` bits, signed (R144). A clamped value raises NV and SAT, and no NX of the
rounding before the clamp (log 83). -/
def toInteger (r : Rounding) (w : Nat) (v : Val) : Int × Raised :=
  let lo : Int := -(2 ^ (w - 1) : Nat)
  let hi : Int := (2 ^ (w - 1) : Nat) - 1
  match v with
  | .nan _ => (0, { nv := true, sat := true })
  | .inf neg => (if neg then lo else hi, { nv := true, sat := true })
  | .fin x =>
    let (n, inexact) := x.roundTo 0 r
    let i : Int := if x.neg then -(n : Int) else n
    if i < lo then (lo, { nv := true, sat := true })
    else if hi < i then (hi, { nv := true, sat := true })
    else (i, { nx := inexact })

/-! ### BF16 function units (R138) -/

/-- The value is just above `m * 2^e`. -/
def justAbove (neg : Bool) (m : Nat) (e : Int) : Exact := { neg := neg, m := m, e := e, more := true }

/-- Twice repeated square roots of 2 in fixed point with 128 fraction bits: 2^(2^-1), 2^(2^-2), … -/
def exp2Fraction (f : Nat) : Nat → Nat → Nat → Nat
  | 0, _, acc => acc
  | n + 1, root, acc =>
    let root' := isqrt (root * 2 ^ 128)
    exp2Fraction f n root' (if bit f n then acc * root' / 2 ^ 128 else acc)

/-- 2 to the power `f / 2^k` for `f < 2^k`, in fixed point with 128 fraction bits, truncated. -/
def exp2Fixed (f k : Nat) : Nat := exp2Fraction f k (2 * 2 ^ 128) (2 ^ 128)

/-- 2^x of a finite x (R138). -/
def exp2Exact (x : Exact) : Exact :=
  if x.e ≥ 0 then
    let n : Int := (min (x.m * 2 ^ (min x.e.toNat 16)) 100000 : Nat)
    { neg := false, m := 1, e := if x.neg then -n else n }
  else if x.top < -24 then
    (if x.neg then justAbove false (2 ^ 40 - 1) (-40) else justAbove false (2 ^ 40) (-40))
  else
    let k := (-x.e).toNat
    let i := x.m / 2 ^ k
    let f := x.m % 2 ^ k
    if f = 0 then { neg := false, m := 1, e := if x.neg then -(i : Int) else i }
    else if x.neg then justAbove false (exp2Fixed (2 ^ k - f) k) (-(i : Int) - 1 - 128)
    else justAbove false (exp2Fixed f k) ((i : Int) - 128)

/-- Fraction bits of log2 of a mantissa in [1, 2), fixed point with 192 bits, by repeated squaring. -/
def log2Fraction : Nat → Nat → Nat → Nat
  | 0, _, acc => acc
  | n + 1, m, acc =>
    let sq := m * m / 2 ^ 192
    if 2 ^ 193 ≤ sq then log2Fraction n (sq / 2) (acc * 2 + 1) else log2Fraction n sq (acc * 2)

/-- log2 of a finite positive x (R138). -/
def log2Exact (x : Exact) : Exact :=
  let t := Nat.log2 x.m
  let ex : Int := (t : Int) + x.e
  if x.m = 2 ^ t then exactOfInt ex
  else
    let f := log2Fraction 60 (x.m * 2 ^ 192 / 2 ^ t) 0
    let v : Int := ex * (2 ^ 60 : Nat) + f
    if v < 0 then justAbove true (v.natAbs - 1) (-60) else justAbove false v.natAbs (-60)

/-- log2 e with 128 fraction bits, truncated. -/
def log2e : Nat := 490923683258796565746369346286093237521

/-- tanh of a finite x that is not zero (R138). -/
def tanhExact (x : Exact) : Exact :=
  if x.top < -4 then justAbove x.neg (x.m * 2 ^ 40 - 1) (x.e - 40)
  else if x.top ≥ 3 then justAbove x.neg (2 ^ 40 - 1) (-40)
  else
    -- e^(2|x|) = 2^(2|x| log2 e), with 64 fraction bits of the exponent
    let y := 2 * x.m * log2e / 2 ^ (128 - 64 + (-x.e).toNat)
    let n := y / 2 ^ 64
    let t := exp2Fixed (y % 2 ^ 64) 64 * 2 ^ n
    justAbove x.neg ((t - 2 ^ 128) * 2 ^ 100 / (t + 2 ^ 128)) (-100)

/-- The five units (R138). -/
inductive Unit5 | rcp | rsq | exp2 | log2 | tanh
  deriving DecidableEq, Repr

/-- A BF16 unit on an encoding (R138). -/
def bf16Unit (u : Unit5) (b : Nat) : Nat × Raised :=
  let f := bf16
  let rnd := f.round .nearest
  match f.decode b with
  | .nan s => f.nanOf s
  | .inf neg =>
    match u with
    | .rcp => (f.withSign neg 0, .none)
    | .rsq => if neg then f.invalid else (0, .none)
    | .exp2 => (if neg then 0 else f.infBits, .none)
    | .log2 => if neg then f.invalid else (f.infBits, .none)
    | .tanh => (f.withSign neg 0x3F80, .none)
  | .fin x =>
    if x.m = 0 then
      match u with
      | .rcp => (f.withSign x.neg f.infBits, { dz := true })
      | .rsq => (f.withSign x.neg f.infBits, { dz := true })
      | .exp2 => (0x3F80, .none)
      | .log2 => (f.withSign true f.infBits, { dz := true })
      | .tanh => (f.withSign x.neg 0, .none)
    else
      match u with
      | .rcp => rnd ((exactOfInt 1).div x |> fun q => { q with neg := x.neg })
      | .rsq =>
        if x.neg then f.invalid
        else
          let odd : Nat := (x.e % 2).toNat
          let m := x.m * 2 ^ odd
          let y := isqrt (2 ^ 96 / m)
          rnd { neg := false, m := y, e := -(x.e - odd) / 2 - 48, more := decide (y * y * m ≠ 2 ^ 96) }
      | .exp2 => rnd (exp2Exact x)
      | .log2 => if x.neg then f.invalid else rnd (log2Exact x)
      | .tanh => rnd (tanhExact x)

/-! ### Random bits (R140, R143) -/

/-- mix64 of R140. -/
def mix64 (z : Word) : Word :=
  let z := (z ^^^ (z >>> 30)) * 0xBF58476D1CE4E5B9
  let z := (z ^^^ (z >>> 27)) * 0x94D049BB133111EB
  z ^^^ (z >>> 31)

/-- rand_bits of R140. -/
def randBits (seed : Word) (rank vcid c e : Nat) : BitVec 32 :=
  let w : Word := BitVec.ofNat 64 c <<< 32 ^^^ BitVec.ofNat 64 rank <<< 22 ^^^ BitVec.ofNat 64 vcid <<< 12 ^^^ BitVec.ofNat 64 e
  (mix64 (mix64 w ^^^ seed)).truncate 32

/-- Stochastic rounding of an FP32 encoding with 16 random bits (R143). -/
def stochastic (x r : Nat) : Nat × Raised :=
  match fp32.decode x with
  | .nan s => (0x7FC0, { nv := s })
  | .inf _ => (x / 65536, .none)
  | .fin _ =>
    let res := x / 2 ^ 31 * 2 ^ 15 + (x % 2 ^ 31 + r) / 65536 % 2 ^ 15
    let inexact := x % 65536 ≠ 0
    (res, { of := decide (res % 2 ^ 15 = 0x7F80), nx := decide inexact, uf := decide (inexact ∧ bits res 7 8 = 0) })

end Sys2Proof.Machine
end

