-- ==== Sys2Proof/Machine/ScalarMem.lean ====
section
/-! DEFINITION. Scalar loads, stores and atomics, TOPKINS: majors 0x0E, 0x0F, 0x1D (R186-R188, R217-R220). -/

namespace Sys2Proof.Machine

/-- Whether the hart is a control core whose earlier matrix instructions still have accesses to make: its own loads and
stores come after them (R287). -/
def State.behindMatrix (s : State) : Bool :=
  match s.hart.engine with
  | .strand => false
  | .control c => s.clusters[c].queue.any fun o => match o with | .gather _ _ _ _ _ | .ldb _ | .drain _ _ _ => true | _ => false

/-- The load both scalar load instructions share (R186). -/
def State.scalarLoad (s : State) (d a : Reg) (cls : Fin 16) (sz : Size) (o : BitVec 8) (f : List Byte → Word) : Result :=
  let va := memOperand s.hart a sz o
  .next (if ¬ aligned va sz.bytes then s.trap false 0 .misaligned va
    else if s.behindMatrix then s.stall 0
    else
      s.withAcc va (s.loadBytes va sz.bytes cls 0) fun l s' => s'.onHart fun h => h.setX d (f l))

def execLd (d a : Reg) (cls : Fin 16) (sz : Size) (o : BitVec 8) (s : State) : Result :=
  s.scalarLoad d a cls sz o signedOfBytes

def execLdu (d a : Reg) (cls : Fin 16) (sz : Size) (o : BitVec 8) (s : State) : Result :=
  s.scalarLoad d a cls sz o wordOfBytes

def execSt (x a : Reg) (cls : Fin 16) (sz : Size) (o : BitVec 8) (s : State) : Result :=
  let va := memOperand s.hart a sz o
  .next (if ¬ aligned va sz.bytes then s.trap false 0 .misaligned va
    else if s.hart.storesFull ∨ s.behindMatrix then s.stall 0
    else
      s.withAcc va (s.storeTarget va (leBytes sz.bytes (s.hart.getX x).toNat) 0xFF) fun w s' =>
        s'.withAcc va (s'.sendStore w cls 0) fun _ s2 => s2.commitStore cls [w])

end Sys2Proof.Machine
end

