-- ==== Sys2Proof/Machine/Atomic.lean ====
section
/-! DEFINITION. Atomics and the top-k insert: major 0x1D (R103, R217-R220, R339-R341, R439). -/

namespace Sys2Proof.Machine

/-- Signed value of the low `n` bytes. -/
def signedOf (n v : Nat) : Int := (BitVec.ofNat (8 * n) v).toInt

/-- What an atomic leaves in memory: f(old, b, e) on `n` bytes (R217). -/
def amoApply (op : AmoOp) (n old b e : Nat) : Nat :=
  match op with
  | .add => (old + b) % 2 ^ (8 * n)
  | .min => if signedOf n b < signedOf n old then b else old
  | .max => if signedOf n old < signedOf n b then b else old
  | .minu => min old b
  | .maxu => max old b
  | .and => old &&& b
  | .or => old ||| b
  | .xor => old ^^^ b
  | .swap => b
  | .cas => if old = e then b else old

/-- Whether the host executes an operation (R218). -/
def hostExecutes : AmoOp → Bool
  | .add | .swap | .cas => true
  | _ => false

/-- A read-modify-write of `n` bytes at a local target, one indivisible step (R103); `hostOk` says whether host memory executes it.
A line that the gang's cache holds dirty and uncorrectable has been written back to its home (R441, R442; log 71). -/
def State.modify (s : State) (c : Ctx) (t : Target) (n : Nat) (hostOk : Bool) (f : Nat → Nat) : Acc Nat :=
  match t with
  | .device pa =>
    if (s.regionAt c.part pa).isSome then .fault .notVersioned
    else if isHostMemory pa ∧ ¬ hostOk then .fault .atomicTarget
    else if s.hostRefuses c.part pa then .fault .notPresent
    else if s.badLines.contains (pa / 128 * 128) ∨ s.dirtyBad c.gang (pa / 128 * 128) then .fault .memoryError
    else
      let old := s.mem.getNat pa n
      .ok old { s with mem := s.mem.setBytes pa (leBytes n (f old)) }
  | .bank b off =>
    match s.bank? c.gang b with
    | none => .fault .bank
    | some k =>
      if k.switching.isSome then .stall s
      else if ¬ k.isScratch then .fault .bank
      else if k.bad.contains (off / 32) then .fault .bankError
      else
        let old := k.bytes.getNat off n
        .ok old (s.setBank c.gang b { k with bytes := k.bytes.setBytes off (leBytes n (f old)) })
  | .remote _ _ => .fault .unreachable

/-- An atomic reaches a line that the gang's cache holds dirty and uncorrectable: it is written back to its home first (R412, R441, R442;
log 71). -/
def State.spilled (s : State) (va : Word) : State :=
  match s.resolve s.hart.ctx .atomic va with
  | .ok (.device pa) => s.writeBackBad (gangOf s.hart.id) (·.2 == pa / 128 * 128)
  | _ => s

/-- An atomic of the hart as element `elem` of its instruction; `posted` when no old value returns (R217, R218, R372). -/
def State.atomic (s : State) (va : Word) (n : Nat) (op : AmoOp) (b e : Nat) (cls : Fin 16) (posted : Bool) (elem : Nat) : Acc Nat :=
  match s.resolve s.hart.ctx .atomic va with
  | .fault c => .fault c
  | .transit => .wait .page
  | .ok (.remote q off) =>
    let sop := SpanOp.atomic op (n == 8) (BitVec.ofNat 64 b) (BitVec.ofNat 64 e)
    match (if posted then s.remoteStore va q off cls sop elem else s.remoteAccess va q off cls sop elem) with
    | .ok l s' => .ok (leNat l) s'
    | .fault c => .fault c
    | .wait k => .wait k
    | .stall s' => .stall s'
  | .ok t => s.modify s.hart.ctx t n (hostExecutes op) fun old => amoApply op n old b e

/-- A scalar atomic (R217, R219). -/
def State.scalarAmo (s : State) (d a b : Reg) (cls : Fin 16) (op : AmoOp) (n : Nat) : Result :=
  s.strandOnly fun s =>
    if s.hart.st.det ∧ (d ≠ 0 ∨ op = .cas) then s.trapWord .deterministic
    else
      let va := s.hart.getX a
      if ¬ aligned va n then s.trap false 0 .misaligned va
      else if s.hart.storesFull then s.stall 0
      else
        let operand := (s.hart.getX b).toNat % 2 ^ (8 * n)
        let expected := (s.hart.getX d).toNat % 2 ^ (8 * n)
        let s1 := s.spilled va
        s1.withAcc va (s1.atomic va n op operand expected cls (d == 0) 0) fun r s' =>
          s'.onHart fun h => (h.addPending cls).setX d (signedOfBytes (leBytes n r))

def execAmoadd (d a b : Reg) (k : Fin 16) (s : State) : Result := s.scalarAmo d a b k .add 8
def execAmomin (d a b : Reg) (k : Fin 16) (s : State) : Result := s.scalarAmo d a b k .min 8
def execAmomax (d a b : Reg) (k : Fin 16) (s : State) : Result := s.scalarAmo d a b k .max 8
def execAmominu (d a b : Reg) (k : Fin 16) (s : State) : Result := s.scalarAmo d a b k .minu 8
def execAmomaxu (d a b : Reg) (k : Fin 16) (s : State) : Result := s.scalarAmo d a b k .maxu 8
def execAmoand (d a b : Reg) (k : Fin 16) (s : State) : Result := s.scalarAmo d a b k .and 8
def execAmoor (d a b : Reg) (k : Fin 16) (s : State) : Result := s.scalarAmo d a b k .or 8
def execAmoxor (d a b : Reg) (k : Fin 16) (s : State) : Result := s.scalarAmo d a b k .xor 8
def execAmoswap (d a b : Reg) (k : Fin 16) (s : State) : Result := s.scalarAmo d a b k .swap 8
def execAmocas (d a b : Reg) (k : Fin 16) (s : State) : Result := s.scalarAmo d a b k .cas 8
def execAmoaddW (d a b : Reg) (k : Fin 16) (s : State) : Result := s.scalarAmo d a b k .add 4
def execAmominW (d a b : Reg) (k : Fin 16) (s : State) : Result := s.scalarAmo d a b k .min 4
def execAmomaxW (d a b : Reg) (k : Fin 16) (s : State) : Result := s.scalarAmo d a b k .max 4
def execAmominuW (d a b : Reg) (k : Fin 16) (s : State) : Result := s.scalarAmo d a b k .minu 4
def execAmomaxuW (d a b : Reg) (k : Fin 16) (s : State) : Result := s.scalarAmo d a b k .maxu 4
def execAmoandW (d a b : Reg) (k : Fin 16) (s : State) : Result := s.scalarAmo d a b k .and 4
def execAmoorW (d a b : Reg) (k : Fin 16) (s : State) : Result := s.scalarAmo d a b k .or 4
def execAmoxorW (d a b : Reg) (k : Fin 16) (s : State) : Result := s.scalarAmo d a b k .xor 4
def execAmoswapW (d a b : Reg) (k : Fin 16) (s : State) : Result := s.scalarAmo d a b k .swap 4
def execAmocasW (d a b : Reg) (k : Fin 16) (s : State) : Result := s.scalarAmo d a b k .cas 4

/-! ### Top-k records (R339, R340) -/

/-- The empty slot: score −infinity, id 0xFFFF. -/
def topSentinel : Nat := 0xFF80FFFF

/-- Whether pair `a` ranks above pair `b`: score descending, −0 below +0, then id ascending (R340). -/
def topAbove (a b : Nat) : Bool :=
  let x := bf16.decode (a / 65536)
  let y := bf16.decode (b / 65536)
  y.ltTotal x || (! x.ltTotal y && decide (a % 65536 < b % 65536))

/-- Inserts a pair in rank order. -/
def topInsert (p : Nat) : List Nat → List Nat
  | [] => [p]
  | q :: l => if topAbove p q then p :: q :: l else q :: topInsert p l

/-- Whether an expert is marked dead (R341, R387). -/
def Partition.isDead (p : Partition) (x : Nat) : Bool :=
  match p.dead.find? (fun w => w.1 == x / 64) with
  | some w => bit w.2.toNat (x % 64)
  | none => false

/-- The record after one insert (R339, R340); of a record whose slots are not in rank order, or hold an id twice, by log 68. -/
def topkInsert (dead : Nat → Bool) (rec pair : Nat) : Nat :=
  let k := bits rec 0 4
  let gshift := bits rec 12 4
  let id := pair % 65536
  let filled := min (bits rec 4 4) k
  let slots := (List.range filled).map fun i => bits rec (32 * i + 32) 32
  if k = 0 ∨ 7 < k ∨ 12 < gshift then rec
  else if 0xFFFE ≤ id ∨ (bf16.decode (pair / 65536)).isNan then rec
  else if dead id ∨ 15 < id / 2 ^ gshift ∨ ¬ bit rec (16 + id / 2 ^ gshift) then rec
  else
    let same := slots.find? fun q => q % 65536 == id
    let blocked := match same with | some q => ! topAbove pair q | none => false
    if blocked then rec
    else
      let l := ((pair :: slots.filter fun q => q % 65536 != id).foldl (fun l q => topInsert q l) []).take k
      let body := (List.range 7).foldl (fun acc i => acc + (l.getD i topSentinel) * 2 ^ (32 * i + 32)) 0
      bits rec 0 4 + l.length * 2 ^ 4 + bits rec 8 24 * 2 ^ 8 + body

/-- TOPKINS posts an insert; it executes at a home slice (R220). -/
def execTopkins (a b : Reg) (cls : Fin 16) (s : State) : Result :=
  s.strandOnly fun s =>
    let va := s.hart.getX a
    let pair := (s.hart.getX b).toNat % 2 ^ 32
    if ¬ aligned va 32 then s.trap false 0 .misaligned va
    else if s.hart.storesFull then s.stall 0
    else
      let done := fun (s' : State) => s'.onHart (·.addPending cls)
      match s.resolve s.hart.ctx .atomic va with
      | .fault c => s.trap false 0 c va
      | .transit => s.waitFor .page 0 va
      | .ok (.remote q off) =>
        s.withAcc va (s.remoteStore va q off cls (.topk (BitVec.ofNat 64 pair)) 0) fun _ s' => done s'
      | .ok (.bank n _) =>
        match s.bank? s.hart.ctx.gang n with
        | none => s.trap false 0 .bank va
        | some k =>
          if k.switching.isSome then s.stall 0
          else if k.isScratch then s.trap false 0 .atomicTarget va
          else s.trap false 0 .bank va
      | .ok t =>
        let s := s.spilled va
        s.withAcc va (s.modify s.hart.ctx t 32 false (topkInsert s.parts[s.hart.part].isDead · pair)) fun _ s' => done s'

end Sys2Proof.Machine
end

