-- ==== Sys2Proof/Machine/Control.lean ====
section
/-! DEFINITION. Branches, jumps, STRIP and hardware loops: majors 0x10 to 0x14 (R54, R55, R189-R193). -/

namespace Sys2Proof.Machine

/-- A conditional branch (R189). -/
def State.branch (s : State) (a b : Reg) (o : BitVec 12) (test : Word → Word → Bool) : Result :=
  .next (s.onHart fun h =>
    h.setFlow (if test (h.getX a) (h.getX b) then .jump (wordTarget h.pc o) else .seq))

def execBeq (a b : Reg) (o : BitVec 12) (s : State) : Result := s.branch a b o fun x y => x == y
def execBne (a b : Reg) (o : BitVec 12) (s : State) : Result := s.branch a b o fun x y => x != y
def execBlt (a b : Reg) (o : BitVec 12) (s : State) : Result := s.branch a b o fun x y => x.slt y
def execBge (a b : Reg) (o : BitVec 12) (s : State) : Result := s.branch a b o fun x y => ! x.slt y
def execBltu (a b : Reg) (o : BitVec 12) (s : State) : Result := s.branch a b o fun x y => x.ult y
def execBgeu (a b : Reg) (o : BitVec 12) (s : State) : Result := s.branch a b o fun x y => ! x.ult y

/-- JAL links pc + 4 and jumps by words (R190). -/
def execJal (d : Reg) (o : BitVec 20) (s : State) : Result :=
  .next (s.onHart fun h => (h.setX d (h.pc + 4)).setFlow (.jump (wordTarget h.pc o)))

/-- JALR reads its target before it writes xd; a target not aligned to 4 takes cause 0x06 (R190). -/
def execJalr (d a : Reg) (i : BitVec 15) (s : State) : Result :=
  let t := s.hart.getX a + signed i
  .next (if aligned t 4 then s.onHart fun h => (h.setX d (h.pc + 4)).setFlow (.jump t)
    else s.trap false 0 .misaligned t)

/-- Bumps one named address register and steps a stream bound to it (R78, R191). -/
def Hart.bumpOne (h : Hart) (i : Fin 8) : Hart :=
  { h.setX (addrReg i) (h.getX (addrReg i) + h.csr.bump[i]) with
    streams := h.streams.map fun b => if b.reg = i then { b with position := b.position + h.csr.bump[i] } else b }

/-- Bumps every address register a STRIP mask names. -/
def Hart.bumpAll (h : Hart) (mask : BitVec 8) : Hart :=
  (List.finRange 8).foldl (fun h i => if mask.getLsbD i.val then h.bumpOne i else h) h

/-- The lines of the strip that a stream stands at, as far as its device fetches ahead: within its length and the 4 KiB of a part (R78;
log 99). -/
def State.stripLines (s : State) (b : StreamBinding) : List Nat :=
  let left := b.base + b.length * BitVec.ofNat 64 b.size.bytes - b.position
  let n := min 4096 (if (0 : Word).slt left then left.toNat else 0)
  (List.range ((b.position.toNat % 128 + n + 127) / 128)).filterMap fun k =>
    (s.resolve s.hart.ctx .load ((b.position &&& ~~~ 127) + BitVec.ofNat 64 (128 * k))).device?

/-- Uncorrectable lines that the device meets as it fetches the next strips of the streams that a STRIP names: counted, reported to nobody
(R78, R412). -/
def State.prefetch (s : State) (mask : BitVec 8) : State :=
  if s.badLines.isEmpty then s
  else
    let lines := (s.hart.streams.filter fun b => mask.getLsbD b.reg.val).flatMap s.stripLines
    let n := (lines.filter s.badLines.contains).length
    { s with golium := { s.golium with unconsumed := s.golium.unconsumed + n } }

/-- STRIP: bumps first, then the count, then the branch (R191); the streams it names are fetched ahead (R78). -/
def execStrip (n : Reg) (mask : BitVec 8) (o : BitVec 12) (s : State) : Result :=
  s.strandOnly fun s => State.prefetch (mask := mask) <| s.onHart fun h =>
    let h' := h.bumpAll mask
    let c := h'.getX n - h.csr.vl.zeroExtend 64
    (h'.setX n c).setFlow (if (0 : Word).slt c then .jump (wordTarget h.pc o) else .seq)

/-- Where the convoy that starts at an address ends, from the C bits (R192): the next address, or what stops the search. -/
inductive LoopEnd
  | next (a : Word)
  | fault (c : Cause) (a : Word)
  | transit (a : Word)

def State.convoyEnd (s : State) : Nat → Word → LoopEnd
  | 0, a => .fault .convoy (a - 4)
  | n + 1, a =>
    match s.fetch s.hart.ctx a with
    | .fault c => .fault c a
    | .transit => .transit a
    | .word w => if continues w then s.convoyEnd n (a + 4) else .next (a + 4)

/-- The loop both forms start (R192). -/
def State.startLoop (s : State) (count : Word) (off : Fin 524288) : State :=
  if s.hart.st.lact then s.trapWord .loopWrite
  else
    let lstart := s.hart.pc + 4
    let lend := s.hart.pc + 4 * BitVec.ofNat 64 off.val
    let set := fun (h : Hart) => { h with csr := { h.csr with lstart := lstart, lend := lend } }
    if count = 0 then
      match s.convoyEnd 4 lend with
      | .next a => s.onHart fun h => (set h).setFlow (.jump a)
      | .fault c a => s.trap false 0 c a
      | .transit a => s.waitFor .page 0 a
    else s.onHart fun h =>
      { set h with csr := { (set h).csr with lcount := count }, st := { h.st with lact := true } }

def execLoop (n : Reg) (off : Fin 524288) (s : State) : Result := .next (s.startLoop (s.hart.getX n) off)
def execLoopi (n : Reg) (off : Fin 524288) (s : State) : Result := .next (s.startLoop (BitVec.ofNat 64 n.val) off)

end Sys2Proof.Machine
end

