-- ==== Sys2Proof/Machine/Barrier.lean ====
section
/-! DEFINITION. Barrier instances: arrival, registration, completion (R92-R96). -/

namespace Sys2Proof.Machine

/-- The instance a strand's barrier id names (R92, R201). -/
def barrierKey (i : StrandId) (id : Fin 36) : BarrierKey :=
  if id.val < 16 then .gang (gangOf i) id
  else if id.val < 32 then .field i.launch i.stage id
  else .span i.launch i.stage id

/-- A barrier instance; one never used has phase 0 (R93). -/
def State.barrier (s : State) (k : BarrierKey) : Barrier :=
  match s.barriers.find? (fun b => b.key == k) with
  | some b => b
  | none => { key := k, phase := 0, registered := [], pending := [], peers := [], announced := false }

def State.setBarrier (s : State) (b : Barrier) : State :=
  { s with barriers := b :: s.barriers.filter fun x => x.key != b.key }

/-- Whether a strand is a live participant of an instance (R48, R92). -/
def participates (k : BarrierKey) (h : Hart) : Bool :=
  h.engine == .strand && (h.phase != .absent && h.phase != .exited) &&
    match k with
    | .gang g _ => gangOf h.id == g
    | .field l st _ => h.id.launch == l && h.id.stage == st
    | .span l st _ => h.id.launch == l && h.id.stage == st

/-- Whether a gang whose strands have not started yet takes part in an instance. -/
def awaitsGang (k : BarrierKey) (g : Gang) : Bool :=
  ! g.started && ! g.ended &&
    match k with
    | .gang i _ => g.id == i
    | .field l st _ => g.id.launch == l && g.id.stage == st
    | .span l st _ => g.id.launch == l && g.id.stage == st

/-- Stores of a hart that have reached their event (R98). -/
def Hart.storesPerformed (h : Hart) : Nat := h.storesIssued - h.pending.length

/-- The store that must have been performed for an arrival with a class mask to be registered (R93). -/
def Hart.arrivalAfter (h : Hart) (mask : BitVec 16) : Nat :=
  match h.pending.reverse.findIdx? (fun p => mask.getLsbD p.cls.val) with
  | some i => h.storesIssued - i
  | none => 0

/-- Whether an arrival's named accesses are performed (R93). -/
def Hart.arrivalReady (h : Hart) (a : Arrival) : Bool :=
  decide (a.after ≤ h.storesPerformed) && h.vldbs.all fun v => ! a.mask.getLsbD v.cls.val

/-- The launch of a span barrier whose span has other ranks: its SPANTAG is not 0 (R356). -/
def State.spanLaunch? (s : State) (k : BarrierKey) : Option Launch :=
  match k with
  | .span l _ _ => s.launches.find? fun x => x.id == l && x.spanTag != 0
  | _ => none

/-- Ranks whose part of a span barrier is still missing for the collecting generation (R92, R356). -/
def State.spanMissing (s : State) (b : Barrier) : Bool :=
  match s.spanLaunch? b.key with
  | some x =>
    let p := s.parts[x.part]
    (List.range p.ranks.length).any fun q =>
      q != p.jobSelf.toNat % 4096 && (p.ranks[q]?).join.isSome &&
        ! b.peers.any fun e => e.1.val == q && e.2 == b.phase.toNat
  | none => false

/-- Whether every participant of this package has registered. Where none is left, only other ranks can still wait for its part
(R92, R96). -/
def State.barrierLocal (s : State) (b : Barrier) : Bool :=
  (! b.registered.isEmpty || (s.spanLaunch? b.key).isSome) &&
    (s.allHarts.all fun h => ! participates b.key h || b.registered.contains h.id) &&
    s.gangs.all fun g => ! awaitsGang b.key g

/-- Address field of a wait at a barrier: id and token (MODEL, log 2). -/
def barrierWaitKey (id : Fin 36) (token : Nat) : Word := BitVec.ofNat 64 (id.val * 256 + token)

/-- Id of a key. -/
def BarrierKey.id : BarrierKey → Fin 36
  | .gang _ i => i
  | .field _ _ i => i
  | .span _ _ i => i

/-- A generation completes: the phase moves on and its waiting BAR.WAITs are met (R93, R94). -/
def State.completeBarrier (s : State) (b : Barrier) : State :=
  let mark := fun w : Wait =>
    if w.kind = .barrier ∧ w.addr = barrierWaitKey b.key.id b.phase.toNat then { w with met := true } else w
  let met := fun h : Hart =>
    if participates b.key h then { h with wait := h.wait.map mark, paused := h.paused.map fun p => (p.1, mark p.2) } else h
  let rest := b.peers.filter (fun e => e.2 != b.phase.toNat)
  let s1 := s.setBarrier { b with phase := b.phase + 1, registered := [], peers := rest, announced := false }
  { s1 with hart := met s1.hart, harts := s1.harts.map met }

/-- Reports this rank's side of the collecting generation of a span barrier to the other ranks, once (R92, R356). -/
def State.announce (s : State) (b : Barrier) : State :=
  match b.key, s.spanLaunch? b.key with
  | .span _ st id, some x =>
    if b.announced then s
    else (s.otherRanks x.part).foldl (fun s q => s.post x.part q x.spanTag.toNat (.barrierArrival st id b.phase.toNat))
      (s.setBarrier { b with announced := true })
  | _, _ => s

/-- Completes an instance where every participant has registered (R93). -/
def State.settleBarrier (s : State) (k : BarrierKey) : State :=
  let b := s.barrier k
  if s.barrierLocal b then
    let s1 := s.announce b
    if s1.spanMissing b then s1
    else
      let s2 := s1.completeBarrier b
      if s2.barrierLocal (s2.barrier k) then s2.announce (s2.barrier k) else s2
  else s

/-- Job-relative rank of a source in a partition's rank table (R371). -/
def Partition.rankOf (p : Partition) (src : Fin 4096) : Option Nat := p.ranks.findIdx? (· == some src)

/-- A rank's part of a generation of a span barrier of a launch is complete (R92). -/
def State.notePeer (s : State) (l : Launch) (q : Nat) (stage : Fin 8) (id : Fin 36) (n : Nat) : State :=
  let k := BarrierKey.span l.id stage id
  let b := s.barrier k
  (s.setBarrier { b with peers := (Fin.ofNat 4096 q, n) :: b.peers.filter fun e => ! decide (e.1.val = q ∧ e.2 = n) }).settleBarrier k

/-- A launch has started: the arrivals of other ranks that were kept for it are taken (R92, R356; log 56). -/
def State.takeArrivals (s : State) (l : Launch) : State :=
  let (mine, rest) := s.fabric.arrivals.partition fun a => a.part == l.part && a.req.offset == l.spanTag.toNat
  mine.foldl (fun s a =>
    match a.req.op, s.parts[a.part].rankOf a.req.src with
    | .barrierArrival st id n, some q => s.notePeer l q st id n
    | _, _ => s) { s with fabric := { s.fabric with arrivals := rest } }

/-- Registers a strand's arrival (R93). -/
def State.registerArrival (s : State) (i : StrandId) (id : Fin 36) : State :=
  let k := barrierKey i id
  let b := s.barrier k
  let reg := if b.registered.contains i then b.registered else b.registered ++ [i]
  let s1 := s.setBarrier { b with pending := b.pending.filter (fun a => a.strand != i), registered := reg }
  s1.settleBarrier k

/-- The instances that an EXIT reaches: those in use that the strand takes part in, and the span barriers of its launch (R92, R96). -/
def State.exitKeys (s : State) (i : StrandId) : List BarrierKey :=
  let spans := ((List.finRange 36).filter fun id => 32 ≤ id.val).map (barrierKey i)
  ((s.barriers.map (·.key)).filter fun k => k == barrierKey i k.id && ! spans.contains k) ++
    spans.filter fun k => (s.spanLaunch? k).isSome || s.barriers.any fun b => b.key == k

/-- A strand that exits registers its arrival at every barrier of its launch and takes no further part (R48, R96). -/
def State.settleAll (s : State) (i : StrandId) : State :=
  (s.exitKeys i).foldl (fun s k =>
    let b := s.barrier k
    let reg := if b.registered.contains i then b.registered else b.registered ++ [i]
    (s.setBarrier { b with pending := b.pending.filter (fun a => a.strand != i), registered := reg }).settleBarrier k) s

end Sys2Proof.Machine
end

