-- ==== Sys2Proof/Machine/Session.lean ====
section
/-! DEFINITION. Sorted-exchange sessions: participants, receivers, leaving and aborting (R319, R327, R328, R334). -/

namespace Sys2Proof.Machine

/-- The session that holds an id of a partition, live or not. -/
def State.session? (s : State) (p : Fin 8) (sid : Fin 16) : Option Session :=
  s.sessions.find? (fun x => x.part == p && x.sid == sid)

def State.setSession (s : State) (x : Session) : State :=
  { s with sessions := x :: s.sessions.filter fun y => ¬ (y.part == x.part && y.sid == x.sid) }

/-- Whether a strand is among the participants a session's PART names (R319). -/
def Session.covers (x : Session) (i : StrandId) : Bool :=
  i.launch == x.opener.launch && i.stage == x.opener.stage &&
    (x.desc.span != 0 || gangOf i == gangOf x.opener)

/-- Receiver index a strand serves (R319); `rank` is the strand's rank, `base` the first rank covered. -/
def servedReceiver (d : SxDescriptor) (opener i : StrandId) (rank base : Nat) : Option Nat :=
  let j := if d.span = 0 then memberOf i else i.vcid.val
  let ok := i.launch = opener.launch ∧ i.stage = opener.stage ∧ (d.span ≠ 0 ∨ gangOf i = gangOf opener)
  if ok ∧ j < d.rpr ∧ (rank - base) * d.rpr + j < d.receivers then some ((rank - base) * d.rpr + j) else none

/-- Rank from which receivers are counted (R319). -/
def firstRank (d : SxDescriptor) (rank : Nat) : Nat := if d.span = 2 then 0 else rank

/-- The strand that serves a receiver of this package (R319). -/
def Session.serving (x : Session) (j : Nat) : StrandId :=
  let first := if x.desc.span = 0 then x.opener.vcid.val / 16 * 16 else 0
  { x.opener with vcid := Fin.ofNat 1024 (first + j % x.desc.rpr) }

def Session.participant? (x : Session) (i : StrandId) : Option SxParticipant :=
  x.participants.find? (fun q => q.strand == i)

/-- Replaces or adds a participant. -/
def Session.setParticipant (x : Session) (q : SxParticipant) : Session :=
  { x with participants := q :: x.participants.filter fun y => y.strand != q.strand }

/-- Whether a strand has joined the session and not closed it (R331, R448). -/
def Session.joined (x : Session) (i : StrandId) : Bool :=
  x.live && match x.participant? i with | some q => ! q.closed && ! q.stale | none => false

/-- The logical bank a receiving strand's records land in (R328). -/
def rxBankOf (d : SxDescriptor) (i : StrandId) : Nat := d.rxBank + memberOf i

/-- Marks or unmarks the receive bank of a strand; unmarking leaves it empty (R328, R334). -/
def State.markReceive (s : State) (d : SxDescriptor) (i : StrandId) (on : Bool) : State :=
  match s.bank? (some (gangOf i)) (rxBankOf d i) with
  | some k => s.setBank (some (gangOf i)) (rxBankOf d i) { k with receive := on, entries := [] }
  | none => s

/-- Whether a receiver still holds its bank as a receive buffer (R328, R334). -/
def Session.holdsBank (x : Session) (r : SxReceiver) : Bool :=
  ! r.cut && match x.participant? (x.serving r.index) with
    | some q => ! q.stale && (! q.closed || r.freeing.isSome)
    | none => false

/-- The receive bank of a receiver becomes a plain FIFO bank; one it no longer holds stays as it is (R328, R334). -/
def State.freeReceiver (s : State) (x : Session) (r : SxReceiver) : State :=
  if x.holdsBank r then s.markReceive x.desc (x.serving r.index) false else s

/-- Frees a session id; `retire` keeps the generation as retired and its participants as stale (R334, R448). -/
def State.endSession (s : State) (x : Session) (retire : Bool) : State :=
  let s1 := x.receivers.foldl (fun s r => s.freeReceiver x r) s
  s1.setSession { x with
    live := false
    retired := if retire then some x.desc.gen else x.retired
    participants := if retire then x.participants.map fun q => { q with stale := ! q.closed } else x.participants.filter (·.stale)
    records := []
    samples := []
    laterRecords := []
    laterSamples := []
    receivers := [] }

/-- Whether every strand that a session covers has closed or exited (R334). -/
def State.sessionOver (s : State) (x : Session) : Bool :=
  (s.allHarts.all fun h => h.engine != .strand || h.phase == .absent || h.phase == .exited || ! x.covers h.id ||
      (match x.participant? h.id with | some q => q.closed | none => false)) &&
    s.gangs.all fun g => g.started || g.ended || ! x.covers { launch := g.id.launch, stage := g.id.stage, vcid := ⟨g.id.gang.val * 16, by have := g.id.gang.isLt; omega⟩ }

/-- Whether a session still owes records to other ranks, which its next completion sends (R334). -/
def Session.owes (x : Session) : Bool := x.desc.span == 2 && decide (1 < x.ranks) && ! (x.records.isEmpty && x.laterRecords.isEmpty)

/-- Ends a session whose strands have all closed or exited, once their records have been sent. -/
def State.settleSession (s : State) (x : Session) : State := if s.sessionOver x && ! x.owes then s.endSession x false else s

/-- A strand closes its part of a session: its receive buffer is emptied, its bank plain once the delivery of the round being
collected has ended (R334). -/
def State.leaveSession (s : State) (x : Session) (i : StrandId) : State :=
  let x1 :=
    match x.participant? i with
    | none => x
    | some q => x.setParticipant { q with closed := true, arrived := false, request := .none }
  let close := fun r : SxReceiver => if x.serving r.index = i then { r with buffer := [], freeing := some (x.completed + 1) } else r
  let x2 := { x1 with receivers := x1.receivers.map close }
  (s.setSession x2).settleSession x2

/-- EXIT closes every session of the strand (R334). -/
def State.leaveSessions (s : State) (p : Fin 8) (i : StrandId) : State :=
  (List.finRange 16).foldl (fun s sid =>
    match s.session? p sid with
    | some x => if x.joined i then s.leaveSession x i else if x.live then s.settleSession x else s
    | none => s) s

end Sys2Proof.Machine
end

