-- ==== Sys2Proof/Machine/VecOps.lean ====
section
/-! DEFINITION. Vector registers by element, judgement at issue, the element-wise skeleton (R36-R38, R155-R159, R221-R223, R421). -/

namespace Sys2Proof.Machine

/-! ### Tags and elements -/

/-- Element width of a tag in bits (R155). -/
def tagWidth : Tag → Nat | .i64 => 64 | .i32 => 32 | .i16 => 16 | .i16p => 32 | .fp32 => 32 | .bf16 => 16

/-- Greatest vl for elements of a width (R155). -/
def mvl (w : Nat) : Nat := 8192 / w

def tagMvl (t : Tag) : Nat := mvl (tagWidth t)

def isIntTag : Tag → Bool | .i64 | .i32 | .i16 => true | _ => false
def isFpTag : Tag → Bool | .fp32 | .bf16 => true | _ => false

/-- Format of a floating-point tag; FP32 for the others, which no FP instruction accepts. -/
def tagFmt : Tag → Fmt | .bf16 => bf16 | _ => fp32

/-- Element `e` of a register at a width. -/
def elemOf (v : VecBits) (w e : Nat) : Nat := (v.extractLsb' (w * e) w).toNat

/-- A register with element `e` at a width replaced. -/
def putElem (v : VecBits) (w e x : Nat) : VecBits :=
  (v &&& ~~~ ((BitVec.allOnes w).setWidth 8192 <<< (w * e))) ||| ((BitVec.ofNat w x).setWidth 8192 <<< (w * e))

/-- A predicate with bit `e` replaced. -/
def putBit (p : PredBits) (e : Nat) (b : Bool) : PredBits :=
  (p &&& ~~~ (1#512 <<< e)) ||| ((BitVec.ofBool b).setWidth 512 <<< e)

/-- A register with several elements replaced. -/
def putElems (v : VecBits) (w : Nat) : List (Nat × Nat) → VecBits
  | [] => v
  | (e, x) :: l => putElems (putElem v w e x) w l

/-- A predicate with several bits replaced. -/
def putBits (p : PredBits) : List (Nat × Bool) → PredBits
  | [] => p
  | (e, b) :: l => putBits (putBit p e b) l

/-- A number as a signed value of `w` bits (R122). -/
def sgn (w x : Nat) : Int := (BitVec.ofNat w x).toInt

/-- An integer modulo 2^w (R129). -/
def wrap (w : Nat) (i : Int) : Nat := (BitVec.ofInt w i).toNat

/-! ### Registers of the hart in issue -/

def Hart.vlen (h : Hart) : Nat := h.csr.vl.toNat
def Hart.tag (h : Hart) (r : Reg) : Tag := h.tags[r]

/-- Element `e` of a register under its tag. -/
def Hart.elem (h : Hart) (r : Reg) (e : Nat) : Nat := elemOf h.v[r] (tagWidth (h.tag r)) e

/-- Writes a vector register: its bits, its tag, its dirty bit (R156, R163). -/
def Hart.setV (h : Hart) (r : Reg) (t : Tag) (v : VecBits) : Hart :=
  { h with v := h.v.set r v, tags := h.tags.set r t, csr := { h.csr with vdirty := h.csr.vdirty ||| (1#32 <<< r.val) } }

/-- The register after v(d) (R254, R257). -/
def nextReg (d : Reg) : Reg := d + 1

/-- First element that a run processes: VSTART in the run that VCONV names, else 0 (R38, R39). -/
def Hart.resumeAt (h : Hart) (runPos : Nat) : Nat := if runPos = h.csr.vconv.toNat then h.csr.vstart.toNat else 0

/-- First element the instruction in issue processes. -/
def Hart.firstElem (h : Hart) : Nat := h.resumeAt h.iss.runPos

/-- One past the last element the instruction in issue processes (R38). -/
def Hart.endElem (h : Hart) : Nat := match h.iss.lim with | some l => min l h.vlen | none => h.vlen

/-- Elements an element-wise instruction commits, active or not. -/
def Hart.range (h : Hart) : List Nat := (List.range h.endElem).filter fun e => decide (h.firstElem ≤ e)

/-- Elements an element-wise instruction commits that a predicate makes active (R158). -/
def Hart.active (h : Hart) (m : Reg) : List Nat := h.range.filter fun e => (h.getP m).getLsbD e

/-- Active elements of a whole instruction (R37, R158). -/
def Hart.wholeActive (h : Hart) (m : Reg) : List Nat := (List.range h.vlen).filter fun e => (h.getP m).getLsbD e

/-- A scalar register read as a value of a tag (R156). -/
def Hart.scalar (h : Hart) (x : Reg) (t : Tag) : Nat := (h.getX x).toNat % 2 ^ tagWidth t

/-- A signed immediate widened to a width (R221). -/
def immElem (w : Nat) (i : BitVec 5) : Nat := (i.signExtend w).toNat

/-! ### Judgement at issue -/

/-- The checks 4 to 6 of R421 in their order. -/
def Hart.judge (h : Hart) (tagsOk det : Bool) (most : Nat) : Option Cause :=
  if ¬ tagsOk then some .tag
  else if h.st.det ∧ det then some .deterministic
  else if most < h.vlen then some .vectorLength
  else none

/-- A vector instruction: judged at issue, changing nothing when vl is 0 (R159, R222, R421). -/
def State.vector (s : State) (judged : Option Cause) (k : State → State) : Result :=
  s.strandOnly fun s =>
    match judged with
    | some c => s.trapWord c
    | none => if s.hart.vlen = 0 then s else k s

/-- A vector instruction that changes its hart alone. -/
def State.vectorHart (s : State) (judged : Option Cause) (k : Hart → Hart) : Result :=
  s.vector judged fun s => s.onHart k

/-! ### The element-wise skeleton (R221) -/

/-- Exceptions of a list of element results. -/
def raisedOf (l : List (Nat × (Nat × Raised))) : Raised := l.foldl (fun r x => r.or x.2.2) .none

/-- Writes elements, then the tag, and ORs the exceptions in; a run that commits no element writes nothing (R38, R221). -/
def Hart.commit (h : Hart) (d : Reg) (t : Tag) (l : List (Nat × (Nat × Raised))) : Hart :=
  if h.range = [] then h
  else (h.setV d t (putElems h.v[d] (tagWidth t) (l.map fun x => (x.1, x.2.1)))).raise (raisedOf l)

/-- Element-wise over the active elements (R221). -/
def Hart.elementWise (h : Hart) (d m : Reg) (t : Tag) (f : Nat → Nat × Raised) : Hart :=
  h.commit d t ((h.active m).map fun e => (e, f e))

/-- Element-wise without exceptions. -/
def Hart.elementPure (h : Hart) (d m : Reg) (t : Tag) (f : Nat → Nat) : Hart :=
  h.elementWise d m t fun e => (f e, .none)

/-- A second operand b(e): vector element, scalar, or immediate, as an element of tag `t` (R221). -/
inductive Src2
  | v (b : Reg)
  | x (x : Reg)
  | i (i : BitVec 5)
  deriving DecidableEq, Repr

def Hart.src2 (h : Hart) (t : Tag) (o : Src2) (e : Nat) : Nat :=
  match o with
  | .v b => h.elem b e
  | .x x => h.scalar x t
  | .i i => immElem (tagWidth t) i

/-- Whether the second operand carries a tag (R156). -/
def Hart.sameTag (h : Hart) (t : Tag) (o : Src2) : Bool :=
  match o with
  | .v b => h.tag b == t
  | _ => true

/-- Two-operand element-wise instruction whose result tag is the sources' tag (R221, R222). -/
def State.vec2 (s : State) (d a : Reg) (o : Src2) (m : Reg) (accepts : Tag → Bool) (f : Tag → Nat → Nat → Nat × Raised) : Result :=
  let t := s.hart.tag a
  s.vectorHart (s.hart.judge (accepts t && s.hart.sameTag t o) false (tagMvl t)) fun h =>
    h.elementWise d m t fun e => f t (h.elem a e) (h.src2 t o e)

/-- One-operand element-wise instruction whose result tag is the source's tag. -/
def State.vec1 (s : State) (d a m : Reg) (accepts : Tag → Bool) (f : Tag → Nat → Nat × Raised) : Result :=
  s.vec2 d a (.x 0) m accepts fun t x _ => f t x

/-- The rounding mode of the hart (R124). -/
def Hart.rounding (h : Hart) : Rounding := Rounding.ofBits h.csr.rmode

end Sys2Proof.Machine
end

