-- ==== Sys2Proof/Machine/VInt.lean ====
section
/-! DEFINITION. Vector integer arithmetic: majors 0x22, 0x23 and 0x24 (R228-R232). -/

namespace Sys2Proof.Machine

/-- Tags of the bitwise instructions (R228). -/
def bitwiseTag (t : Tag) : Bool := isIntTag t || t == .i16p

/-- An integer instruction on unsigned element values (R228). -/
def State.vecU (s : State) (d a : Reg) (o : Src2) (m : Reg) (f : Nat → Nat → Nat → Nat) : Result :=
  s.vec2 d a o m isIntTag fun t x y => (f (tagWidth t) x y % 2 ^ tagWidth t, .none)

/-- A bitwise instruction (R228). -/
def State.vecBitwise (s : State) (d a : Reg) (o : Src2) (m : Reg) (f : Nat → Nat → Nat) : Result :=
  s.vec2 d a o m bitwiseTag fun _ x y => (f x y, .none)

/-- The shift amount: the low log2 w bits of b(e) (R229). -/
def vecShift (w y : Nat) : Nat := y % w

def sllElem (w x y : Nat) : Nat := x * 2 ^ vecShift w y
def srlElem (w x y : Nat) : Nat := x / 2 ^ vecShift w y
def sraElem (w x y : Nat) : Nat := wrap w (sgn w x / (2 ^ vecShift w y : Nat))
def mulhElem (w x y : Nat) : Nat := wrap w (sgn w x * sgn w y / (2 ^ w : Nat))
def mulhuElem (w x y : Nat) : Nat := x * y / 2 ^ w
def absdElem (w x y : Nat) : Nat := (sgn w x - sgn w y).natAbs

/-- Rounding shifts: ties toward +infinity (R231). -/
def srlrElem (w x y : Nat) : Nat :=
  let k := vecShift w y
  if k = 0 then x else (x + 2 ^ (k - 1)) / 2 ^ k
def srarElem (w x y : Nat) : Nat :=
  let k := vecShift w y
  if k = 0 then x else wrap w ((sgn w x + (2 ^ (k - 1) : Nat)) / (2 ^ k : Nat))

/-- Leading zero bits of an element, the width for 0 (R228). -/
def clzElem (w x : Nat) : Nat := if x = 0 then w else w - 1 - Nat.log2 x

/-- One bits of an element. -/
def popcElem (w x : Nat) : Nat := (List.range w).countP fun i => bit x i

/-- Clamps an exact result to a range; SAT when it clamps (R129, R231). -/
def clampTo (w : Nat) (lo hi i : Int) : Nat × Raised :=
  let c := max lo (min hi i)
  (wrap w c, { sat := decide (c ≠ i) })

def clampSigned (w : Nat) (i : Int) : Nat × Raised := clampTo w (-(2 ^ (w - 1) : Nat)) ((2 ^ (w - 1) : Nat) - 1) i
def clampUnsigned (w : Nat) (i : Int) : Nat × Raised := clampTo w 0 ((2 ^ w : Nat) - 1) i

/-- A signed, and an unsigned, saturating instruction (R231). -/
def State.vecSat (s : State) (d a : Reg) (o : Src2) (m : Reg) (f : Int → Int → Int) : Result :=
  s.vec2 d a o m isIntTag fun t x y => clampSigned (tagWidth t) (f (sgn (tagWidth t) x) (sgn (tagWidth t) y))
def State.vecSatU (s : State) (d a : Reg) (o : Src2) (m : Reg) (f : Int → Int → Int) : Result :=
  s.vec2 d a o m isIntTag fun t x y => clampUnsigned (tagWidth t) (f x y)

def minuElem (_ x y : Nat) : Nat := min x y
def maxuElem (_ x y : Nat) : Nat := max x y

def execVand (d a b m : Reg) (s : State) : Result := s.vecBitwise d a (.v b) m (· &&& ·)
def execVor (d a b m : Reg) (s : State) : Result := s.vecBitwise d a (.v b) m (· ||| ·)
def execVxor (d a b m : Reg) (s : State) : Result := s.vecBitwise d a (.v b) m (· ^^^ ·)
def execVsll (d a b m : Reg) (s : State) : Result := s.vecU d a (.v b) m sllElem
def execVsrl (d a b m : Reg) (s : State) : Result := s.vecU d a (.v b) m srlElem
def execVsra (d a b m : Reg) (s : State) : Result := s.vecU d a (.v b) m sraElem
def execVminu (d a b m : Reg) (s : State) : Result := s.vecU d a (.v b) m minuElem
def execVmaxu (d a b m : Reg) (s : State) : Result := s.vecU d a (.v b) m maxuElem
def execVmulh (d a b m : Reg) (s : State) : Result := s.vecU d a (.v b) m mulhElem
def execVmulhu (d a b m : Reg) (s : State) : Result := s.vecU d a (.v b) m mulhuElem
def execVadds (d a b m : Reg) (s : State) : Result := s.vecSat d a (.v b) m (· + ·)
def execVsubs (d a b m : Reg) (s : State) : Result := s.vecSat d a (.v b) m (· - ·)
def execVaddsu (d a b m : Reg) (s : State) : Result := s.vecSatU d a (.v b) m (· + ·)
def execVsubsu (d a b m : Reg) (s : State) : Result := s.vecSatU d a (.v b) m (· - ·)
def execVsrar (d a b m : Reg) (s : State) : Result := s.vecU d a (.v b) m srarElem
def execVsrlr (d a b m : Reg) (s : State) : Result := s.vecU d a (.v b) m srlrElem
def execVabsd (d a b m : Reg) (s : State) : Result := s.vecU d a (.v b) m absdElem
def execVclz (d a m : Reg) (s : State) : Result := s.vec1 d a m isIntTag fun t x => (clzElem (tagWidth t) x, .none)
def execVpopc (d a m : Reg) (s : State) : Result := s.vec1 d a m isIntTag fun t x => (popcElem (tagWidth t) x, .none)

def execVandVx (d a x m : Reg) (s : State) : Result := s.vecBitwise d a (.x x) m (· &&& ·)
def execVorVx (d a x m : Reg) (s : State) : Result := s.vecBitwise d a (.x x) m (· ||| ·)
def execVxorVx (d a x m : Reg) (s : State) : Result := s.vecBitwise d a (.x x) m (· ^^^ ·)
def execVsllVx (d a x m : Reg) (s : State) : Result := s.vecU d a (.x x) m sllElem
def execVsrlVx (d a x m : Reg) (s : State) : Result := s.vecU d a (.x x) m srlElem
def execVsraVx (d a x m : Reg) (s : State) : Result := s.vecU d a (.x x) m sraElem
def execVminuVx (d a x m : Reg) (s : State) : Result := s.vecU d a (.x x) m minuElem
def execVmaxuVx (d a x m : Reg) (s : State) : Result := s.vecU d a (.x x) m maxuElem
def execVmulhVx (d a x m : Reg) (s : State) : Result := s.vecU d a (.x x) m mulhElem
def execVmulhuVx (d a x m : Reg) (s : State) : Result := s.vecU d a (.x x) m mulhuElem
def execVaddsVx (d a x m : Reg) (s : State) : Result := s.vecSat d a (.x x) m (· + ·)
def execVsubsVx (d a x m : Reg) (s : State) : Result := s.vecSat d a (.x x) m (· - ·)
def execVaddsuVx (d a x m : Reg) (s : State) : Result := s.vecSatU d a (.x x) m (· + ·)
def execVsubsuVx (d a x m : Reg) (s : State) : Result := s.vecSatU d a (.x x) m (· - ·)
def execVsrarVx (d a x m : Reg) (s : State) : Result := s.vecU d a (.x x) m srarElem
def execVsrlrVx (d a x m : Reg) (s : State) : Result := s.vecU d a (.x x) m srlrElem
def execVabsdVx (d a x m : Reg) (s : State) : Result := s.vecU d a (.x x) m absdElem

def execVandVi (d a : Reg) (i : BitVec 5) (m : Reg) (s : State) : Result := s.vecBitwise d a (.i i) m (· &&& ·)
def execVorVi (d a : Reg) (i : BitVec 5) (m : Reg) (s : State) : Result := s.vecBitwise d a (.i i) m (· ||| ·)
def execVxorVi (d a : Reg) (i : BitVec 5) (m : Reg) (s : State) : Result := s.vecBitwise d a (.i i) m (· ^^^ ·)
def execVsllVi (d a : Reg) (i : BitVec 5) (m : Reg) (s : State) : Result := s.vecU d a (.i i) m sllElem
def execVsrlVi (d a : Reg) (i : BitVec 5) (m : Reg) (s : State) : Result := s.vecU d a (.i i) m srlElem
def execVsraVi (d a : Reg) (i : BitVec 5) (m : Reg) (s : State) : Result := s.vecU d a (.i i) m sraElem
def execVminuVi (d a : Reg) (i : BitVec 5) (m : Reg) (s : State) : Result := s.vecU d a (.i i) m minuElem
def execVmaxuVi (d a : Reg) (i : BitVec 5) (m : Reg) (s : State) : Result := s.vecU d a (.i i) m maxuElem
def execVaddsVi (d a : Reg) (i : BitVec 5) (m : Reg) (s : State) : Result := s.vecSat d a (.i i) m (· + ·)
def execVsubsVi (d a : Reg) (i : BitVec 5) (m : Reg) (s : State) : Result := s.vecSat d a (.i i) m (· - ·)
def execVaddsuVi (d a : Reg) (i : BitVec 5) (m : Reg) (s : State) : Result := s.vecSatU d a (.i i) m (· + ·)
def execVsubsuVi (d a : Reg) (i : BitVec 5) (m : Reg) (s : State) : Result := s.vecSatU d a (.i i) m (· - ·)
def execVsrarVi (d a : Reg) (i : BitVec 5) (m : Reg) (s : State) : Result := s.vecU d a (.i i) m srarElem
def execVsrlrVi (d a : Reg) (i : BitVec 5) (m : Reg) (s : State) : Result := s.vecU d a (.i i) m srlrElem

/-- VADC and VSBC: the carry predicate is read and written, and masks nothing (R230). -/
def State.vecCarry (s : State) (d a b p : Reg) (f : Int → Int → Int → Int) (out : Nat → Int → Bool) : Result :=
  let t := s.hart.tag a
  let w := tagWidth t
  s.vectorHart (s.hart.judge (isIntTag t && s.hart.tag b == t) false (tagMvl t)) fun h =>
    let sum := fun e => f (h.elem a e) (h.elem b e) ((h.getP p).getLsbD e).toNat
    (h.commit d t (h.range.map fun e => (e, (wrap w (sum e), .none)))).setP p
      (putBits (h.getP p) (h.range.map fun e => (e, out w (sum e))))

def execVadc (d a b p : Reg) (s : State) : Result :=
  s.vecCarry d a b p (fun x y c => x + y + c) fun w i => decide (((2 ^ w : Nat) : Int) ≤ i)
def execVsbc (d a b p : Reg) (s : State) : Result :=
  s.vecCarry d a b p (fun x y c => x - y - c) fun _ i => decide (i < 0)

/-- VDOT2 on one element: d plus the two products of INT16 halves, saturated to 32 bits (R232). -/
def dot2Elem (d a b : Nat) : Nat × Raised :=
  clampSigned 32 (sgn 32 d + sgn 16 a * sgn 16 b + sgn 16 (a / 65536) * sgn 16 (b / 65536))

def execVdot2 (d a b m : Reg) (s : State) : Result :=
  let h := s.hart
  s.vectorHart (h.judge (h.tag a == .i16p && h.tag b == .i16p && h.tag d == .i32) false 256) fun h =>
    h.elementWise d m .i32 fun e => dot2Elem (h.elem d e) (h.elem a e) (h.elem b e)

end Sys2Proof.Machine
end

