-- ==== Sys2Proof/Machine/VCommon.lean ====
section
/-! DEFINITION. Common vector arithmetic: majors 0x20 and 0x21 (R226, R227). -/

namespace Sys2Proof.Machine

/-- Tags of the arithmetic instructions: every tag but I16P (R226). -/
def arithTag (t : Tag) : Bool := t != .i16p

def anyTag (_ : Tag) : Bool := true

/-- An instruction with an integer meaning and an FP meaning (R226). -/
def dual (i : Nat → Int → Int → Int) (f : Fmt → Nat → Nat → Nat × Raised) (t : Tag) (x y : Nat) : Nat × Raised :=
  if isFpTag t then f (tagFmt t) x y
  else
    let w := tagWidth t
    (wrap w (i w (sgn w x) (sgn w y)), .none)

/-- VADD, VSUB, VMUL, VMIN, VMAX on one pair of elements in a rounding mode (R226, R128). -/
def vaddElem (r : Rounding) : Tag → Nat → Nat → Nat × Raised :=
  dual (fun _ x y => x + y) fun f x y => f.add r (f.decode x) (f.decode y)
def vsubElem (r : Rounding) : Tag → Nat → Nat → Nat × Raised :=
  dual (fun _ x y => x - y) fun f x y => f.sub r (f.decode x) (f.decode y)
def vmulElem (r : Rounding) : Tag → Nat → Nat → Nat × Raised :=
  dual (fun _ x y => x * y) fun f x y => f.mul r (f.decode x) (f.decode y)
def vminElem : Tag → Nat → Nat → Nat × Raised :=
  dual (fun _ x y => min x y) fun f x y => f.minmax false x y
def vmaxElem : Tag → Nat → Nat → Nat × Raised :=
  dual (fun _ x y => max x y) fun f x y => f.minmax true x y

/-- The sign of an FP element cleared or inverted; a NaN becomes canonical (R226). -/
def signElem (f : Fmt) (invert : Bool) (x : Nat) : Nat × Raised :=
  match f.decode x with
  | .nan sg => f.nanOf sg
  | _ => (if bit x (f.width - 1) then x - f.signBit else if invert then x + f.signBit else x, .none)

def vabsElem (t : Tag) (x : Nat) : Nat × Raised :=
  if isFpTag t then signElem (tagFmt t) false x
  else (wrap (tagWidth t) (sgn (tagWidth t) x).natAbs, .none)

def vnegElem (t : Tag) (x : Nat) : Nat × Raised :=
  if isFpTag t then signElem (tagFmt t) true x
  else (wrap (tagWidth t) (-(sgn (tagWidth t) x)), .none)

def execVadd (d a b m : Reg) (s : State) : Result := s.vec2 d a (.v b) m arithTag (vaddElem s.hart.rounding)
def execVsub (d a b m : Reg) (s : State) : Result := s.vec2 d a (.v b) m arithTag (vsubElem s.hart.rounding)
def execVmul (d a b m : Reg) (s : State) : Result := s.vec2 d a (.v b) m arithTag (vmulElem s.hart.rounding)
def execVmin (d a b m : Reg) (s : State) : Result := s.vec2 d a (.v b) m arithTag vminElem
def execVmax (d a b m : Reg) (s : State) : Result := s.vec2 d a (.v b) m arithTag vmaxElem
def execVabs (d a m : Reg) (s : State) : Result := s.vec1 d a m arithTag vabsElem
def execVneg (d a m : Reg) (s : State) : Result := s.vec1 d a m arithTag vnegElem
def execVaddVx (d a x m : Reg) (s : State) : Result := s.vec2 d a (.x x) m arithTag (vaddElem s.hart.rounding)
def execVsubVx (d a x m : Reg) (s : State) : Result := s.vec2 d a (.x x) m arithTag (vsubElem s.hart.rounding)
def execVmulVx (d a x m : Reg) (s : State) : Result := s.vec2 d a (.x x) m arithTag (vmulElem s.hart.rounding)
def execVminVx (d a x m : Reg) (s : State) : Result := s.vec2 d a (.x x) m arithTag vminElem
def execVmaxVx (d a x m : Reg) (s : State) : Result := s.vec2 d a (.x x) m arithTag vmaxElem

/-- VMERGE writes every element below vl, active or not (R227). -/
def State.mergeWith (s : State) (d a : Reg) (o : Src2) (m : Reg) : Result :=
  let t := s.hart.tag a
  s.vectorHart (s.hart.judge (s.hart.sameTag t o) false (tagMvl t)) fun h =>
    h.commit d t (h.range.map fun e => (e, (if (h.getP m).getLsbD e then h.elem a e else h.src2 t o e, .none)))

def execVmerge (d a b m : Reg) (s : State) : Result := s.mergeWith d a (.v b) m
def execVmergeVx (d a x m : Reg) (s : State) : Result := s.mergeWith d a (.x x) m

/-- VMV copies bits of every tag (R227). -/
def execVmv (d a m : Reg) (s : State) : Result := s.vec1 d a m anyTag fun _ x => (x, .none)

/-- VBCAST of a vector's element 0, whole (R223, R227). -/
def execVbcast (d a m : Reg) (s : State) : Result :=
  let t := s.hart.tag a
  s.vectorHart (s.hart.judge true false (tagMvl t)) fun h =>
    h.setV d t (putElems h.v[d] (tagWidth t) ((h.wholeActive m).map fun e => (e, h.elem a 0)))

/-- VBCAST of a scalar, read as vd's current tag (R227). -/
def execVbcastVx (d x m : Reg) (s : State) : Result :=
  let t := s.hart.tag d
  s.vectorHart (s.hart.judge true false (tagMvl t)) fun h => h.elementPure d m t fun _ => h.scalar x t

end Sys2Proof.Machine
end

