-- ==== Sys2Proof/Machine/VPerm.lean ====
section
/-! DEFINITION. Permutes, the Hadamard stage, reductions and scans: majors 0x29 and 0x2A (R139, R145, R146, R241-R247). -/

namespace Sys2Proof.Machine

/-- A whole write of a vector register (R37, R223). -/
def Hart.whole (h : Hart) (d : Reg) (t : Tag) (l : List (Nat × Nat)) : Hart :=
  h.setV d t (putElems h.v[d] (tagWidth t) l)

/-- A permute of data registers of one tag: `f` says what element `e` takes, if anything (R241-R244). -/
def State.permute (s : State) (d a m : Reg) (same : Bool) (f : Hart → Nat → Option Nat) : Result :=
  let t := s.hart.tag a
  s.vectorHart (s.hart.judge same false (tagMvl t)) fun h =>
    h.whole d t ((h.wholeActive m).filterMap fun e => (f h e).map fun x => (e, x))

def execVslide1up (d a x m : Reg) (s : State) : Result :=
  s.permute d a m true fun h e => some (if e = 0 then h.scalar x (h.tag a) else h.elem a (e - 1))
def execVslide1dn (d a x m : Reg) (s : State) : Result :=
  s.permute d a m true fun h e => some (if e + 1 < h.vlen then h.elem a (e + 1) else h.scalar x (h.tag a))
def execVslideup (d a x m : Reg) (s : State) : Result :=
  s.permute d a m true fun h e =>
    let k := (h.getX x).toNat
    if k ≤ e then some (h.elem a (e - k)) else none
def execVslidedn (d a x m : Reg) (s : State) : Result :=
  s.permute d a m true fun h e =>
    let k := (h.getX x).toNat
    some (if e + k < h.vlen then h.elem a (e + k) else 0)

/-- VGATHER: indices of an integer tag, data of any (R242). -/
def execVgather (d a b m : Reg) (s : State) : Result :=
  let t := s.hart.tag a
  let u := s.hart.tag b
  s.vectorHart (s.hart.judge (isIntTag u) false (min (tagMvl t) (tagMvl u))) fun h =>
    h.whole d t ((h.wholeActive m).map fun e =>
      let i := h.elem b e
      (e, if i < h.vlen then h.elem a i else 0))

/-- Pairs each item of a list with its position. -/
def positions {α : Type} (l : List α) : List (Nat × α) := (List.range l.length).zip l

/-- VCOMPRESS and VEXPAND: pm selects (R243). -/
def execVcompress (d a m : Reg) (s : State) : Result :=
  let t := s.hart.tag a
  s.vectorHart (s.hart.judge true false (tagMvl t)) fun h =>
    h.whole d t ((positions (h.wholeActive m)).map fun x => (x.1, h.elem a x.2))
def execVexpand (d a m : Reg) (s : State) : Result :=
  let t := s.hart.tag a
  s.vectorHart (s.hart.judge true false (tagMvl t)) fun h =>
    h.whole d t ((positions (h.wholeActive m)).map fun x => (x.2, h.elem a x.1))

def execVrev (d a m : Reg) (s : State) : Result :=
  s.permute d a m true fun h e => some (h.elem a (h.vlen - 1 - e))
def execVzip (d a b m : Reg) (s : State) : Result :=
  s.permute d a m (s.hart.tag b == s.hart.tag a) fun h e =>
    some (if e % 2 = 0 then h.elem a (e / 2) else h.elem b ((e - 1) / 2))
def execVunzip (d a b m : Reg) (s : State) : Result :=
  s.permute d a m (s.hart.tag b == s.hart.tag a) fun h e =>
    some (if 2 * e < h.vlen then h.elem a (2 * e) else h.elem b (2 * e - h.vlen))

/-- VHAD at distance 2^k: pairs below vl with both elements active; a distance no partner of which lies below MVL leaves vd
as it is (R139, R245). -/
def execVhad (d a : Reg) (k : Fin 9) (m : Reg) (s : State) : Result :=
  let t := s.hart.tag a
  s.vectorHart (s.hart.judge (arithTag t) false (tagMvl t)) fun h =>
    let act := h.wholeActive m
    let dist := 2 ^ k.val
    let lows := act.filter fun e => ! bit e k.val && act.contains (e + dist)
    let r := h.rounding
    let l := lows.flatMap fun e =>
      [(e, vaddElem r t (h.elem a e) (h.elem a (e + dist))), (e + dist, vsubElem r t (h.elem a e) (h.elem a (e + dist)))]
    if tagMvl t ≤ dist then h else (h.whole d t (l.map fun x => (x.1, x.2.1))).raise (raisedOf l)

/-! ### Reductions and scans -/

/-- An FP value that is a NaN becomes canonical; a signalling one raises NV (R126, R246). -/
def canonElem (t : Tag) (x : Nat) : Nat × Raised :=
  if isFpTag t then
    match (tagFmt t).decode x with
    | .nan sg => (tagFmt t).nanOf sg
    | _ => (x, .none)
  else (x, .none)

/-- A running value with its exceptions takes one more operand. -/
def stepElem (f : Nat → Nat → Nat × Raised) (acc : Nat × Raised) (x : Nat) : Nat × Raised :=
  let r := f acc.1 x
  (r.1, acc.2.or r.2)

/-- The active elements of the source of a reduction. -/
def Hart.operands (h : Hart) (a m : Reg) : List Nat := (h.wholeActive m).map (h.elem a)

/-- Judgement of the reductions (R222, R246). -/
def State.reduction (s : State) (a b : Reg) (unordered : Bool) (k : State → State) : Result :=
  let t := s.hart.tag a
  s.vector (s.hart.judge (arithTag t && s.hart.tag b == t) unordered (tagMvl t)) k

/-- A reduction whose operands are taken in ascending order from the initial value (R145, R246). -/
def State.reduceOrdered (s : State) (d a b m : Reg) (f : Tag → Nat → Nat → Nat × Raised) : Result :=
  s.reduction a b false fun s => s.onHart fun h =>
    let t := h.tag a
    let r := (h.operands a m).foldl (stepElem (f t)) (canonElem t (h.elem b 0))
    (h.whole d t [(0, r.1)]).raise r.2

def execVredsum (d a b m : Reg) (s : State) : Result := s.reduceOrdered d a b m (vaddElem s.hart.rounding)
def execVredmax (d a b m : Reg) (s : State) : Result := s.reduceOrdered d a b m vmaxElem
def execVredmin (d a b m : Reg) (s : State) : Result := s.reduceOrdered d a b m vminElem

/-- A sum over some bracketing of the operands: two are taken at free places, added, and put back (R146; log 4). -/
def State.sumFree (s : State) (f : Nat → Nat → Nat × Raised) : Nat → List Nat → Raised → (Nat × Raised) × State
  | 0, l, r => ((l.headD 0, r), s)
  | n + 1, l, r =>
    let (k, s1) := s.draw
    let i := k % l.length
    let rest := l.eraseIdx i
    let j := k / l.length % rest.length
    let v := f (l.getD i 0) (rest.getD j 0)
    s1.sumFree f n (v.1 :: rest.eraseIdx j) (r.or v.2)

/-- The unordered sum of an initial value and operands; integer sums are the ordered ones (R146). -/
def State.sumUnordered (s : State) (t : Tag) (r : Rounding) (init : Nat) (l : List Nat) : (Nat × Raised) × State :=
  if isFpTag t then
    let c := canonElem t init
    s.sumFree (vaddElem r t) l.length (c.1 :: l) c.2
  else (l.foldl (stepElem (vaddElem r t)) (init, .none), s)

/-- VREDSUMU (R146, R246). -/
def execVredsumu (d a b m : Reg) (s : State) : Result :=
  s.reduction a b true fun s =>
    let h := s.hart
    let t := h.tag a
    let (v, s1) := s.sumUnordered t h.rounding (h.elem b 0) (h.operands a m)
    s1.onHart fun h => (h.whole d t [(0, v.1)]).raise v.2

/-- The partial sums of a scan from a running value (R145, R247). -/
def scanElems (f : Nat → Nat → Nat × Raised) : Nat → List (Nat × Nat) → List (Nat × (Nat × Raised))
  | _, [] => []
  | acc, (e, x) :: l =>
    let r := f acc x
    (e, r) :: scanElems f r.1 l

/-- VSCAN (R247). -/
def execVscan (d a b m : Reg) (s : State) : Result :=
  s.reduction a b false fun s => s.onHart fun h =>
    let t := h.tag a
    let l := scanElems (vaddElem h.rounding t) (h.elem b 0) ((h.wholeActive m).map fun e => (e, h.elem a e))
    (h.whole d t (l.map fun x => (x.1, x.2.1))).raise (raisedOf l)

/-- The partial sums of VSCANF, each over a bracketing of its own (R146, R247). -/
def State.scanFree (s : State) (t : Tag) (r : Rounding) (init : Nat) :
    List Nat → List (Nat × Nat) → List (Nat × (Nat × Raised)) × State
  | _, [] => ([], s)
  | done, (e, x) :: l =>
    let (v, s1) := s.sumUnordered t r init (done ++ [x])
    let (vs, s2) := s1.scanFree t r init (done ++ [x]) l
    ((e, v) :: vs, s2)

/-- VSCANF (R247). -/
def execVscanf (d a b m : Reg) (s : State) : Result :=
  s.reduction a b true fun s =>
    let h := s.hart
    let t := h.tag a
    let (l, s1) := s.scanFree t h.rounding (h.elem b 0) [] ((h.wholeActive m).map fun e => (e, h.elem a e))
    s1.onHart fun h => (h.whole d t (l.map fun x => (x.1, x.2.1))).raise (raisedOf l)

end Sys2Proof.Machine
end

