-- ==== Sys2Proof/Machine/VConv.lean ====
section
/-! DEFINITION. Conversions, random bits, scales, scalar moves: major 0x2B (R136, R140-R144, R248-R253). -/

namespace Sys2Proof.Machine

/-- One conversion between register types (R144). -/
def convertElem (r : Rounding) (src dst : Tag) (x : Nat) : Nat × Raised :=
  let w := tagWidth dst
  if isFpTag src then
    let v := (tagFmt src).decode x
    if isFpTag dst then
      match v with
      | .nan sg => (tagFmt dst).nanOf sg
      | _ => (tagFmt dst).deliver r v
    else
      let i := toInteger r w v
      (wrap w i.1, i.2)
  else
    let i := sgn (tagWidth src) x
    if isFpTag dst then (tagFmt dst).round r (exactOfInt i) else clampSigned w i

/-- VCVT: element-wise for equal widths, else whole with Q placing the elements (R248). -/
def execVcvt (d a : Reg) (q : Fin 4) (t : Tag) (m : Reg) (s : State) : Result :=
  let u := s.hart.tag a
  let ws := tagWidth u
  let wd := tagWidth t
  let wide := max ws wd
  let nw := mvl wide
  if wide / min ws wd ≤ q.val then s.strandOnly fun s => s.trapWord .illegal
  else s.vectorHart (s.hart.judge (u != .i16p) false nw) fun h =>
    let f := convertElem h.rounding u t
    if ws = wd then h.elementWise d m t fun e => f (h.elem a e)
    else
      let l := (h.wholeActive m).map fun e =>
        if ws < wd then (e, f (h.elem a (q.val * nw + e))) else (q.val * nw + e, f (h.elem a e))
      (h.whole d t (l.map fun x => (x.1, x.2.1))).raise (raisedOf l)

/-- The counter value of a VRAND or VCVTS (R142). -/
def Hart.randCounter (h : Hart) : Nat := (h.csr.rngctr + BitVec.ofNat 32 h.iss.draws).toNat

/-- The random bits of an element (R140). -/
def Hart.randElem (h : Hart) (e : Nat) : Nat := (randBits h.csr.rngseed h.rank.val h.id.vcid.val h.randCounter e).toNat

/-- One more VRAND or VCVTS in the convoy (R142). -/
def Hart.countDraw (h : Hart) : Hart := { h with iss := { h.iss with draws := h.iss.draws + 1 } }

/-- A vector instruction that uses up a counter step, also when vl is 0 (R142, R159). -/
def State.vectorDraw (s : State) (judged : Option Cause) (k : Hart → Hart) : Result :=
  s.strandOnly fun s =>
    match judged with
    | some c => s.trapWord c
    | none => s.onHart fun h => (if h.vlen = 0 then h else k h).countDraw

/-- VCVTS (R143, R249). -/
def execVcvts (d a : Reg) (q : Fin 2) (m : Reg) (s : State) : Result :=
  s.vectorDraw (s.hart.judge (s.hart.tag a == .fp32) false 256) fun h =>
    let l := (h.wholeActive m).map fun e => (q.val * 256 + e, stochastic (h.elem a e) (h.randElem e % 65536))
    (h.whole d .bf16 (l.map fun x => (x.1, x.2.1))).raise (raisedOf l)

/-- VRAND (R250). -/
def execVrand (d m : Reg) (s : State) : Result :=
  s.vectorDraw (s.hart.judge true false 256) fun h => h.elementPure d m .i32 fun e => h.randElem e

/-- Exponent of a format's largest binade, for block scales (R136). -/
def emaxOf : QFmt → Int | .e4m3 => 8 | .e5m2 => 15 | .e2m1 => 2 | .int8 => 6

/-- The value of an element under its tag (R122, R123). -/
def elemValue (t : Tag) (x : Nat) : Val :=
  if isFpTag t then (tagFmt t).decode x else .fin (exactOfInt (sgn (tagWidth t) x))

/-- The E8M0 code of a block's values (R136). -/
def blockCode (q : QFmt) (l : List Val) : Nat :=
  let isInf := l.any fun v => match v with | .inf _ => true | _ => false
  let top : Option Int := l.foldl (fun best v =>
    match v with
    | .fin x => if x.m = 0 then best else some (match best with | some b => max b x.top | none => x.top)
    | _ => best) none
  if isInf then 254
  else
    match top with
    | none => 0
    | some p => (max (-127) (min 127 (p - emaxOf q)) + 127).toNat

/-- VQSCALE (R251); a signalling NaN among its active elements raises NV (R127). -/
def execVqscale (d a : Reg) (f : QFmt) (m : Reg) (s : State) : Result :=
  let t := s.hart.tag a
  s.vectorHart (s.hart.judge (t != .i64 && t != .i16p) false (tagMvl t)) fun h =>
    let act := h.wholeActive m
    let nb := (h.vlen + 31) / 32
    let code := fun j => if j < nb then
        blockCode f ((act.filter fun e => e / 32 == j).map fun e => elemValue t (h.elem a e)) else 0
    let nv := act.any fun e => elemValue t (h.elem a e) == .nan true
    (h.raise { nv := nv }).whole d .i32 ((List.range ((nb + 3) / 4)).map fun i =>
      (i, code (4 * i) + code (4 * i + 1) * 2 ^ 8 + code (4 * i + 2) * 2 ^ 16 + code (4 * i + 3) * 2 ^ 24))

/-- The integer tag of VL.WIDTH (R252). -/
def Hart.widthTag (h : Hart) : Tag :=
  match h.csr.width.toNat with | 0 => .i16 | 1 => .i32 | _ => .i64

/-- VIOTA (R252). -/
def execViota (d m : Reg) (s : State) : Result :=
  let t := s.hart.widthTag
  s.vectorHart (s.hart.judge true false (tagMvl t)) fun h =>
    h.whole d t ((List.range h.vlen).map fun e => (e, (List.range e).countP fun j => (h.getP m).getLsbD j))

/-- VMVXS: no mask, no MVL; integer tags are sign-extended (R253). -/
def execVmvxs (d a i _m : Reg) (s : State) : Result :=
  s.vectorHart none fun h =>
    let t := h.tag a
    let x := h.elem a i.val
    h.setX d (if isFpTag t then BitVec.ofNat 64 x else BitVec.ofInt 64 (sgn (tagWidth t) x))

/-- VMVSX writes element 0 as vd's current tag (R253). DESIGN CHOICE (log 98): where element 0 is inactive nothing is written, and VDIRTY
stays as it is. -/
def execVmvsx (d x m : Reg) (s : State) : Result :=
  let t := s.hart.tag d
  s.vectorHart (s.hart.judge true false (tagMvl t)) fun h =>
    if (h.active m).contains 0 then h.whole d t [(0, h.scalar x t)] else h

end Sys2Proof.Machine
end

