-- ==== Sys2Proof/Machine/VMem.lean ====
section
/-! DEFINITION. Vector loads, stores, atomics and FIFO forms: majors 0x30 to 0x3B (R130-R135, R258-R272). -/

namespace Sys2Proof.Machine

/-! ### Formats -/

/-- Memory element width in bits (R258). -/
def memWidth (f : MemFmt) (t : Tag) : Nat :=
  match f with
  | .native => tagWidth t
  | .e4m3 | .e5m2 | .int8 | .nested => 8
  | .e2m1 | .int4 => 4
  | .bf16 => 16

/-- Whether a load, and a store, accepts a format with a tag (R133, R134). -/
def loadPairs (f : MemFmt) (t : Tag) : Bool :=
  match f with
  | .native => true
  | .e4m3 | .e5m2 | .e2m1 => isFpTag t
  | .int8 | .int4 | .nested => t != .i16p
  | .bf16 => t == .fp32
def storePairs (f : MemFmt) (t : Tag) : Bool :=
  match f with
  | .native => true
  | .bf16 => t == .fp32
  | _ => t != .i16p

/-- The value of a code of a format 1 to 6 (R130). -/
def fmtValue (f : MemFmt) (raw : Nat) : Val :=
  match f with
  | .e4m3 => decodeE4m3 raw
  | .e5m2 => decodeE5m2 raw
  | .e2m1 => decodeE2m1 raw
  | .int4 => .fin (exactOfInt (sgn 4 raw))
  | _ => .fin (exactOfInt (sgn 8 raw))

/-- A value under a scale: a NaN scale makes a NaN (R135). -/
def scaled (v : Val) : BlockScale → Val
  | .pow s => v.scale s
  | .nan => .nan false

/-- Widening of a memory value to an element of a tag (R133). -/
def widen (f : MemFmt) (t : Tag) (raw : Nat) (sc : BlockScale) : Nat :=
  match f with
  | .native => raw
  | .bf16 => if (bf16.decode raw).isNan then fp32.nanBits else raw * 65536
  | .int8 | .int4 | .nested =>
    let w := if f = .int4 then 4 else 8
    if isFpTag t then ((tagFmt t).deliver .nearest (scaled (fmtValue f raw) sc)).1 else wrap (tagWidth t) (sgn w raw)
  | _ => ((tagFmt t).deliver .nearest (scaled (fmtValue f raw) sc)).1

/-- Narrowing of an element for a store, and whether it saturated (R134). -/
def narrowed (f : MemFmt) (t : Tag) (x : Nat) (sc : BlockScale) : Nat × Bool :=
  match f with
  | .native => (x, false)
  | .bf16 => ((bf16.deliver .nearest (fp32.decode x)).1, false)
  | _ =>
    match sc with
    | .pow s => narrow f (elemValue t x) s
    | .nan => narrow f (.nan false) 0

/-- Where an access finds its scale byte: none when the format and BSCALE ask for no scale (R135). -/
def Hart.scaleAddr (h : Hart) (f : MemFmt) (k : Nat) : Option Word :=
  match f with
  | .native | .nested | .bf16 => none
  | _ => if h.csr.bscale = 0 then none else some (h.csr.bscale + BitVec.ofNat 64 k)

/-- The scale an E8M0 byte stands for. -/
def e8m0 (b : Nat) : BlockScale := if b = 255 then .nan else .pow ((b : Int) - 127)

/-! ### Addresses -/

/-- Where memory index `j` lies: its byte, or plane 0's byte, and the bit it starts at (R131, R258). -/
def elemAddr (f : MemFmt) (m : Nat) (a : Word) (j : Int) : Word × Nat :=
  if f = .nested then
    let k := (a.toNat % 1024 : Nat) + j
    let i := (k % 1024).toNat
    (BitVec.ofInt 64 ((a.toNat / 1024 * 1024 : Nat) + 1024 * (k / 1024) + (i / 8 : Nat)), i % 8)
  else
    let b := j * m
    (a + BitVec.ofInt 64 (b / 8), (b % 8).toNat)

/-- What one access of an element gives: a value, a cause at an address, a wait, a memory stall. -/
inductive Got (α : Type)
  | ok (a : α) (s : State)
  | fault (c : Cause) (va : Word)
  | wait (k : WaitKind) (va : Word)
  | stall (s : State)

/-- An access at an address. -/
def gotAt {α : Type} (va : Word) : Acc α → Got α
  | .ok a s => .ok a s
  | .fault c => .fault c (faultAddr c va)
  | .wait k => .wait k va
  | .stall s => .stall s

def Got.bind {α β : Type} (x : Got α) (k : α → State → Got β) : Got β :=
  match x with
  | .ok a s => k a s
  | .fault c va => .fault c va
  | .wait w va => .wait w va
  | .stall s => .stall s

/-- Runs a step for each item, in order, collecting the values. -/
def gather {α β : Type} (f : α → State → Got β) : List α → State → Got (List β)
  | [], s => .ok [] s
  | x :: l, s => (f x s).bind fun y s1 => (gather f l s1).bind fun ys s2 => .ok (y :: ys) s2

/-- Reads one byte of an element's access number `key` (the number tells its fabric replies apart). -/
def State.byteAt (s : State) (va : Word) (cls : Fin 16) (key : Nat) : Got Nat :=
  (gotAt va (s.loadBytes va 1 cls key)).bind fun l s' => .ok (leNat l) s'

/-- Reads the raw value of a field (R130-R132). -/
def State.readRaw (s : State) (f : MemFmt) (m : Nat) (va : Word) (sub : Nat) (cls : Fin 16) (key : Nat) : Got Nat :=
  if f = .nested then
    let planes := s.hart.csr.planes.toNat
    (gather (fun q (s : State) => s.byteAt (va + BitVec.ofNat 64 (128 * q)) cls (key + q)) (List.range planes) s).bind fun bs s' =>
      .ok ((positions bs).foldl (fun acc x => acc + bits x.2 sub 1 * 2 ^ (7 - x.1)) 0) s'
  else if m = 4 then (s.byteAt va cls key).bind fun b s' => .ok (bits b sub 4) s'
  else (gotAt va (s.loadBytes va (m / 8) cls key)).bind fun l s' => .ok (leNat l) s'

/-- An access made on behalf of an element: its fault, or the wait it enters, names the element's address (R261, R409, R435). -/
def Got.forElement {α : Type} (va : Word) : Got α → Got α
  | .fault c _ => .fault c va
  | .wait k _ => .wait k va
  | x => x

/-- Reads the scale byte of the element at `va`, as a load of the access's class (R135, R261). -/
def State.readScale (s : State) (a : Option Word) (va : Word) (cls : Fin 16) (key : Nat) : Got BlockScale :=
  match a with
  | none => .ok (.pow 0) s
  | some sa => ((s.byteAt sa cls key).bind fun b s' => .ok (e8m0 b) s').forElement va

/-- One field of an element: its register, its memory index, the number of its scale byte. -/
structure VField where
  reg : Reg
  j : Int
  scale : Nat
  deriving DecidableEq, Repr

/-- Loads one field (R264). -/
def State.loadField (s : State) (f : MemFmt) (cls : Fin 16) (base : Word) (e n : Nat) (x : VField) : Got (Reg × Nat) :=
  let t := s.hart.tag x.reg
  let m := memWidth f t
  let (va, sub) := elemAddr f m base x.j
  let sa := if isFpTag t then s.hart.scaleAddr f x.scale else none
  (s.readScale sa va cls (e * 128 + 64 + n)).bind fun sc s1 =>
    (s1.readRaw f m va sub cls (e * 128 + 8 * n)).bind fun raw s2 => .ok (x.reg, widen f t raw sc) s2

/-- The plane bytes or bytes that store a raw value. -/
def rawWrites (f : MemFmt) (m : Nat) (va : Word) (sub raw : Nat) : List (Word × List Byte × Byte) :=
  if f = .nested then
    (List.range 8).map fun q =>
      (va + BitVec.ofNat 64 (128 * q), [BitVec.ofNat 8 (bits raw (7 - q) 1 * 2 ^ sub)], BitVec.ofNat 8 (2 ^ sub))
  else if m = 4 then [(va, [BitVec.ofNat 8 (raw % 16 * 2 ^ sub)], BitVec.ofNat 8 (15 * 2 ^ sub))]
  else [(va, leBytes (m / 8) raw, 0xFF)]

/-- Judges the writes of one field: the writes, and whether narrowing saturated (R264). -/
def State.storeField (s : State) (f : MemFmt) (cls : Fin 16) (base : Word) (e n : Nat) (x : VField) : Got (List Write × Bool) :=
  let t := s.hart.tag x.reg
  let m := memWidth f t
  let (va, sub) := elemAddr f m base x.j
  (s.readScale (s.hart.scaleAddr f x.scale) va cls (e * 128 + 64 + n)).bind fun sc s1 =>
    let r := narrowed f t (s.hart.elem x.reg e) sc
    (gather (fun (w : Word × List Byte × Byte) (s : State) =>
        gotAt w.1 (s.storeTarget w.1 w.2.1 w.2.2)) (rawWrites f m va sub r.1) s1).bind fun ws s2 => .ok (ws, r.2) s2

/-! ### Running over elements -/

/-- Why a vector access stops before an element. -/
inductive Stop
  | fault (c : Cause) (va : Word)
  | wait (k : WaitKind) (va : Word)
  | stall
  deriving DecidableEq, Repr

/-- What the elements of an access give, in ascending order, up to the first that stops. -/
structure Swept (α : Type) where
  done : List (Nat × α)
  stop : Option (Nat × Stop)
  state : State

/-- A wait found at an element: a stop, or the cause that ends it once its limit has been reached (R445). -/
def State.stopFor (s : State) (k : WaitKind) (va : Word) : Stop :=
  match s.waitEnds k with
  | some c => .fault c va
  | none => .wait k va

/-- Runs one step per element, in ascending order, up to the first that stops (R38, R263). -/
def sweep {α : Type} (f : Nat → State → Got α) : List Nat → State → Swept α
  | [], s => { done := [], stop := none, state := s }
  | e :: l, s =>
    match f e s with
    | .ok a s1 =>
      let r := sweep f l s1
      { r with done := (e, a) :: r.done }
    | .fault c va => { done := [], stop := some (e, .fault c va), state := s }
    | .wait k va => { done := [], stop := some (e, s.stopFor k va), state := s }
    | .stall s1 => { done := [], stop := some (e, .stall), state := { s with fabric := s1.fabric } }

/-- First element a stop leaves uncommitted: a wait for a version falls back to its group of 8 (R40, R434). -/
def stopElem (e : Nat) : Stop → Nat
  | .wait .versionLoad _ => e / 8 * 8
  | _ => e

/-- The convoy holds at an element, but at none that was committed before: VCONV and VSTART name the stop (R38, R40, R434; log 40). -/
def State.holdAt (s : State) (e : Nat) (w : Option (WaitKind × Word)) : State :=
  let n := max e s.hart.firstElem
  let s1 := s.onHart fun h =>
    { h with csr := { h.csr with vconv := BitVec.ofNat 2 h.iss.runPos, vstart := BitVec.ofNat 10 n } }
  match w with
  | some (k, va) => s1.waitFor k n va
  | none => s1.stall n

/-- A deterministic-mode fault stands as at issue; any other is an element stop (R38, R262). -/
def State.elemTrap (s : State) (e : Nat) (c : Cause) (va : Word) : State :=
  if c = .deterministic then s.trapWord c else s.trap false e c va

/-- Applies a stop after the elements below it are committed. -/
def State.stopAt (s : State) (stop : Option (Nat × Stop)) : State :=
  match stop with
  | none => s
  | some (e, .fault c va) => s.elemTrap e c va
  | some (e, .wait k va) => s.holdAt (stopElem e (.wait k va)) (some (k, va))
  | some (e, .stall) => s.holdAt (stopElem e .stall) none

/-- Elements that are committed: those below the stop. -/
def Swept.committed {α : Type} (r : Swept α) : List (Nat × α) :=
  match r.stop with
  | none => r.done
  | some (e, k) => r.done.filter fun x => decide (x.1 < stopElem e k)

/-- Whether an access commits no element: none is left, or it stops at the first (R38). -/
def Swept.nothing {α : Type} (r : Swept α) (h : Hart) : Bool :=
  match r.stop with
  | none => h.range.isEmpty
  | some (e, k) => h.range.all fun x => decide (stopElem e k ≤ x)

/-- Requests, answers and reports of the fabric after a sweep: elements that fall back to their group keep their answers. -/
def Swept.carry {α : Type} (r : Swept α) (s : State) : State :=
  match r.stop with
  | some (_, .wait .versionLoad _) => { s with fabric := r.state.fabric }
  | _ =>
    let h := r.state.hart
    { s with fabric := r.state.fabric, hart := { s.hart with replies := h.replies, reports := h.reports, reportLost := h.reportLost } }

/-- Whether an access stops for an answer or a bank, to go on later with the rest of the same instruction. -/
def stalled (stop : Option (Nat × Stop)) : Bool :=
  match stop with
  | some (_, .stall) => true
  | _ => false

/-- Whether an element's address is in a versioned region (R262). -/
def State.inRegion (s : State) (va : Word) : Bool :=
  match s.resolve s.hart.ctx .load va with
  | .ok (.device pa) => (s.regionAt s.hart.part pa).isSome
  | _ => false

/-- The shape of an access: what each element's fields are. -/
structure VShape where
  fmt : MemFmt
  cls : Fin 16
  base : Word
  mask : Reg
  regs : List Reg
  fields : Nat → List VField

/-- Register whose tag decides the width of an access. -/
def VShape.lead (v : VShape) (h : Hart) : Nat := memWidth v.fmt (h.tag (v.regs.headD 0))

/-- Whether the base is misaligned, and so every element (R262). -/
def VShape.misaligned (v : VShape) (h : Hart) : Bool :=
  let m := v.lead h
  v.fmt != .nested && decide (16 ≤ m) && ! aligned v.base (m / 8)

/-- Address of an element's first field. -/
def VShape.addr (v : VShape) (h : Hart) (e : Nat) : Word :=
  (elemAddr v.fmt (v.lead h) v.base (((v.fields e).map (·.j)).headD 0)).1

/-- The addresses of an element's fields, plane by plane (R131). -/
def VShape.fieldsAt (v : VShape) (h : Hart) (load : Bool) (e : Nat) : List Word :=
  (v.fields e).flatMap fun x =>
    let a := (elemAddr v.fmt (memWidth v.fmt (h.tag x.reg)) v.base x.j).1
    if v.fmt = .nested then (List.range (if load then h.csr.planes.toNat else 8)).map fun q => a + BitVec.ofNat 64 (128 * q) else [a]

/-- The addresses of the scale bytes of an element's fields (R135, R261). -/
def VShape.scalesAt (v : VShape) (h : Hart) (load : Bool) (e : Nat) : List Word :=
  (v.fields e).flatMap fun x => (if load ∧ ¬ isFpTag (h.tag x.reg) then none else h.scaleAddr v.fmt x.scale).toList

/-- Every address an element of an access reads: its fields where it loads, and their scale bytes (R131, R261). -/
def VShape.touched (v : VShape) (h : Hart) (load : Bool) (e : Nat) : List Word :=
  (if load then v.fieldsAt h true e else []) ++ v.scalesAt h load e

/-- Whether an access reads a versioned region in deterministic mode, which stands as a trap at issue (R149, R262, R427). -/
def State.forbidden (s : State) (v : VShape) (load : Bool) (act : List Nat) : Bool :=
  s.hart.st.det && ! s.hart.iss.judging && act.any fun e => (v.touched s.hart load e).any s.inRegion

/-- A vector load, already judged: all its registers, element by element (R263-R267). -/
def State.vload (s : State) (v : VShape) : State :=
  let h := s.hart
  let act := h.active v.mask
  if s.forbidden v true act then s.trapWord .deterministic
  else if v.misaligned h ∧ act ≠ [] then s.trap false (act.headD 0) .misaligned (v.addr h (act.headD 0))
  else
    let r := sweep (fun e s => gather (fun (x : Nat × VField) (s : State) => s.loadField v.fmt v.cls v.base e x.1 x.2)
      (positions (v.fields e)) s) act s
    let puts := r.committed.flatMap fun x => x.2.map fun y => (y.1, x.1, y.2)
    let write := fun (h : Hart) (reg : Reg) =>
      h.setV reg (h.tag reg) (putElems h.v[reg] (tagWidth (h.tag reg))
        ((puts.filter fun p => p.1 == reg).map fun p => (p.2.1, p.2.2)))
    ((r.carry s).onHart fun h => if r.nothing h then h else v.regs.foldl write h).stopAt r.stop

/-- A list in an order of free choice (R102; log 4). -/
def State.shuffle {α : Type} (s : State) : Nat → List α → List α × State
  | 0, l => (l, s)
  | n + 1, l =>
    match l with
    | [] => ([], s)
    | x :: xs =>
      let (k, s1) := s.draw
      let l' := x :: xs
      let i := k % l'.length
      let (r, s2) := s1.shuffle n (l'.eraseIdx i)
      ((l'.getD i x) :: r, s2)

/-! ### Stores to other ranks (R372, R442) -/

/-- The byte that writes leave at an offset of a rank's window, where one writes all of it: the last. -/
def remoteByte (ws : List Write) (q o : Nat) : Option Byte :=
  ws.foldl (fun b w => match w.target with
    | .remote r off => if r = q ∧ off ≤ o ∧ o < off + w.data.length ∧ w.mask = 0xFF then w.data[o - off]? else b
    | _ => b) none

/-- The bytes of a line of a rank's window that writes cover in full. -/
def remoteLine (ws : List Write) (q line : Nat) : Option (List Byte) :=
  let l := (List.range 128).filterMap fun i => remoteByte ws q (line + i)
  if l.length = 128 then some l else none

/-- Whether a write leads to a line of a rank's window. -/
def Write.inLine (w : Write) (q line : Nat) : Bool :=
  match w.target with
  | .remote r off => r == q && off / 128 * 128 == line
  | _ => false

/-- What write `n` of a store sends: a line of another rank that its writes cover in full goes as one message, by the first of them
(R442). -/
def sentAs (ws : List Write) (n : Nat) (w : Write) : Option Write :=
  match w.target with
  | .remote q off =>
    let line := off / 128 * 128
    match remoteLine ws q line with
    | some l => if (ws.take n).any (·.inLine q line) then none else some { w with target := .remote q line, data := l }
    | none => some w
  | _ => none

/-- Whether a write stays on this rank. -/
def Write.isLocal (w : Write) : Bool := match w.target with | .remote _ _ => false | _ => true

/-- Writes with their element and their number in it. -/
def numbered (l : List (Nat × List Write)) : List (Nat × Nat × Write) :=
  l.flatMap fun x => (positions x.2).map fun y => (x.1, y.1, y.2)

/-- Sends what leads to other ranks of the writes of a store, element by element, up to the first that stops (R372). -/
def State.sendAll (s : State) (cls : Fin 16) (l : List (Nat × List Write)) : Swept Unit :=
  let all := positions (numbered l)
  let ws := all.map (·.2.2.2)
  let send := fun (x : Nat × Nat × Nat × Write) (s : State) =>
    match sentAs ws x.1 x.2.2.2 with
    | some w => gotAt x.2.2.2.va (s.sendStore w cls (x.2.1 * 128 + x.2.2.1))
    | none => .ok () s
  sweep (fun e s => (gather send (all.filter fun x => x.2.1 == e) s).bind fun _ s1 => .ok () s1)
    (if ws.all (·.isLocal) then [] else l.map (·.1)) s

/-- A vector store, already judged (R263-R267); `free` leaves the winner of a duplicated location open (R102). -/
def State.vstore (s : State) (v : VShape) (free : Bool) : State :=
  let h := s.hart
  let act := h.active v.mask
  if act = [] then s
  else if s.forbidden v false act then s.trapWord .deterministic
  else if v.misaligned h then s.trap false (act.headD 0) .misaligned (v.addr h (act.headD 0))
  else if h.storesFull then s.holdAt (act.headD 0 / 8 * 8) none
  else
    let r := sweep (fun e s => gather (fun (x : Nat × VField) (s : State) => s.storeField v.fmt v.cls v.base e x.1 x.2)
      (positions (v.fields e)) s) act s
    let t := (r.carry s).sendAll v.cls (r.committed.map fun x => (x.1, x.2.flatMap (·.1)))
    let stop := t.stop.orElse fun _ => r.stop
    let done := r.committed.filter fun x => stop.all fun y => decide (x.1 < y.1)
    let groups := done.map fun x => x.2.flatMap (·.1)
    let sat := done.any fun x => x.2.any (·.2)
    let s1 := t.carry (r.carry s)
    let (order, s2) := if free ∧ ¬ (groups.map fun g => g.map (·.va)).Nodup then s1.shuffle groups.length groups else (groups, s1)
    let s3 := if done = [] then s2 else if stalled stop then s2.performStores order.flatten else s2.commitStore v.cls order.flatten
    (s3.onHart fun h => h.raise { sat := sat }).stopAt stop

/-- Signed stride and unsigned index of an element (R265, R266). -/
def Hart.indexOf (h : Hart) (i : Reg) (e : Nat) : Nat := h.elem i e

/-- The address register's value (R264). -/
def Hart.base (h : Hart) (n : Fin 8) : Word := h.getX (addrReg n)

/-- The four shapes of R264 to R267. -/
def unitShape (h : Hart) (r : Reg) (n : Fin 8) (cls : Fin 16) (f : MemFmt) (m : Reg) : VShape where
  fmt := f
  cls := cls
  base := h.base n
  mask := m
  regs := [r]
  fields := (fun e => [{ reg := r, j := (e : Int), scale := e / 32 }])

def stridedShape (h : Hart) (r : Reg) (n : Fin 8) (x : Reg) (cls : Fin 16) (f : MemFmt) (m : Reg) : VShape where
  fmt := f
  cls := cls
  base := h.base n
  mask := m
  regs := [r]
  fields := (fun e => [{ reg := r, j := (e : Int) * (h.getX x).toInt, scale := e / 32 }])

def indexedShape (h : Hart) (r : Reg) (n : Fin 8) (i : Reg) (cls : Fin 16) (f : MemFmt) (m : Reg) : VShape where
  fmt := f
  cls := cls
  base := h.base n
  mask := m
  regs := [r]
  fields := (fun e => [{ reg := r, j := (h.indexOf i e : Int), scale := h.indexOf i e / 32 }])

/-- Registers d to d + n - 1. -/
def regRange (d : Reg) (n : Nat) : List Reg := (List.range n).map fun k => d + Fin.ofNat 32 k

def segmentShape (h : Hart) (r : Reg) (n : Fin 8) (c : Reg) (cls : Fin 16) (f : MemFmt) (m : Reg) : VShape where
  fmt := f
  cls := cls
  base := h.base n
  mask := m
  regs := regRange r c.val
  fields := (fun e => (positions (regRange r c.val)).map fun x =>
    { reg := x.2, j := ((e * c.val + x.1 : Nat) : Int), scale := x.1 * ((h.vlen + 31) / 32) + e / 32 })

/-- Judgement of an access over registers with a format (R260, R267). -/
def Hart.judgeAccess (h : Hart) (pairs : MemFmt → Tag → Bool) (f : MemFmt) (regs : List Reg) (index : Option Reg) (det : Bool) :
    Option Cause :=
  let tags := regs.map h.tag
  let w := tagWidth (tags.headD .i32)
  let sameWidth := f != .native || tags.all fun t => tagWidth t == w
  let indexOk := match index with | some i => isIntTag (h.tag i) | none => true
  let most := (tags.map tagMvl ++ (match index with | some i => [tagMvl (h.tag i)] | none => [])).foldl min 512
  h.judge (tags.all (pairs f) && sameWidth && indexOk) det most

/-- A vector load or store as an instruction. -/
def State.vloadInstr (s : State) (v : VShape) (index : Option Reg) : Result :=
  s.vector (s.hart.judgeAccess loadPairs v.fmt v.regs index false) fun s => s.vload v
def State.vstoreInstr (s : State) (v : VShape) (index : Option Reg) (free : Bool) : Result :=
  s.vector (s.hart.judgeAccess storePairs v.fmt v.regs index free) fun s => s.vstore v free

def execVld (d : Reg) (n : Fin 8) (cls : Fin 16) (f : MemFmt) (m : Reg) (s : State) : Result :=
  s.vloadInstr (unitShape s.hart d n cls f m) none
def execVlds (d : Reg) (n : Fin 8) (x : Reg) (cls : Fin 16) (f : MemFmt) (m : Reg) (s : State) : Result :=
  s.vloadInstr (stridedShape s.hart d n x cls f m) none
def execVldx (d : Reg) (n : Fin 8) (i : Reg) (cls : Fin 16) (f : MemFmt) (m : Reg) (s : State) : Result :=
  s.vloadInstr (indexedShape s.hart d n i cls f m) (some i)
def execVldseg (d : Reg) (n : Fin 8) (e : Reg) (cls : Fin 16) (f : MemFmt) (m : Reg) (s : State) : Result :=
  s.vloadInstr (segmentShape s.hart d n e cls f m) none
def execVst (r : Reg) (n : Fin 8) (cls : Fin 16) (f : MemFmt) (m : Reg) (s : State) : Result :=
  s.vstoreInstr (unitShape s.hart r n cls f m) none false
def execVsts (r : Reg) (n : Fin 8) (x : Reg) (cls : Fin 16) (f : MemFmt) (m : Reg) (s : State) : Result :=
  s.vstoreInstr (stridedShape s.hart r n x cls f m) none false
def execVstx (r : Reg) (n : Fin 8) (i : Reg) (cls : Fin 16) (f : MemFmt) (m : Reg) (s : State) : Result :=
  s.vstoreInstr (indexedShape s.hart r n i cls f m) (some i) false
def execVstxu (r : Reg) (n : Fin 8) (i : Reg) (cls : Fin 16) (f : MemFmt) (m : Reg) (s : State) : Result :=
  s.vstoreInstr (indexedShape s.hart r n i cls f m) (some i) true
def execVstseg (r : Reg) (n : Fin 8) (e : Reg) (cls : Fin 16) (f : MemFmt) (m : Reg) (s : State) : Result :=
  s.vstoreInstr (segmentShape s.hart r n e cls f m) none false

/-! ### Background load (R268) -/

/-- Whether a fault is an uncorrectable error of data, which a background load reports later (R268). -/
def Cause.isData : Cause → Bool
  | .memoryError | .bankError => true
  | _ => false

/-- A read made when a background load issues: the cause of data that cannot be read is kept for the report, and the value is free
(R268). -/
def Got.kept {α : Type} (s : State) (free : α) (x : Got α) : Got (α × Option Cause) :=
  match x with
  | .ok a s' => .ok (a, none) s'
  | .fault c va => if c.isData then .ok (free, some c) s else .fault c va
  | .wait k va => .wait k va
  | .stall s' => .stall s'

/-- Translates one element of a VLDB; reads now what is no device memory, and its scale. -/
def State.vldbElem (s : State) (f : MemFmt) (cls : Fin 16) (t : Tag) (base : Word) (i : Reg) (e : Nat) : Got VldbElem :=
  let m := memWidth f t
  let j := s.hart.indexOf i e
  let (va, sub) := elemAddr f m base j
  let sa := if isFpTag t then s.hart.scaleAddr f (j / 32) else none
  ((s.readScale sa va cls (e * 128 + 64)).kept s (.pow 0)).bind fun sc s1 =>
    match s1.resolve s1.hart.ctx .load va with
    | .fault c => .fault c va
    | .transit => .wait .page va
    | .ok (.device pa) => .ok { va := va, source := (sc.2.map VldbSource.bad).getD (.device pa), sub := sub, scale := sc.1 } s1
    | .ok _ => ((s1.readRaw f m va sub cls (e * 128)).kept s1 0).bind fun raw s2 =>
      .ok { va := va, source := ((sc.2.orElse fun _ => raw.2).map VldbSource.bad).getD (.value raw.1), sub := sub, scale := sc.1 } s2

/-- The duplicate mask: elements whose index a later element has too. -/
def Hart.dupMask (h : Hart) (i : Reg) : List (Nat × Bool) :=
  let idx := (List.range h.vlen).map (h.indexOf i)
  (positions idx).map fun x => (x.1, (idx.drop (x.1 + 1)).contains x.2)

/-- VLDB: translated as a whole, counted, written later by VLDB_DATA_WRITE. -/
def execVldb (d : Reg) (n : Fin 8) (i : Reg) (cls : Fin 16) (f : MemFmt) (p : Reg) (s : State) : Result :=
  s.vector (s.hart.judgeAccess loadPairs f [d] (some i) false) fun s =>
    let h := s.hart
    let t := h.tag d
    let m := memWidth f t
    let base := h.base n
    let all := List.range h.vlen
    let first := (elemAddr f m base (h.indexOf i 0)).1
    if s.forbidden (indexedShape h d n i cls f 0) true all then s.trapWord .deterministic
    else if f ≠ .nested ∧ 16 ≤ m ∧ ¬ aligned base (m / 8) then s.trap false 0 .misaligned first
    else if h.cnt.loads = 0xFFFF then s.stall 0
    else
      let r := sweep (fun e s => s.vldbElem f cls t base i e) all s
      match r.stop with
      | some (_, .fault c va) => if c = .deterministic then s.trapWord c else s.trap false 0 c va
      | some (_, .wait k va) => (r.carry s).holdAt 0 (some (k, va))
      | some (_, .stall) => (r.carry s).holdAt 0 none
      | none =>
        let v : PendingVldb :=
          { cls := cls, dest := d, pred := p, tag := t, fmt := f, planes := h.csr.planes.toNat
            elems := r.done.map (·.2), dup := putBits 0 (h.dupMask i) }
        (r.carry s).onHart fun h =>
          { h with vldbs := h.vldbs ++ [v], cnt := { h.cnt with loads := h.cnt.loads + 1 } }

/-! ### Indexed atomics (R269-R271) -/

/-- The operations of VAMOX. -/
inductive Vamox | add | addu | min | max | and | or | xor | swap
  deriving DecidableEq, Repr

/-- Tags an operation accepts (R269). -/
def vamoxTag (op : Vamox) (t : Tag) : Bool :=
  match op with
  | .and | .or | .xor => t == .i32 || t == .i64
  | _ => t == .i32 || t == .i64 || t == .fp32

/-- Whether deterministic mode forbids it (R149, R269). -/
def vamoxFree (op : Vamox) (t : Tag) : Bool :=
  match op with
  | .add | .addu => t == .fp32
  | .swap => true
  | _ => false

/-- The atomic operation on integers. -/
def vamoxAmo : Vamox → AmoOp
  | .add | .addu => .add
  | .min => .min
  | .max => .max
  | .and => .and
  | .or => .or
  | .xor => .xor
  | .swap => .swap

/-- What an FP32 atomic leaves: a sum rounded to nearest, a minimum or maximum by R128, the operand (R269). -/
def floatAmo (op : AmoOp) (old b : Nat) : Nat :=
  match op with
  | .add => (fp32.add .nearest (fp32.decode old) (fp32.decode b)).1
  | .min => (fp32.minmax false old b).1
  | .max => (fp32.minmax true old b).1
  | .swap => b
  | _ => old

/-- One VAMOX element: an atomic on integers, or on FP32 (R269, R270). VAMOX retires only once every agent has accepted its elements,
so what befalls an element at another rank, a time-out too, is a precise fault of that element (R270, R410, R455). -/
def State.vamoxElem (s : State) (op : AmoOp) (t : Tag) (cls : Fin 16) (base : Word) (r i : Reg) (e : Nat) : Got Unit :=
  let n := tagWidth t / 8
  let va := base + BitVec.ofNat 64 (s.hart.indexOf i e * n)
  let b := s.hart.elem r e
  if ¬ aligned va n then .fault .misaligned va
  else if t ≠ .fp32 then (gotAt va (s.atomic va n op b 0 cls false e)).bind fun _ s' => .ok () s'
  else
    match s.resolve s.hart.ctx .atomic va with
    | .fault c => .fault c va
    | .transit => .wait .page va
    | .ok (.remote q off) =>
      (gotAt va (s.remoteAccess va q off cls (.atomicFloat op (BitVec.ofNat 32 b)) e)).bind fun _ s' => .ok () s'
    | .ok g => (gotAt va (s.modify s.hart.ctx g 4 false fun old => floatAmo op old b)).bind fun _ s' => .ok () s'

/-- Runs atomics element by element, keeping the effects of those below the stop (R263, R270). -/
def State.vamoxRun (s : State) (step : Nat → State → Got Unit) : List Nat → Option (Nat × Stop) × State
  | [] => (none, s)
  | e :: l =>
    match step e s with
    | .ok () s1 => s1.vamoxRun step l
    | .fault c va => (some (e, .fault c va), s)
    | .wait k va => (some (e, .wait k va), s)
    | .stall s1 => (some (e, .stall), s1)

/-- Whether an element of a VAMOX leads to a scratchpad bank, whose lanes take elements in ascending order (R271). -/
def State.vamoxInBank (s : State) (t : Tag) (base : Word) (i : Reg) (e : Nat) : Bool :=
  match s.resolve s.hart.ctx .atomic (base + BitVec.ofNat 64 (s.hart.indexOf i e * (tagWidth t / 8))) with
  | .ok (.bank _ _) => true
  | _ => false

/-- VAMOX: the unordered FP32 sum takes elements outside scratchpad in an order of free choice (R269, R271); a stop is at an
element, and the elements below it are applied. -/
def State.vamox (s : State) (op : Vamox) (r : Reg) (n : Fin 8) (i : Reg) (cls : Fin 16) (m : Reg) : Result :=
  let h := s.hart
  let t := h.tag r
  let most := min (tagMvl t) (tagMvl (h.tag i))
  s.vector (h.judge (vamoxTag op t && isIntTag (h.tag i)) (vamoxFree op t) most) fun s =>
    let h := s.hart
    let act := h.active m
    if act = [] then s
    else if h.storesFull then s.holdAt h.firstElem none
    else
      let step := fun e (s : State) => s.vamoxElem (vamoxAmo op) t cls (h.base n) r i e
      let first := s.vamoxRun step act
      let below := match first.1 with | some (e, _) => act.filter (fun x => decide (x < e)) | none => act
      let free := below.filter fun e => ! s.vamoxInBank t (h.base n) i e
      let dup := ¬ (free.map (h.indexOf i)).Nodup
      let (stop, s1) :=
        if op = .addu ∧ t = .fp32 ∧ dup ∧ ¬ stalled first.1 then
          let (l, s1) := s.shuffle free.length free
          let again := s1.vamoxRun step (below.filter (fun e => s.vamoxInBank t (h.base n) i e) ++ l)
          (first.1, again.2)
        else first
      let applied := match stop with | some (e, _) => act.any fun x => decide (x < e) | none => true
      let s2 := if applied && ! stalled stop then s1.onHart (·.addPending cls) else s1
      match stop with
      | none => s2
      | some (e, .fault c va) => (if c = .memoryError then s2.spilled va else s2).trap false e c va
      | some (e, .wait k va) => s2.holdAt e (some (k, va))
      | some (e, .stall) => s2.holdAt e none

def execVamoxAdd (r : Reg) (n : Fin 8) (i : Reg) (cls : Fin 16) (m : Reg) (s : State) : Result := s.vamox .add r n i cls m
def execVamoxAddu (r : Reg) (n : Fin 8) (i : Reg) (cls : Fin 16) (m : Reg) (s : State) : Result := s.vamox .addu r n i cls m
def execVamoxMin (r : Reg) (n : Fin 8) (i : Reg) (cls : Fin 16) (m : Reg) (s : State) : Result := s.vamox .min r n i cls m
def execVamoxMax (r : Reg) (n : Fin 8) (i : Reg) (cls : Fin 16) (m : Reg) (s : State) : Result := s.vamox .max r n i cls m
def execVamoxAnd (r : Reg) (n : Fin 8) (i : Reg) (cls : Fin 16) (m : Reg) (s : State) : Result := s.vamox .and r n i cls m
def execVamoxOr (r : Reg) (n : Fin 8) (i : Reg) (cls : Fin 16) (m : Reg) (s : State) : Result := s.vamox .or r n i cls m
def execVamoxXor (r : Reg) (n : Fin 8) (i : Reg) (cls : Fin 16) (m : Reg) (s : State) : Result := s.vamox .xor r n i cls m
def execVamoxSwap (r : Reg) (n : Fin 8) (i : Reg) (cls : Fin 16) (m : Reg) (s : State) : Result := s.vamox .swap r n i cls m

/-! ### FIFO forms (R272) -/

/-- Bytes of a list of elements of width `w`, little-endian. -/
def entryBytes (w : Nat) (l : List Nat) : List Byte := l.flatMap (leBytes (w / 8))

/-- Entry size and depth of a FIFO bank (R70). -/
def fifoShape : BankMode → Option (Nat × Nat)
  | .fifo w d => some (2 ^ w.toNat, d.toNat + 1)
  | _ => none

/-- What a push or pop finds behind its address register: the bank's number, the bank, entry size and depth; one that the bank's switch
holds keeps its place (R72, R74, R272). -/
def State.fifoBank (s : State) (kind : WaitKind) (va : Word) (bytes : Nat) : Acc (Nat × Bank × Nat × Nat) :=
  let a := va.toNat
  if a < clusterBase ∨ clusterBase + clusterSize ≤ a then .fault .bank
  else
    let b := (a - clusterBase) / 0x40000
    match s.bank? s.hart.ctx.gang b with
    | none => .fault .bank
    | some k =>
      if k.switching.isSome then .stall (s.takeTurn kind va)
      else
        match fifoShape k.mode with
        | none => .fault .bank
        | some (size, depth) =>
          if k.receive ∨ size < bytes then .fault .bank else .ok (b, k, size, depth) s

/-- Number of the bank an address of the cluster window lies in (R59). -/
def bankNumber (a : Word) : Nat := (a.toNat - clusterBase) / 0x40000

/-- Whether a member of the hart's gang reached a bank with a push, or a pop, before it and has not been served yet: it waits there, or
the bank's switch held it (R72, R74). -/
def State.fifoAhead (s : State) (h : Hart) (k : WaitKind) (va : Word) : Bool :=
  let first := fun (kind : WaitKind) (a : Word) (n : Nat) =>
    kind == k && bankNumber a == bankNumber va && decide (n < s.place h k va)
  s.allHarts.any fun o => o.engine == .strand && o.id != h.id && gangOf o.id == gangOf h.id &&
    ((o.wait.any fun w => w.expired.isNone && first w.kind w.addr w.since) || o.turn.any fun t => first t.kind t.addr t.since)

/-- VPUSH (R74, R272). -/
def execVpush (r : Reg) (n : Fin 8) (cls : Fin 16) (m : Reg) (s : State) : Result :=
  let t := s.hart.tag r
  s.vector (s.hart.judge true false (tagMvl t)) fun s =>
    let h := s.hart
    let va := h.base n
    let w := tagWidth t
    let some_ := h.wholeActive m ≠ []
    if some_ ∧ h.storesFull then s.stall 0
    else
      s.withAcc va (s.fifoBank .push va (h.vlen * w / 8)) fun x s =>
        let (b, k, size, depth) := x
        if depth ≤ k.entries.length ∨ s.fifoAhead s.hart .push va then s.waitFor .push 0 va
        else
          let data := entryBytes w ((List.range h.vlen).map fun e => if (h.getP m).getLsbD e then h.elem r e else 0)
          let entry := data ++ List.replicate (size - data.length) 0
          let s1 := (s.setBank s.hart.ctx.gang b { k with entries := k.entries ++ [entry] }).onHart fun h => { h with turn := none }
          if some_ then s1.onHart (·.addPending cls) else s1

/-- VPOP (R74, R272). -/
def execVpop (d : Reg) (n : Fin 8) (_cls : Fin 16) (m : Reg) (s : State) : Result :=
  let t := s.hart.tag d
  s.vector (s.hart.judge true false (tagMvl t)) fun s =>
    let h := s.hart
    let va := h.base n
    let w := tagWidth t
    s.withAcc va (s.fifoBank .pop va (h.vlen * w / 8)) fun x s =>
      let (b, k, _, _) := x
      match k.entries with
      | [] => s.waitFor .pop 0 va
      | entry :: rest =>
        if s.fifoAhead s.hart .pop va then s.waitFor .pop 0 va
        else if k.bad.contains 0 then s.trap false 0 .bankError va
        else
          let s1 := s.setBank s.hart.ctx.gang b { k with entries := rest, bad := k.bad.map (· - 1) }
          s1.onHart fun h => { h with turn := none }.whole d t
            ((h.wholeActive m).map fun e => (e, leNat ((entry.drop (e * (w / 8))).take (w / 8))))

end Sys2Proof.Machine
end

