-- ==== Sys2Proof/Machine/Banks.lean ====
section
/-! DEFINITION. Switching the mode of a cluster-memory bank: BANKCFG and the two steps of a switch (R70-R73, R328). -/

namespace Sys2Proof.Machine

/-- Whether a FIFO of this shape fits a bank (R70). -/
def fifoFits (w d : Nat) : Bool := decide (2 ≤ w ∧ w ≤ 10 ∧ (d + 1) * 2 ^ w ≤ 262144)

/-- The mode a configuration word names, where it names one (R70, R71). -/
def bankModeOf (v : Nat) : Option BankMode :=
  if bits v 0 2 = 0 then some .cache
  else if bits v 0 2 = 1 then some .scratch
  else if bits v 0 2 = 2 ∧ fifoFits (bits v 20 4) (bits v 24 16) then
    some (.fifo (BitVec.ofNat 4 (bits v 20 4)) (BitVec.ofNat 16 (bits v 24 16)))
  else none

/-- A mode as a configuration word (R70). -/
def BankMode.word : BankMode → Nat
  | .cache => 0
  | .scratch => 1
  | .fifo w d => 2 + w.toNat * 2 ^ 20 + d.toNat * 2 ^ 24

/-- The configuration a bank will hold once its queued switches have ended (R71). -/
def Bank.future (k : Bank) : BankMode :=
  match k.queued.getLast?, k.switching with
  | some m, _ => m
  | none, some m => m
  | none, none => k.mode

/-- config_word of R71, with BUSY in bit 62. -/
def Bank.configWord (k : Bank) : Word :=
  let busy := k.switching.isSome || ! k.queued.isEmpty
  BitVec.ofNat 64 (k.future.word + busy.toNat * 2 ^ 62)

/-- A bank at residence: zero-filled scratchpad, empty FIFO (R68). -/
def Bank.fresh (m : BankMode) : Bank where
  mode := m
  switching := none
  queued := []
  bytes := []
  entries := []
  receive := false
  bad := []

/-- Address in the cluster window of a logical bank (R57, R440). -/
def bankAddr (b : Nat) : Word := BitVec.ofNat 64 (clusterBase + b * 0x40000)

/-- BANKCFG (R71, R216). -/
def execBankcfg (d a b : Reg) (s : State) : Result :=
  s.strandOnly fun s =>
    let g := some (gangOf s.hart.id)
    let n := (s.hart.getX a).toNat % 64
    let v := (s.hart.getX b).toNat
    match s.bank? g n with
    | none => s.trap false 0 .bank (bankAddr n)
    | some k =>
      let old := fun (s : State) => s.onHart fun h => h.setX d k.configWord
      if bit v 63 then old s
      else
        match bankModeOf v with
        | none => s.trap false 0 .bank (bankAddr n)
        | some m =>
          if m = k.future then old s else old (s.setBank g n { k with queued := k.queued ++ [m] })

/-- The receiver whose receive bank is bank `b` of gang `g`, if any, loses its part of the session (R328). -/
def State.cutReceiver (s : State) (g : GangId) (b : Nat) : State :=
  { s with sessions := s.sessions.map fun x : Session =>
      let cut := fun r : SxReceiver =>
        let i := x.serving r.index
        if x.live ∧ gangOf i = g ∧ rxBankOf x.desc i = b then { r with buffer := [], cut := true } else r
      { x with receivers := x.receivers.map cut } }

/-- A push or pop that waits at a bank arrives again, during the switch: a memory stall, no wait of R30, which keeps its place (R72,
R74). One that a notification interrupted does so when it goes on. -/
def Hart.arriveAgain (h : Hart) (g : GangId) (b : Nat) : Hart :=
  match h.wait.filter fun w => gangOf h.id == g && (w.kind == .push || w.kind == .pop) && bankNumber w.addr == b with
  | some w => { h with wait := none, turn := some { kind := w.kind, addr := w.addr, since := w.since } }
  | none => h

/-- BANK_SWITCH_BEGIN (R72): the oldest queued switch of the bank begins; accepted accesses are complete (log 5). -/
def execBankSwitchBegin (g : GangId) (b : Fin 44) (s : State) : Result :=
  .next (match s.bank? (some g) b.val with
    | some k =>
      match k.switching, k.queued with
      | none, m :: rest =>
        let s1 := if k.receive then s.cutReceiver g b.val else s
        let s2 := if k.mode = .cache then s1.writeBackBad g (·.1 == b.val) else s1
        let again := fun h : Hart => h.arriveAgain g b.val
        { s2.setBank (some g) b.val { k with switching := some m, queued := rest, receive := false } with
          hart := again s2.hart, harts := s2.harts.map again }
      | _, _ => s
    | none => s)

/-- BANK_SWITCH_END (R72, R73): the bank takes its new configuration, zero-filled or empty. -/
def execBankSwitchEnd (g : GangId) (b : Fin 44) (s : State) : Result :=
  .next (match s.bank? (some g) b.val with
    | some k =>
      match k.switching with
      | some m => s.setBank (some g) b.val { Bank.fresh m with queued := k.queued }
      | none => s
    | none => s)

end Sys2Proof.Machine
end

