-- ==== Sys2Proof/Machine/GangOps.lean ====
section
/-! DEFINITION. Gang instructions: major 0x15 (R46, R48, R50, R52, R53, R194-R199, R430). -/

namespace Sys2Proof.Machine

/-- Live strands of a gang. -/
def State.members (s : State) (g : GangId) : List Hart :=
  s.allHarts.filter fun h => h.engine == .strand && gangOf h.id == g && h.phase != .absent && h.phase != .exited

/-- The pilot: the lowest-numbered attached member (R43). -/
def State.pilot? (s : State) (g : GangId) : Option Hart :=
  (s.members g).foldl (fun best h =>
    if ¬ h.st.att then best
    else match best with
      | none => some h
      | some b => if h.id.vcid.val < b.id.vcid.val then some h else best) none

/-- Stream number of the slowest attached member (R42). -/
def State.slowest (s : State) (g : GangId) : Option Nat :=
  (s.members g).foldl (fun best h =>
    if ¬ h.st.att then best
    else match best with
      | none => some h.streamNo
      | some n => some (min n h.streamNo)) none

/-- Applies a change to every strand of a gang. -/
def State.onMembers (s : State) (g : GangId) (f : Hart → Hart) : State :=
  let k := fun h : Hart => if h.engine = .strand ∧ gangOf h.id = g ∧ h.phase ≠ .absent then f h else h
  { s with hart := k s.hart, harts := s.harts.map k }

def State.onGang (s : State) (g : GangId) (f : Gang → Gang) : State :=
  { s with gangs := s.gangs.map fun x => if x.id == g then f x else x }

/-- The next address the stream takes after convoy `n`, once the pilot has resolved it (R44). -/
def State.resolved? (s : State) (g : GangId) (n : Nat) : Option Word :=
  (s.gang? g).bind fun x => (x.ring.find? (·.1 == n)).map (·.2)

/-- Whether the stream's next address after convoy `n` is known: a pilot recorded it, or the present pilot has gone past it, in sequence as
a core does that is not the pilot (R44, R45). -/
def State.streamKnown (s : State) (g : GangId) (n : Nat) : Bool :=
  (s.resolved? g n).isSome || (s.pilot? g).any fun p => decide (n < p.streamNo)

/-- The pilot resolves convoy `n`; entries no attached core still needs are dropped. -/
def State.resolve! (s : State) (g : GangId) (n : Nat) (a : Word) : State :=
  let low := (s.slowest g).getD n
  s.onGang g fun x => { x with ring := (n, a) :: x.ring.filter fun e => decide (low ≤ e.1 ∧ e.1 ≠ n) }

/-- Whether a hart waits in a JOIN, and at which address. -/
def Hart.joinWait (h : Hart) : Option Word :=
  match h.wait with
  | some w => if w.kind = .join ∧ ¬ w.met ∧ ¬ h.st.att then some w.addr else none
  | none => none

/-- The stream reaches a JOIN at the pilot in issue (R50): members waiting elsewhere pass on; those waiting here rejoin,
for JOIN.W only once every detached member waits here. -/
def State.streamJoin (s : State) (whole : Bool) : State :=
  let h := s.hart
  let g := gangOf h.id
  let a := h.pc
  let release := fun m : Hart =>
    match m.joinWait, m.wait with
    | some b, some w => if b = a then m else { m with wait := some { w with met := true } }
    | _, _ => m
  let rejoin := fun m : Hart =>
    match m.joinWait, m.wait with
    | some b, some w =>
      if b = a then { m with wait := some { w with met := true }, st := { m.st with att := true }, streamNo := h.streamNo } else m
    | _, _ => m
  let s1 := s.onMembers g release
  let ready := (s1.members g).all fun m => m.st.att || m.joinWait == some a
  if whole ∧ ¬ ready then
    (s1.onGang g fun x => { x with joinAt := some a }).waitFor .join 0 a
  else
    (s1.onMembers g rejoin).onGang g fun x => { x with joinAt := none }

/-- JOIN.W (`whole`) and JOIN.N (R50, R430). A core's own JOIN is the stream's when it is the pilot, unless an
earlier pilot took the stream past it (DEDUCED, log 9). -/
def State.join (s : State) (whole : Bool) : State :=
  let h := s.hart
  let g := gangOf h.id
  let a := h.pc
  let joinAt := (s.gang? g).bind (·.joinAt)
  let met : Bool := match h.wait with | some w => w.kind == .join && w.met | none => false
  if h.st.priv ∨ h.st.uih ∨ met then s.onHart (·.setFlow .seq)
  else if h.st.att then
    if s.streamKnown g h.streamNo then s.onHart (·.setFlow .seq)
    else if (s.pilot? g).map (·.id) = some h.id then s.streamJoin whole
    else if whole ∧ joinAt = some a then s.waitFor .join 0 a
    else s.stall 0
  else if (s.pilot? g).isNone then
    ((s.onHart fun h => { h with st := { h.st with att := true }, streamNo := 0 }).onGang g
      fun x => { x with ring := [], joinAt := none }).streamJoin whole
  else
    match joinAt with
    | some b => if b = a then s.waitFor .join 0 a else s.onHart (·.setFlow .seq)
    | none => s.waitFor .join 0 a

def execJoinW (s : State) : Result := s.strandOnly fun s => s.join true
def execJoinN (s : State) : Result := s.strandOnly fun s => s.join false

/-- DETACH (R195). -/
def execDetach (s : State) : Result :=
  s.strandOnly fun s => s.onHart fun h => { h with st := { h.st with att := false } }

/-- A gang ends when all its strands have exited: its slot and banks are released (R48, R68). -/
def State.settleGang (s : State) (g : GangId) : State :=
  if (s.members g).isEmpty then
    s.onGang g fun x => if x.started then { x with ended := true, slot := none, banks := [], joinAt := none, ring := [] } else x
  else s

/-- The strand in issue ends: arrivals, sessions, the attached set, the gang (R48, R96, R196, R334). -/
def State.endStrand (s : State) : State :=
  let h := s.hart
  let s1 := s.onHart fun h =>
    { h with phase := .exited, wait := none, st := { h.st with att := false } }.setFlow .ended
  ((s1.settleAll h.id).leaveSessions h.part h.id).settleGang (gangOf h.id)

/-- EXIT on a strand waits for its loads and stores counters (R196). -/
def State.exitStrand (s : State) : State :=
  if s.hart.cnt.loads = 0 ∧ s.hart.cnt.stores = 0 then s.endStrand else s.stall 0

/-- EXIT on a control core waits for its matrix instructions and stores, then ends the forked program (R52, R196). -/
def State.exitForked (s : State) (c : Fin 64) : State :=
  if s.clusters[c].queue.isEmpty ∧ s.hart.pending.isEmpty then
    (s.onHart fun h => { h with phase := .exited, wait := none }.setFlow .ended).onStrand s.hart.id fun o =>
      { o with cnt := { o.cnt with tiles := o.cnt.tiles - 1 } }
  else s.stall 0

/-- EXIT (R196). -/
def execExit (s : State) : Result :=
  .next (match s.hart.engine with
    | .strand => s.exitStrand
    | .control c => s.exitForked c)

/-- YIELD zeroes the slot's deficit and has no architectural effect (R197). -/
def execYield (s : State) : Result := s.strandOnly fun s => s.onHart fun h => { h with deficit := 0 }

/-- The cluster a gang is resident in. -/
def State.clusterOf (s : State) (g : GangId) : Option (Fin 64) := ((s.gang? g).bind (·.slot)).map (·.1)

/-- FORK queues a program, counts it, and binds the gang to its cluster (R52, R198, R289). -/
def execFork (a b : Reg) (s : State) : Result :=
  s.strandOnly fun s =>
    let h := s.hart
    let t := h.getX a
    if ¬ aligned t 4 then s.trap false 0 .misaligned t
    else
      match s.clusterOf (gangOf h.id) with
      | none => s.waitFor .fork 0 0
      | some c =>
        if 4 ≤ s.clusters[c].forks.length then s.waitFor .fork 0 0
        else if h.cnt.tiles = 0xFFFF then s.stall 0
        else
          let f : Fork :=
            { entry := t, arg := h.getX b, owner := h.id, asid := h.csr.asid, troot := h.csr.troot, super := h.st.priv }
          let s1 := { s with clusters := s.clusters.set c { s.clusters[c] with forks := s.clusters[c].forks ++ [f] } }
          let s2 := s1.onGang (gangOf h.id) fun x => { x with bound := some c }
          s2.onHart fun h => { h with cnt := { h.cnt with tiles := h.cnt.tiles + 1 } }

/-- Whether a wait is one in a RENDEZVOUS at an id that has not been met. -/
def Wait.meetsAt (w : Wait) (id : Fin 16) : Bool := w.kind == .rendezvous && ! w.met && w.addr == BitVec.ofNat 64 id.val

/-- Whether a hart waits in a RENDEZVOUS at an id; a notification handler it runs meanwhile does not end the wait (R316). -/
def Hart.meetsAt (h : Hart) (id : Fin 16) : Bool :=
  h.wait.any (·.meetsAt id) || h.paused.any fun p => p.2.meetsAt id

/-- The waits of a hart that a RENDEZVOUS at an id meets. -/
def Hart.meet (h : Hart) (id : Fin 16) : Hart :=
  let mark := fun w : Wait => if w.meetsAt id then { w with met := true } else w
  { h with wait := h.wait.map mark, paused := h.paused.map fun p => (p.1, mark p.2) }

/-- Whether `o` is the party a RENDEZVOUS of `h` meets: the running program of a strand, or the strand of a program (R53, R199). -/
def isPartner (h o : Hart) : Bool :=
  h.id == o.id && o.phase == .running && (h.isControl != o.isControl)

/-- Whether a control core has matrix instructions that a RENDEZVOUS waits for: all but MMA and MZERO (R298). -/
def State.rendezvousHeld (s : State) : Bool :=
  match s.hart.engine with
  | .strand => false
  | .control c => s.clusters[c].queue.any fun o => match o with | .mma _ | .zero => false | _ => true

/-- RENDEZVOUS (R53, R199, R298). -/
def execRendezvous (id : Fin 16) (s : State) : Result :=
  let h := s.hart
  let met : Bool := match h.wait with | some w => w.kind == .rendezvous && w.met | none => false
  let meet := fun o : Hart => isPartner h o && o.meetsAt id
  .next (if met then s.onHart (·.setFlow .seq)
    else if s.rendezvousHeld then s.stall 0
    else if s.harts.any meet then
      { s with
        hart := h.setFlow .seq
        harts := s.harts.map fun o => if meet o then o.meet id else o }
    else s.waitFor .rendezvous 0 (BitVec.ofNat 64 id.val))

end Sys2Proof.Machine
end

