-- ==== Sys2Proof/Machine/Version.lean ====
section
/-! DEFINITION. Versioned regions: majors 0x18 and 0x19, VLDV and VSTV (R108-R120, R273-R281). -/

namespace Sys2Proof.Machine

/-! ### Regions (R110-R119) -/

/-- The version number that names a snapshot, and an empty slot. -/
def noVersion : Nat := 0xFFFFFFFF

/-- The horizon: the least active cursor (R117). -/
def Region.horizon (r : Region) : Nat :=
  r.cursors.foldl (fun h c => match c with | some v => min h v.toNat | none => h) noVersion

/-- The horizon in effect at a granule (R119). -/
def Region.horizonAt (r : Region) (q : Nat) : Nat :=
  match r.ahead.find? (fun x => x.1 == q) with
  | some x => x.2.toNat
  | none => r.seen.toNat

/-- Number of granules. -/
def Region.count (r : Region) : Nat := r.pages.length * 512

/-- keep(g): the greatest created version at or below the horizon (R118). -/
def Granule.keep (g : Granule) (h : Nat) : Nat := ((g.created h).map (·.1.toNat)).getD 0

/-- Slots a store may take: empty, or holding a version below keep (R118). -/
def Granule.freeSlots (g : Granule) (h : Nat) : List Nat :=
  (List.range g.slots.length).filter fun i =>
    match g.slots[i]? with
    | some (some (v, _)) => decide (v.toNat < g.keep h)
    | some none => true
    | none => false

/-- Which of several free slots is taken is open (R118; log 4). -/
def State.pick (s : State) (l : List Nat) : Nat × State :=
  match l with
  | [] => (0, s)
  | [i] => (i, s)
  | l =>
    let (k, s1) := s.draw
    (l.getD (k % l.length) 0, s1)

/-- The indivisible step of R112. -/
def Granule.create (g : Granule) (slot : Nat) (n : BitVec 32) (d : BitVec 1024) : Granule :=
  { g with latest := n, slots := g.slots.set slot (some (n, d)) }

/-- A versioned store into a region's granule (R112): the trap, the wait, or the step. -/
def State.createVersion (s : State) (i : Nat) (r : Region) (q : Nat) (n : BitVec 32) (d : BitVec 1024) : Acc Unit :=
  let g := r.granule q
  if n.toNat = noVersion then .fault .versionExhausted
  else if n = g.latest then .fault .versionCollision
  else if n < g.latest then .fault .versionOrder
  else
    match g.freeSlots (r.horizonAt q) with
    | [] => .wait .versionStore
    | l =>
      let (slot, s1) := s.pick l
      let line := r.dataLine q slot
      .ok () ((s1.setRegion i (r.setGranule (g.create slot n d))).mend (· == line))

/-- A versioned load of a granule (R114). -/
def Region.readVersion (r : Region) (q v : Nat) : Except (Option Cause) (BitVec 1024) :=
  let g := r.granule q
  if v = noVersion then .ok g.newest
  else if v < r.horizon then .error (some .versionMissing)
  else if g.latest.toNat < v then .error none
  else .ok (((g.created v).map (·.2)).getD 0)

/-- VPUB's step in one granule (R113). -/
def Region.publish (r : Region) (q : Nat) (n : BitVec 32) : Region :=
  let g := r.granule q
  if g.latest < n then r.setGranule { g with latest := n } else r

/-- VRETIRE on a cursor; the new horizon takes effect at the directory, granule 0, at once (R117, R119, R278). -/
def Region.retire (r : Region) (slot : Nat) (n : BitVec 32) : Region :=
  let c := match r.cursors[slot]? with
    | some (some old) => if n.toNat = noVersion then none else some (if old < n then n else old)
    | _ => none
  let r1 := { r with cursors := r.cursors.set slot c }
  { r1 with ahead := (0, BitVec.ofNat 32 r1.horizon) :: r1.ahead.filter fun x => x.1 != 0 }

/-- The newest horizon takes effect at a granule; a number past the last granule stands for all of them (R119; log 14). -/
def Region.propagate (r : Region) (q : Nat) : Region :=
  let h := BitVec.ofNat 32 r.horizon
  if q < r.count then { r with ahead := (q, h) :: r.ahead.filter fun x => x.1 != q } else { r with ahead := [], seen := h }

/-- A word of a granule's record, or the region's state (R110, R276). -/
def Region.query (r : Region) (q : Nat) (w : Fin 5) : Word :=
  let g := r.granule q
  let slot := fun i => match g.slots[i]? with | some (some (v, _)) => v.toNat | _ => noVersion
  if w.val = 0 then BitVec.ofNat 64 (g.latest.toNat + slot 0 * 2 ^ 32)
  else if w.val < 4 then BitVec.ofNat 64 (slot (2 * w.val - 1) + slot (2 * w.val) * 2 ^ 32)
  else BitVec.ofNat 64 (r.horizon + r.depth * 2 ^ 32 + (r.cursors.length - 1) * 2 ^ 36 + r.scope.val * 2 ^ 40)

/-- What a versioned access finds at an address. -/
inductive Versioned
  | here (i : Nat) (r : Region) (q : Nat) (pa : Nat)
  | remote (rank off : Nat)

/-- The granule behind an address: outside every region it takes cause 0x1D (R273-R278). -/
def State.versionedAt (s : State) (k : AccessKind) (va : Word) : Acc Versioned :=
  match s.resolve s.hart.ctx k va with
  | .fault c => .fault c
  | .transit => .wait .page
  | .ok (.remote rank off) => .ok (.remote rank off) s
  | .ok (.bank _ _) => .fault .notVersioned
  | .ok (.device pa) =>
    match s.regionAt s.hart.part pa with
    | some (i, r, q) => .ok (.here i r q pa) s
    | none => .fault .notVersioned

/-- `n` bytes of version `v` at an address (R114, R273, R274). -/
def State.versionedBytes (s : State) (va : Word) (v n : Nat) (cls : Fin 16) (key : Nat) : Acc (List Byte) :=
  match s.versionedAt .load va with
  | .ok (.remote rank off) s1 => s1.remoteAccess va rank off cls (.versionedLoad (BitVec.ofNat 32 v) n) key
  | .ok (.here _ r q pa) s1 =>
    match r.readVersion q v with
    | .ok d => if s1.versionLost r q v then .fault .memoryError else .ok (((leBytes 128 d.toNat).drop (pa % 128)).take n) s1
    | .error (some c) => .fault c
    | .error none => .wait .versionLoad
  | .fault c => .fault c
  | .wait w => .wait w
  | .stall s1 => .stall s1

/-! ### LDV, VRQRY, VLDV -/

/-- Whether access `elem` of the instruction in issue has been sent to another rank and is not answered. -/
def State.asked (s : State) (elem : Nat) : Bool :=
  s.fabric.requests.any fun r => r.by_ == .hart s.hart.engine s.hart.id s.hart.iss.pos elem

/-- Ends a versioned scalar load: one that the declaring rank holds waits as a local one does (R30, R109, R114); a snapshot never
waits. -/
def State.withVersioned {α : Type} (s : State) (va : Word) (v : Nat) (a : Acc α) (k : α → State → State) : State :=
  match a with
  | .stall s' =>
    if v ≠ noVersion ∧ s'.asked 0 then
      match s.waitEnds .versionLoad with
      | some c => s.trap false 0 c va
      | none => s'.waitFor .versionLoad 0 va
    else s'.stall 0
  | a => s.withAcc va a k

/-- LDV (R273). -/
def execLdv (d a b : Reg) (cls : Fin 16) (s : State) : Result :=
  s.strandOnly fun s =>
    let va := s.hart.getX a
    let v := s.hart.version b
    if s.hart.st.det ∧ v = noVersion then s.trapWord .deterministic
    else if ¬ aligned va 8 then s.trap false 0 .misaligned va
    else s.withVersioned va v (s.versionedBytes va v 8 cls 0) fun l s' => s'.onHart fun h => h.setX d (wordOfBytes l)

/-- VRQRY (R276). -/
def execVrqry (d a : Reg) (w : Fin 5) (s : State) : Result :=
  s.strandOnly fun s =>
    let va := s.hart.getX a
    s.withAcc va (s.versionedAt .load va) fun t s' =>
      match t with
      | .here _ r q _ => s'.onHart fun h => h.setX d (r.query q w)
      | .remote rank off =>
        s'.withAcc va (s'.remoteAccess va rank off 15 (.versionQuery w) 0) fun l s2 => s2.onHart fun h => h.setX d (wordOfBytes l)

/-- Active elements of an access grouped by granule, each group from its first element on. -/
def granuleGroups (addr : Nat → Word) : List Nat → List (List Nat)
  | [] => []
  | e :: l =>
    match granuleGroups addr l with
    | (f :: g) :: rest => if (addr e).toNat / 128 = (addr f).toNat / 128 then (e :: f :: g) :: rest else [e] :: (f :: g) :: rest
    | rest => [e] :: rest

/-- One group of a VLDV: every element from one indivisible read of its granule (R274). -/
def State.vldvGroup (s : State) (n v : Nat) (cls : Fin 16) (addr : Nat → Word) (g : List Nat) : Got (List (Nat × Nat)) :=
  let e0 := g.headD 0
  let va := addr e0
  let base := va - BitVec.ofNat 64 (va.toNat % 128)
  (gotAt va (s.versionedBytes base v 128 cls e0)).bind fun l s' =>
    .ok (g.map fun e => (e, leNat ((l.drop ((addr e).toNat % 128)).take n))) s'

/-- A stop of a versioned access that the declaring rank holds is a wait, as of a local one (R30, R40, R109). -/
def State.heldThere (s : State) (k : WaitKind) (key : Nat) (va : Word) : Stop → Stop
  | .stall => if s.asked key then s.stopFor k va else .stall
  | x => x

/-- VLDV (R274). -/
def execVldv (d : Reg) (n : Fin 8) (x : Reg) (cls : Fin 16) (m : Reg) (s : State) : Result :=
  let t := s.hart.tag d
  let w := tagWidth t
  s.vector (s.hart.judge true (s.hart.version x == noVersion) (tagMvl t)) fun s =>
    let h := s.hart
    let base := h.base n
    let act := h.active m
    let addr := fun e => base + BitVec.ofNat 64 (e * (w / 8))
    if act ≠ [] ∧ ¬ aligned base (w / 8) then s.trap false (act.headD 0) .misaligned (addr (act.headD 0))
    else
      let groups := granuleGroups addr act
      let r0 := sweep (fun e s => s.vldvGroup (w / 8) (h.version x) cls addr ((groups.find? (·.head? == some e)).getD []))
        (groups.map (·.headD 0)) s
      let r := if h.version x = noVersion then r0
        else { r0 with stop := r0.stop.map fun y => (y.1, r0.state.heldThere .versionLoad y.1 (addr y.1) y.2) }
      let below := match r.stop with | some (e, k) => stopElem e k | none => 512
      let puts := (r.done.flatMap (fun x => x.2)).filter fun p : Nat × Nat => decide (p.1 < below)
      ((r.carry s).onHart fun h =>
        if r.nothing h then h else h.setV d t (putElems h.v[d] w puts)).stopAt r.stop

/-! ### VSTV -/

/-- The class wait of R112: earlier accesses of the class that are not performed yet; stores are, once issued (log 5, log 70). -/
def Hart.classPending (h : Hart) (cls : Fin 16) : Bool :=
  h.vldbs.any fun v => v.cls == cls

/-- One granule of a VSTV (R112, R275). That the granule lies in no region is judged before the version number: where both apply
the cause is 0x1D (log 95). -/
def State.vstvGranule (s : State) (va : Word) (n : Nat) (cls : Fin 16) (d : List Byte) (key : Nat) : Got Unit :=
  gotAt va (match s.versionedAt .store va with
    | .ok (.remote rank off) s1 =>
      match s1.remoteAccess va rank off cls (.versionedStore (BitVec.ofNat 32 n) d) key with
      | .ok _ s2 => .ok () s2
      | .fault c => .fault c
      | .wait w => .wait w
      | .stall s2 => .stall s2
    | .ok (.here i r q _) s1 => s1.createVersion i r q (BitVec.ofNat 32 n) (granuleOfBytes d)
    | .fault c => .fault c
    | .wait w => .wait w
    | .stall s1 => .stall s1)

/-- Granules of a VSTV from one on: how many were created, the stop, the state. -/
def State.vstvRun (s : State) (step : Nat → State → Got Unit) : List Nat → Nat × Option (Nat × Stop) × State
  | [] => (0, none, s)
  | q :: l =>
    match step q s with
    | .ok () s1 =>
      let r := s1.vstvRun step l
      (r.1 + 1, r.2)
    | .fault c va => (0, some (q, .fault c va), s)
    | .wait k va => (0, some (q, s.stopFor k va), s)
    | .stall s1 => (0, some (q, .stall), s1)

/-- VSTV (R275). A footprint that is no multiple of 128 gives the base as STVAL of its cause 0x06 (log 95). -/
def execVstv (r : Reg) (n : Fin 8) (x : Reg) (cls : Fin 16) (s : State) : Result :=
  let t := s.hart.tag r
  let w := tagWidth t
  s.vector (s.hart.judge true false (tagMvl t)) fun s =>
    let h := s.hart
    let base := h.base n
    let bytes := h.vlen * w / 8
    let per := 1024 / w
    if ¬ aligned base 128 ∨ ¬ bytes % 128 = 0 then s.trap false 0 .misaligned base
    else if h.firstElem < h.vlen ∧ (h.storesFull ∨ h.classPending cls) then s.holdAt h.firstElem none
    else
      let todo := (List.range (bytes / 128)).filter fun q => decide (h.firstElem ≤ q * per)
      let data := fun q => leBytes 128 (h.v[r].extractLsb' (1024 * q) 1024).toNat
      let (made, stop0, s1) := s.vstvRun (fun q s =>
        s.vstvGranule (base + BitVec.ofNat 64 (128 * q)) (h.version x) cls (data q) (q * per)) todo
      let stop := stop0.map fun y => (y.1, s1.heldThere .versionStore (y.1 * per) (base + BitVec.ofNat 64 (128 * y.1)) y.2)
      let s2 := if made = 0 ∨ stalled stop then s1 else s1.onHart (·.addPending cls)
      match stop with
      | none => s2
      | some (q, .fault c va) => s2.trap false (q * per) c va
      | some (q, .wait k va) => s2.holdAt (q * per) (some (k, va))
      | some (q, .stall) => s2.holdAt (q * per) none

/-! ### Reads of several words -/

/-- Reads `n` 8-byte entries from an address on as loads of the strand; a fault names its address (R107, R280). The accesses are
the instruction's from number `key + 1` on, which tells their answers from those of its other reads (R378). -/
def State.readEntries (s : State) (key : Nat) : Nat → Word → Got (List Nat)
  | 0, _ => .ok [] s
  | n + 1, va => (gotAt va (s.loadBytes va 8 0 (key + n + 1))).bind fun l s1 =>
    (s1.readEntries key n (va + 8)).bind fun ls s2 => .ok (leNat l :: ls) s2

/-- Ends a read of several words: its value goes to `k`. -/
def State.withGot {α : Type} (s : State) (x : Got α) (k : α → State → State) : State :=
  match x with
  | .ok a s' => k a s'
  | .fault c va => s.trap (c = .deterministic) 0 c (if c = .deterministic then s.hart.iss.ir.zeroExtend 64 else va)
  | .wait w va => s.waitFor w 0 va
  | .stall s' => { s with fabric := s'.fabric }.stall 0

/-- Reads `n` bytes as loads of 8 bytes of the strand. R107, R279, R301 and R331 read a card or a descriptor as loads of the strand and
name no class: class 0 is the model's choice (log 97). -/
def State.readBlock (s : State) (va : Word) (n : Nat) : Got Nat :=
  (s.readEntries 0 (n / 8) va).bind fun l s' => .ok ((positions l).foldl (fun acc x => acc + x.2 * 2 ^ (64 * x.1)) 0) s'

/-! ### VPUB, VRETIRE -/

/-- Judges the granules of a range: the region they all lie in, by index, or what is wrong at which address (R277). -/
def State.rangeRegion (s : State) (i : Option Nat) : Nat → Word → Except (Stop × Word) (List Nat)
  | 0, _ => .ok []
  | k + 1, va =>
    match s.versionedAt .store va with
    | .ok (.here j _ q _) _ =>
      if i = none ∨ i = some j then (s.rangeRegion (some j) k (va + 128)).map (q :: ·)
      else .error (.fault .notVersioned va, va)
    | .ok (.remote _ _) _ => .error (.fault .notVersioned va, va)
    | .fault c => .error (.fault c va, va)
    | .wait w => .error (.wait w va, va)
    | .stall _ => .error (.stall, va)

/-- The messages of a VPUB over a remote range, by number: each is judged there against the whole range (R109, R277, R372). -/
def State.publishPieces (s : State) (va : Word) (rank off bytes : Nat) (cls : Fin 16) (n : BitVec 32) : List ((Nat × Nat) × Nat) → Got Unit
  | [] => .ok () s
  | ((o, k), i) :: l => (gotAt va (s.remoteAccess va rank o cls (.publish n k off bytes) i)).bind fun _ s1 =>
    s1.publishPieces va rank off bytes cls n l

/-- VPUB (R277). A range that lies in no one region is judged before the version number, here and at another rank: where both apply
the cause is 0x1D; a length that is no multiple of 128 gives the base as STVAL of its cause 0x06 (log 95). -/
def execVpub (v a b : Reg) (cls : Fin 16) (s : State) : Result :=
  s.strandOnly fun s =>
    let h := s.hart
    let base := h.getX a
    let bytes := (h.getX b).toNat
    let n := h.version v
    if ¬ aligned base 128 then s.trap false 0 .misaligned base
    else if ¬ bytes % 128 = 0 then s.trap false 0 .misaligned base
    else if bytes = 0 then s
    else if h.storesFull ∨ h.classPending cls then s.stall 0
    else
      match s.versionedAt .store base with
      | .ok (.remote rank off) s1 =>
        s.withGot (s1.publishPieces base rank off bytes cls (BitVec.ofNat 32 n) (windowPieces off bytes).zipIdx) fun _ s2 =>
          s2.onHart (·.addPending cls)
      | _ =>
        match s.rangeRegion none (bytes / 128) base with
        | .error (.fault c _, va) => s.trap false 0 c va
        | .error (.wait w _, va) => s.waitFor w 0 va
        | .error (.stall, _) => s.stall 0
        | .ok qs =>
          if n = noVersion then s.trap false 0 .versionExhausted base
          else
            match s.versionedAt .store base with
            | .ok (.here i r _ _) s1 =>
              (s1.setRegion i (qs.foldl (fun r q => r.publish q (BitVec.ofNat 32 n)) r)).onHart (·.addPending cls)
            | _ => s

/-- VRETIRE (R278). -/
def execVretire (a b : Reg) (slot : Fin 16) (s : State) : Result :=
  s.strandOnly fun s =>
    let va := s.hart.getX a
    let n := BitVec.ofNat 32 (s.hart.version b)
    s.withAcc va (s.versionedAt .load va) fun t s' =>
      match t with
      | .here i r _ _ =>
        if r.cursors.length ≤ slot.val then s'.trap false 0 .notVersioned (BitVec.ofNat 64 r.base)
        else s'.setRegion i (r.retire slot.val n)
      | .remote rank off =>
        s'.withAcc va (s'.remoteAccess va rank off 15 (.retire slot n) 0) fun _ s2 => s2

/-! ### VRDECL, VRFREE -/

/-- A declaration descriptor (R279). -/
structure RegionDescriptor where
  format : Nat
  depth : Nat
  cursors : Nat
  scope : Nat
  fill : Nat
  base : Nat
  size : Nat
  fillValue : Nat
  poolList : Nat
  poolCount : Nat
  reserved : Bool
  deriving DecidableEq, Repr

def RegionDescriptor.parse (v : Nat) : RegionDescriptor where
  format := bits v 0 16
  depth := bits v 16 8
  cursors := bits v 24 8
  scope := bits v 32 8
  fill := bits v 40 8
  base := bits v 64 64
  size := bits v 128 64
  fillValue := bits v 192 64
  poolList := bits v 256 64
  poolCount := bits v 320 64
  reserved := decide (bits v 48 16 ≠ 0 ∨ bits v 384 128 ≠ 0)

/-- Whether the parameters are in range (R108, status 2 of R280). -/
def RegionDescriptor.inRange (d : RegionDescriptor) : Bool :=
  decide (2 ≤ d.depth ∧ d.depth ≤ 7 ∧ 1 ≤ d.cursors ∧ d.cursors ≤ 16 ∧ 3 ≤ d.scope ∧ d.scope ≤ 5 ∧ d.fill ≤ 2 ∧
    d.size % 65536 = 0 ∧ 65536 ≤ d.size ∧ d.size ≤ 2 ^ 36) && ! d.reserved

/-- Device pages of `n` 64 KiB pages from an address on, where all are mapped for an access kind. -/
def State.pagesFrom (s : State) (k : AccessKind) : Nat → Nat → Option (List Nat)
  | 0, _ => some []
  | n + 1, va =>
    match s.translate s.hart.ctx k true va with
    | .ok pa => if isDeviceMemory pa then (s.pagesFrom k n (va + 65536)).map (pa :: ·) else none
    | _ => none

/-- Pages of live regions, mapped and pool. -/
def State.regionPages (s : State) : List Nat := s.regions.flatMap fun r => r.pages ++ r.pool

/-- Translates the pool pages of a list of entries (status 6 of R280). A page listed twice gives status 6, and one of the region's own
mapped pages is accepted: no status names either (log 94). -/
def State.poolPages (s : State) (d : RegionDescriptor) (entries : List Nat) : Option (List Nat) :=
  let pages := entries.map fun va =>
    if va % 65536 = 0 ∧ va < spanBase then
      match s.translate s.hart.ctx .store true va with
      | .ok pa => if isDeviceMemory pa then some pa else none
      | _ => none
    else none
  if pages.all (·.isSome) then
    let l := pages.filterMap id
    let taken := s.regionPages
    let oneDie := d.scope ≠ 3 ∨ l.all fun p => homeDie p == homeDie (l.headD 0)
    if l.Nodup ∧ (l.all fun p => ! taken.contains p) ∧ oneDie then some l else none
  else none

/-- Contents of a region's pages by offset in the region (fill 2). -/
def keptContents (m : Memory) (pages : List Nat) : Memory :=
  (positions pages).flatMap fun x =>
    (m.filter fun c => decide (x.2 ≤ c.1 ∧ c.1 < x.2 + 65536)).map fun c => (c.1 - x.2 + x.1 * 65536, c.2)

/-- How a declared region starts (R108). -/
def RegionDescriptor.start (d : RegionDescriptor) (m : Memory) (pages : List Nat) : RegionFill :=
  if d.fill = 0 then .zero else if d.fill = 1 then .value (BitVec.ofNat 64 d.fillValue) else .keep (keptContents m pages)

/-- Statuses 1 to 5 of R280, lowest first; a pool still to be judged gives its mapped pages. -/
def State.declareStatus (s : State) (d : RegionDescriptor) : Except Nat (List Nat) :=
  if d.format ≠ 1 then .error 1
  else if ¬ d.inRange then .error 2
  else if ¬ d.base % 65536 = 0 ∨ spanBase < d.base + d.size then .error 3
  else
    match s.pagesFrom .load (d.size / 65536) d.base with
    | none => .error 3
    | some pages =>
      if pages.any s.regionPages.contains then .error 4
      else if 64 ≤ s.regions.length then .error 5
      else if d.poolCount ≠ d.depth * (d.size / 65536) + (d.size + 262143) / 262144 ∨ ¬ d.poolList % 8 = 0 then .error 6
      else .ok pages

/-- VRDECL (R279, R280): slot 0 of every granule is written in full, so its lines read correctly. With fill 2, bytes of a mapped line
that holds an uncorrectable error are copied as they stand, and the copy is correct (log 94). -/
def execVrdecl (d a : Reg) (s : State) : Result :=
  s.supervisorOnly fun s =>
    let va := s.hart.getX a
    let answer := fun (s : State) (n : Nat) => s.onHart fun h => h.setX d (BitVec.ofNat 64 n)
    if ¬ aligned va 64 then s.trap false 0 .misaligned va
    else
      s.withGot (s.readBlock va 64) fun v s1 =>
        let k := RegionDescriptor.parse v
        match s1.declareStatus k with
        | .error n => answer s1 n
        | .ok pages =>
          s.withGot (s1.readEntries 8 k.poolCount (BitVec.ofNat 64 k.poolList)) fun entries s2 =>
            match s2.poolPages k entries with
            | none => answer s2 6
            | some pool =>
              let r : Region :=
                { part := s2.hart.part, base := k.base, pages := pages, pool := pool, depth := k.depth
                  cursors := List.replicate k.cursors (some 0), scope := Fin.ofNat 7 k.scope
                  fill := k.start s2.mem pages, granules := [], ahead := [], seen := 0 }
              answer (({ s2 with regions := s2.regions ++ [r] } : State).mend (r.slotLines 0).contains) 0

/-- The bytes of a region's page, each granule at its greatest created version, as cells (R281). -/
def Region.pageCells (r : Region) (i pa : Nat) : Memory :=
  let data := (List.range 512).flatMap fun k => leBytes 128 (r.granule (i * 512 + k)).newest.toNat
  (positions data).filterMap fun x => if x.2 = Memory.unlisted then none else some (pa + x.1, x.2)

/-- Replaces a range of memory by cells that lie in it. -/
def Memory.replace (m : Memory) (a n : Nat) (cells : Memory) : Memory :=
  (m.filter fun c => decide (c.1 < a)) ++ cells ++ m.filter fun c => decide (a + n ≤ c.1)

/-- The memory once a region's data is written back to its mapped pages (R281). -/
def Region.writeBack (r : Region) (m : Memory) : Memory :=
  (positions r.pages).foldl (fun m x => m.replace x.2 65536 (r.pageCells x.1 x.2)) m

/-- The lines with an uncorrectable error once a region's data is written back: a granule whose data is lost leaves its line so (R281, R412). -/
def State.writtenBack (s : State) (r : Region) : List Nat :=
  let inside := fun l : Nat => r.pages.contains (l / 65536 * 65536)
  let lost := (positions r.pages).flatMap fun x =>
    ((List.range 512).filter fun k => s.versionLost r (x.1 * 512 + k) 0xFFFFFFFF).map fun k => x.2 + 128 * k
  if s.badLines.isEmpty then [] else s.badLines.filter (fun l => ! inside l) ++ lost

/-! ### Waits for a version (R114, R116, R118) -/

/-- Whether a wait is one for a version. -/
def WaitKind.version : WaitKind → Bool
  | .versionLoad | .versionRefused | .versionStore => true
  | _ => false

/-- Whether what an entry of a wait list waits for has come: the version, or a cause (R114, R116, R281). -/
def State.versionCame (s : State) (e : Parked) : Bool :=
  match s.regionAt e.part e.pa with
  | none => true
  | some (_, r, q) => match r.readVersion q e.version with | .error none => false | _ => true

/-- Whether a versioned store that waits at an address finds room, or a cause (R118, R281). -/
def State.roomCame (s : State) (h : Hart) (va : Word) : Bool :=
  match s.resolve h.ctx .store va with
  | .ok (.device pa) =>
    match s.regionAt h.part pa with
    | none => true
    | some (_, r, q) => ! ((r.granule q).freeSlots (r.horizonAt q)).isEmpty
  | .transit => false
  | _ => true

/-- Whether the access of a wait was sent to another rank, which has answered it, or will not (R109, R378). -/
def State.answered (s : State) (h : Hart) (w : Wait) : Bool :=
  h.replies.any (·.pos == w.pos) || ! s.fabric.requests.any fun r =>
    match r.by_ with
    | .hart e i _ _ => e == h.engine && i == h.id
    | _ => false

/-- Whether a wait for a version is over: a load's ends by being woken, a store's by room, either by the declaring rank's answer
(R109, R116, R118). -/
def State.versionOver (s : State) (h : Hart) (w : Wait) : Bool :=
  match s.resolve h.ctx (if w.kind = .versionStore then .store else .load) w.addr with
  | .ok (.remote _ _) => s.answered h w
  | _ => w.kind == .versionStore && s.roomCame h w.addr

/-- The strand wakes where it waits. -/
def Hart.wake (h : Hart) : Hart := { h with wait := h.wait.map fun w => { w with met := true } }

/-- Wakes the harts that a test picks. -/
def State.wakeAll (s : State) (p : Hart → Bool) : State :=
  let wake := fun h : Hart => if p h then h.wake else h
  { s with hart := wake s.hart, harts := s.harts.map wake }

/-- Every entry of the wait lists. -/
def State.allParked (s : State) : List Parked := (s.parkedHart s.hart).toList ++ s.parked

/-- Whether an entry waits at a region; at one granule of it, where one is named. -/
def State.waitsAt (s : State) (r : Nat) (q : Option Nat) (e : Parked) : Bool :=
  match s.regionAt e.part e.pa with
  | some (i, _, k) => i == r && q.all (· == k)
  | none => false

/-- The entry with the earlier place in the order of arrival. -/
def Parked.first : List Parked → Option Parked
  | [] => none
  | e :: l => match Parked.first l with | none => some e | some b => if b.since < e.since then some b else some e

/-- The first load on a granule's list whose version has come, or that the horizon has passed (R114, R116). -/
def State.firstWoken (s : State) (r q : Nat) : Option Parked :=
  Parked.first (s.allParked.filter fun e => s.waitsAt r (some q) e && s.versionCame e)

/-- Wakes the loads that a test of whose they are picks. -/
def State.wakeParked (s : State) (p : Waker → Bool) : State :=
  let s1 := s.wakeAll fun h => p (.hart h.engine h.id)
  { s1 with
    jobs := s1.jobs.map fun j => if p (.job j.item) then { j with hold := j.hold.map fun w => { w with woken := true } } else j
    fabric := { s1.fabric with waits := s1.fabric.waits.map fun e => if p (.span e.since) then { e with woken := true } else e } }

/-- VRFREE (R281). Of two live regions of the partition with this base, declared in two ASIDs, the one declared first ends (log 94). -/
def execVrfree (d a : Reg) (s : State) : Result :=
  s.supervisorOnly fun s =>
    let base := (s.hart.getX a).toNat
    let mine := fun r : Region => decide (r.part = s.hart.part ∧ r.base = base)
    match s.regions.find? mine with
    | none => s.onHart fun h => h.setX d 1
    | some r =>
      let i := s.regions.findIdx mine
      let freed := (s.allParked.filter fun e => s.waitsAt i none e).map (·.who)
      let s1 := s.wakeParked freed.contains
      { s1 with
        mem := r.writeBack s.mem
        badLines := s.writtenBack r
        regions := s.regions.eraseIdx i
        hart := s1.hart.setX d 0 }

/-! ### Steps of the home slices -/

/-- VERSIONED_STORE_STEP (R112): changes nothing where R112 would trap or wait. -/
def execVersionedStoreStep (r q : Nat) (n : BitVec 32) (d : BitVec 1024) (s : State) : Result :=
  .next (match s.regions[r]? with
    | some x =>
      if q < x.count then
        match s.createVersion r x q n d with
        | .ok () s' => s'
        | _ => s
      else s
    | none => s)

/-- VERSION_WAIT_WAKE (R34, R116): the list of a granule wakes its loads one at a time, in the order in which they entered it. -/
def execVersionWaitWake (r q : Nat) (s : State) : Result :=
  .next (match s.firstWoken r q with
    | some x => s.wakeParked (· == x.who)
    | none => s)

/-- WAIT_LIST_RETRY (R116): a load that was refused a place is presented again. -/
def execWaitListRetry (h : StrandId) (s : State) : Result :=
  .next (s.wakeAll fun x => x.id == h && x.wait.any fun w => w.kind == .versionRefused)

/-- HORIZON_PROPAGATION (R119). -/
def execHorizonPropagation (r q : Nat) (s : State) : Result :=
  .next (match s.regions[r]? with
    | some x => s.setRegion r (x.propagate q)
    | none => s)

end Sys2Proof.Machine
end

