-- ==== Sys2Proof/Machine/Sx.lean ====
section
/-! DEFINITION. The sorted exchange: majors 0x1B and 0x1C, completion of a round, delivery (R317-R338, R344, R448-R451). -/

namespace Sys2Proof.Machine

/-! ### Descriptors (R320) -/

def payloadOf (n : Nat) : Option PayloadType :=
  [PayloadType.fp32, .bf16, .int32, .e4m3, .e5m2, .e2m1, .int8][n]?

def combinerOf (n : Nat) : Option Combiner := [Combiner.none, .add, .max, .min, .first][n]?

/-- Whether a payload type carries a scale code per record (R326). -/
def isScaled : PayloadType → Bool | .fp32 | .bf16 | .int32 => false | _ => true

/-- Memory format of a scaled payload type (R326). -/
def scaledFmt : PayloadType → MemFmt
  | .e4m3 => .e4m3
  | .e5m2 => .e5m2
  | .e2m1 => .e2m1
  | .int8 => .int8
  | _ => .native

/-- The fields of R320 that are reserved. -/
def sxReserved (v : Nat) : Bool :=
  [(39, 1), (42, 2), (48, 16), (90, 6), (102, 26), (192, 832)].any fun f => decide (bits v f.1 f.2 ≠ 0)

/-- A descriptor as SXOPEN reads it, or the status R331 returns; `ranks` is the number of ranks of the job. -/
def parseSession (v ranks : Nat) : Except Nat SxDescriptor :=
  if bits v 0 16 ≠ 1 then .error 1
  else
    match payloadOf (bits v 27 3), combinerOf (bits v 24 3) with
    | some pt, some cb =>
      let d : SxDescriptor :=
        { split := BitVec.ofNat 64 (bits v 128 64), rxBank := bits v 96 6, rpr := bits v 80 10 + 1
          receivers := bits v 64 16 + 1, slog2 := bits v 44 4, span := bits v 40 2, elements := bits v 32 7
          det := bit v 31, wideKey := bit v 30, ptype := pt, comb := cb, gen := BitVec.ofNat 8 (bits v 16 8) }
      let covered := if d.span = 2 then ranks else 1
      if d.span = 3 ∨ 64 < d.elements ∨ sxReserved v ∨ d.rpr * covered < d.receivers ∨ (d.span = 0 ∧ 16 < d.rpr) ∨
          43 < d.rxBank + min d.rpr 16 - 1 then .error 2
      else .ok d
    | _, _ => .error 2

/-- Key width in bits. -/
def SxDescriptor.keyBits (d : SxDescriptor) : Nat := if d.wideKey then 64 else 32

/-- Bytes a record occupies in a receive buffer, and how many records a bank holds (R328). -/
def SxDescriptor.recordBytes (d : SxDescriptor) : Nat :=
  d.keyBits / 8 + d.elements * (if d.ptype = .bf16 then 2 else 4)
def SxDescriptor.capacity (d : SxDescriptor) : Nat := 262144 / d.recordBytes

/-- Payload tag a receiver gets (R337). -/
def SxDescriptor.outTag (d : SxDescriptor) : Tag :=
  match d.ptype with
  | .bf16 => .bf16
  | .int32 => .i32
  | _ => .fp32

/-- Tag of a key register. -/
def SxDescriptor.keyTag (d : SxDescriptor) : Tag := if d.wideKey then .i64 else .i32

/-- Whether a key table ascends (R321). -/
def ascending : List Nat → Bool
  | a :: b :: l => decide (a ≤ b) && ascending (b :: l)
  | _ => true

/-- The receiver a key goes to (R321). -/
def receiverOf (splitters : List Nat) (k : Nat) : Nat := (splitters.filter fun t => decide (t ≤ k)).length

/-! ### The strand's session -/

/-- Number of ranks of a job (R356, R370). -/
def Partition.ranksOf (p : Partition) : Nat := max 1 p.ranks.length

/-- What stops a sorted-exchange instruction on a session, or the strand's part in it (R331, R448). -/
def State.sxPart (s : State) (sid : Fin 16) : Except Cause (Session × SxParticipant) :=
  match s.session? s.hart.part sid with
  | none => .error .sxNotOpen
  | some x =>
    match x.participant? s.hart.id with
    | none => .error .sxNotOpen
    | some q => if q.stale then .error .sxRetired else if q.closed ∨ ¬ x.live then .error .sxNotOpen else .ok (x, q)

/-- A trap of a sorted-exchange instruction: STVAL holds the session id (R409, R448). -/
def State.sxTrap (s : State) (c : Cause) (sid : Fin 16) : State := s.trap true 0 c (BitVec.ofNat 64 sid.val)

/-- An instruction on a session the strand has joined. -/
def State.onSession (s : State) (sid : Fin 16) (k : Session → SxParticipant → State → State) : Result :=
  s.strandOnly fun s =>
    match s.sxPart sid with
    | .error c => s.sxTrap c sid
    | .ok (x, q) => k x q s

/-- The receiver the strand serves (R319). -/
def State.serves (s : State) (d : SxDescriptor) (opener : StrandId) : Option Nat :=
  servedReceiver d opener s.hart.id s.hart.rank.val (firstRank d s.hart.rank.val)

/-- Whether the strand's own receive bank is good: none needed, or granted and in FIFO mode (R331). -/
def State.receiveBankOk (s : State) (d : SxDescriptor) (opener : StrandId) : Bool :=
  match s.serves d opener with
  | none => true
  | some _ =>
    match s.bank? (some (gangOf s.hart.id)) (rxBankOf d s.hart.id) with
    | some k => (match k.mode with | .fifo _ _ => true | _ => false) && k.switching.isNone
    | none => false

/-- Nothing sent yet. -/
def SxRuns.none : SxRuns := { sent := 0, runs := 0, runLen := 0, lastKey := 0 }

/-- Whether the span of the strand in issue is its own rank: its launch has SPANTAG 0 (R348, R356). -/
def State.ownSpan (s : State) : Bool := s.launches.any fun l => l.id == s.hart.id.launch && l.spanTag == 0

/-- Ranks of the span of the strand in issue (R319, R356). -/
def State.spanRanks (s : State) : Nat := if s.ownSpan then 1 else s.parts[s.hart.part].ranksOf

/-- A participant as it joins (R327). -/
def SxParticipant.join (i : StrandId) (rounds : Nat) : SxParticipant where
  strand := i
  rounds := rounds
  arrived := false
  closing := none
  closingAt := 0
  bad := []
  closed := false
  stale := false
  request := .none
  now := .none
  later := .none

/-- The strand in issue joins a session; its receive bank becomes a receive buffer (R327, R328, R331). -/
def State.joinSession (s : State) (x : Session) : State :=
  let s1 := s.setSession (x.setParticipant (.join s.hart.id x.completed))
  match s.serves x.desc x.opener with
  | some _ => s1.markReceive x.desc s.hart.id true
  | none => s1

/-! ### SXOPEN (R331) -/

/-- Reads `n` keys of a width as loads of the strand, class 0. -/
def State.readKeys (s : State) (w : Nat) : Nat → Word → Got (List Nat)
  | 0, _ => .ok [] s
  | n + 1, va => (gotAt va (s.loadBytes va w 0 (n + 32))).bind fun l s1 =>
    (s1.readKeys w n (va + BitVec.ofNat 64 w)).bind fun ls s2 => .ok (leNat l :: ls) s2

/-- A receiver when its session opens. -/
def SxReceiver.fresh (j : Nat) : SxReceiver where
  index := j
  buffer := []
  incoming := []
  finished := 0
  tallies := []
  last := none
  missed := false
  cut := false
  freeing := none

/-- The receivers of this rank (R319). -/
def localReceivers (d : SxDescriptor) (rank : Nat) : List Nat :=
  let lo := if d.span = 2 then rank * d.rpr else 0
  (List.range d.rpr).filterMap fun j => if lo + j < d.receivers then some (lo + j) else none

/-- Opens a session once its descriptor has been read; a stall goes back to the state `s0` before that read. -/
def State.openSession (s0 s : State) (d : Reg) (sid : Fin 16) (va : Word) (k : SxDescriptor) : State :=
  let answer := fun (s : State) (n : Nat) => s.onHart fun h => h.setX d (BitVec.ofNat 64 n)
  let old := s.session? s.hart.part sid
  let retired := old.bind (·.retired)
  if ¬ s.receiveBankOk k s.hart.id then answer s 4
  else if retired = some k.gen then answer s 5
  else if s.hart.st.det ∧ ¬ k.det then s.trapWord .deterministic
  else
    s0.withGot (s.readKeys (k.keyBits / 8) (k.receivers - 1) k.split) fun keys s1 =>
      if ¬ ascending keys then s1.sxTrap .sxSplitters sid
      else
        let x : Session :=
          { part := s1.hart.part, sid := sid, live := true, retired := retired, descAddr := va, desc := k
            opener := s1.hart.id, ranks := s1.spanRanks, completed := 0
            participants := ((old.map (·.participants)).getD []).filter (·.stale)
            records := [], samples := [], laterRecords := [], laterSamples := [], sdrop := false, splitters := keys
            receivers := (localReceivers k s1.hart.rank.val).map SxReceiver.fresh }
        answer (s1.joinSession x) 0

/-- SXOPEN (R331). -/
def execSxopen (d a : Reg) (sid : Fin 16) (s : State) : Result :=
  s.strandOnly fun s =>
    let va := s.hart.getX a
    let answer := fun (s : State) (n : Nat) => s.onHart fun h => h.setX d (BitVec.ofNat 64 n)
    let opening := fun (s : State) =>
      s.withGot (s.readBlock va 128) fun v s1 =>
        match parseSession v s1.spanRanks with
        | .error n => answer s1 n
        | .ok k => s.openSession s1 d sid va (if s1.ownSpan then { k with span := min k.span 1 } else k)
    if ¬ aligned va 128 then s.trap false 0 .misaligned va
    else
      match s.session? s.hart.part sid with
      | none => opening s
      | some x =>
        if ¬ x.live then opening s
        else if ¬ x.covers s.hart.id ∨ va ≠ x.descAddr then answer s 3
        else if ¬ s.receiveBankOk x.desc x.opener then answer s 4
        else if x.joined s.hart.id then answer s 0
        else answer (s.joinSession x) 0

/-! ### SXSPLIT, SXRESPLIT, SXCLOSE (R332, R334) -/

/-- Stages a request for the next splitters. -/
def State.stageSplit (s : State) (d : Reg) (x : Session) (q : SxParticipant) (r : SplitRequest) : State :=
  (s.setSession (x.setParticipant { q with request := r })).onHart fun h => h.setX d 0

def execSxsplit (d a : Reg) (sid : Fin 16) (s : State) : Result :=
  s.onSession sid fun x q s =>
    let va := s.hart.getX a
    if aligned va 8 then s.stageSplit d x q (.table va) else s.trap false 0 .misaligned va

def execSxresplit (d : Reg) (sid : Fin 16) (s : State) : Result :=
  s.onSession sid fun x q s => s.stageSplit d x q .resplit

def execSxclose (d : Reg) (sid : Fin 16) (s : State) : Result :=
  s.onSession sid fun x _ s => (s.leaveSession x s.hart.id).onHart fun h => h.setX d 0

/-- SXCLOSE.ABORT: the generation is retired for every participant on every rank (R334). -/
def execSxcloseAbort (d : Reg) (sid : Fin 16) (s : State) : Result :=
  s.onSession sid fun x _ s =>
    let s1 := s.endSession x true
    let s2 := if x.desc.span = 2 ∧ 1 < x.ranks then (s.otherRanks x.part).foldl (fun s q => s.post x.part q 0 (.sxAbort sid x.desc.gen)) s1 else s1
    s2.onHart fun h => h.setX d 0

/-! ### SXROUND (R333) -/

/-- Whether no rank of a partition's table is unreachable (R450, R454). -/
def State.allReachable (s : State) (p : Fin 8) : Bool :=
  let t := s.parts[p].ranks
  (List.range t.length).all fun q => (t[q]?).join.isNone || (s.fabricRank p q).isSome

/-- Whether a round of a session needs a rank that is unreachable: a session of the whole span, over more ranks than this one
(R356, R450). -/
def State.roundLost (s : State) (x : Session) : Bool := x.desc.span == 2 && decide (1 < x.ranks) && ! s.allReachable x.part

/-- SXROUND and SXRECV wait for a round; one that needs an unreachable rank ends the wait at once (R450). -/
def State.waitRound (s : State) (x : Session) (k : WaitKind) (elem : Nat) : State :=
  let sid := BitVec.ofNat 64 x.sid.val
  if s.roundLost x then s.trap false 0 .unreachable sid
  else (s.waitFor k 0 sid).onHart fun h => { h with wait := h.wait.map fun w => { w with elem := elem } }

/-- A participant whose SXROUND is withdrawn; what it has sent since joins its part of the round again. -/
def SxParticipant.withdrawn (q : SxParticipant) : SxParticipant :=
  let r := q.later
  { q with
    arrived := false
    closing := none
    later := .none
    now := if r.sent = 0 then q.now
      else { sent := q.now.sent + r.sent, runs := q.now.runs + r.runs, runLen := r.runLen, lastKey := r.lastKey } }

/-- The samples among records of a source that are counted from `c` on (R329). -/
def samplesFrom (source c slog2 : Nat) (keys : List Nat) : List (Nat × Nat × Nat) :=
  (positions keys).filterMap fun y => if (c + y.1) % 2 ^ slog2 = 0 then some (source, c + y.1, y.2) else none

/-- A session in which a strand's SXROUND at a convoy, which has arrived for a round, is withdrawn: records sent since are counted and
sampled on (R329). -/
def Session.withdraw (x : Session) (i : StrandId) (pc : Word) : Session :=
  match x.participants.find? fun q => q.strand == i && q.arrived && q.closing.isSome && q.closingAt == pc with
  | none => x
  | some q =>
    let source := (x.laterRecords.map (·.source)).find? fun n => n % 1024 == i.vcid.val
    let mine := fun n : Nat => some n == source
    let (back, stay) := x.laterRecords.partition fun r => mine r.source
    { x.setParticipant q.withdrawn with
      records := x.records ++ back.map fun r => { r with run := r.run + q.now.runs }
      samples := x.samples ++ samplesFrom (source.getD 0) q.now.sent x.desc.slog2 (back.map (·.key))
      laterRecords := stay
      laterSamples := x.laterSamples.filter fun r => ! mine r.1 }

/-- A strand's SXROUND at a convoy is withdrawn: the trapped instruction changes nothing (R448, R450). -/
def State.withdrawRound (s : State) (i : StrandId) (pc : Word) : State :=
  { s with sessions := s.sessions.map fun x => x.withdraw i pc }

/-- The round an SXROUND closes. One that goes on with its wait, or that is issued again at its convoy after a trap, closes the
round it arrived for; any other the one above the strand's round count (R327, R333, R415). -/
def State.sxClosing (s : State) (q : SxParticipant) (sid : Fin 16) : Nat :=
  let mine := fun w : Wait => w.kind == .sxRound && w.addr == BitVec.ofNat 64 sid.val
  match s.hart.wait with
  | some w => if mine w then w.elem else q.rounds + 1
  | none => ((s.hart.abandoned.find? fun e => e.pc == s.hart.pc && mine e.wait).map (·.wait.elem)).getD (q.rounds + 1)

/-- The strand once its SXROUND for a round retires: it takes cause 0x24 next where requests were bad (R330). -/
def Hart.roundOver (h : Hart) (d : Reg) (sid : Fin 16) (round : Nat) (bad : List Nat) : Hart :=
  let h1 := bad.foldl (fun h _ => h.addReport { src := 0, pos := 0, cause := 0x24, stval := BitVec.ofNat 64 sid.val }) h
  (h1.setX d (BitVec.ofNat 64 (round % 2 ^ 16))).setFlow .seq

/-- SXROUND: ends the strand's runs and arrives once for the round it closes, waits until that round completes, and returns its
number. One that needs an unreachable rank changes nothing (R450). -/
def execSxround (d : Reg) (sid : Fin 16) (s : State) : Result :=
  s.onSession sid fun x q s =>
    let round := s.sxClosing q sid
    if round ≤ q.rounds then
      let (due, kept) := q.bad.partition fun n => decide (n ≤ round)
      (s.setSession (x.setParticipant { q with bad := kept })).onHart (·.roundOver d sid round due)
    else if s.roundLost x then (s.withdrawRound s.hart.id s.hart.pc).waitRound x .sxRound round
    else
      let q1 := if q.arrived then q else { q with arrived := true, closing := some round, closingAt := s.hart.pc }
      (s.setSession (x.setParticipant q1)).waitRound x .sxRound round

/-! ### SXSEND (R326, R335, R336) -/

/-- Payload tags SXSEND accepts (R336). -/
def payloadTag (p : PayloadType) (t : Tag) : Bool :=
  match p with
  | .fp32 => t == .fp32
  | .bf16 => t == .bf16
  | .int32 => t == .i32
  | _ => isFpTag t

/-- Registers that `vl` payloads take under a payload tag, without a scale-code register (R335). -/
def payloadRegs (d : SxDescriptor) (t : Tag) (vl : Nat) : Nat := (vl * d.elements + tagMvl t - 1) / tagMvl t

/-- Payload elements of record `e`, read under the tag of the first payload register (R335). -/
def Hart.payload (h : Hart) (p : Reg) (d : SxDescriptor) (e : Nat) : List Nat :=
  let t := h.tag p
  (List.range d.elements).map fun i =>
    let k := e * d.elements + i
    elemOf h.v[p + Fin.ofNat 32 (k / tagMvl t)] (tagWidth t) (k % tagMvl t)

/-- The scale code of record `e` (R335). -/
def Hart.scaleCode (h : Hart) (p : Reg) (d : SxDescriptor) (e : Nat) : Nat :=
  if isScaled d.ptype ∧ d.elements ≠ 0 then
    elemOf h.v[p + Fin.ofNat 32 (payloadRegs d (h.tag p) h.vlen)] 32 e % 256
  else 0

/-- The checks of R336 that need no keys: 0x22, then 0x09. -/
def Hart.judgeSend (h : Hart) (k p : Reg) (d : SxDescriptor) : Option Cause :=
  let n := payloadRegs d (h.tag p) h.vlen
  let scale := if isScaled d.ptype ∧ d.elements ≠ 0 then 1 else 0
  let tags := (List.range n).all fun i => decide (32 ≤ p.val + i) || h.tag (p + Fin.ofNat 32 i) == h.tag p
  if h.tag k ≠ d.keyTag ∨ (d.elements ≠ 0 ∧ ¬ (payloadTag d.ptype (h.tag p) ∧ tags)) then some .sxPayload
  else if mvl d.keyBits < h.vlen ∨ (d.elements ≠ 0 ∧ 32 < p.val + n + scale) then some .vectorLength
  else none

/-- Whether the active keys keep R318: none falls, and the run they continue or start is allowed. -/
def keepsRuns (q : SxRuns) (new : Bool) (keys : List Nat) : Bool :=
  match keys with
  | [] => true
  | k :: _ => ascending keys && (if new ∨ q.runs = 0 then decide (q.runs < 16) else decide (q.lastKey ≤ k))

/-- A record as it is sent, and whether narrowing it saturated (R326, R134). -/
def Hart.sxRecord (h : Hart) (k p : Reg) (d : SxDescriptor) (source run position e : Nat) : SxRecord × Bool :=
  let code := h.scaleCode p d e
  let raw := (h.payload p d e).map fun x =>
    if isScaled d.ptype then narrowed (scaledFmt d.ptype) (h.tag p) x (e8m0 code) else (x, false)
  ({ key := h.elem k e, source := source, run := run, position := position, payload := raw.map (·.1), scale := code }, raw.any (·.2))

/-- SXSEND and SXSEND.NEW: the active records as one indivisible act. What a strand sends between its SXROUND and the round's
completion, in a notification handler, belongs to the round after (R327). -/
def State.sxSend (s : State) (k p : Reg) (sid : Fin 16) (m : Reg) (new : Bool) : Result :=
  s.onSession sid fun x q s =>
    let h := s.hart
    let d := x.desc
    match h.judgeSend k p d with
    | some .vectorLength => s.trapWord .vectorLength
    | some c => s.sxTrap c sid
    | none =>
      let act := h.wholeActive m
      let keys := act.map (h.elem k)
      let r := if q.arrived then q.later else q.now
      if ¬ keepsRuns r new keys then s.sxTrap .sxKeyOrder sid
      else if act = [] then s
      else
        let fresh := new || r.runs == 0
        let runs := if fresh then r.runs + 1 else r.runs
        let start := if fresh then 0 else r.runLen
        let source := h.rank.val * 1024 + h.id.vcid.val
        let made := (positions act).map fun y => h.sxRecord k p d source (runs - 1) (start + y.1) y.2
        let samples := samplesFrom source r.sent d.slog2 keys
        let r1 : SxRuns := { sent := r.sent + act.length, runs := runs, runLen := start + act.length, lastKey := keys.getLastD 0 }
        let x1 :=
          if q.arrived then
            { x.setParticipant { q with later := r1 } with
              laterRecords := x.laterRecords ++ made.map (·.1), laterSamples := x.laterSamples ++ samples }
          else
            { x.setParticipant { q with now := r1 } with
              records := x.records ++ made.map (·.1), samples := x.samples ++ samples }
        (s.setSession x1).onHart fun h => h.raise { sat := made.any (·.2) }

def execSxsend (k p : Reg) (sid : Fin 16) (m : Reg) (s : State) : Result := s.sxSend k p sid m false
def execSxsendNew (k p : Reg) (sid : Fin 16) (m : Reg) (s : State) : Result := s.sxSend k p sid m true

/-! ### SXRECV (R337) -/

/-- Writes one received record: its key at element `e`, then its payload into the layout of R335 (R337). -/
def Hart.putRecord (h : Hart) (k p : Reg) (d : SxDescriptor) (e : Nat) (x : SxRecord) : Hart :=
  let t := d.outTag
  let put := fun (h : Hart) (r : Reg) (w i v : Nat) => h.setV r (h.tag r) (putElem h.v[r] w i v)
  (List.range d.elements).foldl (fun h i =>
    let n := e * d.elements + i
    put h (p + Fin.ofNat 32 (n / tagMvl t)) (tagWidth t) (n % tagMvl t) (x.payload.getD i 0)) (put h k d.keyBits e x.key)

/-- First-of-key bits: a record is first of its round or its key differs from the record before it. -/
def firstOfKey (round : Nat) (last : Option (Nat × Nat)) : List (Nat × SxRecord) → List (Nat × Bool)
  | [] => []
  | (e, r) :: l => (e, last != some (round, r.key)) :: firstOfKey round (some (round, r.key)) l

/-- The register writes of a receive of records: the records one by one, the first-of-key bits, vl, and at the end the tags. -/
def Hart.receive (h : Hart) (k p f : Reg) (d : SxDescriptor) (round : Nat) (last : Option (Nat × Nat))
    (recs : List (Nat × SxRecord)) : Hart :=
  let h1 := recs.foldl (fun h y => h.putRecord k p d y.1 y.2) h
  let tagged := (List.range (payloadRegs d d.outTag recs.length)).foldl (fun h i =>
    let r := p + Fin.ofNat 32 i
    h.setV r d.outTag h.v[r]) (h1.setV k d.keyTag h1.v[k])
  let h2 := tagged.setP f (putBits (h1.getP f) (firstOfKey round last recs))
  { h2 with csr := { h2.csr with vl := BitVec.ofNat 10 recs.length, width := if d.wideKey then 2 else 1 } }

/-- SXRECV. -/
def execSxrecv (k p : Reg) (sid : Fin 16) (f : Reg) (s : State) : Result :=
  s.onSession sid fun x q s =>
    let h := s.hart
    let d := x.desc
    let want := h.vlen
    if want = 0 then s
    else if mvl d.keyBits < want ∨ (d.elements ≠ 0 ∧ 32 < p.val + payloadRegs d d.outTag want) then s.trapWord .vectorLength
    else
      let mine := (s.serves d x.opener).bind fun j => x.receivers.find? fun r => r.index == j
      match q.rounds, mine with
      | 0, _ => s.onHart fun h => { h with csr := { h.csr with vl := 0 } }
      | _, none => s.onHart fun h => { h with csr := { h.csr with vl := 0 } }
      | round, some r =>
        let kept := r.buffer.filter fun y => decide (round ≤ y.1)
        let ready := kept.filter fun y => decide (y.1 = round)
        let put := fun (r : SxReceiver) => s.setSession { x with receivers := x.receivers.map fun y => if y.index = r.index then r else y }
        if ¬ r.cut ∧ (r.finished + 1 < round ∨ (ready = [] ∧ r.finished < round)) then
          (put { r with buffer := kept }).waitRound x .sxRecv 0
        else
          let got := (ready.take want).map (·.2)
          let rest := ready.drop want ++ kept.filter fun y => decide (y.1 ≠ round)
          let last := match got.getLast? with | some z => some (round, z.key) | none => r.last
          (put { r with buffer := rest, last := last }).onHart fun h =>
            (h.receive k p f d round r.last (positions got)).setFlow .seq

/-! ### SXSTAT (R338) -/

/-- The strand's view of a session it has joined. -/
def State.sxView (s : State) (x : Session) (q : SxParticipant) : Word :=
  let r := (s.serves x.desc x.opener).bind fun j => x.receivers.find? fun r => r.index == j
  let tally := r.bind fun r => r.tallies.find? fun t => t.round == q.rounds
  let received := (tally.map (·.received)).getD 0
  let nulls := (tally.map (·.nulls)).getD 0
  let dropped := (tally.map (·.dropped)).getD false || (r.map fun r => r.missed || r.cut).getD false
  let ended := q.rounds ≠ 0 ∧ (r.map fun r => decide (q.rounds ≤ r.finished)).getD false
  BitVec.ofNat 64 (min received 0xFFFF + min nulls 0xFFFF * 2 ^ 16 + q.rounds % 2 ^ 16 * 2 ^ 32 + x.desc.gen.toNat * 2 ^ 48
    + x.sdrop.toNat * 2 ^ 60 + dropped.toNat * 2 ^ 61 + 2 ^ 62 + (decide ended).toNat * 2 ^ 63)

/-- SXSTAT writes 0 for a session that is not open for the strand. -/
def execSxstat (d : Reg) (sid : Fin 16) (s : State) : Result :=
  s.strandOnly fun s =>
    let v := match s.sxPart sid with | .ok (x, q) => s.sxView x q | .error _ => 0
    s.onHart fun h => h.setX d v

/-! ### Completion of a round (R323-R330) -/

/-- Whether `a` comes before `b` in record order (R317). -/
def recordBefore (a b : SxRecord) : Bool :=
  let k := fun (r : SxRecord) => [r.key, r.source, r.run, r.position]
  decide (k a < k b)

/-- Records in record order. -/
def inRecordOrder (l : List SxRecord) : List SxRecord := l.mergeSort fun a b => ! recordBefore b a

/-- Records grouped by key, in record order. -/
def keyGroups : List SxRecord → List (List SxRecord)
  | [] => []
  | r :: l =>
    match keyGroups l with
    | (q :: g) :: rest => if q.key = r.key then (r :: q :: g) :: rest else [r] :: (q :: g) :: rest
    | rest => [r] :: rest

/-- Payload element `i` of a record as the combiners take it: FP32 bits, or an INT32 (R324, R326). -/
def SxRecord.expand (d : SxDescriptor) (r : SxRecord) (i : Nat) : Nat :=
  let x := r.payload.getD i 0
  match d.ptype with
  | .fp32 | .int32 => x
  | .bf16 => widen .bf16 .fp32 x (.pow 0)
  | p => widen (scaledFmt p) .fp32 x (e8m0 r.scale)

def fp32Add (x y : Nat) : Nat × Raised := fp32.add .nearest (fp32.decode x) (fp32.decode y)

/-- A canonical NaN for any NaN (R126, R324). -/
def canonNan (x : Nat) : Nat := if (fp32.decode x).isNan then fp32.nanBits else x

/-- One payload element of a combined record; a floating-point sum without DET has a free bracketing (R324, R325). -/
def State.combineElem (s : State) (d : SxDescriptor) (l : List Nat) : Nat × State :=
  let first := l.headD 0
  let rest := l.drop 1
  let int := d.ptype = .int32
  match d.comb with
  | .none | .first => (first, s)
  | .max => (if int then rest.foldl (fun a b => if sgn 32 a < sgn 32 b then b else a) first
      else canonNan (rest.foldl (fun a b => (fp32.minmax true a b).1) first), s)
  | .min => (if int then rest.foldl (fun a b => if sgn 32 b < sgn 32 a then b else a) first
      else canonNan (rest.foldl (fun a b => (fp32.minmax false a b).1) first), s)
  | .add =>
    if int then (rest.foldl (fun a b => (a + b) % 2 ^ 32) first, s)
    else if d.det then (canonNan (rest.foldl (fun a b => (fp32Add a b).1) first), s)
    else
      let r := s.sumFree fp32Add rest.length l .none
      (canonNan r.1.1, r.2)

/-- A combined element as it is delivered: BF16 is rounded once (R324). -/
def SxDescriptor.outElem (d : SxDescriptor) (x : Nat) : Nat :=
  if d.ptype = .bf16 then (bf16.deliver .nearest (fp32.decode x)).1 else x

/-- Combines each of a list of values, threading the state. -/
def State.mapFree {α β : Type} (s : State) (f : State → α → β × State) : List α → List β × State
  | [] => ([], s)
  | a :: l =>
    let (b, s1) := f s a
    let (bs, s2) := s1.mapFree f l
    (b :: bs, s2)

/-- The records one key's records become (R323, R324). -/
def State.combineKey (s : State) (d : SxDescriptor) (g : List SxRecord) : List SxRecord × State :=
  if d.comb = .none then
    (g.map fun r => { r with payload := (List.range d.elements).map fun i => d.outElem (r.expand d i) }, s)
  else
    let (p, s1) := s.mapFree (fun (s : State) i => s.combineElem d (g.map fun r => r.expand d i)) (List.range d.elements)
    match g.head? with
    | some r => ([{ r with payload := p.map d.outElem }], s1)
    | none => ([], s1)

/-- The stream of a receiver for a round (R321, R323). -/
def State.streamFor (s : State) (x : Session) (j : Nat) : List SxRecord × State :=
  let mine := inRecordOrder (x.records.filter fun r => decide (receiverOf x.splitters r.key = j))
  let (l, s1) := s.mapFree (fun (s : State) g => s.combineKey x.desc g) (keyGroups mine)
  (l.flatten, s1)

/-- The samples a rank keeps: the 4,096 lowest by source and count (R329). -/
def keptSamples (l : List (Nat × Nat × Nat)) : List (Nat × Nat × Nat) :=
  (l.mergeSort fun a b => decide ([a.1, a.2.1] ≤ [b.1, b.2.1])).take 4096

/-- Reads `n` keys at an address for the exchange, as class-15 loads; a page in transit is a fault here (R330). -/
def State.tableKeys (s : State) (key : Nat) (c : Ctx) (w : Nat) : Nat → Word → Acc (List Nat)
  | 0, _ => .ok [] s
  | n + 1, va =>
    match s.unitRead key c 15 va w with
    | .ok k s1 =>
      match s1.tableKeys key c w n (va + BitVec.ofNat 64 w) with
      | .ok l s2 => .ok (leNat k :: l) s2
      | e => e
    | .fault e => .fault e
    | .wait _ => .fault .notPresent
    | .stall s1 => .stall s1

/-- The number under which a session's splitter table is asked for at other ranks (log 31). -/
def Session.unit (x : Session) : Nat := 65 + x.part.val * 16 + x.sid.val

/-- What the requests of a completion decide: the next splitters, and whether every participant takes 0x24 (R330); `differ` says that
participants of other ranks have other requests; a table behind a span window is awaited. -/
def State.nextSplitters (s : State) (x : Session) (requests : List SplitRequest) (differ : Bool) (c : Ctx) : Acc (List Nat × Bool) :=
  let n := x.desc.receivers - 1
  let same := requests.all fun r => r == requests.headD .none
  if ¬ same ∨ differ then .ok (x.splitters, true) s
  else
    match requests.headD .none with
    | .none => .ok (x.splitters, false) s
    | .resplit =>
      if x.desc.span = 2 ∧ 1 < x.ranks then
        let (l, s1) := s.mapFree (fun (s : State) (_ : Nat) => s.draw) (List.range n)
        .ok ((l.map (· % 2 ^ x.desc.keyBits)).mergeSort, false) s1
      else
        let keys := ((keptSamples x.samples).map (·.2.2)).mergeSort
        .ok (if keys = [] then x.splitters
          else (List.range n).map fun i => keys.getD ((i + 1) * keys.length / x.desc.receivers) 0, false) s
    | .table a =>
      match s.tableKeys x.unit c (x.desc.keyBits / 8) n a with
      | .ok l s1 => .ok (if ascending l then (l, false) else (x.splitters, true)) (s1.unitDone x.unit)
      | .stall s1 => .stall s1
      | _ => .ok (x.splitters, true) (s.unitDone x.unit)

/-- Whether a participant counts as arrived: its SXROUND has registered, or it has closed or ended (R327, R333). -/
def State.sxArrived (s : State) (q : SxParticipant) : Bool :=
  q.closed || q.stale ||
    match s.strand? q.strand with
    | some h => h.phase == .exited || (q.arrived && h.pending.isEmpty && h.vldbs.isEmpty)
    | none => true

/-- Whether a session's round can complete: a round that needs an unreachable rank never does (R450).
Strands of other ranks count as arrived when the step comes (log 31). -/
def State.roundReady (s : State) (x : Session) : Bool :=
  x.live && ! s.roundLost x && x.participants.all s.sxArrived &&
    ((x.participants.any fun q => q.arrived && ! q.closed && ! q.stale) || (x.owes && s.sessionOver x))

/-- Whether a strand has yet to join the open generation of a session (R331, R448). -/
def Session.lacks (x : Session) (i : StrandId) : Bool := x.covers i && (x.participant? i).all (·.stale)

/-- Whether a session covers strands that have not started. -/
def State.lacksGang (s : State) (x : Session) : Bool :=
  s.gangs.any fun g => ! g.started && ! g.ended && x.covers
    { launch := g.id.launch, stage := g.id.stage, vcid := ⟨g.id.gang.val * 16, by have := g.id.gang.isLt; omega⟩ }

/-- Whether a live strand that the session covers has not joined it: it counts as arrived, without a request (R26, R330, R331). -/
def State.unjoined (s : State) (x : Session) : Bool :=
  (s.allHarts.any fun h => h.engine == .strand && h.phase == .running && x.lacks h.id) || s.lacksGang x

/-- Whether participants of other ranks have staged other requests: not seen here, a free value (R330; log 31). -/
def State.othersDiffer (s : State) (x : Session) : Bool × State :=
  if x.desc.span = 2 ∧ 1 < x.ranks then
    let (n, s1) := s.draw
    (n % 2 = 1, s1)
  else (false, s)

/-- Adds a round's stream to a receiver; an empty stream, or one after which nothing is left, ends at once. -/
def SxReceiver.enqueue (r : SxReceiver) (round : Nat) (l : List SxRecord) : SxReceiver :=
  let t : SxTally := { round := round, received := 0, nulls := 0, dropped := false }
  let r1 := { r with tallies := t :: r.tallies.take 3 }
  if l = [] ∧ r.incoming = [] then { r1 with finished := round } else { r1 with incoming := r.incoming ++ [(round, l)] }

/-- Streams for every receiver of this package. -/
def State.enqueueAll (s : State) (x : Session) (round : Nat) : List SxReceiver × State :=
  s.mapFree (fun (s : State) (r : SxReceiver) =>
    let (l, s1) := s.streamFor x r.index
    (r.enqueue round l, s1)) x.receivers

/-- A participant after a completion. -/
def SxParticipant.next (q : SxParticipant) (bad : Bool) : SxParticipant :=
  { q with
    rounds := q.rounds + 1
    arrived := false
    closing := none
    request := .none
    now := q.later
    later := .none
    bad := if bad then q.bad ++ [q.rounds + 1] else q.bad }

/-- The records of a session that other ranks' receivers get, with those receivers (R321). -/
def Session.sentAway (x : Session) : List (SxRecord × Nat) :=
  let away := if x.desc.span = 2 then
      x.records.filter fun r => ! x.receivers.any fun y => y.index == receiverOf x.splitters r.key else []
  away.map fun r => (r, receiverOf x.splitters r.key)

/-- Sends such a record to the rank of its receiver (R319, R344). -/
def State.sendRecord (s : State) (x : Session) (y : SxRecord × Nat) : State :=
  let r := y.1
  s.post x.part (y.2 / x.desc.rpr) 0
    (.sxRecord x.sid x.desc.gen r.key r.source r.run r.position r.payload r.scale y.2)

/-- Whether samples were dropped on some rank; those of other ranks are not seen here (R329, R338; log 31). -/
def State.samplesDropped (s : State) (x : Session) : Bool × State :=
  if 4096 < x.samples.length then (true, s)
  else if x.desc.span = 2 ∧ 1 < x.ranks then
    let (n, s1) := s.draw
    (n % 2 = 1, s1)
  else (false, s)

/-- A strand that waited in SXROUND wakes. -/
def Hart.roundDone (h : Hart) (x : Session) (joined : List SxParticipant) : Hart :=
  if h.engine = .strand ∧ (joined.any fun q => q.strand == h.id) then
    let mark := fun w : Wait =>
      if h.part = x.part ∧ w.kind = .sxRound ∧ w.addr = BitVec.ofNat 64 x.sid.val then { w with met := true } else w
    { h with wait := h.wait.map mark, paused := h.paused.map fun p => (p.1, mark p.2) }
  else h

/-- A round completes once its next splitters are known (R327, R329, R330). -/
def State.completeRound (s : State) (x : Session) (joined : List SxParticipant) (split : List Nat) (bad : Bool) : State :=
  let (rx, s2) := s.enqueueAll x (x.completed + 1)
  let (dropped, s3) := s2.samplesDropped x
  let early := fun r : SxReceiver => { r with missed := r.missed && ! joined.any fun q => q.strand == x.serving r.index }
  let x1 := { x with
    completed := x.completed + 1
    participants := x.participants.map fun q => if q.closed ∨ q.stale then q else q.next bad
    records := x.laterRecords
    samples := x.laterSamples
    laterRecords := []
    laterSamples := []
    sdrop := dropped
    splitters := split
    receivers := rx.map early }
  let f := fun h : Hart => h.roundDone x joined
  let s4 : State := { s3.setSession x1 with hart := f s3.hart, harts := s3.harts.map f }
  (x.sentAway.foldl (fun s y => s.sendRecord x y) s4).settleSession x1

/-- SX_ROUND_COMPLETE (R327, R329, R330). -/
def execSxRoundComplete (p : Fin 8) (sid : Fin 16) (s : State) : Result :=
  .next (match s.session? p sid with
    | none => s
    | some x =>
      if ¬ s.roundReady x then s
      else
        let joined := x.participants.filter fun q => ! q.closed && ! q.stale
        let requests := joined.map (·.request) ++ (if s.unjoined x then [SplitRequest.none] else [])
        let c := match s.strand? (joined.headD (.join x.opener 0)).strand with | some h => h.ctx | none => s.hart.ctx
        let (differ, s0) := s.othersDiffer x
        match s0.nextSplitters x requests differ c with
        | .ok (split, bad) s1 => s1.completeRound x joined split bad
        | a => { s with fabric := a.fabric s })

/-! ### Delivery (R328, R344, R449) -/

/-- Whether a key names the null expert (R344). -/
def isNullKey (d : SxDescriptor) (k : Nat) : Bool := bits k (d.keyBits - 16) 16 == 0xFFFE

/-- One record of a receiver's oldest undelivered stream lands, or is dropped; the stream that has landed in full is ended. -/
def SxReceiver.deliver (r : SxReceiver) (d : SxDescriptor) (present closed : Bool) : SxReceiver :=
  match r.incoming with
  | [] => r
  | (round, []) :: more => { r with incoming := more, finished := round }
  | (round, y :: l) :: more =>
    let room := present && ! closed && ! r.cut && decide (r.buffer.length < d.capacity)
    let count := fun t : SxTally =>
      if t.round ≠ round then t
      else if room then { t with received := t.received + 1, nulls := t.nulls + (isNullKey d y.key).toNat }
      else { t with dropped := t.dropped || present }
    let r1 := { r with
      buffer := if room then r.buffer ++ [(round, y)] else r.buffer
      tallies := r.tallies.map count
      missed := r.missed || ! present }
    match l, more with
    | [], _ => { r1 with incoming := more, finished := round }
    | l, more => { r1 with incoming := (round, l) :: more }

/-- SX_RECORD_DELIVERY. -/
def execSxRecordDelivery (p : Fin 8) (sid : Fin 16) (j : Nat) (s : State) : Result :=
  .next (match s.session? p sid with
    | none => s
    | some x =>
      match x.receivers.find? fun r => r.index == j with
      | none => s
      | some r =>
        let q := x.participant? (x.serving j)
        let present := match q with | some q => ! q.stale | none => false
        let closed := match q with | some q => q.closed | none => false
        let r1 := r.deliver x.desc present closed
        let landed := r.freeing.any fun n => decide (n ≤ r1.finished)
        let s1 := if landed then s.freeReceiver x r else s
        let r2 := if landed then { r1 with freeing := none } else r1
        if r2 = r then s1 else s1.setSession { x with receivers := x.receivers.map fun y => if y.index = j then r2 else y })

end Sys2Proof.Machine
end

