-- ==== Sys2Proof/Machine/Items.lean ====
section
/-! DEFINITION. Queueing items: job cards, launch records, footprints; JOB, LAUNCH, STREAM (R104-R107, R212, R282, R301, R302, R348, R350). -/

namespace Sys2Proof.Machine

/-! ### Items in flight (R104-R106) -/

/-- Die of a cluster (R11). -/
def dieOf (c : Fin 64) : Fin 2 := ⟨c.val / 32, by omega⟩

/-- Die of the strand in issue; a gang without a slot counts to die 0 (log 32). -/
def State.myDie (s : State) : Fin 2 := ((s.clusterOf (gangOf s.hart.id)).map dieOf).getD 0

/-- Die of a partition: that of the first octet of clusters granted to it (R16, R383; log 32). -/
def Partition.die (p : Partition) : Fin 2 := if bits p.cfg.toNat 48 4 = 0 ∧ bits p.cfg.toNat 52 4 ≠ 0 then 1 else 0

/-- Items in flight on a die (R106). -/
def State.inFlight (s : State) (d : Fin 2) : Nat :=
  (s.jobs.filter fun j => j.die == d && ! j.complete).length +
    (s.launches.filter fun l => l.die == d && (l.state == .running || (l.byStrand && l.state == .queued))).length

/-- Whether a die has room for one more item. -/
def State.hasRoom (s : State) (d : Fin 2) : Bool := decide (s.inFlight d < 1024)

/-- A 64-bit region of a footprint: base and length in bytes (R302). -/
def regionOf (v : Nat) : Nat × Nat := (bits v 0 46 * 256, bits v 46 18 * 256)

/-- Four regions from bit `lo` of a card or header. -/
def regionsAt (v lo : Nat) : List (Nat × Nat) := (List.range 4).map fun j => regionOf (bits v (lo + 64 * j) 64)

/-- Whether two ranges overlap; a length of 0 overlaps nothing (R104). -/
def overlap (a b : Nat × Nat) : Bool := a.2 != 0 && b.2 != 0 && decide (a.1 < b.1 + b.2 ∧ b.1 < a.1 + a.2)

/-- Whether any range of one list overlaps any of another. -/
def overlaps (l m : List (Nat × Nat)) : Bool := l.any fun a => m.any (overlap a)

/-- Whether an earlier item with footprint `e` holds back a later one with footprint `n` (R105). -/
def hasEdge (e n : Footprint) : Bool :=
  overlaps e.writes n.reads || overlaps e.reads n.writes || overlaps e.writes n.writes

/-! ### Job cards (R302, R303) -/

/-- Fields of a card that the machine reads outside its kind. -/
structure Card where
  format : Nat
  kind : Nat
  notify : Bool
  tiles : Bool
  path : Bool
  vsrc : Bool
  vdst : Bool
  esize : Nat
  ringLog2 : Nat
  pad : Nat
  ring : Nat
  value : Nat                     -- all 1,024 bits
  deriving DecidableEq, Repr

/-- A card read from its bytes; a format-1 card has no VSRC and no VDST (R303). -/
def Card.parse (v : Nat) : Card where
  format := bits v 0 16
  kind := bits v 16 4
  notify := bit v 20
  tiles := bit v 21
  path := bit v 22
  vsrc := bit v 23 && bits v 0 16 != 1
  vdst := bit v 24 && bits v 0 16 != 1
  esize := 2 ^ bits v 25 2
  ringLog2 := bits v 27 5
  pad := bits v 32 32
  ring := bits v 64 64
  value := v

/-- A field of the card by its bits. -/
def Card.get (c : Card) (hi lo : Nat) : Nat := bits c.value lo (hi + 1 - lo)

def Card.footprint (c : Card) : Footprint := { reads := regionsAt c.value 128, writes := regionsAt c.value 384 }

def Job.fields (j : Job) : Card := Card.parse (leNat j.card)

/-- What JOB answers for a card it does not accept (R301). -/
def Card.refusal (c : Card) : Option Nat :=
  if c.format = 0 ∨ 2 < c.format then some 0x8000000000000001
  else if c.ring % 64 ≠ 0 ∨ 16 < c.ringLog2 then some 0x8000000000000002
  else none

/-- Job id after one (R301). -/
def nextId (n : BitVec 32) : BitVec 32 := if n = BitVec.allOnes 32 then 1 else n + 1

/-- JOB (R301). -/
def execJob (d a : Reg) (s : State) : Result :=
  s.strandOnly fun s =>
    let va := s.hart.getX a
    if ¬ aligned va 128 then s.trap false 0 .misaligned va
    else
      s.withGot (s.readBlock va 128) fun v s1 =>
        let c := Card.parse v
        match c.refusal with
        | some n => s1.onHart fun h => h.setX d (BitVec.ofNat 64 n)
        | none =>
          let h := s1.hart
          let full := if c.tiles then h.cnt.tiles == 0xFFFF else h.cnt.copies == 0xFFFF
          if ¬ s1.hasRoom s1.myDie ∨ full then s.stall 0
          else
            let j : Job :=
              { item := s1.items, die := s1.myDie, ctx := .strand h.id, id := h.nextJob, part := h.part, asid := h.csr.asid
                troot := h.csr.troot, super := h.st.priv, gang := some (gangOf h.id), det := h.st.det, rank := h.rank
                card := leBytes 128 v, waited := false, hold := none, expired := none, begun := false, kept := [], progress := 0
                todo := [], cures := [], ending := none, slot := none, replies := [], result := none, complete := false }
            { s1 with jobs := s1.jobs ++ [j], items := s1.items + 1 }.onHart fun h =>
              { h with
                nextJob := nextId h.nextJob
                cnt := if c.tiles then { h.cnt with tiles := h.cnt.tiles + 1 } else { h.cnt with copies := h.cnt.copies + 1 }
              }.setX d (h.nextJob.zeroExtend 64)

/-! ### Launch records (R348, R350) -/

/-- Why a header is rejected, lowest code first (R350). -/
inductive HeaderFault | format | field
  deriving DecidableEq, Repr

/-- The reserved fields of a header. -/
def headerReserved (v : Nat) : Bool :=
  [(480, 32), (45, 3), (38, 2), (31, 1)].any fun f => decide (bits v f.1 f.2 ≠ 0)

/-- The checks of R350 on a header; `host` rejects a shape-variable mask. -/
def checkHeader (v : Nat) (host : Bool) : Option HeaderFault :=
  if bits v 0 16 ≠ 1 then some .format
  else if 44 < bits v 32 6 ∨ bits v 20 5 < 12 ∨ 20 < bits v 20 5 ∨ bits v 64 2 ≠ 0 ∨ bits v 384 3 ≠ 0 ∨ bits v 320 16 ≠ 0 ∨
      headerReserved v ∨ (host ∧ bits v 448 32 ≠ 0) then some .field
  else none

/-- A launch as its checked header makes it, queued. -/
def launchOf (v : Nat) (item : Nat) (die : Fin 2) (q : Fin 64) (part : Fin 8) (asid : BitVec 10) (seq record : Word)
    (node : Option (Nat × Word)) (parent : Option Nat) (byStrand : Bool) : Launch where
  id := item
  item := item
  die := die
  queue := q
  part := part
  asid := asid
  seq := seq
  record := record
  node := node
  stages := bits v 16 3 + 1
  det := bit v 19
  entry := BitVec.ofNat 64 (bits v 64 64)
  arg0 := BitVec.ofNat 64 (bits v 128 64)
  arg1 := BitVec.ofNat 64 (bits v 192 64)
  stackBase := BitVec.ofNat 64 (bits v 256 64)
  stackLog2 := bits v 20 5
  ctxBase := BitVec.ofNat 64 (bits v 320 64)
  spanTag := BitVec.ofNat 16 (bits v 48 16)
  tables := BitVec.ofNat 64 (bits v 384 64)
  nexpr := bits v 40 5
  nbanks := bits v 32 6
  svMask := BitVec.ofNat 32 (bits v 448 32)
  parent := parent
  foot := { reads := regionsAt v 512, writes := regionsAt v 768 }
  sv := Vector.replicate 32 0
  stvec := 0
  sscratch := 0
  troot := 0
  rank := 0
  area := []
  began := 0
  byStrand := byStrand
  aborted := false
  state := .queued

/-- Whether a queue is enabled, and the partition it belongs to (R357). -/
def Queue.enabled (q : Queue) : Bool := bit q.cfg.toNat 63
def Queue.part (q : Queue) : Fin 8 := ⟨bits q.cfg.toNat 59 3, by unfold bits; omega⟩
def Queue.asid (q : Queue) : BitVec 10 := BitVec.ofNat 10 q.cfg.toNat
def Queue.level (q : Queue) : Nat := bits q.cfg.toNat 57 2
def Queue.weight (q : Queue) : Nat := bits q.cfg.toNat 49 8
def Queue.suspended (q : Queue) : Bool := bit q.cfg.toNat 62
def Queue.ringLog2 (q : Queue) : Nat := bits q.cfg.toNat 44 5

/-- Die of a queue's items: the die of its partition, whose command processor reads it (R16, R358; log 32). -/
def State.queueDie (s : State) (q : Fin 64) : Fin 2 := (s.parts[s.queues[q].part]).die

/-- The queue a header names for a LAUNCH. -/
def headerQueue (v : Nat) : Fin 64 := ⟨bits v 25 6, by unfold bits; omega⟩

/-- What LAUNCH answers for a header it rejects (R350). -/
def State.launchRefusal (s : State) (v : Nat) : Option Nat :=
  let q := s.queues[headerQueue v]
  match checkHeader v false with
  | some .format => some 0x8000000000000001
  | some .field => some 0x8000000000000002
  | none => if q.enabled ∧ q.part = s.hart.part then none else some 0x8000000000000003

/-- LAUNCH (R212, R350, R355). -/
def execLaunch (d a : Reg) (s : State) : Result :=
  s.strandOnly fun s =>
    let va := s.hart.getX a
    if ¬ aligned va 128 then s.trap false 0 .misaligned va
    else
      s.withGot (s.readBlock va 128) fun v s1 =>
        match s1.launchRefusal v with
        | some n => s1.onHart fun h => h.setX d (BitVec.ofNat 64 n)
        | none =>
          if ¬ s1.hasRoom s1.myDie then s.stall 0
          else
            let n := headerQueue v
            let q := s1.queues[n]
            let l := launchOf v s1.items s1.myDie n q.part q.asid q.nextSeq va none (some s1.hart.id.launch) true
            { s1 with
              launches := s1.launches ++ [l]
              items := s1.items + 1
              queues := s1.queues.set n { q with nextSeq := q.nextSeq + 1 } }.onHart fun h => h.setX d q.nextSeq

/-! ### Streams (R282) -/

/-- STREAM: a fifth stream leaves none bound to its register. -/
def execStream (n : Fin 8) (b : Reg) (sz : Size) (s : State) : Result :=
  s.strandOnly fun s => s.onHart fun h =>
    let rest := h.streams.filter fun x => x.reg != n
    let x : StreamBinding := { reg := n, base := h.base n, length := h.getX b, size := sz, position := h.base n }
    { h with streams := if rest.length < 4 then rest ++ [x] else rest }

/-- STREAMOFF. -/
def execStreamoff (n : Fin 8) (s : State) : Result :=
  s.strandOnly fun s => s.onHart fun h => { h with streams := h.streams.filter fun x => x.reg != n }

end Sys2Proof.Machine
end

