-- ==== Sys2Proof/Machine/Queues.lean ====
section
/-! DEFINITION. Launch queues: status block, faults, and launch lists (R350, R355, R359-R361). -/

namespace Sys2Proof.Machine

/-! ### Reads and writes of the command processor (R349, R357, R359) -/

/-- On whose behalf a queue's command processor translates: the queue's ASID, at supervisor privilege (log 34). -/
def State.queueCtx (s : State) (q : Fin 64) : Ctx where
  part := s.queues[q].part
  asid := s.queues[q].asid.toNat
  troot := (s.rootOf s.queues[q].part s.queues[q].asid.toNat).toNat
  super := true
  gang := none
  rank := Fin.ofNat 4096 s.parts[s.queues[q].part].jobSelf.toNat

/-- The 64 bytes of a status block (R359). -/
def Queue.statusBytes (q : Queue) : List Byte :=
  leBytes 8 q.started.toNat ++ leBytes 8 q.done.toNat ++ leBytes 8 q.fseq.toNat ++ leBytes 8 q.faddr.toNat ++
    leBytes 32 (q.fcode % 256 + q.kind % 16 * 2 ^ 8 + q.ekind % 16 * 2 ^ 12 + q.eidx % 256 * 2 ^ 16)

/-- Notes whether a queue's status block is still to be written. -/
def State.setOwed (s : State) (q : Fin 64) (b : Bool) : State := { s with queues := s.queues.set q { s.queues[q] with owed := b } }

/-- Writes a queue's status block; a write that faults is dropped, one that meets a page in transit or no free tag waits (R357,
R359, R378, R434). -/
def State.writeStatus (s : State) (q : Fin 64) : State :=
  let k := s.queues[q]
  if k.status = 0 then s.setOwed q false
  else
    match s.unitTarget (s.queueCtx q) k.status k.statusBytes with
    | .ok w s1 => (s1.setOwed q false).unitWrites (s.queueCtx q) (.unit 0) [w]
    | .fault _ => s.setOwed q false
    | _ => s.setOwed q true

/-- The number under which a queue's command processor asks other ranks (log 31). -/
def unitOf (q : Fin 64) : Nat := q.val + 1

/-- A read of words by a queue's command processor, as loads of class 15: the spec names that class for the tail (R349), and none for
the other reads (R357; log 93). -/
def State.queueWords (s : State) (q : Fin 64) (n : Nat) (va : Word) : Acc (List Nat) := s.unitWords (unitOf q) (s.queueCtx q) 15 n va

/-- Changes a queue's registers and writes its status block. -/
def State.onQueue (s : State) (q : Fin 64) (f : Queue → Queue) : State :=
  { s with queues := s.queues.set q (f s.queues[q]) }.writeStatus q

/-- Records a fault in the queue status (R359); FCODE is 0 but for KIND 2, 5 and 6. -/
def Queue.fault (k : Queue) (kind fcode : Nat) (faddr fseq : Word) : Queue :=
  { k with kind := kind, fcode := fcode, faddr := faddr, fseq := fseq }

/-- Counts an item as completed (R355, R359). -/
def Queue.finish (k : Queue) : Queue := { k with done := k.done + 1 }

/-- Notes a sequence number as started. -/
def Queue.start (k : Queue) (seq : Word) : Queue := { k with started := if k.started < seq then seq else k.started }

/-! ### Launch lists (R360, R361) -/

/-- Fields of a node. -/
def ListNode.field (n : ListNode) (hi lo : Nat) : Nat := bits (ofWords (n.words.map (·.toNat))) lo (hi + 1 - lo)
def ListNode.npred (n : ListNode) : Nat := n.field 27 20
def ListNode.kind (n : ListNode) : Nat := n.field 19 16
def ListNode.next0 (n : ListNode) : Word := BitVec.ofNat 64 (n.field 127 64)
def ListNode.next1 (n : ListNode) : Word := BitVec.ofNat 64 (n.field 191 128)
def ListNode.obj (n : ListNode) : Word := BitVec.ofNat 64 (n.field 255 192)
def ListNode.len (n : ListNode) : Nat := n.field 319 256
def ListNode.version (n : ListNode) : Nat := n.field 351 320

/-- Whether a node is rejected: another FORMAT, or a KIND of 4 to 15 (R360); its reserved bits are ignored (R7). -/
def ListNode.rejected (n : ListNode) : Bool := decide (n.field 15 0 ≠ 1 ∨ 3 < n.kind)

def Queue.list? (k : Queue) (id : Nat) : Option LaunchList := k.lists.find? fun l => l.id == id

/-- Replaces a list of a queue, without a status write. -/
def State.setList (s : State) (q : Fin 64) (l : LaunchList) : State :=
  let k := s.queues[q]
  { s with queues := s.queues.set q { k with lists := k.lists.map fun x => if x.id = l.id then l else x } }

def LaunchList.node? (l : LaunchList) (a : Word) : Option ListNode := l.nodes.find? fun n => n.addr == a

def LaunchList.setNode (l : LaunchList) (n : ListNode) : LaunchList :=
  { l with nodes := n :: l.nodes.filter fun x => x.addr != n.addr }

/-- The list stops: no further node becomes eligible; the status records why (R361). -/
def State.stopList (s : State) (q : Fin 64) (l : LaunchList) (kind fcode : Nat) (a : Word) : State :=
  (s.setList q { l with stopped := true }).onQueue q fun k => k.fault kind fcode a l.seq

/-- Queues a kernel node's record, or nothing where its header is rejected or cannot be read (R350, R361). -/
def State.queueKernel (s : State) (q : Fin 64) (l : LaunchList) (n : ListNode) : Acc Bool :=
  match s.queueWords q 16 n.obj with
  | .ok ws s1 =>
    let v := ofWords ws
    if ¬ aligned n.obj 128 ∨ (checkHeader v true).isSome then .ok false (s1.onQueue q fun k => k.fault 1 0 n.obj l.seq)
    else
      let k := s1.queues[q]
      let x := launchOf v s1.items (s1.queueDie q) q k.part k.asid l.seq n.obj (some (l.id, n.addr)) none false
      .ok true { s1 with launches := s1.launches ++ [x], items := s1.items + 1 }
  | .fault c => .ok false (s.onQueue q fun k => k.fault 2 c.code n.obj l.seq)
  | .wait k => .wait k
  | .stall s1 => .stall s1

/-- Queues a job node's card like a JOB, with the queue as context; it waits while its queue is idle or suspended, or its die is full
(R106, R357, R361). -/
def State.queueJob (s : State) (q : Fin 64) (l : LaunchList) (n : ListNode) : Acc Bool :=
  match s.queueWords q 16 n.obj with
  | .ok ws s1 =>
    let c := Card.parse (ofWords ws)
    if ¬ aligned n.obj 128 ∨ c.refusal.isSome then .ok false (s1.onQueue q fun k => k.fault 1 0 n.obj l.seq)
    else if ¬ s1.queues[q].enabled ∨ s1.queues[q].suspended ∨ ¬ s1.hasRoom (s1.queueDie q) then .stall s
    else
      let x := s1.queueCtx q
      let j : Job :=
        { item := s1.items, die := s1.queueDie q, ctx := .queue q l.id n.addr, id := 0, part := x.part, asid := s1.queues[q].asid
          troot := BitVec.ofNat 64 x.troot, super := x.super, gang := none, det := false, rank := x.rank
          card := leBytes 128 (ofWords ws), waited := false, hold := none, expired := none, begun := false, kept := [], progress := 0
          todo := [], cures := [], ending := none, slot := none, replies := [], result := none, complete := false }
      .ok true { s1 with jobs := s1.jobs ++ [j], items := s1.items + 1 }
  | .fault c => .ok false (s.onQueue q fun k => k.fault 2 c.code n.obj l.seq)
  | .wait k => .wait k
  | .stall s1 => .stall s1

/-- An edge on its way to a successor. -/
abbrev Edge := Word × Bool

/-- Edges a node sends: run, or skip, on both (R361). -/
def ListNode.sends (n : ListNode) (run : Bool) : List Edge := [(n.next0, run), (n.next1, run)]

/-- An eligible node begins to run: what it sends at once, if it completes at once. A conditional node whose predicate cannot be read
is a faulted node: it sends skip on both edges, and the status records why (R359, R361; log 51). -/
def State.runNode (s : State) (q : Fin 64) (l : LaunchList) (n : ListNode) : List Edge × State :=
  let put := fun (s : State) (st : NodeState) =>
    match s.queues[q].list? l.id with
    | some l1 => s.setList q (l1.setNode { n with state := st })
    | none => s
  let queued := fun (a : Acc Bool) =>
    match a with
    | .ok true s1 => ([], put (s1.unitDone (unitOf q)) .running)
    | .ok false s1 => (n.sends false, put (s1.unitDone (unitOf q)) .complete)
    | a => ([], put { s with fabric := a.fabric s } .eligible)
  match n.kind with
  | 0 => queued (s.queueKernel q l n)
  | 1 => queued (s.queueJob q l n)
  | 2 => ([], put s .running)
  | _ =>
    match s.unitRead (unitOf q) (s.queueCtx q) 15 n.obj 4 with
    | .ok d s1 =>
      let yes := leNat d != 0
      ([(n.next0, yes), (n.next1, ! yes)], put (s1.unitDone (unitOf q)) .complete)
    | .fault c =>
      (n.sends false, (put (s.unitDone (unitOf q)) .complete).onQueue q fun k => k.fault 2 c.code n.addr l.seq)
    | a => ([], put { s with fabric := a.fabric s } .eligible)

/-- A node that has received its edges resolves: it runs, or is skipped (R361). -/
def State.resolveNode (s : State) (q : Fin 64) (l : LaunchList) (n : ListNode) : List Edge × State :=
  if n.run then (s.setList q (l.setNode { n with state := .eligible })).runNode q l { n with state := .eligible }
  else (n.sends false, s.setList q (l.setNode { n with state := .skipped }))

/-- One edge is received (R361): what the node sends on, and the machine; or, where its read must wait, the fabric. -/
def State.receiveEdge (s : State) (q : Fin 64) (l : LaunchList) (e : Edge) : Except Fabric (List Edge × State) :=
  let got := fun (s : State) (n : ListNode) =>
    let n1 := { n with edges := n.edges + 1, run := n.run || e.2 }
    if n.state ≠ .partly ∨ n.npred < n1.edges then ([], s.stopList q l 4 0 n.addr)
    else if n1.edges = n.npred then s.resolveNode q l n1
    else ([], s.setList q (l.setNode n1))
  if e.1 = 0 ∨ l.stopped then .ok ([], s)
  else
    match l.node? e.1 with
    | some n => .ok (got s n)
    | none =>
      if ¬ aligned e.1 64 then .ok ([], s.stopList q l 4 0 e.1)
      else
        match s.queueWords q 8 e.1 with
        | .ok ws s1 =>
          let n : ListNode := { addr := e.1, words := ws.map (BitVec.ofNat 64), edges := 0, run := false, state := .partly }
          let s2 := s1.unitDone (unitOf q)
          .ok (if n.rejected then ([], s2.stopList q l 4 0 e.1) else got s2 n)
        | .fault c => .ok ([], (s.unitDone (unitOf q)).stopList q l 2 c.code e.1)
        | a => .error (a.fabric s)

/-- Whether a list has nothing left eligible, running or partly resolved (R361). -/
def LaunchList.idle (l : LaunchList) : Bool :=
  (l.stopped || l.stuck.isEmpty) && l.nodes.all fun n => n.state == .complete || n.state == .skipped || (l.stopped && (n.state == .partly || n.state == .eligible))

/-- A list that is idle has completed: one item is done (R359, log 35). -/
def State.settleList (s : State) (q : Fin 64) (id : Nat) : State :=
  match s.queues[q].list? id with
  | some l => if l.idle ∧ ¬ l.done then (s.setList q { l with done := true }).onQueue q Queue.finish else s
  | none => s

/-- Delivers edges until none is left; `n` bounds how many. -/
def State.sendEdges (s : State) (q : Fin 64) (id : Nat) : Nat → List Edge → State
  | 0, _ => s
  | _, [] => s.settleList q id
  | n + 1, e :: es =>
    match s.queues[q].list? id with
    | none => s
    | some l =>
      match s.receiveEdge q l e with
      | .ok (more, s1) => s1.sendEdges q id n (more ++ es)
      | .error f => ({ s with fabric := f }.setList q { l with stuck := l.stuck ++ [e] }).sendEdges q id n es

/-- More edges than any list can send before its memory is read through. -/
def edgeBound : Nat := 2 ^ 32

/-- A running node completes: a fault sends skip (R361, R447). -/
def State.completeNode (s : State) (q : Fin 64) (id : Nat) (a : Word) (ok : Bool) : State :=
  match s.queues[q].list? id with
  | none => s
  | some l =>
    match l.node? a with
    | none => s
    | some n =>
      let l1 := l.setNode { n with state := .complete }
      (s.setList q l1).sendEdges q id edgeBound (if l.stopped then [] else n.sends ok)

/-- A list whose entry has been taken: its head is read and runs (R361); where the read must wait, the fabric. -/
def State.startList (s : State) (q : Fin 64) (seq head : Word) : Except Fabric State :=
  let id := s.items
  let l : LaunchList := { id := id, queue := q, seq := seq, nodes := [], stuck := [], stopped := false, done := false }
  let s1 := { s with items := s.items + 1, queues := s.queues.set q { s.queues[q] with lists := l :: s.queues[q].lists } }
  let fail := fun (s : State) (kind code : Nat) =>
    ((s.setList q { l with stopped := true, done := true }).onQueue q fun k => (k.fault kind code head seq).finish)
  if ¬ aligned head 64 then .ok (fail s1 4 0)
  else
    match s1.queueWords q 8 head with
    | .ok ws s2 =>
      let n : ListNode := { addr := head, words := ws.map (BitVec.ofNat 64), edges := 0, run := true, state := .partly }
      if n.rejected ∨ n.npred ≠ 0 then .ok (fail s2 4 0)
      else
        let r := (s2.onQueue q fun k => k.start seq).resolveNode q l n
        .ok (r.2.sendEdges q id edgeBound r.1)
    | .fault c => .ok (fail s1 2 c.code)
    | a => .error (a.fabric s)

/-- Tries again what had to wait for a page, an answer, room or the queue's resumption: a status write, edges, eligible nodes (R359,
R361, R434). -/
def State.retryNodes (s : State) (q : Fin 64) : State :=
  let s := if s.queues[q].owed then s.writeStatus q else s
  (s.queues[q].lists.filter fun l => ! l.stopped).foldl (fun s l =>
    let s0 := if l.stuck.isEmpty then s else (s.setList q { l with stuck := [] }).sendEdges q l.id edgeBound l.stuck
    (l.nodes.filter fun n => n.state == .eligible).foldl (fun s n =>
      match s.queues[q].list? l.id with
      | some l1 =>
        let r := s.runNode q l1 n
        r.2.sendEdges q l.id edgeBound r.1
      | none => s) s0) s

end Sys2Proof.Machine
end

