-- ==== Sys2Proof/Machine/Sha.lean ====
section
/-! DEFINITION. The digest of a DIGEST job (R309): SHA-256, which R309 takes from FIPS 180-4.

The standard's constants are no table here: they are computed as that standard defines them, from
the roots of the first primes. The eight working words are two histories of four, newest first. -/

namespace Sys2Proof.Machine.Digest

/-- The greatest `r` below `lo + 2 ^ n` whose `k`-th power is at most `x`, `lo` being one such. -/
def root (k x : Nat) : Nat → Nat → Nat
  | 0, lo => lo
  | n + 1, lo => root k x n (if (lo + 2 ^ n) ^ k ≤ x then lo + 2 ^ n else lo)

/-- The first 32 bits of the fraction of the `k`-th root of a number below 512. -/
def rootBits (k p : Nat) : BitVec 32 := BitVec.ofNat 32 (root k (p * 2 ^ (32 * k)) 37 0)

/-- The primes among the first `n` numbers from `m` on, given those below `m`. -/
def primesFrom : Nat → Nat → List Nat → List Nat
  | 0, _, found => found
  | n + 1, m, found => primesFrom n (m + 1) (if found.all fun p => m % p ≠ 0 then found ++ [m] else found)

/-- The first sixty-four primes: 2 to 311. -/
def primes : List Nat := primesFrom 310 2 []

/-- The bits of `w` turned right by each amount, added without carry. -/
def turns (w : BitVec 32) (by_ : List Nat) : BitVec 32 := (by_.map w.rotateRight).foldl (· ^^^ ·) 0

/-- Word `i` of a history, newest first; absent words are not met. -/
def nth (h : List (BitVec 32)) (i : Nat) : BitVec 32 := h.getD i 0

/-- The word that follows sixteen of the message's expansion, given newest first. -/
def expandWord (h : List (BitVec 32)) : BitVec 32 :=
  nth h 15 + nth h 6 + (turns (nth h 14) [7, 18] ^^^ nth h 14 >>> 3) + (turns (nth h 1) [17, 19] ^^^ nth h 1 >>> 10)

/-- `n` further words of the expansion, the whole newest first. -/
def expand : Nat → List (BitVec 32) → List (BitVec 32)
  | 0, h => h
  | n + 1, h => expand n (expandWord h :: h)

/-- The two histories: the upper four words and the lower four. -/
structure Words where
  upper : List (BitVec 32)
  lower : List (BitVec 32)
  deriving DecidableEq, Repr

/-- One step of the compression, by the sum of its constant and its message word. -/
def Words.mix (x : Words) (kw : BitVec 32) : Words :=
  let choose := nth x.lower 2 ^^^ (nth x.lower 0 &&& (nth x.lower 1 ^^^ nth x.lower 2))
  let most := (nth x.upper 0 &&& (nth x.upper 1 ||| nth x.upper 2)) ||| (nth x.upper 1 &&& nth x.upper 2)
  let fresh := nth x.lower 3 + turns (nth x.lower 0) [6, 11, 25] + choose + kw
  { upper := (fresh + turns (nth x.upper 0) [2, 13, 22] + most) :: x.upper.take 3
    lower := (nth x.upper 3 + fresh) :: x.lower.take 3 }

/-- The sixty-four constants, in the order of their steps. -/
def constants : List (BitVec 32) := primes.map (rootBits 3)

/-- One block of sixteen words, given first to last. -/
def Words.absorb (x : Words) (block : List (BitVec 32)) : Words :=
  let sums := List.zipWith (· + ·) constants (expand 48 block.reverse).reverse
  let y := sums.foldl Words.mix x
  { upper := List.zipWith (· + ·) x.upper y.upper, lower := List.zipWith (· + ·) x.lower y.lower }

/-- What the first block meets: the square roots of the first eight primes. -/
def Words.start : Words :=
  let roots := (primes.take 8).map (rootBits 2)
  { upper := roots.take 4, lower := roots.drop 4 }

/-- The `n` low bytes of a number, most significant first. -/
def octets (n v : Nat) : List Byte := ((List.range n).map fun i => BitVec.ofNat 8 (v >>> (8 * i))).reverse

/-- A message closed as the standard closes it: a one bit, zeros, and its length in bits. -/
def closed (m : List Byte) : List Byte :=
  m ++ [0x80] ++ List.replicate ((119 - m.length % 64) % 64) 0 ++ octets 8 (8 * m.length)

/-- The next `n` big-endian words of bytes. -/
def wordsOf : Nat → List Byte → List (BitVec 32)
  | 0, _ => []
  | n + 1, l => BitVec.ofNat 32 ((l.take 4).foldl (fun v b => v <<< 8 ||| b.toNat) 0) :: wordsOf n (l.drop 4)

/-- `n` blocks of bytes, in order. -/
def Words.absorbAll (x : Words) : Nat → List Byte → Words
  | 0, _ => x
  | n + 1, l => (x.absorb (wordsOf 16 l)).absorbAll n (l.drop 64)

end Sys2Proof.Machine.Digest

namespace Sys2Proof.Machine

/-- The digest of a message: 32 bytes in the standard's output order. -/
def sha256 (m : List Byte) : List Byte :=
  let bytes := Digest.closed m
  let x := Digest.Words.start.absorbAll (bytes.length / 64) bytes
  (x.upper ++ x.lower).flatMap fun w => Digest.octets 4 w.toNat

end Sys2Proof.Machine
end

