-- ==== Sys2Proof/Machine/Jobs.lean ====
section
/-! DEFINITION. Running and completing jobs (R121, R304-R313, R436, R438, R442, R446). -/

namespace Sys2Proof.Machine

def State.job? (s : State) (n : Nat) : Option Job := s.jobs.find? fun j => j.item == n

def State.setJob (s : State) (j : Job) : State :=
  { s with jobs := s.jobs.map fun x => if x.item = j.item then j else x }

/-! ### Edges (R105) -/

/-- An item as the task scheduler compares it: number, context, ASID, footprint. -/
structure Item where
  item : Nat
  ctx : JobContext
  asid : BitVec 10
  foot : Footprint

/-- Items of a queue share one context (R105). -/
def JobContext.same : JobContext → JobContext → Bool
  | .strand a, .strand b => a == b
  | .queue p _ _, .queue q _ _ => p == q
  | _, _ => false

def Job.asItem (j : Job) : Item := { item := j.item, ctx := j.ctx, asid := j.asid, foot := j.fields.footprint }
def Launch.asItem (l : Launch) : Item := { item := l.item, ctx := .queue l.queue 0 0, asid := l.asid, foot := l.foot }

/-- Items accepted and not complete; a launch with an aborted strand counts as complete here (R447). -/
def State.openItems (s : State) : List Item :=
  (s.jobs.filter fun j => ! j.complete).map Job.asItem ++
    (s.launches.filter fun l => l.state == .queued || (l.state == .running && ! l.aborted)).map Launch.asItem

/-- Whether no earlier open item of the same context holds an item back (R104, R105). -/
def State.edgesDone (s : State) (i : Item) : Bool :=
  s.openItems.all fun e => ! (decide (e.item < i.item) && e.ctx.same i.ctx && e.asid == i.asid && hasEdge e.foot i.foot)

/-! ### Rejection (R304) -/

/-- Byte offsets of the fields a card may not have as they are. -/
def Card.offences (c : Card) : List Nat :=
  let k := c.kind
  let page := c.get 959 928
  (if 6 < k ∨ (k = 4 ∧ c.format = 1) then [2] else []) ++
  (if c.vsrc ∧ (k = 1 ∨ k = 3 ∨ k = 5 ∨ k = 6) then [2] else []) ++
  (if c.vdst ∧ k ≠ 0 then [3] else []) ++
  (if c.vdst ∧ k = 0 ∧ c.get 767 704 % 128 ≠ 0 then [88] else []) ++
  (if c.vdst ∧ k = 0 ∧ c.get 831 768 % 128 ≠ 0 then [96] else []) ++
  (if k = 1 ∧ c.get 852 832 = 0 then [104] else []) ++
  (if k = 1 ∧ c.get 873 853 = 0 then [106] else []) ++
  (if k = 1 ∧ c.get 894 874 = 0 then [109] else []) ++
  (if k = 4 ∧ (page = 0 ∨ page % 256 ≠ 0) then [116] else [])

/-- The lowest offending byte, if any. -/
def Card.rejected (c : Card) : Option Nat :=
  match c.offences with
  | [] => none
  | x :: l => some (l.foldl min x)

/-! ### Moving bytes (R310) -/

/-- Why an engine stops before a delivery offset: a fault, a wait of an access at an address, a memory stall. -/
inductive Halt
  | fault (c : Cause)
  | wait (k : WaitKind) (key : Nat) (va : Word) (version : Nat)
  | stall
  deriving DecidableEq, Repr

/-- A piece that a job will write: at which delivery offset, and how many source bytes were read for what lies below it. -/
structure Moved where
  off : Nat
  read : Nat
  write : Write
  deriving DecidableEq, Repr

/-- A job's run so far: its state, what it will write, bytes delivered and read, bytes read that go to no address, padding, the halt. -/
structure Run where
  s : State
  writes : List Moved
  off : Nat
  read : Nat
  got : List Byte
  padded : Bool
  real : Bool
  halt : Option Halt

/-- Where the bytes of a row come from: memory, or a function of the position in the row. -/
inductive Feed
  | mem (va : Word)
  | pad (f : Nat → Byte)

/-- Whether an address lies in the cluster window (R57). -/
def inClusterWindow (va : Word) : Bool := decide (clusterBase ≤ va.toNat ∧ va.toNat < clusterBase + clusterSize)

/-- A wait of access number `key` of an engine: the one it is in ends where it has reached its limit (R436, R445). -/
def Job.waits {α : Type} (j : Job) (k : WaitKind) (key : Nat) : Acc α :=
  match j.expired with
  | some c => if j.hold.any fun w => w.kind == k && w.key == key then .fault c else .wait k
  | none => .wait k

/-- An answer of another rank to access number `key` of a job: sent once (R378). -/
def State.jobRemote (s : State) (j : Job) (va : Word) (q off key : Nat) (op : SpanOp) : Acc (List Byte) :=
  match j.replies.find? fun r => r.1 == key with
  | some (_, .data l) => .ok l s
  | some (_, .error c) => .fault (causeOfCode c.toNat)
  | none =>
    if s.fabric.requests.any (fun r => r.by_ == .job j.item key) then .stall s
    else
      match s.sendRequest j.part q off 0 op (.job j.item key) va with
      | some (_, s') => .stall s'
      | none => .stall s

/-- A versioned read of an engine (R114, R121, R412). -/
def State.jobVersioned (s : State) (j : Job) (va : Word) (v n key : Nat) : Acc (List Byte) :=
  match s.resolve j.reach .load va with
  | .fault c => .fault c
  | .transit => j.waits .page key
  | .ok (.remote q off) => s.jobRemote j va q off key (.versionedLoad (BitVec.ofNat 32 v) n)
  | .ok (.bank _ _) => .fault .notVersioned
  | .ok (.device pa) =>
    match s.regionAt j.part pa with
    | none => .fault .notVersioned
    | some (_, r, q) =>
      match r.readVersion q v with
      | .ok d => if s.versionLost r q v then .fault .memoryError else .ok (((leBytes 128 d.toNat).drop (pa % 128)).take n) s
      | .error (some c) => .fault c
      | .error none => j.waits .versionLoad key

/-- A read of an engine within one 32-byte piece (R301, R310). -/
def State.jobRead (s : State) (j : Job) (va : Word) (version : Option Nat) (n key : Nat) : Acc (List Byte) :=
  if j.fields.path ∧ inClusterWindow va then .fault .bank
  else
    match version with
    | some v => s.jobVersioned j va v n key
    | none =>
      match s.resolve j.reach .load va with
      | .fault c => .fault c
      | .transit => j.waits .page key
      | .ok (.remote q off) => s.jobRemote j va q off key (.load n)
      | .ok t => s.readTarget (j.reach.at va) false t n

/-- Judges a write of an engine within one 32-byte piece; one to another rank is judged there, when it is delivered. -/
def State.jobTarget (s : State) (j : Job) (va : Word) (data : List Byte) (key : Nat) : Acc Write :=
  if j.fields.path ∧ inClusterWindow va then .fault .bank
  else
    match s.resolve j.reach .store va with
    | .fault e => .fault e
    | .transit => j.waits .page key
    | .ok t =>
      match s.judgeWrite j.reach t with
      | .ok () s1 => .ok { target := t, data := data, va := va } s1
      | .fault e => .fault e
      | .wait k => j.waits k key
      | .stall s1 => .stall s1

/-- What stops a run at access number `key`. -/
def haltOf {α : Type} (key : Nat) (va : Word) (version : Nat) : Acc α → Halt
  | .fault c => .fault c
  | .wait k => .wait k key va version
  | _ => .stall

/-- Source bytes of a run: those kept from the start of the job, where there are some, else those there now (R309). -/
def State.jobSource (s : State) (j : Job) (va : Word) (version : Option Nat) (n off : Nat) : Acc (List Byte) :=
  match j.kept.find? fun x => x.1 == off with
  | some (_, l) => .ok l s
  | none => s.jobRead j va version n (4 * off)

/-- Reads and judges one piece: `k` bytes at delivery offset `r.off` (R310). -/
def Run.piece (r : Run) (j : Job) (version : Option Nat) (src : Feed) (i k : Nat) (dst : Option Word) : Run :=
  let data : Acc (List Byte) :=
    match src with
    | .mem va => r.s.jobSource j (va + BitVec.ofNat 64 i) version k r.off
    | .pad f => .ok ((List.range k).map fun b => f (i + b)) r.s
  match data with
  | .ok l s1 =>
    let isMem := match src with | .mem _ => true | .pad _ => false
    let moved : Run := { r with
      s := s1, off := r.off + k, read := r.read + (if isMem then k else 0)
      padded := r.padded || ! isMem, real := r.real || isMem }
    match dst with
    | none => { moved with got := moved.got ++ l }
    | some d =>
      match s1.jobTarget j (d + BitVec.ofNat 64 i) l (4 * r.off + 3) with
      | .ok w s2 => { moved with s := s2, writes := r.writes ++ [{ off := r.off, read := r.read, write := w }] }
      | .stall s2 => { r with s := s2, halt := some .stall }
      | a => { r with halt := some (haltOf (4 * r.off + 3) (d + BitVec.ofNat 64 i) 0 a) }
  | .stall s1 => { r with s := s1, halt := some .stall }
  | a =>
    let va := match src with | .mem va => va + BitVec.ofNat 64 i | .pad _ => 0
    { r with halt := some (haltOf (4 * r.off) va (version.getD 0) a) }

/-- Bytes up to the next 32-byte boundary of an address. -/
def roomAt (va : Word) : Nat := 32 - va.toNat % 32

/-- Moves the rest of a row, from position `i` on; `f` bounds the pieces. -/
def Run.row (r : Run) (j : Job) (version : Option Nat) (src : Feed) (n : Nat) (dst : Option Word) : Nat → Nat → Run
  | 0, _ => r
  | f + 1, i =>
    if r.halt.isSome ∨ n ≤ i then r
    else
      let k0 := match dst with | some d => min (n - i) (roomAt (d + BitVec.ofNat 64 i)) | none => min (n - i) 32
      let k := match src with | .mem va => min k0 (roomAt (va + BitVec.ofNat 64 i)) | .pad _ => k0
      (r.piece j version src i k dst).row j version src n dst f (i + k)

/-- Moves a row of `n` bytes. -/
def Run.move (r : Run) (j : Job) (version : Option Nat) (src : Feed) (n : Nat) (dst : Option Word) : Run :=
  if r.halt.isSome then r else r.row j version src n dst n 0

/-- A run that stops here. -/
def Run.stop (r : Run) (h : Halt) : Run := if r.halt.isSome then r else { r with halt := some h }

/-- Reads an index or table entry of 4 bytes (R307, R308); its alignment is judged first. -/
def Run.entry (r : Run) (j : Job) (va : Word) (key : Nat) (k : Nat → Run → Run) : Run :=
  if r.halt.isSome then r
  else if ¬ aligned va 4 then r.stop (.fault .misaligned)
  else
    match r.s.jobRead j va none 4 key with
    | .ok l s1 => k (leNat l) { r with s := s1 }
    | .stall s1 => { r with s := s1, halt := some .stall }
    | a => r.stop (haltOf key va 0 a)

/-- A run before its first byte. -/
def Run.start (s : State) : Run :=
  { s := s, writes := [], off := 0, read := 0, got := [], padded := false, real := false, halt := none }

/-- Bytes of the pad value (R302, R306-R308). -/
def Card.padByte (c : Card) (i : Nat) : Byte := BitVec.ofNat 8 (bits c.pad (8 * (i % 4)) 8)

/-- Address field of a card. -/
def Card.addr (c : Card) (lo : Nat) : Word := BitVec.ofNat 64 (bits c.value lo 64)

/-- Source version, where the card asks for one. -/
def Card.sourceVersion (c : Card) (lo : Nat) : Option Nat := if c.vsrc then some (bits c.value lo 32) else none

/-- COPY without VDST (R305). -/
def runCopy (s : State) (j : Job) : Run :=
  let c := j.fields
  (Run.start s).move j (c.sourceVersion 832) (.mem (c.addr 640)) (c.get 831 768) (some (c.addr 704))

/-- A signed field. -/
def Card.signed (c : Card) (hi lo : Nat) : Int := (BitVec.ofNat (hi + 1 - lo) (c.get hi lo)).toInt

/-- Where an element of a TILE comes from: none where it is out of bounds (R306). -/
def Card.tileSource (c : Card) (i0 i1 i2 : Nat) : Option Word :=
  let c0 := c.signed 916 896 + i0
  let c1 := c.signed 937 917 + i1
  let c2 := c.signed 958 938 + i2
  if 0 ≤ c0 ∧ c0 < c.get 852 832 ∧ 0 ≤ c1 ∧ c1 < c.get 873 853 ∧ 0 ≤ c2 ∧ c2 < c.get 894 874 then
    some (c.addr 640 + BitVec.ofInt 64 (c0 * c.esize + c1 * c.get 799 768 + c2 * c.get 831 800))
  else none

/-- Box sizes of a TILE. -/
def Card.box (c : Card) : Nat × Nat × Nat := (c.get 971 960 + 1, c.get 983 972 + 1, c.get 995 984 + 1)

/-- One element of a TILE. -/
def Run.tileElem (r : Run) (j : Job) (c : Card) (e : Nat) : Run :=
  let (b0, b1, _) := c.box
  let dst := c.addr 704 + BitVec.ofNat 64 (e * c.esize)
  match c.tileSource (e % b0) (e / b0 % b1) (e / b0 / b1) with
  | some va =>
    if ¬ aligned va c.esize ∨ ¬ aligned dst c.esize then r.stop (.fault .misaligned)
    else r.move j none (.mem va) c.esize (some dst)
  | none =>
    if ¬ aligned dst c.esize then r.stop (.fault .misaligned) else r.move j none (.pad c.padByte) c.esize (some dst)

/-- Runs a step for 0, 1, … while nothing halts it. -/
def Run.times (f : Nat → Run → Run) : Nat → Nat → Run → Run
  | 0, _, r => r
  | n + 1, i, r => if r.halt.isSome then r else Run.times f n (i + 1) (f i r)

def runTile (s : State) (j : Job) : Run :=
  let c := j.fields
  let (b0, b1, b2) := c.box
  Run.times (fun e r => r.tileElem j c e) (b0 * b1 * b2) 0 (Run.start s)

/-- Key of an index entry's read; data pieces have keys 4n, deliveries 4n + 2, the judgement of their targets 4n + 3. -/
def entryKey (i : Nat) : Nat := 4 * i + 1

/-- Moves a row of elements, all of which are aligned to ESIZE where its first one is (R307, R446). -/
def Run.rowOf (r : Run) (j : Job) (version : Option Nat) (src : Feed) (n : Nat) (dst : Word) : Run :=
  let off : Bool := match src with | .mem va => ! aligned va j.fields.esize | .pad _ => false
  if off ∨ ¬ aligned dst j.fields.esize then r.stop (.fault .misaligned) else r.move j version src n (some dst)

/-- GATHER (R307). -/
def runGather (s : State) (j : Job) : Run :=
  let c := j.fields
  let n := c.get 863 832
  let row := fun i (r : Run) =>
    r.entry j (c.addr 768 + BitVec.ofNat 64 (4 * i)) (entryKey (2 * i)) fun x r =>
      let dst := c.addr 704 + BitVec.ofNat 64 (i * c.get 991 960)
      if x = 0xFFFFFFFF then r.rowOf j none (.pad c.padByte) n dst
      else r.rowOf j (c.sourceVersion 992) (.mem (c.addr 640 + BitVec.ofInt 64 (x * c.signed 959 896))) n dst
  Run.times row (if n = 0 then 0 else c.get 895 864) 0 (Run.start s)

/-- SCATTER (R307). -/
def runScatter (s : State) (j : Job) : Run :=
  let c := j.fields
  let n := c.get 863 832
  let row := fun i (r : Run) =>
    r.entry j (c.addr 768 + BitVec.ofNat 64 (4 * i)) (entryKey (2 * i)) fun x r =>
      if x = 0xFFFFFFFF then r
      else r.rowOf j none (.mem (c.addr 640 + BitVec.ofNat 64 (i * c.get 927 896))) n
        (c.addr 704 + BitVec.ofInt 64 (x * c.signed 1023 960))
  Run.times row (if n = 0 then 0 else c.get 895 864) 0 (Run.start s)

/-- PAGEGATHER (R308). -/
def runPagegather (s : State) (j : Job) : Run :=
  let c := j.fields
  let n := c.get 959 928
  let page := fun i (r : Run) =>
    r.entry j (c.addr 640 + BitVec.ofNat 64 (4 * i)) (entryKey (2 * i)) fun lp r =>
      if c.get 991 960 ≤ lp then r.stop (.fault .notPresent)
      else
        r.entry j (c.addr 768 + BitVec.ofNat 64 (4 * lp)) (entryKey (2 * i + 1)) fun id r =>
          let dst := some (c.addr 704 + BitVec.ofNat 64 (i * n))
          if id = 0xFFFFFFFF then r.move j none (.pad c.padByte) n dst
          else r.move j (c.sourceVersion 992) (.mem (c.addr 832 + BitVec.ofNat 64 (id * n))) n dst
  Run.times page (c.get 927 896) 0 (Run.start s)

/-- FILL (R309). -/
def runFill (s : State) (j : Job) : Run :=
  let c := j.fields
  (Run.start s).move j none (.pad fun i => BitVec.ofNat 8 (bits (c.get 831 768) (8 * (i % 8)) 8)) (c.get 767 704) (some (c.addr 640))

/-! ### Results (R310, R313, R442) -/

/-- Whether a write goes to a line of device memory in a list. -/
def Write.meets (w : Write) (lines : List Nat) : Bool :=
  match w.target with
  | .device pa => lines.contains (pa / 128 * 128)
  | _ => false

/-- Whether a run has come to its end: all of it, or a fault. -/
def Run.isOver (r : Run) : Bool :=
  match r.halt with
  | none | some (.fault _) => true
  | _ => false

/-- A run that has come to its end, cut at the first write that meets an uncorrectable line it does not cover in full (R442). -/
def Run.cutBad (r : Run) (s : State) : Run :=
  let blocked := s.blockedLines (r.writes.map (·.write))
  match (if r.isOver then r.writes.find? fun w => w.write.meets blocked else none) with
  | some w => { r with writes := r.writes.filter (fun x => decide (x.off < w.off)), off := w.off, read := w.read, halt := some (.fault .memoryError) }
  | none => r

/-- Adjoining writes to one line of another rank as one message, so that a line written in full is rewritten there (R310, R372, R442). -/
def joinRemote : List Moved → List Moved
  | [] => []
  | w :: l =>
    match joinRemote l with
    | w2 :: rest =>
      match w.write.target, w2.write.target with
      | .remote q a, .remote q2 b =>
        if q = q2 ∧ a + w.write.data.length = b ∧ a / 128 = b / 128 then
          { w with write := { w.write with data := w.write.data ++ w2.write.data } } :: rest
        else w :: w2 :: rest
      | _, _ => w :: w2 :: rest
    | [] => [w]

/-- Asks every other rank that a digest reaches whether it may be written there, before any byte of it is: a merge of no bits (R310). -/
def Run.probe (r : Run) (j : Job) : List Moved → Run
  | [] => r
  | w :: l =>
    match r.halt, w.write.target with
    | none, .remote q off =>
      match r.s.jobRemote j w.write.va q off (4 * w.off + 3) (.merge 0 0) with
      | .ok _ s1 => ({ r with s := s1 } : Run).probe j l
      | .fault c => { r with halt := some (.fault c) }
      | .wait k => { r with halt := some (.wait k (4 * w.off + 3) w.write.va 0) }
      | .stall s1 => { r with s := s1, halt := some .stall }
    | _, _ => r.probe j l

/-- The pieces of a source that can be read now, by offset, from one on; `f` bounds them (R309). -/
def State.snapshot (s : State) (j : Job) (src : Word) (n : Nat) : Nat → Nat → List (Nat × List Byte)
  | 0, _ => []
  | f + 1, i =>
    if n ≤ i then []
    else
      let va := src + BitVec.ofNat 64 i
      let k := min (min (n - i) 32) (roomAt va)
      match s.jobRead j va none k (4 * i) with
      | .ok l _ => (i, l) :: s.snapshot j src n f (i + k)
      | _ => s.snapshot j src n f (i + k)

/-- DIGEST reads its source, then writes 32 bytes, all or none; a fault of that write stands at LEN (R309, R310). -/
def runDigest (s : State) (j : Job) : Run :=
  let c := j.fields
  let r := (Run.start s).move j none (.mem (c.addr 640)) (c.get 831 768) none
  if r.halt.isSome then r
  else
    let out0 := (({ r with writes := [] } : Run).row j none (.pad fun i => (sha256 r.got).getD i 0) 32
      (some (c.addr 704)) 32 0).cutBad s
    let pieces := (positions (joinRemote out0.writes)).map fun w => { w.2 with off := c.get 831 768 + w.1, read := r.read : Moved }
    let out := if out0.halt.isNone ∧ 1 < pieces.length then out0.probe j pieces else out0
    { out with writes := if out.halt.isSome then [] else pieces, off := c.get 831 768, read := r.read, padded := false }

/-- The result of a run that has ended; a DIGEST that faults has delivered nothing (R310, R313). -/
def Run.result (r : Run) (j : Job) (fclip : Bool) (bdeliv : Nat) : JobResult :=
  let base : JobResult :=
    { status := 1, fault := 0, foffset := 0, bread := r.read, bdeliv := bdeliv, vwait := j.waited
      pclip := r.padded && ! fclip, fclip := fclip }
  match r.halt with
  | some (.fault c) => { base with status := 2, fault := c.code, foffset := r.off, bdeliv := if j.fields.kind = 6 then 0 else r.off }
  | _ => base

/-! ### Delivery (R121, R310, R442, R446) -/

/-- A write as it is delivered. -/
def Delivery.write (d : Delivery) (t : Target) : Write := { target := t, data := d.data, va := d.va }

/-- Creates the version a delivery stands for (R112, R121). -/
def State.createDelivery (s : State) (j : Job) (d : Delivery) : Acc Unit :=
  let c := j.fields
  let v := BitVec.ofNat 32 (c.get 895 864)
  match s.resolve j.reach .store d.va with
  | .fault e => .fault e
  | .transit => j.waits .page (4 * d.off + 2)
  | .ok (.bank _ _) => .fault (if c.path then .bank else .notVersioned)
  | .ok (.remote q off) =>
    match s.jobRemote j d.va q off (4 * d.off + 2) (.versionedStore v d.data) with
    | .ok _ s1 => .ok () s1
    | .fault e => .fault e
    | .wait k => .wait k
    | .stall s1 => .stall s1
  | .ok (.device pa) =>
    match s.regionAt j.part pa with
    | none => .fault .notVersioned
    | some (i, g, q) =>
      match s.createVersion i g q v (granuleOfBytes d.data) with
      | .wait k => j.waits k (4 * d.off + 2)
      | a => a

/-- Delivers one piece; a write to another rank is over once that rank has accepted it, or refused it (R310, R446); one to a bank is
judged by the mode it meets now (R72). -/
def State.deliverOne (s : State) (j : Job) (d : Delivery) : Acc Unit :=
  match d.target with
  | none => s.createDelivery j d
  | some (.remote q off) =>
    match s.jobRemote j d.va q off (4 * d.off + 2) (.store d.data) with
    | .ok _ s1 => .ok () s1
    | .fault e => .fault e
    | .wait k => .wait k
    | .stall s1 => .stall s1
  | some t =>
    match s.judgeWrite j.reach t with
    | .ok () s1 => .ok () (s1.performWrite j.part j.gang [] (d.write t))
    | a => a

/-- How a job ends whose delivery a fault stops at an offset, for whose lower bytes `read` source bytes were read: bytes from there on
are not committed, and only the bytes moved count; a DIGEST has delivered nothing (R310, R438). -/
def JobResult.stoppedAt (r : JobResult) (j : Job) (c : Cause) (off read : Nat) : JobResult :=
  if j.fields.kind = 6 then { r with status := 2, fault := c.code, foffset := j.fields.get 831 768, bdeliv := 0 }
  else { r with status := 2, fault := c.code, foffset := off, bread := read, bdeliv := off }

/-- A job that waits in its engine at access number `key`: a versioned load on the list of its granule, where that has room (R116,
R121); a wait it was in already keeps its place. -/
def State.holdJob (s : State) (j : Job) (k : WaitKind) (key : Nat) (va : Word) (version : Nat) : State :=
  let kind := s.listed k (s.resolve j.reach .load va)
  let since := match j.hold with
    | some w => if w.kind = kind ∧ w.key = key then w.since else s.ticket
    | none => s.ticket
  s.setJob { j with
    hold := some { kind := kind, key := key, va := va, version := version, since := since, woken := false }
    waited := j.waited || k == .versionLoad || k == .versionStore }

/-- A job that has ended. -/
def Job.ended (j : Job) (r : JobResult) : Job :=
  { j with hold := none, todo := [], kept := [], cures := [], ending := none, result := some { r with vwait := j.waited } }

/-- Delivers what is left, in delivery order, up to the first piece that stops (R310). -/
def State.deliver (s : State) (j : Job) (r : JobResult) : Nat → State
  | 0 => s.setJob j
  | n + 1 =>
    match j.todo with
    | [] => (s.cure j.gang j.cures.contains).setJob (j.ended r)
    | d :: rest =>
      match s.deliverOne j d with
      | .ok () s1 => s1.deliver { j with todo := rest, progress := d.off + d.data.length, hold := none } r n
      | .fault c => s.setJob (j.ended (r.stoppedAt j c d.off d.read))
      | .wait k => s.holdJob j k (4 * d.off + 2) d.va 0
      | .stall s1 => s1.setJob { j with hold := none }

/-- Goes on with a job whose bytes have all been read. -/
def State.resume (s : State) (j : Job) (r : JobResult) : State := s.deliver j r (j.todo.length + 1)

/-- Every source byte is read before the first is delivered, so an overlap is read before it is overwritten (R305). A run that waits or
stalls is read again. -/
def State.endRun (s : State) (j : Job) (r0 : Run) (fclip : Bool) (bdeliv : Nat) : State :=
  let r := r0.cutBad s
  let s0 := { s with fabric := r.s.fabric, draws := r.s.draws }
  match r.halt with
  | some (.wait k key va v) => s0.holdJob j k key va v
  | some .stall => s0.setJob { j with hold := none }
  | _ =>
    let ws := r.writes.map (·.write)
    let todo := (joinRemote r.writes).map fun w =>
      { off := w.off, read := w.read, va := w.write.va, data := w.write.data, target := some w.write.target : Delivery }
    let dirty := match j.gang.bind s.gang? with | some g => g.dirtyBad.map (·.2) | none => []
    let e := r.result j fclip bdeliv
    s0.resume { j with hold := none, todo := todo, cures := (s.badLines ++ dirty).filter (coversLine ws), ending := some e } e

/-- COPY with VDST: whole granules are created once the source has been read (R121, R305, R310); a fault of the source at an offset
creates those that lie wholly below it. -/
def State.copyVersions (s : State) (j : Job) : State :=
  let c := j.fields
  let len := c.get 831 768
  let r := (Run.start s).move j (c.sourceVersion 832) (.mem (c.addr 640)) len none
  let s0 := { s with fabric := r.s.fabric, draws := r.s.draws }
  match r.halt with
  | some (.wait k key va v) => s0.holdJob j k key va v
  | some .stall => s0.setJob { j with hold := none }
  | h =>
    let whole := r.off / 128
    let todo := (List.range whole).map fun i =>
      { off := 128 * i, read := 128 * i, va := c.addr 704 + BitVec.ofNat 64 (128 * i), data := (r.got.drop (128 * i)).take 128, target := none : Delivery }
    let good : JobResult :=
      { status := 1, fault := 0, foffset := 0, bread := r.read, bdeliv := len, vwait := j.waited, pclip := false, fclip := false }
    let e := match h with | some (.fault x) => good.stoppedAt j x (128 * whole) (128 * whole) | _ => good
    s0.resume { j with hold := none, todo := todo, ending := some e } e

/-! ### The steps (R304-R309) -/

/-- The card of a job that is rejected completes with STATUS 3 (R304). -/
def Job.reject (j : Job) (off : Nat) : Job :=
  let res : JobResult :=
    { status := 3, fault := 0, foffset := off, bread := 0, bdeliv := 0, vwait := false, pclip := false, fclip := false }
  { j with result := some res }

/-- Whether a job may begin: its edges are done, and its queue is not suspended (R105, R357). -/
def State.mayBegin (s : State) (j : Job) : Bool :=
  j.begun || (s.edgesDone j.asItem && match j.ctx with | .queue q _ _ => ! s.queues[q].suspended | .strand _ => true)

/-- Whether a job waits on the list of a granule that has not woken it (R116, R121). -/
def Job.onList (j : Job) : Bool := j.expired.isNone && j.hold.any fun w => w.kind == .versionLoad && ! w.woken

/-- The engine takes up a job that may begin: its card is checked, then the kind's effect runs; one whose bytes have been read goes on
delivering them (R304, R311). -/
def State.engine (s : State) (n : Nat) (kind : Nat → Bool) (k : Job → State) : Result :=
  .next (match s.job? n with
    | none => s
    | some j =>
      if j.result.isSome ∨ ¬ kind j.fields.kind ∨ ¬ s.mayBegin j ∨ j.onList then s
      else
        match j.fields.rejected, j.ending with
        | some off, _ => s.setJob (j.reject off)
        | none, some r => s.resume j r
        | none, none => k { j with begun := true })

/-- COPY; a card whose KIND is none of the seven is rejected here (R304, R305). -/
def execCopy (n : Nat) (s : State) : Result :=
  s.engine n (fun k => k == 0 || decide (6 < k)) fun j =>
    let c := j.fields
    if c.vdst then s.copyVersions j
    else s.endRun j (runCopy s j) false (c.get 831 768)

/-- TILE (R306). -/
def execTile (n : Nat) (s : State) : Result :=
  s.engine n (· == 1) fun j =>
    let c := j.fields
    let (b0, b1, b2) := c.box
    let meets := fun (ext b : Nat) (origin : Int) => decide (0 < ext ∧ origin < (ext : Int) ∧ 0 < origin + (b : Int))
    let any := meets (c.get 852 832) b0 (c.signed 916 896) && meets (c.get 873 853) b1 (c.signed 937 917) &&
      meets (c.get 894 874) b2 (c.signed 958 938)
    s.endRun j (runTile s j) (! any) (b0 * b1 * b2 * c.esize)

/-- GATHER (R307). -/
def execGather (n : Nat) (s : State) : Result :=
  s.engine n (· == 2) fun j =>
    let r := runGather s j
    s.endRun j r false r.off

/-- SCATTER (R307). -/
def execScatter (n : Nat) (s : State) : Result :=
  s.engine n (· == 3) fun j =>
    let r := runScatter s j
    s.endRun j r false r.off

/-- PAGEGATHER (R308). -/
def execPagegather (n : Nat) (s : State) : Result :=
  s.engine n (· == 4) fun j =>
    let r := runPagegather s j
    s.endRun j r false r.off

/-- FILL (R309). -/
def execFill (n : Nat) (s : State) : Result :=
  s.engine n (· == 5) fun j =>
    let r := runFill s j
    s.endRun j { r with padded := false } false r.off

/-- DIGEST (R309): BDELIV is 32. It hashes the bytes that stand there when the job starts: those it can read then are kept. -/
def execDigest (n : Nat) (s : State) : Result :=
  let started := (s.job? n).any (·.begun)
  s.engine n (· == 6) fun j =>
    let c := j.fields
    let j1 := if started then j else { j with kept := s.snapshot j (c.addr 640) (c.get 831 768) (c.get 831 768) 0 }
    s.endRun j1 (runDigest s j1) false 32

/-! ### Completion (R312, R313, R315) -/

/-- A completion record (R313). -/
def JobResult.record (r : JobResult) (j : Job) : List Byte :=
  leBytes 4 (r.status + j.fields.kind * 2 ^ 8 + r.fclip.toNat * 2 ^ 16 + r.pclip.toNat * 2 ^ 17 + r.vwait.toNat * 2 ^ 18
    + r.fault * 2 ^ 24) ++ leBytes 4 j.id.toNat ++ leBytes 8 r.bread ++ leBytes 8 r.bdeliv ++ leBytes 8 r.foffset

/-- A notification as UICAUSE will hold it, without the stop (R314). -/
def notification (id : BitVec 32) (status : Nat) : Word :=
  BitVec.ofNat 64 ((if status = 1 then 1 else 2) + id.toNat * 2 ^ 32)

/-- A notification becomes pending; a seventeenth is dropped (R315). -/
def Hart.notify (h : Hart) (n : Word) : Hart :=
  if h.notifs.length < 16 then { h with notifs := h.notifs ++ [n] } else { h with notifLost := true }

/-- What a step of a completion gives: done, a fault at an address, or a wait. -/
inductive RingStep (α : Type)
  | done (a : α) (s : State)
  | fault (c : Cause) (va : Word) (s : State)
  | later (s : State)

/-- An access of a completion: a wait in the engine goes on until it ends or expires (R436). -/
def State.ringStep {α : Type} (s : State) (j : Job) (key : Nat) (va : Word) (a : Acc α) : RingStep α :=
  match a with
  | .ok x s1 => .done x s1
  | .fault c => .fault c (faultAddr c va) s
  | .wait k => .later (s.holdJob j k key va 0)
  | .stall s1 => .later s1

/-- Numbers of the two accesses of a completion. -/
def slotKey : Nat := 2 ^ 70
def recordKey : Nat := 2 ^ 70 + 1

/-- Takes the next slot: an atomic add of 1 to TAIL (R312); PATH 1 does not reach the cluster window (R310). -/
def State.takeSlot (s : State) (j : Job) : Acc Nat :=
  let ring := BitVec.ofNat 64 j.fields.ring
  if j.fields.path ∧ inClusterWindow ring then .fault .bank
  else
  match s.resolve j.reach .atomic ring with
  | .fault e => .fault e
  | .transit => j.waits .page slotKey
  | .ok (.remote q off) =>
    match s.jobRemote j ring q off slotKey (.atomic .add true 1 0) with
    | .ok l s1 => .ok (leNat l) s1
    | .fault e => .fault e
    | .wait k => .wait k
    | .stall s1 => .stall s1
  | .ok t => s.modify j.reach t 8 true fun old => (old + 1) % 2 ^ 64

/-- Address of slot `t` of a job's ring. -/
def Job.slotAddr (j : Job) (t : Nat) : Word :=
  BitVec.ofNat 64 j.fields.ring + BitVec.ofNat 64 (64 + 32 * (t % 2 ^ j.fields.ringLog2))

/-- Writes the record to a slot, in one write (R312). -/
def State.writeRecord (s : State) (j : Job) (r : JobResult) (t : Nat) : Acc Unit :=
  let slot := j.slotAddr t
  if j.fields.path ∧ inClusterWindow slot then .fault .bank
  else
  match s.resolve j.reach .store slot with
  | .fault e => .fault e
  | .transit => j.waits .page recordKey
  | .ok (.remote q off) =>
    match s.jobRemote j slot q off recordKey (.store (r.record j)) with
    | .ok _ s1 => .ok () s1
    | .fault e => .fault e
    | .wait k => .wait k
    | .stall s1 => .stall s1
  | .ok t =>
    match s.judgeWrite j.reach t with
    | .ok () s1 =>
      let w : Write := { target := t, data := r.record j, va := slot }
      if w.meets (s1.blockedLines [w]) then .fault .memoryError else .ok () (s1.performWrites j.part j.gang [w])
    | .fault e => .fault e
    | .wait k => j.waits k recordKey
    | .stall s1 => .stall s1

/-- The ring's part of a completion: TAIL is added to once, whatever becomes of the record (R312). -/
def State.ringWrite (s : State) (j : Job) (r : JobResult) : RingStep Unit :=
  match j.slot with
  | some t => s.ringStep j recordKey (j.slotAddr t) (s.writeRecord j r t)
  | none =>
    match s.ringStep j slotKey (BitVec.ofNat 64 j.fields.ring) (s.takeSlot j) with
    | .done t s1 =>
      let j1 := { j with slot := some t, hold := none }
      (s1.setJob j1).ringStep j1 recordKey (j1.slotAddr t) ((s1.setJob j1).writeRecord j1 r t)
    | .fault c va s1 => .fault c va s1
    | .later s1 => .later s1

/-- Lowers a job's counter at its strand and notifies (R98, R312, R315). -/
def State.releaseJob (s : State) (j : Job) (status : Nat) (fault : Option (Cause × Word)) : State :=
  match j.ctx with
  | .queue _ _ _ => s
  | .strand i => s.onStrand i fun h =>
    let h1 := if j.fields.tiles then { h with cnt := { h.cnt with tiles := h.cnt.tiles - 1 } }
      else { h with cnt := { h.cnt with copies := h.cnt.copies - 1 } }
    let h2 := if j.fields.notify then h1.notify (notification j.id status) else h1
    match fault with
    | some (c, va) => h2.addReport { src := 2, pos := 0, cause := c.code, stval := va }
    | none => h2

/-- A completed job's list node completes, whatever its STATUS (R361). -/
def State.jobNode (s : State) (j : Job) : State :=
  match j.ctx with
  | .queue q l a => s.completeNode q l a true
  | .strand _ => s

/-- JOB_COMPLETION (R312). -/
def execJobCompletion (n : Nat) (s : State) : Result :=
  .next (match s.job? n with
    | none => s
    | some j =>
      match j.result with
      | none => s
      | some r =>
        if j.complete then s
        else
          let done := fun (s : State) (f : Option (Cause × Word)) =>
            (((s.setJob { j with complete := true, replies := [], hold := none }).releaseJob j r.status f).jobNode j).blame
              ((j.gang.bind s.gang?).bind (·.slot.map (·.1))) r.fault
          match s.ringWrite j r with
          | .done () s1 => done s1 none
          | .fault c va s1 => done s1 (some (c, va))
          | .later s1 => s1)

/-- The step by which an engine goes on with a job. -/
def engineStep (n : Nat) (s : State) : State :=
  match s.job? n with
  | none => s
  | some j =>
    if j.result.isSome then resultState (execJobCompletion n s) s
    else [execCopy n, execTile n, execGather n, execScatter n, execPagegather n, execFill n, execDigest n].foldl (fun s f => resultState (f s) s) s

/-- A job that waits in an engine reaches the limit: its engine tests once more what it waits for, and a wait that is not over ends in
the cause (R436, R445). -/
def State.expireJob (s : State) (n : Nat) (k : WaitKind → Bool) (c : Cause) : State :=
  match s.job? n with
  | some j =>
    if j.hold.any fun w => k w.kind then
      let t := engineStep n (s.setJob { j with expired := some c })
      match t.job? n with
      | some j1 => t.setJob { j1 with expired := none }
      | none => t
    else s
  | none => s

end Sys2Proof.Machine
end

