-- ==== Sys2Proof/Machine/Events.lean ====
section
/-! DEFINITION. Steps that end what a strand has begun: stores, background loads, arrivals, forked programs, limits of waits
(R52, R93, R98, R268, R434, R435, R445). -/

namespace Sys2Proof.Machine

/-- Applies a change to the forked programs of a strand. -/
def State.onProgram (s : State) (i : StrandId) (f : Hart → Hart) : State :=
  let g := fun h : Hart => if h.isControl ∧ h.id = i then f h else h
  { s with hart := g s.hart, harts := s.harts.map g }

/-- The oldest pending store reaches its event: stores do so in issue order (R98). -/
def Hart.performStore (h : Hart) : Hart :=
  match h.pending with
  | [] => h
  | p :: rest =>
    { h with pending := rest, cnt := { h.cnt with stores := if p.counted then h.cnt.stores - 1 else h.cnt.stores } }

/-- STORE_PERFORMED (R98): of the strand, or of its forked program where the strand has none. -/
def execStorePerformed (i : StrandId) (s : State) : Result :=
  .next (match s.strand? i with
    | some h => if h.pending.isEmpty then s.onProgram i Hart.performStore else s.onStrand i Hart.performStore
    | none => s.onProgram i Hart.performStore)

/-! ### VLDB_DATA_WRITE (R268, R412) -/

/-- `n` bytes of device memory as a background load reads them: a number, or the cause of data that cannot be read (R441). -/
def State.vldbBytes (s : State) (c : Ctx) (pa n : Nat) : Except Cause Nat :=
  match s.readTarget c false (.device pa) n with
  | .ok l _ => .ok (leNat l)
  | .fault e => .error e
  | _ => .error .memoryError

/-- The raw value of an element of a background load, or the cause of bytes that cannot be read. -/
def State.vldbRaw (s : State) (c : Ctx) (v : PendingVldb) (x : VldbElem) : Except Cause Nat :=
  match x.source with
  | .value raw => .ok raw
  | .bad e => .error e
  | .device pa =>
    let m := memWidth v.fmt v.tag
    if v.fmt = .nested then
      (List.range v.planes).foldl (fun acc q =>
        acc.bind fun n => (s.vldbBytes c (pa + 128 * q) 1).map fun b => n + bits b x.sub 1 * 2 ^ (7 - q)) (.ok 0)
    else if m = 4 then (s.vldbBytes c pa 1).map fun b => bits b x.sub 4
    else s.vldbBytes c pa (m / 8)

/-- The elements a background load writes, in order; a bad element gets free bits (R268; log 4). -/
def State.vldbElems (s : State) (c : Ctx) (v : PendingVldb) : List (Nat × VldbElem) → List (Nat × Nat) × State
  | [] => ([], s)
  | (e, x) :: l =>
    match s.vldbRaw c v x with
    | .ok raw =>
      let (r, s1) := s.vldbElems c v l
      ((e, widen v.fmt v.tag raw x.scale) :: r, s1)
    | .error _ =>
      let (n, s1) := s.draw
      let (r, s2) := s1.vldbElems c v l
      ((e, n % 2 ^ tagWidth v.tag) :: r, s2)

/-- The register, the duplicate mask and the counter after a background load (R268). -/
def Hart.putVldb (h : Hart) (v : PendingVldb) (elems : List (Nat × Nat)) (bad : List BadElem) : Hart :=
  let h1 := h.setV v.dest (h.tag v.dest) (putElems h.v[v.dest] (tagWidth v.tag) elems)
  let h2 := h1.setP v.pred (putBits (h1.getP v.pred) ((List.range v.elems.length).map fun e => (e, v.dup.getLsbD e)))
  { h2 with vldbs := h2.vldbs.drop 1, badV := h2.badV ++ bad, cnt := { h2.cnt with loads := h2.cnt.loads - 1 } }

/-- VLDB_DATA_WRITE (R268): the strand's oldest background load is written. -/
def execVldbDataWrite (i : StrandId) (s : State) : Result :=
  .next (match s.strand? i with
    | none => s
    | some h =>
      match h.vldbs with
      | [] => s
      | v :: _ =>
        let (elems, s1) := s.vldbElems h.ctx v (positions v.elems)
        let bad := (positions v.elems).filterMap fun x =>
          match s.vldbRaw h.ctx v x.2 with
          | .error c => some { reg := v.dest, elem := x.1, va := x.2.va, cause := c : BadElem }
          | .ok _ => none
        s1.onStrand i (·.putVldb v elems bad))

/-! ### BARRIER_REGISTRATION (R93) -/

/-- An arrival registers once its named accesses are performed. -/
def execBarrierRegistration (i : StrandId) (id : Fin 36) (s : State) : Result :=
  .next (match s.strand? i, (s.barrier (barrierKey i id)).pending.find? fun a => a.strand == i with
    | some h, some a => if h.arrivalReady a then s.registerArrival i id else s
    | _, _ => s)

/-! ### FORKED_PROGRAM_START (R52, R154) -/

/-- A forked program at its start: x3, x4, the entry point; FFLAGS, RMODE and INSTRET stay as its core has them, and DET is clear, also
under a DET launch (log 36). -/
def Hart.startProgram (c : Fin 64) (f : Fork) (owner before : Hart) : Hart :=
  { Hart.idle with
    id := f.owner
    engine := .control c
    phase := .running
    part := owner.part
    queue := owner.queue
    rank := owner.rank
    x := (Hart.idle.x.set 3 f.arg).set 4 (BitVec.ofNat 64 f.owner.vcid.val)
    pc := f.entry
    csr := { Csrs.start with
      asid := f.asid
      troot := f.troot
      fflags := before.csr.fflags
      rmode := before.csr.rmode
      instret := before.csr.instret }
    st := { Status.start with priv := f.super, att := false } }

/-- FORKED_PROGRAM_START: the next program of the queue, once the control core runs none. -/
def execForkedProgramStart (c : Fin 64) (s : State) : Result :=
  .next (match s.clusters[c].forks with
    | [] => s
    | f :: rest =>
      let mine := fun h : Hart => h.engine == .control c
      if (s.program? c).isSome ∨ ¬ s.golium.running .matrixBoot then s
      else
        match s.strand? f.owner with
        | none => s
        | some o =>
          let h := Hart.startProgram c f o ((s.allHarts.find? mine).getD Hart.idle)
          let s1 := { s with clusters := s.clusters.set c { s.clusters[c] with forks := rest } }
          let others := s1.harts.filter fun x => ! mine x
          if mine s1.hart then { s1 with hart := h, harts := others } else { s1 with harts := others ++ [h] })

/-! ### Waits that reach their limit, pages in transit (R434, R435, R445, R450) -/

/-- The cause of a wait that has lasted 2^30 cycles (R435, R445, R450). -/
def WaitKind.timeout : WaitKind → Cause
  | .versionLoad | .versionRefused | .versionStore => .versionTimeout
  | .page | .fetch => .notPresent
  | _ => .waitTimeout

/-- Whether a wait is for a page in transit, of an access or of the fetch (R434, R436). -/
def WaitKind.transit : WaitKind → Bool
  | .page | .fetch => true
  | _ => false

/-- STVAL of a timeout: the waiting instruction's word for 0x0D, the convoy for a fetch, else the address waited for (R409, R436,
R445). -/
def Hart.timeoutValue (h : Hart) (w : Wait) : Word :=
  if w.kind.timeout = .waitTimeout then w.ir.zeroExtend 64 else if w.kind = .fetch then h.pc else w.addr

/-- Whether a hart is the strand of an id. -/
def Hart.isStrand (h : Hart) (i : StrandId) : Bool := decide (h.engine = .strand ∧ h.id = i ∧ h.phase ≠ .absent)

/-- Harts that stay in the rotation when another comes in front: all but one that is absent. -/
def Hart.kept (h : Hart) : List Hart := if h.phase = .absent then [] else [h]

/-- Brings the strand of an id in front; the one in issue joins the rotation. -/
def State.focus (s : State) (i : StrandId) : State :=
  if s.hart.isStrand i then s
  else
    match s.harts.find? (·.isStrand i) with
    | none => s
    | some h => { s with hart := h, harts := (s.harts.filter fun x => ! x.isStrand i) ++ s.hart.kept }

/-- The wait of the strand in front ends in a trap, at its position and its element (R40, R445); at the fetch of a trap's handler it aborts
the strand (R414). -/
def State.trapWait (s : State) (w : Wait) (c : Cause) (stval : Word) : State :=
  match if w.kind = .fetch ∧ c.abortsDelivery then s.hart.delivery else none with
  | some k => s.onHart fun h => (h.startAbort k).setFlow (.held 0)
  | none =>
    let s1 := s.onHart fun h => { h with wait := none, iss := { h.iss with pos := w.pos } }
    let s2 := if w.kind = .sxRound then s1.withdrawRound s.hart.id s.hart.pc else s1
    s2.trap true 0 c stval

/-- STVAL when a wait ends in a cause: the session for 0x2A of a sorted exchange, the token of a BAR.WAIT for 0x0A, else as for a
timeout (R203, R409, R450). -/
def Hart.endedValue (h : Hart) (w : Wait) (c : Cause) : Word :=
  if c = .unreachable then w.addr else if c = .phaseToken then BitVec.ofNat 64 (w.addr.toNat % 256) else h.timeoutValue w

/-- The wait of the strand in front ends in a cause (R435, R445, R450). -/
def State.takeExpiry (s : State) (w : Wait) (c : Cause) : State := s.trapWait w c (s.hart.endedValue w c)

/-- A wait reaches its limit: a strand whose context is saved takes the trap once it is restored, and one that waits for a version
once it tests it for the last time (R415, R444, R445). -/
def State.expireWait (s : State) (h : Hart) (w : Wait) : State :=
  if h.saved = .resident ∧ ¬ w.kind.version then (s.focus h.id).takeExpiry w w.kind.timeout
  else s.onStrand h.id fun k => { k with wait := some { w with expired := some w.kind.timeout } }

/-- A strand's wait of a kind reaches its limit. -/
def State.expireStrand (s : State) (i : StrandId) (k : WaitKind → Bool) : State :=
  match s.strand? i with
  | none => s
  | some h =>
    match h.wait with
    | some w => if w.met ∨ ¬ k w.kind ∨ h.phase ≠ .running then s else s.expireWait h w
    | none => s

/-- Whether a strand waits for a page. -/
def State.strandTransit (s : State) (i : StrandId) : Bool :=
  (s.strand? i).any fun h => h.wait.any fun w => w.kind.transit && ! w.met

/-- The wait for a page of a strand's forked program reaches its limit: the program ends by that fault (R288, R435, R436). -/
def State.expireProgram (s : State) (i : StrandId) : State :=
  match s.allHarts.find? fun h => h.isControl && h.id == i && h.phase == .running && h.wait.any fun w => w.kind.transit && ! w.met with
  | none => s
  | some h =>
    match h.engine, h.wait with
    | .control c, some w => s.endForkedByFault c .notPresent (h.timeoutValue w)
    | _, _ => s

/-- WATCHDOG_TIMEOUT (R445, R450): a strand's wait, or a job's wait for a version. -/
def execWatchdogTimeout (w : Waiter) (s : State) : Result :=
  .next (match w with
    | .strand i => s.expireStrand i fun k => ! k.transit
    | .job n => s.expireJob n WaitKind.version .versionTimeout)

/-- TRANSIT_WALK_RETRY (R434, R436): the walk is repeated when the waiting instruction is issued again, or its fetch, of the strand
or of its forked program. -/
def execTransitWalkRetry (i : StrandId) (s : State) : Result := .next ((s.onStrand i Hart.walkAgain).onProgram i Hart.walkAgain)

/-- TRANSIT_TIMEOUT (R435, R436): a strand's wait for a page, its forked program's, or a job's. -/
def execTransitTimeout (w : Waiter) (s : State) : Result :=
  .next (match w with
    | .strand i => if s.strandTransit i then s.expireStrand i WaitKind.transit else s.expireProgram i
    | .job n => s.expireJob n WaitKind.transit .notPresent)

end Sys2Proof.Machine
end

