-- ==== Sys2Proof/Machine/Sync.lean ====
section
/-! DEFINITION. Fences, barriers, counter waits, user-interrupt instructions: majors 0x16 and 0x1E (R91-R99, R200-R207, R315). -/

namespace Sys2Proof.Machine

/-- FENCE retires once every earlier access of a masked class is performed (R91, R200). Loads and stores are performed when
they issue (log 5, log 70); a background load is performed when its data have arrived. -/
def execFence (mask : BitVec 16) (_sc : Scope) (s : State) : Result :=
  .next (if s.hart.vldbs.any (fun v => mask.getLsbD v.cls.val) then s.stall 0 else s.onHart (·.setFlow .seq))

/-- BAR.ARRIVE: the token, and an arrival that registers later; held while an earlier arrival still counts (R93, R201). -/
def execBarArrive (d b : Reg) (id : Fin 36) (_sc : Scope) (s : State) : Result :=
  s.strandOnly fun s =>
    let h := s.hart
    let k := barrierKey h.id id
    let bar := s.barrier k
    if bar.registered.contains h.id ∨ bar.pending.any (fun a => a.strand == h.id) then
      s.waitFor .barrierArrive 0 (barrierWaitKey id bar.phase.toNat)
    else
      let mask := (h.getX b).truncate 16
      let a : Arrival := { strand := h.id, mask := mask, after := h.arrivalAfter mask }
      (s.setBarrier { bar with pending := bar.pending ++ [a] }).onHart fun h => h.setX d (bar.phase.zeroExtend 64)

/-- What a BAR.WAIT whose wait has ended writes: 1 when its generation completed, the distance BAR.INIT made (R94, R203). -/
def Hart.metDistance (h : Hart) : Word :=
  match h.wait with
  | some w => if w.elem = 0 then 1 else BitVec.ofNat 64 w.elem
  | none => 1

/-- BAR.WAIT: distance from the token to the phase (R94, R202). -/
def execBarWait (d a : Reg) (id : Fin 36) (s : State) : Result :=
  s.strandOnly fun s =>
    let h := s.hart
    let t : BitVec 8 := (h.getX a).truncate 8
    let dist := ((s.barrier (barrierKey h.id id)).phase - t).toNat
    let met : Bool := match h.wait with | some w => w.kind == .barrier && w.met | none => false
    if met then s.onHart fun h => (h.setX d (h.metDistance)).setFlow .seq
    else if dist = 0 then s.waitFor .barrier 0 (barrierWaitKey id t.toNat)
    else if dist < 128 then s.onHart fun h => (h.setX d (BitVec.ofNat 64 dist)).setFlow .seq
    else s.trap false 0 .phaseToken (t.zeroExtend 64)

/-- A waiting BAR.WAIT evaluates R94 again against a new phase: it goes on waiting, completes, or takes cause 0x0A (R203). -/
def Wait.reevaluate (w : Wait) (phase : BitVec 8) : Wait :=
  let dist := (phase - BitVec.ofNat 8 w.addr.toNat).toNat
  if dist = 0 then w
  else if dist < 128 then { w with met := true, elem := dist }
  else { w with expired := some .phaseToken }

/-- BAR.INIT discards the registered arrivals of the collecting generation, this rank's and the others', sets the phase, and
has the waiting BAR.WAITs see it (R203; log 87). -/
def execBarInit (a : Reg) (id : Fin 36) (s : State) : Result :=
  s.supervisorOnly fun s =>
    let k := barrierKey s.hart.id id
    let bar := s.barrier k
    let phase : BitVec 8 := (s.hart.getX a).truncate 8
    let again := fun w : Wait =>
      if w.kind = .barrier ∧ ¬ w.met ∧ w.addr.toNat / 256 = id.val then w.reevaluate phase else w
    let see := fun h : Hart =>
      if participates k h then { h with wait := h.wait.map again, paused := h.paused.map fun p => (p.1, again p.2) } else h
    let s1 := s.setBarrier { bar with
      registered := [], phase := phase, announced := false
      peers := bar.peers.filter fun e => e.2 != bar.phase.toNat && e.2 != phase.toNat }
    { s1 with hart := see s1.hart, harts := s1.harts.map see }

/-- Exchanges x1 to x7 with the shadow bank (R315). -/
def Hart.swapShadow (h : Hart) : Hart :=
  { h with
    x := Vector.ofFn fun i : Fin 32 =>
      if hi : 1 ≤ i.val ∧ i.val ≤ 7 then h.shadow[i.val - 1]'(by omega) else h.x[i]
    shadow := Vector.ofFn fun i : Fin 7 => h.x[i.val + 1]'(by omega) }

/-- Return from a user-level handler: the shadow bank, UIH, and the stop UICAUSE keeps (R205, R315). -/
def Hart.returnUser (h : Hart) : Hart :=
  let g := h.swapShadow
  { g with
    st := { g.st with uih := false }
    csr := { g.csr with
      vconv := BitVec.ofNat 2 (bits h.csr.uicause.toNat 23 2)
      vstart := BitVec.ofNat 10 (bits h.csr.uicause.toNat 13 10) } }

/-- UIRET (R205). -/
def execUiret (s : State) : Result :=
  s.strandOnly fun s =>
    if s.hart.st.uih then s.onHart fun h => h.returnUser.setFlow (.jump h.csr.uiepc) else s.trapWord .illegal

/-- UIMASK (R204). -/
def execUimask (d a : Reg) (s : State) : Result :=
  s.strandOnly fun s => s.onHart fun h =>
    let old := boolWord h.st.uie
    let new := (h.getX a).getLsbD 0
    { h with st := { h.st with uie := new } }.setX d old

/-- Whether a counter is at or below an immediate; 15 asks nothing (R99). -/
def counterMet (c : BitVec 16) (i : Fin 16) : Bool := i.val == 15 || decide (c.toNat ≤ i.val)

/-- WAITC (R99, R206, R207). -/
def execWaitc (l t c k : Fin 16) (s : State) : Result :=
  let h := s.hart
  let ok :=
    if h.isControl then t.val == 15 || h.pending.isEmpty
    else counterMet h.cnt.loads l && counterMet h.cnt.stores t && counterMet h.cnt.copies c && counterMet h.cnt.tiles k
  .next (if ok then s.onHart (·.setFlow .seq) else s.waitFor .counters 0 0)

end Sys2Proof.Machine
end

