-- ==== Sys2Proof/Machine/Sched.lean ====
section
/-! DEFINITION. Fetch, the core arbiter, reports and notifications taken, parking, swapping, pre-emption, placement
(R28-R34, R41-R47, R51, R100, R315, R352, R362-R367, R410, R411). -/

namespace Sys2Proof.Machine

/-! ### Readiness -/

/-- Whether a hart has a notification it may take (R315, R415). -/
def Hart.mayNotify (h : Hart) : Bool := ! h.isControl && ! h.notifs.isEmpty && h.st.uie && ! h.st.uih && ! h.st.priv

/-- Whether a wait is that of a versioned store in a span window: the store has been sent, and would be sent again (log 100). -/
def Wait.sent (w : Wait) : Bool := w.kind == .versionStore && decide (spanBase ≤ w.addr.toNat)

/-- Whether an asynchronous report may be taken, the oldest first: at user privilege between convoys, from a RENDEZVOUS or WAITC
that a report of SRC 1 or 2 abandons, or from any wait after a restore (R288, R312, R411, R415; log 74, log 100). -/
def Hart.reportDue (h : Hart) : Bool :=
  ! h.reports.isEmpty && ! h.st.priv &&
    match h.wait with
    | some w => (h.restored && ! w.sent) || ((w.kind == .rendezvous || w.kind == .counters) && h.reports.any fun r => r.src == 1 || r.src == 2)
    | none => h.restored || match h.iss.flow with | .held _ => false | _ => true

/-- Whether the thresholds of a WAITC word are met (R99). -/
def Hart.countersMet (h : Hart) (w : Nat) : Bool :=
  let at_ := fun lo => (Fin.ofNat 16 (bits w lo 4) : Fin 16)
  counterMet h.cnt.loads (at_ 21) && counterMet h.cnt.stores (at_ 17) && counterMet h.cnt.copies (at_ 13) && counterMet h.cnt.tiles (at_ 9)

/-- Whether a wait in a JOIN has ended (R50). -/
def State.joinOver (s : State) (h : Hart) : Bool :=
  let g := gangOf h.id
  let joinAt := (s.gang? g).bind (·.joinAt)
  let lead := (s.pilot? g).map (·.id)
  if h.st.att then
    if lead = some h.id then (s.members g).all fun m => m.st.att || m.joinWait == some h.pc
    else s.streamKnown g h.streamNo || joinAt != some h.pc
  else lead.isNone || (joinAt.isSome && joinAt != some h.pc)

/-- Whether a wait in a sorted exchange has ended, by its end or by a cause (R327, R337, R448). -/
def State.sxOver (s : State) (h : Hart) (w : Wait) : Bool :=
  match s.session? h.part (Fin.ofNat 16 w.addr.toNat) with
  | none => true
  | some x =>
    match x.participant? h.id with
    | none => true
    | some q =>
      if q.stale ∨ q.closed ∨ ¬ x.live then true
      else if w.kind = .sxRound then decide (w.elem ≤ q.rounds)
      else
        let mine := (servedReceiver x.desc x.opener h.id h.rank.val (firstRank x.desc h.rank.val)).bind fun j =>
          x.receivers.find? fun r => r.index == j
        mine.all fun r => r.cut || ! (decide (r.finished + 1 < q.rounds) ||
          (! (r.buffer.any fun y => decide (y.1 = q.rounds)) && decide (r.finished < q.rounds)))

/-- Whether a wait at a FIFO bank has ended, by room, by an entry, by a cause or by a switch, no earlier one being served first (R72, R74,
R272). -/
def State.fifoOver (s : State) (h : Hart) (w : Wait) : Bool :=
  match s.bank? (some (gangOf h.id)) ((w.addr.toNat - clusterBase) / 0x40000) with
  | none => true
  | some k =>
    match fifoShape k.mode with
    | none => true
    | some (_, depth) => k.switching.isSome || ! s.fifoAhead h w.kind w.addr &&
      (if w.kind = .push then decide (k.entries.length < depth) else ! k.entries.isEmpty)

/-- Whether the wait of a hart has ended, or something else makes it ready (R30, R31, R316, R445). -/
def State.waitOver (s : State) (h : Hart) : Bool :=
  match h.wait with
  | none => true
  | some w =>
    w.met || w.expired.isSome || h.mayNotify || h.reportDue ||
      match w.kind with
      | .barrierArrive =>
        let b := s.barrier (barrierKey h.id (Fin.ofNat 36 (w.addr.toNat / 256)))
        ! b.registered.contains h.id && ! b.pending.any fun a => a.strand == h.id
      | .sxRound | .sxRecv => s.sxOver h w
      | .push | .pop => s.fifoOver h w
      | .counters => h.countersMet w.ir.toNat
      | .fork => match s.clusterOf (gangOf h.id) with | some c => decide (s.clusters[c].forks.length < 4) | none => false
      | .join => s.joinOver h
      | .versionLoad | .versionRefused | .versionStore => s.versionOver h w
      | .barrier | .rendezvous | .page | .fetch => false

/-- Whether a strand is waiting under R30. -/
def State.waiting (s : State) (h : Hart) : Bool := h.wait.isSome && ! s.waitOver h

/-- Whether a hart is on its core and runs. -/
def Hart.live (h : Hart) : Bool :=
  h.saved == .resident && match h.phase with | .running | .aborting _ _ => true | _ => false

/-- A ready hart: on its core, running, and not waiting (R34). -/
def State.ready (s : State) (h : Hart) : Bool := h.live && ! s.waiting h

/-! ### Fetch (R41, R46, R436) -/

/-- The first word of a convoy whose page is in transit. -/
def State.transitAt (s : State) (c : Ctx) : Nat → Word → Option Word
  | 0, _ => none
  | n + 1, a =>
    match s.fetch c a with
    | .transit => some a
    | .word w => if continues w then s.transitAt c n (a + 4) else none
    | .fault _ => none

/-- A fetch that meets a page in transit at any word of its convoy: the core waits at its convoy. -/
def State.fetchFor (s : State) (h : Hart) : Hart :=
  match h.live && h.wait.isNone, s.transitAt h.ctx 4 h.pc with
  | true, some a => { h with
      wait := some { kind := .fetch, pos := 0, elem := 0, addr := a, ir := 0, since := s.ticket, met := false, expired := none } }
  | _, _ => h

/-- The hart in front meets such a page; it waits anew. -/
def State.fetchWait (s : State) : State := s.onHart fun h => s.fetchFor { h with wait := none }

/-- ANISE_FETCH: the stream's next convoys reach the attached cores; a decoded ring holds no architectural state (R41, R49). -/
def execAniseFetch (g : GangId) (s : State) : Result :=
  .next (s.onMembers g fun h => if h.st.att then s.fetchFor h else h)

/-- PRIVATE_FETCH (R46). -/
def execPrivateFetch (i : StrandId) (s : State) : Result :=
  .next (s.onStrand i fun h => if h.st.att then h else s.fetchFor h)

/-! ### The attached stream (R42, R44, R47) -/

/-- Whether the convoy at a hart's pc ends in a control transfer: a branch, a jump, STRIP, LOOP with its count of 0 (R55), or an active loop's end (R44; log 37). -/
def State.atTransfer (s : State) (h : Hart) : Bool :=
  (h.st.lact && h.pc == h.csr.lend) ||
    match s.fetch h.ctx h.pc with
    | .word w => let m := bits w.toNat 25 6; decide (0x10 ≤ m ∧ m ≤ 0x14)
    | _ => false

/-- Whether an attached strand may not issue yet: the drift window, or a control transfer its pilot has not resolved (R42, R44). -/
def State.streamHeld (s : State) (h : Hart) : Bool :=
  let g := gangOf h.id
  h.st.att && (s.gang? g).isSome &&
    (match s.slowest g with
      | some n => decide (n + 32 ≤ h.streamNo) ||
          (decide ((s.pilot? g).map (·.id) ≠ some h.id) && s.atTransfer h && ! s.streamKnown g h.streamNo)
      | none => false)

/-- DRIFT_EVICTION (R47): a core that holds every other attached core of its gang is detached; its convoy is unaffected. -/
def execDriftEviction (i : StrandId) (s : State) : Result :=
  .next (match s.strand? i with
    | none => s
    | some h =>
      let others := (s.members (gangOf i)).filter fun m => m.st.att && m.id != i
      let behind := others.all fun m => s.streamHeld m && decide (h.streamNo ≤ m.streamNo)
      if h.st.att ∧ others ≠ [] ∧ behind then
        s.onStrand i fun h => { h with st := { h.st with att := false } }.count 0x06 1
      else s)

/-! ### The core arbiter (R362) -/

/-- A slot's quantum: 8 beats for each unit of its queue's weight. -/
def State.quantum (s : State) (h : Hart) : Int := 8 * (s.queues[h.queue].weight : Int)

/-- Where a hart stands in the order of the visits: its cluster, its core, its thread slot; a control core after the cores (R27, R28,
R362). -/
def State.seatOf (s : State) (h : Hart) : Nat :=
  match h.engine with
  | .control c => c.val * 128 + 64
  | .strand =>
    match (s.gang? (gangOf h.id)).bind (·.slot) with
    | some (c, k) => c.val * 128 + memberOf h.id * 4 + k.val
    | none => 64 * 128

/-- ISSUE_VISIT: the arbiter visits a slot; step then issues its convoys while they fit the deficit. A visit that finds the strand
waiting or parked sets the deficit to 0. -/
def execIssueVisit (i : StrandId) (s : State) : Result :=
  .next (match s.strand? i with
    | none => s
    | some h =>
      let s1 := { s with seat := s.seatOf h }
      if s.ready h then
        (s1.focus i).onHart fun h => { h with deficit := min (h.deficit + s.quantum h) (s.quantum h + 32), first := true }
      else s1.onStrand i fun h => { h with deficit := 0 })

/-! ### Reports and notifications (R315, R316, R407-R411) -/

/-- Changes whose the requests of the hart in front are, by the position of the access. -/
def State.reassign (s : State) (f : Nat → Nat → Requester) : State :=
  let h := s.hart
  let change := fun r : FabricRequest =>
    match r.by_ with
    | .hart e i pos elem => if e = h.engine ∧ i = h.id then { r with by_ := f pos elem } else r
    | _ => r
  { s with fabric := { s.fabric with requests := s.fabric.requests.map change } }

/-- Positions of accesses that a notification interrupted begin here (MODEL, log 100). -/
def shelf : Nat := 16

/-- Answers of the fabric that no instruction will consume any more: those to come are nobody's (R455). What a notification shelved
stays. -/
def State.orphan (s : State) : State :=
  let h := s.hart
  (s.onHart fun h => { h with replies := h.replies.filter fun r => decide (shelf ≤ r.pos) }).reassign fun pos elem =>
    if shelf ≤ pos then .hart h.engine h.id pos elem else .unit 0

/-- A notification interrupts a wait: the accesses of its instruction are shelved, since the same wait goes on afterwards (R316; log
100). -/
def State.shelve (s : State) : State :=
  let h := s.hart
  (s.onHart fun h => { h with replies := h.replies.map fun r => { r with pos := r.pos + shelf } }).reassign fun pos elem =>
    .hart h.engine h.id (pos + shelf) elem

/-- The wait goes on where `back` says so, with what was shelved; else that is nobody's. -/
def State.unshelve (s : State) (back : Bool) : State :=
  let h := s.hart
  (s.onHart fun h => { h with replies := if back then h.replies.map fun r => { r with pos := r.pos - shelf } else [] }).reassign
    fun pos elem => if back then .hart h.engine h.id (pos - shelf) elem else .unit 0

/-- The strand in front takes its oldest report (R410, R411). -/
def State.takeReport (s : State) : State :=
  match s.hart.reports with
  | [] => s
  | r :: rest =>
    let lost := s.hart.reportLost
    let s1 := s.orphan.onHart fun h => { h with reports := rest, reportLost := false, restored := false, iss := Issue.idle }
    s1.enterTrap s1.hart.pc r.src.toNat r.pos lost true r.cause r.stval

/-- ASYNC_REPORT_TAKEN (R411). -/
def execAsyncReportTaken (i : StrandId) (s : State) : Result :=
  .next (match s.strand? i with
    | some h => if h.phase = .running ∧ h.saved = .resident ∧ h.reportDue then (s.focus i).takeReport else s
    | none => s)

/-- UICAUSE as a notification taken writes it (R314, R315). -/
def Hart.uicauseWord (h : Hart) (n : Word) : Word :=
  n + BitVec.ofNat 64 (h.csr.vconv.toNat * 2 ^ 23 + h.csr.vstart.toNat * 2 ^ 13 + h.notifLost.toNat * 2 ^ 8)

/-- Entry of a user-level handler (R315). -/
def Hart.enterUser (h : Hart) (n : Word) : Hart :=
  let g := h.swapShadow
  { g with
    pc := h.csr.uivec
    notifs := h.notifs.drop 1
    notifLost := false
    paused := h.wait.map fun w => (h.pc, w)
    wait := none
    turn := none
    restored := false
    arrived := false
    iss := Issue.idle
    csr := { g.csr with uicause := h.uicauseWord n, uiepc := h.pc, vstart := 0, vconv := 0 }
    st := { g.st with uih := true, att := false } }

/-- Whether a notification may be taken now: between convoys, a convoy stopped inside by a pre-emption included, from a wait, or after a
restore (R315, R316). -/
def Hart.notifyDue (h : Hart) : Bool :=
  h.mayNotify && (h.wait.isSome || h.restored || match h.iss.flow with | .held _ => false | _ => true)

/-- The strand in front takes its oldest notification. -/
def State.takeNotification (s : State) : State :=
  match s.hart.notifs with
  | [] => s
  | n :: _ => (if s.hart.wait.isSome then s.shelve else s.orphan).onHart fun h => h.enterUser n

/-- USER_INTERRUPT_TAKEN (R315, R316). -/
def execUserInterruptTaken (i : StrandId) (s : State) : Result :=
  .next (match s.strand? i with
    | some h => if h.phase = .running ∧ h.saved = .resident ∧ h.notifyDue then (s.focus i).takeNotification else s
    | none => s)

/-! ### Saving and restoring (R31, R32, R100, R163, R363-R367) -/

/-- Whether R100 allows a strand to be saved. -/
def Hart.savable (h : Hart) : Bool := h.pending.isEmpty && h.vldbs.isEmpty

/-- Whether an instruction of a hart that does not wait under R30 has an access under way at another rank: it completes before the strand
is saved (R364). -/
def State.underWay (s : State) (h : Hart) : Bool :=
  h.wait.isNone && (! h.replies.isEmpty || s.fabric.requests.any fun r =>
    match r.by_ with
    | .hart e i _ _ => e == h.engine && i == h.id
    | _ => false)

/-- Whether a strand can be saved now (R100, R364). -/
def State.canSave (s : State) (h : Hart) : Bool := h.savable && ! s.underWay h

/-- The slot swapper's save of a strand: its dirty vector registers, and the mask of those ever saved (R365). -/
def Hart.save (h : Hart) (how : Saved) : Hart :=
  { h with
    saved := how
    savedV := Vector.ofFn fun i : Fin 32 => if h.csr.vdirty.getLsbD i.val then h.v[i] else h.savedV[i]
    savedMask := h.savedMask ||| h.csr.vdirty
    deficit := if how = .parked then h.deficit else 0
    csr := { h.csr with vdirty := 0 } }

/-- The cells of `n` pieces of 4 KiB of a launch's save area from an offset on, by the addresses found when the launch started (R366). -/
def State.areaPart (s : State) (launch : Nat) (off : Launch → Nat) (n : Launch → Nat) : Memory :=
  match s.launches.find? fun l => l.id == launch with
  | none => []
  | some l =>
    (List.range (n l)).flatMap fun k =>
      let o := off l + k * 4096
      match (l.area[o / 65536]?).join with
      | some pa => s.mem.filter fun x => decide (pa + o % 65536 ≤ x.1 ∧ x.1 < pa + o % 65536 + 4096)
      | none => []

/-- A strand's part of its launch's save area: the cells there now (R366). -/
def State.areaCells (s : State) (i : StrandId) : Memory :=
  s.areaPart i.launch (fun _ => (i.stage.val * 1024 + i.vcid.val) * 36864) fun _ => 9

/-- A gang's part of it (R366). -/
def State.gangArea (s : State) (g : GangId) : Memory :=
  s.areaPart g.launch (fun l => l.stages * 1024 * 36864 + (g.stage.val * 64 + g.gang.val) * (4096 + l.nbanks * 262144))
    fun l => 1 + 64 * l.nbanks

/-- The slot swapper saves a strand, noting what its part of the save area holds; one that is parked has been saved (R365, R366). -/
def State.saveStrand (s : State) (h : Hart) (how : Saved) : Hart :=
  if h.saved = .resident then { h.save how with area := s.areaCells h.id } else { h with saved := how }

/-- A type tag by a free value. -/
def freeTag (n : Nat) : Tag := [Tag.i64, .i32, .i16, .i16p, .fp32, .bf16].getD (n % 6) .i32

/-- A bank whose saved contents another agent has written: what it holds is a free value (R366; log 86). -/
def Bank.damaged (b : Bank) (k : Nat → Nat) : Bank :=
  match b.mode with
  | .fifo w _ => { b with entries := (positions b.entries).map fun x => leBytes (2 ^ w.toNat) (k x.1) }
  | _ => { b with bytes := (List.range 262144).filterMap fun i =>
      let v := BitVec.ofNat 8 (k i)
      if v = Memory.unlisted then none else some (i, v) }

/-- A strand whose part of the save area another agent has written resumes with registers that nothing tells (R366; log 86). -/
def Hart.damaged (h : Hart) (k : Nat → Nat) : Hart :=
  { h with
    x := Vector.ofFn fun i : Fin 32 => BitVec.ofNat 64 (k i.val)
    shadow := Vector.ofFn fun i : Fin 7 => BitVec.ofNat 64 (k (32 + i.val))
    v := Vector.ofFn fun i : Fin 32 => BitVec.ofNat 8192 (k (40 + i.val))
    p := Vector.ofFn fun i : Fin 32 => BitVec.ofNat 512 (k (80 + i.val))
    tags := Vector.ofFn fun i : Fin 32 => freeTag (k (140 + i.val))
    pc := BitVec.ofNat 64 (k 120) &&& ~~~ 3
    csr := { h.csr with
      fflags := BitVec.ofNat 5 (k 121), rmode := BitVec.ofNat 2 (k 122), bscale := BitVec.ofNat 64 (k 123)
      rngseed := BitVec.ofNat 64 (k 124), rngctr := BitVec.ofNat 32 (k 125), lcount := BitVec.ofNat 64 (k 126)
      bump := Vector.ofFn fun i : Fin 8 => BitVec.ofNat 64 (k (130 + i.val)), vl := BitVec.ofNat 10 (k 138 % 513)
      satf := k 172 % 2 == 1, clscope := BitVec.ofNat 48 (k 173), lstart := BitVec.ofNat 64 (k 174) &&& ~~~ 3
      lend := BitVec.ofNat 64 (k 175) &&& ~~~ 3, uivec := BitVec.ofNat 64 (k 176) &&& ~~~ 3, uiepc := BitVec.ofNat 64 (k 177) &&& ~~~ 3
      uicause := BitVec.ofNat 64 (k 178), vstart := BitVec.ofNat 10 (k 179 % 512), vconv := BitVec.ofNat 2 (k 180)
      instret := BitVec.ofNat 64 (k 181), stvec := BitVec.ofNat 64 (k 182) &&& ~~~ 3, sepc := BitVec.ofNat 64 (k 183) &&& ~~~ 3
      scause := BitVec.ofNat 64 (k 184), stval := BitVec.ofNat 64 (k 185), sscratch := BitVec.ofNat 64 (k 186)
      planes := BitVec.ofNat 4 (2 + k 187 % 7) }
    st := { h.st with
      lact := k 188 % 2 == 1, uih := k 189 % 2 == 1, det := k 190 % 2 == 1, uie := k 191 % 2 == 1
      spriv := k 192 % 2 == 1, priv := k 193 % 2 == 1 } }

/-- The restore: a register never saved is zero, as at strand start (R365). -/
def Hart.restore (h : Hart) : Hart :=
  { h with
    saved := .resident
    restored := ! h.reports.isEmpty || ! h.notifs.isEmpty
    v := Vector.ofFn fun i : Fin 32 => if h.savedMask.getLsbD i.val then h.savedV[i] else 0 }

/-- Whether another slot of a strand's core has a ready strand (R31). -/
def State.coreBusy (s : State) (h : Hart) : Bool :=
  match s.clusterOf (gangOf h.id) with
  | none => false
  | some c => s.allHarts.any fun k =>
    k.engine == .strand && gangOf k.id != gangOf h.id && memberOf k.id == memberOf h.id &&
      s.clusterOf (gangOf k.id) == some c && s.ready k

/-- PARKING (R31, R434): a waiting strand is saved and leaves the arbitration of its core. -/
def execParking (i : StrandId) (s : State) : Result :=
  .next (match s.strand? i with
    | none => s
    | some h =>
      if h.live ∧ s.waiting h ∧ s.coreBusy h ∧ s.canSave h then s.onStrand i fun h => (s.saveStrand h .parked).count 0x0A 1 else s)

/-- The number the next gang to become runnable gets (R29). -/
def State.nextRunnable (s : State) : Nat := s.gangs.foldl (fun n g => match g.runnable with | some k => max n (k + 1) | none => n) 0

/-- Whether a gang waits for a gang slot. -/
def Gang.wants (g : Gang) : Bool := g.slot.isNone && g.runnable.isSome && ! g.ended

/-- Swapped-out gangs with a ready member become runnable, together (R29, R32). -/
def State.noteRunnable (s : State) : State :=
  let wakes := fun g : Gang => g.started && ! g.ended && g.slot.isNone && g.runnable.isNone &&
    (s.members g.id).any fun h => ! s.waiting h
  if s.gangs.any wakes then
    let n := s.nextRunnable
    { s with gangs := s.gangs.map fun g => if wakes g then { g with runnable := some n } else g }
  else s

/-- Whether a partition accepts launches: it is enabled, and its VF is in RUN or the PF owns it (R381, R384). -/
def State.accepts (s : State) (p : Fin 8) : Bool :=
  let f := s.parts[p].vf
  s.parts[p].cfg.getLsbD 63 && (f == 0 || s.golium.vfs[f] == .run)

/-- Whether gangs of a queue may hold slots: it is not suspended and its partition's VF is not in ERROR (R357, R456). -/
def State.mayRun (s : State) (q : Fin 64) : Bool :=
  let k := s.queues[q]
  let f := s.parts[k.part].vf
  ! k.suspended && (f == 0 || s.golium.vfs[f] != .error)

/-- Whether a gang has work that keeps its banks in place while it is swapped out: a forked program, a job, a receive buffer (R289,
R328). -/
def State.bankWork (s : State) (g : Gang) : Bool :=
  (s.jobs.any fun j => ! j.complete && match j.ctx with | .strand i => gangOf i == g.id | _ => false) ||
    (s.allHarts.any fun h => h.isControl && h.phase == .running && gangOf h.id == g.id) ||
    (g.bound.any fun c => s.clusters[c].forks.any fun f => gangOf f.owner == g.id) || g.banks.any (·.receive)

/-- A gang leaves its slot, saved whole; its bank switches have ended, its dirty lines are written back, and banks with unfinished
work stay in place (R51, R69, R289, R328, R364, R365). -/
def State.swapOut (s : State) (g : Gang) : State :=
  let s1 := s.onMembers g.id fun h => match h.phase with
    | .running | .aborting _ _ => s.saveStrand h .swapped
    | _ => h
  ((s1.writeBackBad g.id fun _ => true).onGang g.id fun x =>
    { x with
      slot := none
      runnable := none
      home := if s.bankWork g then x.slot.map (·.1) else none
      area := s.gangArea g.id }).noteRunnable

/-- Whether a resident gang can be saved now (R69, R100): no switch in progress; one queued and not begun does not keep it (log 82). -/
def State.gangSavable (s : State) (g : Gang) : Bool :=
  g.slot.isSome && ((s.members g.id).all s.canSave) && g.banks.all fun k => k.switching.isNone

/-- SWAP_ON_WAIT (R32). -/
def execSwapOnWait (g : GangId) (s : State) : Result :=
  .next (match s.gang? g with
    | none => s
    | some x =>
      let idle := (s.members g).all fun h => h.saved == .parked || s.waiting h
      let other := s.gangs.any fun y => y.wants && y.part == x.part && s.mayRun y.queue
      if idle ∧ (s.members g) ≠ [] ∧ other ∧ s.gangSavable x then s.swapOut x else s)

def State.levelOf (s : State) (g : Gang) : Nat := s.queues[g.queue].level

/-- The place of a gang's launch among those that have started. -/
def State.beganOf (s : State) (g : Gang) : Nat := ((s.launches.find? fun l => l.id == g.id.launch).map (·.began)).getD 0

/-- Order in which resident gangs are chosen for pre-emption: lowest priority, latest-started launch, highest stage and gang (R363). -/
def State.yieldsBefore (s : State) (a b : Gang) : Bool :=
  let k := fun g : Gang => [s.levelOf g, s.beganOf g, g.id.stage.val, g.id.gang.val]
  decide (k b < k a)

/-- A pre-emption lands between convoys, or it has the members' next convoys stop first, at a position, between two element groups or
before a whole instruction: which is open (R38, R364; log 4, log 75). -/
def State.preempt (s : State) (g : Gang) : State :=
  let (n, s1) := s.draw
  if n % 2 = 0 ∨ (s.members g.id).any (·.cut.isSome) then s1.swapOut g
  else s1.onMembers g.id fun h => if h.wait.isNone then { h with cut := some (Fin.ofNat 4 (n / 2), Fin.ofNat 64 (n / 8)) } else h

/-- PRE_EMPTION (R363, R456, R458): for a higher level, for a suspended queue, for a cluster that drains. -/
def execPreEmption (g : GangId) (s : State) : Result :=
  .next (match s.gang? g with
    | none => s
    | some x =>
      let higher := s.gangs.any fun y => y.wants && y.part == x.part && s.mayRun y.queue && decide (s.levelOf y < s.levelOf x)
      let chosen := s.gangs.all fun y => y.id == x.id || y.slot.isNone || y.part != x.part || ! s.yieldsBefore y x
      let drains := x.bound.isNone && x.slot.any fun p => s.clusters[p.1].draining
      if ((higher ∧ chosen) ∨ ¬ s.mayRun x.queue ∨ drains) ∧ s.gangSavable x then s.preempt x else s)

/-- TIME_SHARING_EXPIRY (R363). -/
def execTimeSharingExpiry (g : GangId) (s : State) : Result :=
  .next (match s.gang? g with
    | none => s
    | some x =>
      let other := s.gangs.any fun y => y.wants && y.part == x.part && s.mayRun y.queue && y.queue != x.queue && s.levelOf y == s.levelOf x
      if other ∧ s.gangSavable x then s.swapOut x else s)

/-- STRAND_RESTORE (R31, R33, R365, R367): a parked strand that is ready, or a member of a gang that has its slot again. -/
def execStrandRestore (i : StrandId) (s : State) : Result :=
  .next (match s.strand? i with
    | none => s
    | some h =>
      let placed := (s.clusterOf (gangOf i)).isSome
      if placed ∧ (h.saved = .swapped ∨ (h.saved = .parked ∧ ¬ s.waiting h)) then
        let s1 := s.onStrand i Hart.restore
        if s.areaCells i = h.area then s1
        else { s1.onStrand i (·.damaged fun k => Config.free (s.draws + k)) with draws := s.draws + 200 }
      else s)

/-! ### Placement (R28, R29, R68, R352, R367) -/

/-- A strand at its start (R352). -/
def Hart.startStrand (l : Launch) (i : StrandId) : Hart :=
  let top := l.stackBase + BitVec.ofNat 64 ((i.stage.val * 1024 + i.vcid.val + 1) * 2 ^ l.stackLog2)
  { Hart.idle with
    id := i
    phase := .running
    part := l.part
    queue := l.queue
    rank := l.rank
    x := ((Hart.idle.x.set 2 top).set 8 l.arg0).set 9 l.arg1
    pc := l.entry
    csr := { Csrs.start with stvec := l.stvec, sscratch := l.sscratch, asid := l.asid, troot := l.troot }
    st := { Status.start with det := l.det } }

/-- Members of a gang. -/
def membersOf (g : GangId) : List StrandId :=
  (List.finRange 16).map fun m => { launch := g.launch, stage := g.stage, vcid := ⟨g.gang.val * 16 + m.val, by omega⟩ }

/-- Whether a cluster belongs to a partition's grant (R383). -/
def Partition.owns (p : Partition) (c : Fin 64) : Bool := bit p.cfg.toNat (48 + c.val / 8)

/-- Banks of a cluster that are taken: those of its gangs, and those that swapped-out gangs keep in place (R68, R289, R328). -/
def State.banksIn (s : State) (c : Fin 64) : Nat :=
  s.gangs.foldl (fun n g =>
    let here := match g.slot with
      | some (d, _) => d == c
      | none => g.home == some c && s.bankWork g
    if here then n + g.banks.length else n) 0

/-- Whether a gang may take a slot: it is free, its cluster is in service and granted, the banks are there; a cluster that drains takes
none but the gangs bound to it, which finish there (R21, R28, R68, R289, R458). -/
def State.fits (s : State) (g : Gang) (c : Fin 64) (k : Fin 4) : Bool :=
  s.clusters[c].enabled && (! s.clusters[c].draining || g.bound == some c) && s.parts[g.part].owns c &&
    (s.gangs.all fun y => y.slot != some (c, k)) && (match g.bound with | some d => d == c | none => true) &&
    decide (s.banksIn c + (if g.home = some c ∧ s.bankWork g then 0 else g.banks.length) ≤ 44)

/-- Whether gang `a` became runnable before `b`, or with it and in a lower (stage, gang) place; two gangs of one place are taken in
the order of their launches, which R29 leaves open (R29; log 76). -/
def Gang.before (a b : Gang) : Bool :=
  let k := fun g : Gang => [g.runnable.getD 0, g.id.stage.val, g.id.gang.val, g.id.launch]
  decide (k a < k b)

/-- Whether a gang stands before another in the order in which gangs of a partition are placed (R29, R34): it became runnable before it,
whatever its queue. A gang whose banks have stayed in a cluster may return to them before one that finds its banks in no cluster, since
the latter may be waiting for them (log 76). -/
def State.rival (s : State) (x y : Gang) (c : Fin 64) : Bool :=
  y.wants && y.part == x.part && s.mayRun y.queue && y.before x &&
    ! (x.home == some c && s.bankWork x && ! (List.finRange 64).any fun d => (List.finRange 4).any fun k => s.fits y d k)

/-- A gang takes a slot again: banks whose saved contents another agent has written hold free values (R366; log 86). -/
def State.returnGang (s : State) (x : Gang) : State :=
  if x.home.isSome ∨ s.gangArea x.id = x.area then s
  else
    { s.onGang x.id fun y => { y with banks := (positions y.banks).map fun b => b.2.damaged fun k => Config.free (s.draws + 262144 * b.1 + k) } with
      draws := s.draws + 262144 * x.banks.length }

/-- GANG_RESIDENT (R29, R34, R352): the first gang of its partition to have become runnable takes the slot, whatever its queue. -/
def execGangResident (g : GangId) (c : Fin 64) (k : Fin 4) (s : State) : Result :=
  .next (match s.gang? g, s.launches.find? fun l => l.id == g.launch with
    | some x, some l =>
      if x.wants ∧ s.mayRun x.queue ∧ s.fits x c k ∧ ¬ s.gangs.any (s.rival x · c) then
        let s1 := s.onGang g fun x => { x with slot := some (c, k), home := none, runnable := none, started := true }
        if x.started then s1.returnGang x
        else
          let strands := (membersOf g).map (Hart.startStrand l)
          { s1 with harts := s1.harts ++ strands }
      else s
    | _, _ => s)

end Sys2Proof.Machine
end

