-- ==== Sys2Proof/Machine/System.lean ====
section
/-! DEFINITION. CSRs, vector length and tags, shape variables, system calls and returns: major 0x17 (R160-R164, R208-R214). -/

namespace Sys2Proof.Machine

/-! ### Reading CSRs -/

/-- Whether a CSR belongs to the debug block (R164). -/
def isDebug : Csr → Bool
  | .dbgctl | .dbgstat | .bkaddr _ | .perfsel | .dbgReserved | .perfcnt _ => true
  | _ => false

/-- The debug grants in force for the hart: none until a policy is verified (R164, R391). -/
def State.grantBit (s : State) (i : Nat) : Bool :=
  let p := s.parts[s.hart.part]
  p.policy && p.grant.getLsbD i

/-- Whether the hart may read a register of the debug block (R164, R391). -/
def State.debugReadable (s : State) (c : Csr) : Bool :=
  if s.hart.st.priv then s.grantBit 0
  else match c with
    | .dbgstat | .perfsel | .perfcnt _ => s.grantBit 1
    | _ => false

/-- Whether an event count depends on timing alone: cycles waiting, cycles detached, L0 misses (R418). -/
def timingEvent (code : Nat) : Bool := code == 4 || code == 5 || code == 7

/-- The event a counter counts (R418). -/
def Hart.eventOf (h : Hart) (i : Fin 4) : Nat := bits h.dbg.perfsel.toNat (8 * i.val) 8

/-- The value of a CSR that depends on the hart alone (R160). -/
def Hart.csrValue (h : Hart) : Csr → Word
  | .fflags => h.csr.fflags.zeroExtend 64
  | .rmode => h.csr.rmode.zeroExtend 64
  | .satf => boolWord h.csr.satf
  | .planes => h.csr.planes.zeroExtend 64
  | .bscale => h.csr.bscale
  | .rngseed => h.csr.rngseed
  | .rngctr => h.csr.rngctr.zeroExtend 64
  | .clscope => h.csr.clscope.zeroExtend 64
  | .lcount => h.csr.lcount
  | .lstart => h.csr.lstart
  | .lend => h.csr.lend
  | .uivec => h.csr.uivec
  | .uiepc => h.csr.uiepc
  | .uicause => h.csr.uicause
  | .status => h.st.word
  | .bump i => h.csr.bump[i]
  | .vtaga => tagWord h.tags 0
  | .vtagb => tagWord h.tags 16
  | .vl => h.csr.vl.zeroExtend 64 + (h.csr.width.zeroExtend 64) * 1024
  | .vstart => h.csr.vstart.zeroExtend 64
  | .vconv => h.csr.vconv.zeroExtend 64
  | .vdirty => h.csr.vdirty.zeroExtend 64
  | .vcid => BitVec.ofNat 64 h.id.vcid.val
  | .coord => coordWord h
  | .cycle => 0
  | .instret => h.csr.instret
  | .cntld => h.cnt.loads.zeroExtend 64
  | .cntst => h.cnt.stores.zeroExtend 64
  | .cntcp => h.cnt.copies.zeroExtend 64
  | .cnttl => h.cnt.tiles.zeroExtend 64
  | .stvec => h.csr.stvec
  | .sepc => h.csr.sepc
  | .scause => h.csr.scause
  | .stval => h.csr.stval
  | .sscratch => h.csr.sscratch
  | .asid => h.csr.asid.zeroExtend 64
  | .troot => h.csr.troot
  | .dbgctl => h.dbg.ctl.zeroExtend 64
  | .dbgstat => h.dbg.hit.zeroExtend 64
  | .bkaddr i => h.dbg.bkaddr[i]
  | .perfsel => h.dbg.perfsel.zeroExtend 64
  | .dbgReserved => 0
  | .perfcnt i => h.dbg.perfcnt[i]

/-- Reads a CSR. CYCLE moves on by a free number of cycles, and so do the counts of timing events (R27, R160, R418; log 4). -/
def State.csrRead (s : State) (c : Csr) : Word × State :=
  if isDebug c ∧ ¬ s.debugReadable c then (0, s)
  else
    match c with
    | .cycle =>
      let (n, s1) := s.draw
      let v := s1.cycle + BitVec.ofNat 64 n
      (v, { s1 with cycle := v })
    | .perfcnt i =>
      if s.hart.dbg.ctl.getLsbD 1 ∧ timingEvent (s.hart.eventOf i) then
        let (n, s1) := s.draw
        let v := s1.hart.dbg.perfcnt[i] + BitVec.ofNat 64 n
        (v, s1.onHart fun h => { h with dbg := { h.dbg with perfcnt := h.dbg.perfcnt.set i v } })
      else (s.hart.csrValue c, s)
    | c => (s.hart.csrValue c, s)

/-! ### Writing CSRs -/

/-- A word without its two low bits: addresses of convoys (R160). -/
def convoyAddr (v : Word) : Word := v &&& ~~~ 3

/-- CLSCOPE after a write: a field written 7 and class 15 keep their value (R87). -/
def writeClscope (old v : Nat) : BitVec 48 :=
  BitVec.ofNat 48 ((List.range 15).foldl (fun acc c =>
    let f := bits v (3 * c) 3
    acc + (if f = 7 then bits old (3 * c) 3 else f) * 2 ^ (3 * c)) (6 * 2 ^ 45))

/-- Tags after a write of VTAGA (`lo` 0) or VTAGB (`lo` 16): a field written 6 or 7 keeps its tag (R163). -/
def writeTags (tags : Vector Tag 32) (lo v : Nat) : Vector Tag 32 :=
  Vector.ofFn fun i : Fin 32 =>
    if lo ≤ i.val ∧ i.val < lo + 16 then (Tag.ofCode (bits v (3 * (i.val - lo)) 3)).getD tags[i] else tags[i]

/-- Keeps the bits of `v` that a mask names. -/
def maskWord (v : Word) (m : Nat) : Word := v &&& BitVec.ofNat 64 m

/-- Writes a CSR outside the debug block (R160-R163, R193); read-only ones are refused before. SCAUSE's fields take any value, SRC also
its reserved 3 (R408; log 10). -/
def Hart.csrWrite (h : Hart) (c : Csr) (v : Word) : Hart :=
  let k := h.csr
  match c with
  | .fflags => { h with csr := { k with fflags := v.truncate 5 } }
  | .rmode => { h with csr := { k with rmode := v.truncate 2 } }
  | .satf => { h with csr := { k with satf := v.getLsbD 0 } }
  | .planes =>
    let p := v.toNat % 16
    if 2 ≤ p ∧ p ≤ 8 then { h with csr := { k with planes := BitVec.ofNat 4 p } } else h
  | .bscale => { h with csr := { k with bscale := v } }
  | .rngseed => { h with csr := { k with rngseed := v } }
  | .rngctr => { h with csr := { k with rngctr := v.truncate 32 } }
  | .clscope => { h with csr := { k with clscope := writeClscope k.clscope.toNat v.toNat } }
  | .lcount => { h with csr := { k with lcount := v }, st := { h.st with lact := h.st.lact && v != 0 } }
  | .lstart => { h with csr := { k with lstart := convoyAddr v } }
  | .lend => { h with csr := { k with lend := convoyAddr v } }
  | .uivec => { h with csr := { k with uivec := convoyAddr v } }
  | .uiepc => { h with csr := { k with uiepc := convoyAddr v } }
  | .uicause => { h with csr := { k with uicause := maskWord v 0xFFFFFFFF01FFE1FF } }
  | .status =>
    let uie := v.getLsbD 2
    if h.st.priv then { h with st := { h.st with uie := uie, spriv := v.getLsbD 1 } } else { h with st := { h.st with uie := uie } }
  | .bump i => { h with csr := { k with bump := k.bump.set i v } }
  | .vtaga => { h with tags := writeTags h.tags 0 v.toNat }
  | .vtagb => { h with tags := writeTags h.tags 16 v.toNat }
  | .vl =>
    if bits v.toNat 0 10 ≤ 512 ∧ bits v.toNat 10 2 ≠ 3 then
      { h with csr := { k with vl := v.truncate 10, width := BitVec.ofNat 2 (bits v.toNat 10 2) } }
    else h
  | .vstart => { h with csr := { k with vstart := v.truncate 10 } }
  | .vconv => { h with csr := { k with vconv := v.truncate 2 } }
  | .vdirty => { h with csr := { k with vdirty := v.truncate 32 } }
  | .stvec => { h with csr := { k with stvec := convoyAddr v } }
  | .sepc => { h with csr := { k with sepc := convoyAddr v } }
  | .scause => { h with csr := { k with scause := maskWord v 0xFFF00CF01FF } }
  | .stval => { h with csr := { k with stval := v } }
  | .sscratch => { h with csr := { k with sscratch := v } }
  | .asid => { h with csr := { k with asid := v.truncate 10 } }
  | .troot => { h with csr := { k with troot := maskWord v 0xFFFFFFFFF0000 } }
  | .vcid | .coord | .cycle | .instret | .cntld | .cntst | .cntcp | .cnttl => h
  | .dbgctl | .dbgstat | .bkaddr _ | .perfsel | .dbgReserved | .perfcnt _ => h

/-- Writes a register of the debug block as far as the grants allow (R164, R391). -/
def State.debugWrite (s : State) (c : Csr) (v : Word) : State :=
  let sup := s.hart.st.priv
  let may := fun i => if sup then s.grantBit 0 else s.grantBit i
  s.onHart fun h =>
    let d := h.dbg
    match c with
    | .dbgctl =>
      let pick := fun i b => if may i then v.getLsbD b else d.ctl.getLsbD b
      let n := (pick 3 0).toNat + (pick 2 1).toNat * 2 + (pick 4 2).toNat * 4
      { h with dbg := { d with ctl := BitVec.ofNat 3 n } }
    | .dbgstat => if sup ∧ s.grantBit 0 then { h with dbg := { d with hit := v.truncate 4 } } else h
    | .bkaddr i => if may 3 then { h with dbg := { d with bkaddr := d.bkaddr.set i (maskWord v 0xFFFFFFFFFFFFFFFD) } } else h
    | .perfsel => if may 2 then { h with dbg := { d with perfsel := v.truncate 32 } } else h
    | .perfcnt i => if may 2 then { h with dbg := { d with perfcnt := d.perfcnt.set i v } } else h
    | _ => h

/-! ### The CSR instructions -/

/-- The CSRs of a matrix control core (R154). -/
def controlCsr : Csr → Bool
  | .cycle | .instret | .lcount | .lstart | .lend | .fflags | .rmode => true
  | _ => false

/-- Supervisor-only CSRs (R160). -/
def supervisorCsr : Csr → Bool
  | .stvec | .sepc | .scause | .stval | .sscratch | .asid | .troot => true
  | _ => false

/-- CSRs a user strand may only read (R160). -/
def userReadOnly : Csr → Bool
  | .vl | .vstart | .vconv | .vdirty | .vcid | .coord | .cycle | .instret | .cntld | .cntst | .cntcp | .cnttl => true
  | _ => false

/-- CSRs no privilege may write (R161). -/
def neverWritten : Csr → Bool
  | .vcid | .coord | .cycle | .instret | .cntld | .cntst | .cntcp | .cnttl => true
  | _ => false

/-- What forbids an access to a CSR (R160, R161, R208, R421, R424). -/
def Hart.csrRefused (h : Hart) (c : Csr) (write : Bool) : Option Cause :=
  if h.isControl ∧ ¬ controlCsr c then some .illegal
  else if ¬ h.st.priv ∧ (supervisorCsr c ∨ (write ∧ userReadOnly c)) then some .privilege
  else if write ∧ neverWritten c then some .illegal
  else if write ∧ h.st.lact ∧ (c = .lstart ∨ c = .lend) then some .loopWrite
  else none

/-- The CSR access all four instructions share: `new` gives the value to write, if any (R208). -/
def State.csrAccess (s : State) (d : Reg) (c : Csr) (new : Option (Word → Word)) : State :=
  match s.hart.csrRefused c new.isSome with
  | some e => s.trapWord e
  | none =>
    let (old, s1) := s.csrRead c
    let s2 := match new with
      | none => s1
      | some f => if isDebug c then s1.debugWrite c (f old) else s1.onHart fun h => h.csrWrite c (f old)
    s2.onHart fun h => h.setX d old

def execCsrr (d : Reg) (c : Csr) (s : State) : Result := .next (s.csrAccess d c none)
def execCsrw (d a : Reg) (c : Csr) (s : State) : Result :=
  let v := s.hart.getX a
  .next (s.csrAccess d c (some fun _ => v))
def execCsrs (d a : Reg) (c : Csr) (s : State) : Result :=
  let v := s.hart.getX a
  .next (s.csrAccess d c (if a = 0 then none else some fun old => old ||| v))
def execCsrc (d a : Reg) (c : Csr) (s : State) : Result :=
  let v := s.hart.getX a
  .next (s.csrAccess d c (if a = 0 then none else some fun old => old &&& ~~~ v))

/-! ### Vector length, tags, shape variables -/

/-- Largest vl of a width code (R209). -/
def VWidth_max : VWidth → Nat | .w16 => 512 | .w32 => 256 | .w64 => 128

/-- SETVL (R209). -/
def execSetvl (d a : Reg) (w : VWidth) (s : State) : Result :=
  s.strandOnly fun s => s.onHart fun h =>
    let g := min (h.getX a).toNat (VWidth_max w)
    { h with csr := { h.csr with vl := BitVec.ofNat 10 g, width := BitVec.ofNat 2 w.code } }.setX d (BitVec.ofNat 64 g)

/-- VTAG: sets tags and no bit of a register (R210); `n` is the count minus 1. -/
def execVtag (v n : Reg) (t : Tag) (s : State) : Result :=
  s.strandOnly fun s => s.onHart fun h =>
    { h with tags := Vector.ofFn fun i : Fin 32 => if v.val ≤ i.val ∧ i.val ≤ v.val + n.val then t else h.tags[i] }

/-- SVSET: a counted class-0 store to the launch context (R211). -/
def execSvset (a : Reg) (k : Fin 32) (s : State) : Result :=
  s.strandOnly fun s =>
    if s.hart.storesFull then s.stall 0
    else
      let v := s.hart.getX a
      let l := s.hart.id.launch
      let s1 := { s with launches := s.launches.map fun x : Launch => if x.id = l then { x with sv := x.sv.set k v } else x }
      s1.onHart (·.addPending 0)

/-- The shape variables of a strand's launch; a strand without a launch record sees zeros (log 11). -/
def State.shape (s : State) (l : Nat) (k : Fin 32) : Word :=
  match s.launches.find? (fun x => x.id == l) with
  | some x => x.sv[k]
  | none => 0

/-- SVGET: a class-0 load that counts in the stores counter (R211). -/
def execSvget (d : Reg) (k : Fin 32) (s : State) : Result :=
  s.strandOnly fun s =>
    if s.hart.storesFull then s.stall 0
    else
      let v := s.shape s.hart.id.launch k
      s.onHart fun h => (h.setX d v).addPending 0

/-! ### System calls, breakpoints, return from a trap -/

/-- SYSCALL: SEPC holds pc + 4, STVAL 0 (R213, R409). -/
def execSyscall (s : State) : Result := s.strandOnly fun s => s.trapTo (s.hart.pc + 4) false 0 .syscall 0

/-- BRK: HIT becomes 0, SEPC holds pc + 4, STVAL the convoy address (R213, R409). -/
def execBrk (s : State) : Result :=
  .next ((s.onHart fun h => { h with dbg := { h.dbg with hit := 0 } }).trapTo (s.hart.pc + 4) false 0 .breakpoint s.hart.pc)

/-- ERET: a return to the convoy at SEPC, at the stop SCAUSE keeps (R214, R417). -/
def execEret (s : State) : Result :=
  s.supervisorOnly fun s => s.onHart fun h => { h.returnTrap with skipBreak := some h.csr.sepc }.setFlow (.jump h.csr.sepc)

/-- INVAS: translation always sees the newest entry (log 6), so it only wakes the waits for a page (R64, R215, R434). -/
def execInvas (_a _b : Reg) (_allAddr _allAsid : Bool) (s : State) : Result :=
  s.supervisorOnly fun s =>
    { s with harts := s.harts.map Hart.walkAgain }

end Sys2Proof.Machine
end

