-- ==== Sys2Proof/Machine/Launches.lean ====
section
/-! DEFINITION. Doorbells and ring entries, the start and the end of items, shape expressions, version-wait nodes (R349-R361, R366, R414, R447). -/

namespace Sys2Proof.Machine

/-! ### The ring (R355, R357) -/

/-- Address of the next ring entry. -/
def Queue.entryAddr (k : Queue) : Word := k.ring + BitVec.ofNat 64 (16 * (k.head.toNat % 2 ^ k.ringLog2))

/-- An entry is taken: the head moves on, and it takes a sequence number (R355). -/
def State.advanceRing (s : State) (q : Fin 64) : State :=
  let k := s.queues[q]
  { s with queues := s.queues.set q { k with head := k.head + 1, nextSeq := k.nextSeq + 1 } }

/-- A ring entry that faults is an item that has completed (R355, R359). -/
def State.faultEntry (s : State) (q : Fin 64) (seq : Word) (kind code : Nat) (addr : Word) : State :=
  s.onQueue q fun k => (k.fault kind code addr seq).finish

/-- A host-submitted record: checked, and queued (R350); where its read must wait, the fabric. -/
def State.takeRecord (s : State) (q : Fin 64) (seq addr : Word) : Except Fabric State :=
  if ¬ aligned addr 128 then .ok (s.faultEntry q seq 1 0 addr)
  else
    match s.queueWords q 16 addr with
    | .ok ws s1 =>
      let v := ofWords ws
      if (checkHeader v true).isSome then .ok (s1.faultEntry q seq 1 0 addr)
      else
        let k := s1.queues[q]
        let l := launchOf v s1.items (s1.queueDie q) q k.part k.asid seq addr none none false
        .ok { s1 with launches := s1.launches ++ [l], items := s1.items + 1 }
    | .fault c => .ok (s.faultEntry q seq 2 c.code addr)
    | a => .error (a.fabric s)

/-- Whether a queue may take a ring entry: its firmware runs, it is enabled and not suspended, its partition accepts launches (R357,
R384, R393). -/
def State.mayTake (s : State) (q : Fin 64) : Bool :=
  let k := s.queues[q]
  s.golium.running .command && k.enabled && ! k.suspended && s.accepts k.part && decide (k.head < k.tail)

/-- RING_ENTRY_TAKE (R350, R355, R357, R361); where there is nothing to take, what had to wait is tried again. -/
def execRingEntryTake (q : Fin 64) (s : State) : Result :=
  let k := s.queues[q]
  .next (if ¬ s.mayTake q then s.retryNodes q
    else
      let seq := k.nextSeq
      let s1 := s.advanceRing q
      match s.queueWords q 2 k.entryAddr with
      | .ok [a, t] _ =>
        let addr := BitVec.ofNat 64 a
        match (match bits t 0 4 with
          | 0 => s1.takeRecord q seq addr
          | 1 => s1.startList q seq addr
          | _ => .ok (s1.faultEntry q seq 1 0 addr)) with
        | .ok s2 => s2.unitDone (unitOf q)
        | .error f => ({ s with fabric := f } : State).retryNodes q
      | .fault c => (s1.unitDone (unitOf q)).faultEntry q seq 2 c.code k.entryAddr
      | a => ({ s with fabric := a.fabric s } : State).retryNodes q)

/-! ### Shape expressions (R353, R354) -/

/-- Applies a binary operator token to signed values; the error is the fault's kind. -/
def shapeOp (tok : Nat) (a b : Int) : Except Nat Int :=
  if tok = 0xC000 then .ok (a + b)
  else if tok = 0xC001 then .ok (a - b)
  else if tok = 0xC002 then .ok (a * b)
  else if tok = 0xC003 then (if b = 0 then .error 2 else .ok (a.fdiv b))
  else if tok = 0xC004 then (if b = 0 then .error 2 else .ok (-((-a).fdiv b)))
  else if tok = 0xC005 then (if b = 0 then .error 2 else .ok (a - b * a.fdiv b))
  else if tok = 0xC006 then .ok (min a b)
  else if tok = 0xC007 then .ok (max a b)
  else if tok = 0xC008 then (if b < 0 ∨ 63 < b then .error 3 else .ok (a * 2 ^ b.toNat))
  else if tok = 0xC009 then (if b < 0 ∨ 63 < b then .error 3 else .ok (a.fdiv (2 ^ b.toNat)))
  else .error 4

/-- One token on a stack, top first. -/
def shapeToken (sv : Vector Word 32) (tok : Nat) (st : List Word) : Except Nat (List Word) :=
  if tok < 0x8000 then .ok (BitVec.ofNat 64 tok :: st)
  else if tok < 0x8020 then .ok (sv[(Fin.ofNat 32 tok : Fin 32)] :: st)
  else if tok < 0xC000 ∨ 0xC009 < tok then .error 4
  else
    match st with
    | b :: a :: rest => (shapeOp tok a.toInt b.toInt).map fun r => BitVec.ofInt 64 r :: rest
    | _ => .error 1

/-- Runs tokens. -/
def shapeRun (sv : Vector Word 32) : List Nat → List Word → Except Nat (List Word)
  | [], st => .ok st
  | t :: l, st =>
    match shapeToken sv t st with
    | .ok st1 => shapeRun sv l st1
    | .error k => .error k

/-- One entry of 40 bytes, as a number: the shape variables after it, or the fault's kind. -/
def shapeEntry (sv : Vector Word 32) (e : Nat) : Except Nat (Vector Word 32) :=
  let dest := bits e 256 8
  let n := bits e 264 8
  if 31 < dest ∨ n = 0 ∨ 16 < n then .error 4
  else
    match shapeRun sv ((List.range n).map fun i => bits e (16 * i) 16) [] with
    | .ok [v] => .ok (sv.set (Fin.ofNat 32 dest) v)
    | .ok _ => .error 1
    | .error k => .error k

/-- Entries in table order; the error is the kind and the entry's index. -/
def shapeAll : List Nat → Nat → Vector Word 32 → Except (Nat × Nat) (Vector Word 32)
  | [], _, sv => .ok sv
  | e :: l, i, sv =>
    match shapeEntry sv e with
    | .ok sv1 => shapeAll l (i + 1) sv1
    | .error k => .error (k, i)

/-! ### The start of an item (R349, R351, R355, R358, R366) -/

/-- Whether a bank configuration word is refused (R349). -/
def badBankWord (w : Nat) : Bool := (bankModeOf w).isNone || decide (bits w 2 18 ≠ 0 ∨ bits w 40 22 ≠ 0)

/-- Whether a launch is queued and could start now, but for arbitration (R105, R106, R357, R381). -/
def State.itemReady (s : State) (l : Launch) : Bool :=
  let k := s.queues[l.queue]
  l.state == .queued && s.edgesDone l.asItem && (l.byStrand || s.hasRoom l.die) && k.enabled && s.mayRun l.queue && s.accepts l.part

/-- Whether the arbitration takes launch `a` before `b` (R358): level, credits, queue number, a queue's own order. -/
def State.startsBefore (s : State) (a b : Launch) : Bool :=
  let k := fun l : Launch =>
    [(s.queues[l.queue].level : Int), - s.queues[l.queue].credits, (l.queue.val : Int), (l.item : Int)]
  decide (k a < k b)

/-- The sizes of the save area of a launch: bytes for its strands and its gangs (R366). -/
def Launch.saveBytes (l : Launch) : Nat := l.stages * 1024 * 36864 + l.stages * 64 * (4096 + l.nbanks * 262144)

/-- Translates each of `n` pages of 64 KiB of a save area for writing: their device addresses, a cause, or a page in transit (R61,
R366); a page behind another rank's window has none. -/
def State.saveArea (s : State) (c : Ctx) : Nat → Word → Acc (List (Option Nat))
  | 0, _ => .ok [] s
  | n + 1, a =>
    let rest := fun x => match s.saveArea c n (a + 65536) with
      | .ok l s1 => Acc.ok (x :: l) s1
      | e => e
    match s.resolve c .store a with
    | .fault e => .fault e
    | .transit => .wait .page
    | .ok (.bank _ _) => .fault .bank
    | .ok (.device pa) => rest (some pa)
    | .ok (.remote _ _) => rest none

/-- Pages of 64 KiB, the least a leaf maps, of a save area, whose base is aligned so. -/
def Launch.savePages (l : Launch) : Nat := (l.saveBytes + 65535) / 65536

/-- A launch that faults at its start is complete; no strand is created (R349, R354, R366, R447). -/
def State.faultLaunch (s : State) (l : Launch) (kind code : Nat) (expr : Option (Nat × Nat)) : State :=
  let s1 := { s with launches := s.launches.map fun x : Launch => if x.id = l.id then { x with state := .faulted } else x }
  let s2 := s1.onQueue l.queue fun k =>
    let k1 := (k.fault kind code l.record l.seq).finish
    match expr with
    | some (n, i) => { k1 with ekind := n, eidx := i }
    | none => k1
  match l.node with
  | some (i, a) => s2.completeNode l.queue i a false
  | none => s2

/-- The gangs of a launch as it starts, runnable together (R25, R29, R68). -/
def Launch.gangs (l : Launch) (banks : List Nat) (order : Nat) : List Gang :=
  ((List.finRange 8).filter fun st => decide (st.val < l.stages)).flatMap fun st =>
    (List.finRange 64).map fun g =>
      { id := { launch := l.id, stage := st, gang := g }, part := l.part, queue := l.queue, slot := none, started := false
        home := none, bound := none, runnable := some order, banks := banks.map fun w => Bank.fresh ((bankModeOf w).getD .cache)
        ring := [], joinAt := none, area := [], dirtyBad := [], ended := false }

/-- The initial shape variables: SVINIT, and the issuing launch's where SVMASK asks (R351). -/
def State.initialShape (s : State) (l : Launch) (init : List Nat) : Vector Word 32 :=
  Vector.ofFn fun k : Fin 32 =>
    match l.parent with
    | some p => if l.svMask.getLsbD k.val then s.shape p k else BitVec.ofNat 64 (init.getD k.val 0)
    | none => BitVec.ofNat 64 (init.getD k.val 0)

/-- Expression entries in the words of a tail. -/
def tailEntries (ws : List Nat) (n : Nat) : List Nat := (List.range n).map fun i => ofWords ((ws.drop (5 * i)).take 5)

/-- A launch starts: its tail is read and checked, its shape evaluated, its gangs made runnable (R349-R355, R366). -/
def State.startLaunch (s : State) (l : Launch) : State :=
  let q := l.queue
  match s.queueWords q (32 + l.nbanks + 5 * l.nexpr) l.tables with
  | .fault c => ((s.unitDone (unitOf q)).onQueue q fun k => k.start l.seq).faultLaunch l 2 c.code none
  | .wait _ => s
  | .stall s1 => { s with fabric := s1.fabric }
  | .ok ws s1 =>
    let s2 := (s1.unitDone (unitOf q)).onQueue q fun k => k.start l.seq
    let banks := (ws.drop 32).take l.nbanks
    if banks.any badBankWord then s2.faultLaunch l 1 0 none
    else
      match shapeAll (tailEntries (ws.drop (32 + l.nbanks)) l.nexpr) 0 (s2.initialShape l ws) with
      | .error (k, i) => s2.faultLaunch l 3 0 (some (k, i))
      | .ok sv =>
        match s2.saveArea (s2.queueCtx q) l.savePages l.ctxBase with
        | .fault c => s2.faultLaunch l 5 c.code none
        | .ok area _ =>
          let k := s2.queues[q]
          let begun : Launch :=
            { l with
              state := .running, sv := sv, stvec := k.stvec, sscratch := k.sscratch, troot := s2.rootOf l.part l.asid.toNat
              rank := Fin.ofNat 4096 s2.parts[l.part].jobSelf.toNat
              area := area
              began := s2.launches.foldl (fun n x => max n (x.began + 1)) 0 }
          ({ s2 with
            launches := s2.launches.map fun x : Launch => if x.id = l.id then begun else x
            gangs := s2.gangs ++ begun.gangs banks s2.nextRunnable } : State).takeArrivals begun
        | _ => s

/-- ITEM_START (R355, R358): the item that the arbitration of its die chooses. -/
def execItemStart (n : Nat) (s : State) : Result :=
  .next (match s.launches.find? fun l => l.item == n with
    | none => s
    | some l =>
      let first := s.launches.all fun m => m.item == n || m.die != l.die || ! (s.itemReady m && s.startsBefore m l)
      if s.itemReady l ∧ first then s.startLaunch l else s)

/-- QUEUE_CREDIT_TICK (R358); nodes whose reads met a page in transit are tried again (R434). -/
def execQueueCreditTick (s : State) : Result :=
  let slots := fun (q : Fin 64) => (s.gangs.filter fun g => g.slot.isSome && g.queue == q).length
  let tick := fun (q : Fin 64) =>
    let k := s.queues[q]
    { k with credits := max (-65536) (min 65536 (k.credits + k.weight - slots q)) }
  let s1 := { s with queues := Vector.ofFn tick }
  .next ((List.finRange 64).foldl (fun s q => s.retryNodes q) s1)

/-! ### Completion (R106, R121, R361) -/

/-- Whether every strand of a launch has exited with its stores performed, and every job they issued is complete (R106). -/
def State.launchOver (s : State) (l : Launch) : Bool :=
  (s.gangs.all fun g => g.id.launch != l.id || g.ended) &&
    (s.allHarts.all fun h => h.engine != .strand || h.id.launch != l.id || h.phase == .absent ||
      (h.phase == .exited && h.pending.isEmpty)) &&
    s.jobs.all fun j => j.complete || match j.ctx with | .strand i => i.launch != l.id | _ => true

/-- LAUNCH_COMPLETE: a launch with an aborted strand has faulted (R106, R414, R447). -/
def execLaunchComplete (n : Nat) (s : State) : Result :=
  .next (match s.launches.find? fun l => l.id == n with
    | none => s
    | some l =>
      if l.state = .running ∧ s.launchOver l then
        let s1 := { s with launches := s.launches.map fun x : Launch => if x.id = n then { x with state := .complete } else x }
        let s2 := s1.onQueue l.queue Queue.finish
        match l.node with
        | some (i, a) => s2.completeNode l.queue i a (! l.aborted)
        | none => s2
      else s)

/-- LATEST of the granule at an address, as a queue's command processor sees it; another rank is asked for it (R276, R361, log 31). -/
def State.latestAt (s : State) (key : Nat) (c : Ctx) (va : Word) : Acc Nat :=
  match s.resolve c .load va with
  | .fault e => .fault e
  | .transit => .wait .page
  | .ok (.bank _ _) => .fault .notVersioned
  | .ok (.remote q off) =>
    match s.unitAsk key c va q off 15 (.versionQuery 0) with
    | .ok l s1 => .ok (leNat l % 2 ^ 32) s1
    | .fault e => .fault e
    | .wait k => .wait k
    | .stall s1 => .stall s1
  | .ok (.device pa) =>
    match s.regionAt c.part pa with
    | some (_, r, q) => .ok (r.granule q).latest.toNat s
    | none => .fault .notVersioned

/-- Whether every granule of a range has reached a version. -/
def State.rangeReached (s : State) (key : Nat) (c : Ctx) (ver : Nat) : Nat → Word → Acc Bool
  | 0, _ => .ok true s
  | n + 1, va =>
    match s.latestAt key c va with
    | .ok v s1 => if ver ≤ v then s1.rangeReached key c ver n (va + 128) else .ok false s1
    | .fault e => .fault e
    | .wait k => .wait k
    | .stall s1 => .stall s1

/-- Granules of a version-wait node's range, from that of OBJ to that of OBJ + LEN - 1 (R361). -/
def ListNode.granules (n : ListNode) : Nat := if n.len = 0 then 0 else (n.obj.toNat % 128 + n.len + 127) / 128

/-- VERSION_WAIT_NODE_COMPLETE (R361): a node whose range meets an address outside every region is a faulted node: it sends skip on both
edges, and the status records why (R359, R361; log 51). -/
def execVersionWaitNodeComplete (id : Nat) (a : Word) (s : State) : Result :=
  .next (match (List.finRange 64).find? fun q => (s.queues[q].list? id).isSome with
    | none => s
    | some q =>
      match s.queues[q].list? id with
      | none => s
      | some l =>
        match l.node? a with
        | none => s
        | some n =>
          if n.kind = 2 ∧ n.state = .running then
            match s.rangeReached (unitOf q) (s.queueCtx q) n.version n.granules (n.obj &&& ~~~ 127) with
            | .ok true s1 => (s1.unitDone (unitOf q)).completeNode q id a true
            | .ok false s1 => s1.unitDone (unitOf q)
            | .stall s1 => { s with fabric := s1.fabric }
            | .fault c => ((s.unitDone (unitOf q)).onQueue q fun k => k.fault 2 c.code a l.seq).completeNode q id a false
            | _ => s
          else s)

end Sys2Proof.Machine
end

