-- ==== Sys2Proof/Machine/Health.lean ====
section
/-! DEFINITION. Module registers, measurements, REPLACE ADVISED, thermal and power events, clusters and rows out of service
(R388, R390, R393-R396, R441, R443, R458, R459). -/

namespace Sys2Proof.Machine

/-! ### Module registers (R395, R453) -/

/-- CLMASK: bit n for each enabled physical cluster n (R21). -/
def State.clmask (s : State) : Word :=
  BitVec.ofNat 64 ((List.finRange 64).foldl (fun m c => if s.clusters[c].enabled then m + 2 ^ c.val else m) 0)

/-- HEALTH.PORTDEG: ports at half width, detoured or down. -/
def Fabric.degraded (f : Fabric) : Nat :=
  (List.finRange 8).foldl (fun m i => if f.ports[i].state = .full then m else m + 2 ^ i.val) 0

/-- HEALTH (R395). -/
def State.health (s : State) : Word :=
  let g := s.golium
  BitVec.ofNat 64 (g.stage.toNat + g.spared.toNat * 2 ^ 8 + g.retired.toNat * 2 ^ 16 + g.cerr.toNat * 2 ^ 32
    + s.fabric.degraded * 2 ^ 48 + g.thold.toNat * 2 ^ 62 + g.radv.toNat * 2 ^ 63)

/-- STATE of PORTSTAT. -/
def PortState.code : PortState → Nat | .full => 0 | .half => 1 | .locked => 2 | .down => 3

/-- PORTSTAT of a port (R453). -/
def Port.status (p : Port) : Word :=
  BitVec.ofNat 64 (p.state.code + p.ver.val * 4 + p.retrain.toNat * 2 ^ 8 + p.genDrop.toNat * 2 ^ 16 + p.late.toNat * 2 ^ 32
    + p.tagFail.toNat * 2 ^ 48)

/-! ### Measurements (R390; log 30) -/

/-- The bytes of words, in order. -/
def wordsBytes (l : List Word) : List Byte := l.flatMap fun w => leBytes 8 w.toNat

/-- What a block measures. -/
def State.measured (s : State) (n : Nat) : List Byte :=
  if n = 1 ∨ n = 2 ∨ n = 3 then Config.imageBytes (n - 1)
  else if n = 4 then Config.imageBytes 3 ++ s.fabric.ports.toList.map fun p => BitVec.ofNat 8 p.ver.val
  else if n = 5 then
    wordsBytes [s.clmask, BitVec.ofNat 64 s.fabric.self.val, s.fabric.sizes.zeroExtend 64]
  else if 16 ≤ n ∧ n < 24 then
    let p : Fin 8 := Fin.ofNat 8 (n - 16)
    let x := s.parts[p]
    let queues := (s.queues.toList.filter fun k => k.part == p).flatMap fun k => [k.cfg, k.stvec, k.sscratch]
    wordsBytes ([x.cfg, x.proot] ++ x.pmem.toList ++ queues) ++ Config.tenantDebugKey p.val
  else if 32 ≤ n ∧ n < 40 then
    let x := s.parts[(Fin.ofNat 8 (n - 32) : Fin 8)]
    leBytes 2 x.grant.toNat ++ leBytes 1 x.policy.toNat
  else wordsBytes [s.health]

/-- Takes a measurement: entries are only ever added. -/
def State.measure (s : State) (n : Nat) : State :=
  { s with golium := { s.golium with log := s.golium.log ++ [(n, Config.sha384 (s.measured n))] } }

/-- The current digest of a block: the one measured last. -/
def State.digest? (s : State) (n : Nat) : Option (BitVec 384) :=
  (s.golium.log.reverse.find? fun e => e.1 == n).map (·.2)

/-! ### REPLACE ADVISED (R396, R459) -/

/-- The event that RADV or THOLD changed: MSI-X vector 0 of the PF, and an MCTP event. -/
def State.raise (s : State) (code : Nat) : State := { s with outputs := .mctpEvent code :: .msix 0 :: s.outputs }

/-- The limits of R459 kept across resets. -/
def Golium.storedLimit (g : Golium) : Bool :=
  decide (4 ≤ g.fencedCount ∨ 1024 ≤ g.retiredCount ∨ 200 ≤ g.sparedCount ∨ 1 ≤ g.trips)

/-- RADV is set, with its events; set, it stays. -/
def State.advise (s : State) : State :=
  if s.golium.radv then s else (({ s with golium := { s.golium with radv := true } } : State).raise 0).measure 48

/-- Whether at least two ports are degraded, as R459 counts them: at half width or down; `locked` counts a locked one too. -/
def Fabric.twoPoor (f : Fabric) (locked : Bool) : Bool :=
  decide (2 ≤ (f.ports.toList.filter fun p => p.state == .half || p.state == .down || (locked && p.state == .locked)).length)

/-- Whether a port has retrained since it was last held against the limit, sixteen times or more in all. -/
def Fabric.retrained (f : Fabric) : Bool := f.ports.toList.any fun p => decide (16 ≤ p.retrain.toNat) && p.judged != p.retrain

/-- Checks the limits. That sixteen retrainings of a port fell within 24 hours, and that a port has been locked for more than 2^27
cycles, are free values (R459; log 45). -/
def State.checkLimits (s : State) : State :=
  let g := s.golium
  let f := s.fabric
  let now := decide (4 ≤ g.fencedCount ∨ 1024 ≤ g.retiredCount ∨ 200 ≤ g.sparedCount ∨ 10000 ≤ g.cerr.toNat) || f.twoPoor false
  let judge := fun s : State => { s with fabric := { f with ports := f.ports.map fun p => { p with judged := p.retrain } } }
  if now then (judge s).advise
  else if f.retrained || f.twoPoor true then
    let (n, s1) := (judge s).draw
    if n % 2 = 1 then s1.advise else s1
  else judge s

/-- HEALTH is about to be read: the corrected errors of the last hour are a free value, held against their limit (R395, R441, R459; logs 4,
45). -/
def State.sampleErrors (s : State) : State :=
  let (n, s1) := s.draw
  ({ s1 with golium := { s1.golium with cerr := BitVec.ofNat 16 n } } : State).checkLimits

/-! ### Images and bring-up (R388, R393) -/

/-- Whether an image passes its checks: signature over its SHA-256 digest, version against the fuses. -/
def Golium.accepts (g : Golium) (i : Fin 4) : Bool :=
  Config.slhDsaVerify Config.baleizKey (sha256 (Config.imageBytes i.val)) (Config.imageSignature i.val) &&
    decide (g.fuses[i] ≤ Config.imageVersion i.val)

/-- Golium with images noted as verified. -/
def Golium.verify (g : Golium) (l : List (Fin 4)) : Golium :=
  { g with verified := l.foldl (fun (v : Vector Bool 4) (i : Fin 4) => v.set i true) g.verified }

/-- Whether a stage's images pass. -/
def Golium.imagesOk (g : Golium) (stage : Nat) : Bool :=
  if stage = 2 then g.accepts 0 else if stage = 4 then g.accepts 1 && g.accepts 2 && g.accepts 3 else true

/-- A port that never trained is left down at stage 0x06 (R393). -/
def Fabric.leaveUntrained (f : Fabric) : Fabric :=
  { f with ports := f.ports.map fun p => if p.keyEpoch = 0 then { p with state := .down } else p }

/-- Shows a stage. -/
def State.showStage (s : State) (n : Nat) : State := { s with golium := { s.golium with stage := BitVec.ofNat 8 n } }

/-- What reaching a stage brings: images, straps, links, measurements, the check of the stored counts before stage 0x07. -/
def State.reachStage (s : State) (n : Nat) : State :=
  let s1 := s.showStage n
  if n = 2 then
    ({ s1 with
      golium := s1.golium.verify [0]
      fabric := { s1.fabric with self := Config.strapRank, sizes := Config.strapSizes } } : State).measure 1
  else if n = 4 then (({ s1 with golium := s1.golium.verify [1, 2, 3] } : State).measure 2).measure 3
  else if n = 6 then (((({ s1 with fabric := s1.fabric.leaveUntrained } : State).measure 4).measure 5).measure 48).checkLimits
  else if n = 7 then ((if s.golium.storedLimit then s.advise else s).checkLimits).showStage 7
  else s1

/-- BRING_UP_STAGE (R393): the next stage is reached, or bring-up stops at it. -/
def execBringUpStage (ok : Bool) (s : State) : Result :=
  let n := s.golium.stage.toNat + 1
  .next (if 7 < n then s else if ok ∧ s.golium.imagesOk n then s.reachStage n else s.showStage (0x80 + n))

/-- FUSE_MINIMUM_RAISE (R388): a verified image of a higher security version raises the minimum. -/
def execFuseMinimumRaise (im : Image) (s : State) : Result :=
  let g := s.golium
  let i := imageIndex im
  .next (if g.verified[i] then
    { s with golium := { g with fuses := g.fuses.set i (max g.fuses[i] (Config.imageVersion i.val)) } }
  else s)

/-! ### Reset and power (R21, R24, R284, R385, R390, R393, R394, R396) -/

/-- Non-volatile: fuses and Golium's counts. -/
def Golium.keep (g : Golium) : Golium :=
  { Golium.reset with
    fuses := g.fuses
    fencedCount := g.fencedCount
    sparedCount := g.sparedCount
    retiredCount := g.retiredCount
    trips := g.trips }

/-- The state after a module reset: what lies outside the module, what is kept by Golium and the fencing of clusters stay. -/
def State.moduleReset (s : State) : State :=
  { State.reset with
    clusters := Vector.ofFn fun c : Fin 64 => { Cluster.reset with enabled := s.clusters[c].enabled }
    mem := s.mem.filter fun c => isHostMemory c.1
    golium := s.golium.keep
    outputs := s.outputs
    agenda := s.agenda
    draws := s.draws }

/-- MODULE_RESET. -/
def execModuleReset (s : State) : Result :=
  .next ({ s.moduleReset with golium := { s.golium.keep with powered := s.golium.powered } })

/-- Power leaves the compute dies. -/
def State.powerOff (s : State) : State :=
  let r := s.moduleReset
  { r with golium := { r.golium with powered := false } }

/-- POWER_LOSS (R396). -/
def execPowerLoss (s : State) : Result := .next s.powerOff

/-- POWER_ON (R393): bring-up begins. -/
def execPowerOn (s : State) : Result := .next s.moduleReset

/-- THERMAL_TRIP (R394): the trip is counted, and shows at the next bring-up. -/
def execThermalTrip (s : State) : Result :=
  let r := s.powerOff
  .next { r with golium := { r.golium with trips := r.golium.trips + 1 } }

/-- THOLD changes, with its events (R396). -/
def State.setHold (s : State) (b : Bool) : State :=
  if s.golium.thold = b then s else ({ s with golium := { s.golium with thold := b } } : State).raise 1

/-- THERMAL_HOLD and THERMAL_RESUME (R394): issue stops, and resumes. -/
def execThermalHold (s : State) : Result := .next (s.setHold true)
def execThermalResume (s : State) : Result := .next (s.setHold false)

/-! ### Degraded service (R443, R458) -/

/-- From now on no gang is placed on a cluster. -/
def State.drainCluster (s : State) (c : Fin 64) : State := { s with clusters := s.clusters.set c { s.clusters[c] with draining := true } }

/-- CLUSTER_DRAIN (R458): after a cause 0x32 in the cluster, or after three causes 0x31 in its banks; that those fell within 24 hours
is a free value (log 45). -/
def execClusterDrain (c : Fin 64) (s : State) : Result :=
  .next (if ¬ s.clusters[c].enabled ∨ s.clusters[c].draining then s
    else if s.clusters[c].parityFound then s.drainCluster c
    else if 3 ≤ s.clusters[c].bankFaults then
      let (n, s1) := s.draw
      if n % 2 = 1 then s1.drainCluster c else s1
    else s)

/-- Whether a draining cluster holds nothing any more: no gang, no bound gang, no forked program. -/
def State.drained (s : State) (c : Fin 64) : Bool :=
  s.clusters[c].draining && s.clusters[c].forks.isEmpty && (s.program? c).isNone && s.clusters[c].queue.isEmpty &&
    s.gangs.all fun g => g.ended || ((match g.slot with | some p => p.1 != c | none => true) &&
      (match g.bound with | some d => d != c | none => true))

/-- CLUSTER_FENCE: CLMASK clears its bit, and block 5 is measured anew. -/
def execClusterFence (c : Fin 64) (s : State) : Result :=
  .next (if s.drained c then
    (({ s with
      clusters := s.clusters.set c { Cluster.reset with enabled := false }
      golium := { s.golium with fencedCount := s.golium.fencedCount + 1 } } : State).measure 5).checkLimits
  else s)

/-- ROW_SPARE (R443, R458): a row that has had sixteen corrected errors, and none of whose lines is uncorrectable. Which row Golium
takes, and whether it has had them, are free values (logs 4, 45, 89). -/
def execRowSpare (s : State) : Result :=
  let (row, s0) := s.draw
  let (ground, s1) := s0.draw
  .next (if ground % 2 = 0 ∨ s.badLines.any (Config.sparedRow row).contains then s1
    else
      let g := s1.golium
      ({ s1 with golium := { g with sparedCount := g.sparedCount + 1, spared := satAdd8 g.spared 1 } } : State).sampleErrors)

/-- PAGE_RETIRE (R443, R458): a page in which a line that was uncorrectable has been rewritten in full, and none is uncorrectable. -/
def execPageRetire (page : Nat) (s : State) : Result :=
  let g := s.golium
  let here := fun l : Nat => l / 65536 == page
  .next (if s.badLines.any here ∨ ¬ s.rewritten.any here then s
    else ({ s with
      rewritten := s.rewritten.filter fun l => ! here l
      golium := { g with retiredCount := g.retiredCount + 1, retired := satAdd16 g.retired 1 } } : State).checkLimits)

end Sys2Proof.Machine
end

