-- ==== Sys2Proof/Machine/Fabric.lean ====
section
/-! DEFINITION. Volette ports and flits, requests of other ranks served here, answers to our own requests, their timeouts
(R371-R378, R450-R455). -/

namespace Sys2Proof.Machine

/-! ### Ports (R376, R377, R452, R453) -/

def State.onPort (s : State) (i : Fin 8) (f : Port → Port) : State :=
  { s with fabric := { s.fabric with ports := s.fabric.ports.set i (f s.fabric.ports[i]) } }

/-- A port carries flits no more: what it has sent and the partner has not acknowledged leaves by other routes (R453). -/
def State.reroute (s : State) (i : Fin 8) : State := { s with fabric := s.fabric.reroute s.cycle.toNat i }

/-- A port after a message of `n` flits arrived, one of whose flits failed its tag `fails` times: it locks after two failures of one
flit, and after sixteen within 2^20 flits of the direction (R452). -/
def Port.receive (p : Port) (fails n : Nat) : Port :=
  let p := p.renewed (fails + n)
  let last := p.seen + fails - 1
  let failed := (((List.range fails).map fun k => p.seen + k) ++ p.failedAt).filter fun t => decide (last < t + 2 ^ 20)
  let q := { p with
    flits := p.flits + fails + n
    seen := p.seen + fails + n
    failedAt := if fails = 0 then p.failedAt else failed
    tagFail := satAdd16 p.tagFail fails }
  if fails = 2 ∨ (0 < fails ∧ sixteenth failed last) then q.lock else q

/-- Whether a link runs: its controllers have a verified image, and the port has trained and carries flits (R377, R388, R452). -/
def State.linked (s : State) (i : Fin 8) : Bool := s.golium.running .link && s.fabric.ports[i].up

/-- A message of `n` flits arrives: whether it is delivered, and the state (R376, R452). -/
def State.receiveFlit (s : State) (f : FlitIn) (n : Nat) : Bool × State :=
  if s.linked f.port then
    let q := s.fabric.ports[f.port].receive f.fails.val n
    let s1 := s.onPort f.port fun _ => q
    (q.up, if q.up then s1 else s1.reroute f.port)
  else (false, s)

/-- A trained port at the highest version both partners offer, with a key from the session of their Golium controllers; each offers
1 to 3 (R376, R377, R389). -/
def Port.train (p : Port) (partner : Fin 4) : Port :=
  let q := { p with spdm := { p.spdm with version := true, capabilities := true, algorithms := true, handshake := false, session := true } }
  { q.newKey with state := .full, ver := min 3 partner }

/-- A link trains: the port opens, block 4 is measured anew, what waits at its source leaves (R377, R390, R454). -/
def State.trainPort (s : State) (i : Fin 8) (partner : Fin 4) (again : Bool) : State :=
  let s1 := s.onPort i fun p => { p.train partner with retrain := if again then satAdd8 p.retrain 1 else p.retrain }
  (({ s1 with fabric := s1.fabric.release s1.cycle.toNat } : State).measure 4).checkLimits

/-! ### Turns of messages that arrive (R374, R453) -/

/-- Next SEQ to perform of a source and class (R374). -/
def Fabric.expected (f : Fabric) (src : Fin 4096) (cls : Fin 16) : Fin 65536 :=
  ((f.served.find? fun e => e.1 == src && e.2.1 == cls).map (·.2.2)).getD 0

/-- The turn of a message of `n` flits is over. -/
def Fabric.advance (f : Fabric) (src : Fin 4096) (cls : Fin 16) (n : Nat) : Fabric :=
  { f with served := (src, cls, f.expected src cls + Fin.ofNat 65536 n) :: f.served.filter fun e => ! (e.1 == src && e.2.1 == cls) }

/-- How far a SEQ lies ahead of the one expected. -/
def seqAhead (seq expected : Fin 65536) : Nat := (seq - expected).val

/-- Whether a message has had its turn, or needs none: it is not performed (R453, R455). -/
def Fabric.over_ (f : Fabric) (src : Fin 4096) (cls : Fin 16) (seq : Fin 65536) : Bool :=
  decide (32768 ≤ seqAhead seq (f.expected src cls)) || f.passed.any fun e => e.1 == src && e.2.1 == cls && e.2.2.1 == seq

/-! ### Answers to requests of this package (R378, R442, R454, R455) -/

/-- Gives a request its answer and frees its tag; the requester finds it when it is issued again. -/
def State.answer (s : State) (r : FabricRequest) (a : Answer) : State :=
  let f := { s.fabric with requests := s.fabric.requests.filter fun x => x.req.tag != r.req.tag }
  match r.by_ with
  | .unit k => { s with fabric := if k = 0 then f else { f with unitReplies := f.unitReplies ++ [(k, r.addr, a)] } }
  | .job n k =>
    let s1 : State := { s with fabric := f }
    match s1.job? n with
    | some j => s1.setJob { j with replies := j.replies ++ [(k, a)] }
    | none => s1
  | .hart e i pos elem =>
    let change := fun h : Hart =>
      if h.engine = e ∧ h.id = i then { h with replies := h.replies ++ [{ pos := pos, elem := elem, answer := a }] } else h
    { s with fabric := f, hart := change s.hart, harts := s.harts.map change }

/-- A request that has timed out: cancelled at its destination, its tag held under a new incarnation (R455). -/
def Fabric.giveUp (f : Fabric) (r : FabricRequest) : Fabric :=
  { f with
    incs := (r.req.tag, f.incOf r.req.tag + 1) :: f.incs.filter fun x => x.1 != r.req.tag
    held := r.req.tag :: f.held }

/-- The sequence numbers of a request. -/
def runOf (r : SpanReq) : FlitRun := { first := r.seq, count := Fin.ofNat 17 (flitsOf r.op) }

/-- A cancel flit for a request is sent: it carries the request's SEQ, and takes one of its own (R374, R455; log 79). -/
def State.sendCancel (s : State) (r : FabricRequest) : State :=
  let m := { spanMessage r.req r.dest with body := .cancel (runOf r.req).first (runOf r.req).count }
  { s with
    fabric := s.fabric.transmit s.cycle.toNat m
    outputs := .cancel r.dest r.req.cls r.req.seq (Fin.ofNat 17 (flitsOf r.req.op)) :: s.outputs }

/-- FABRIC_REQUEST_TIMEOUT (R455). -/
def execFabricRequestTimeout (tag : Fin 4096) (s : State) : Result :=
  .next (match s.fabric.requests.find? fun r => r.req.tag == tag with
    | none => s
    | some r => (({ s with fabric := s.fabric.giveUp r } : State).sendCancel r).answer r (.error 0x28))

/-- Whether an operation is answered. -/
def isAnswered : SpanOp → Bool
  | .barrierArrival _ _ _ | .sxRecord _ _ _ _ _ _ _ _ _ | .sxAbort _ _ => false
  | _ => true

/-- Whether a message is a request under a tag. -/
def Message.asks (m : Message) (tag : Fin 4096) : Bool := m.tag == tag && match m.body with | .request op => isAnswered op | _ => false

/-- LOCKED_ROUTE_TIMEOUT (R454): a request held at its source while every route passes a locked port. Its SEQ is cancelled, so that
later ones are not held up (log 56). -/
def execLockedRouteTimeout (tag : Fin 4096) (s : State) : Result :=
  let f := s.fabric
  .next (match f.requests.find? fun r => r.req.tag == tag with
    | none => s
    | some r =>
      if f.atSource.any (·.asks tag) ∧ ¬ f.cutOff r.dest then
        (({ s with fabric := { f with atSource := f.atSource.filter fun m => ! m.asks tag } } : State).sendCancel r).answer r (.error 0x29)
      else s)

/-- TAG_HOLD_EXPIRY (R455). -/
def execTagHoldExpiry (tag : Fin 4096) (s : State) : Result :=
  .next { s with fabric := { s.fabric with held := s.fabric.held.filter (· != tag) } }

/-! ### Routes lost (R450, R454) -/

/-- Waits of PART 2 sessions that need an unreachable rank end with cause 0x2A; one whose condition was met has ended. -/
def State.breakRounds (s : State) : State :=
  let breaks := fun (h : Hart) (w : Wait) =>
    (w.kind == .sxRound || w.kind == .sxRecv) && ! w.met && w.expired.isNone &&
      match s.session? h.part (Fin.ofNat 16 w.addr.toNat) with
      | some x => x.live && s.roundLost x
      | none => false
  let f := fun h : Hart =>
    match h.wait with
    | some w => if h.engine = .strand ∧ breaks h w then { h with wait := some { w with expired := some .unreachable } } else h
    | none => h
  { s with hart := f s.hart, harts := s.harts.map f }

/-- The ranks a partition's job can reach no more, by its rank table: they stay so until the table is written again (R454). -/
def State.noteLost (s : State) : State :=
  let lost := (List.finRange 8).flatMap fun p =>
    (s.parts[p].ranks.filterMap id).filter (fun r => r != s.fabric.self && s.fabric.cutOff r) |>.map fun r => (p, r)
  { s with fabric := { s.fabric with stopped := s.fabric.stopped ++ lost.filter fun e => ! s.fabric.stopped.contains e } }

/-- Requests that have become unreachable take cause 0x2A; messages to such ranks that wait at their source go nowhere. -/
def State.dropUnreachable (s : State) : State :=
  let s0 := s.noteLost
  let gone := fun (d : Fin 4096) (job : BitVec 16) => d != s.fabric.self &&
    s0.fabric.stopped.any fun e => e.2 == d && BitVec.ofNat 16 s.parts[e.1].jobTag.toNat == job
  let s1 : State := { s0 with fabric := { s0.fabric with atSource := s.fabric.atSource.filter fun m => ! gone m.dest m.job } }
  ((s.fabric.requests.filter fun r => gone r.dest r.req.job).foldl (fun s r => s.answer r (.error 0x2A)) s1).breakRounds

/-- A port is down until module reset: what it held leaves by other routes, and what has none is unreachable (R452, R454). -/
def State.downPort (s : State) (i : Fin 8) : State :=
  (((s.onPort i fun p => { p.lock with state := .down }).reroute i).dropUnreachable).checkLimits

/-- PORT_UNLOCK (R452): by the link controllers, once their image runs; a partner that offers no version is a failed re-attestation. -/
def execPortUnlock (port : Fin 8) (partner : Fin 4) (s : State) : Result :=
  .next (if s.fabric.ports[port].state = .locked ∧ s.golium.running .link then
    if partner = 0 then s.downPort port else s.trainPort port partner true
  else s)

/-- PORT_DOWN (R452): down until module reset. -/
def execPortDown (port : Fin 8) (s : State) : Result := .next (s.downPort port)

/-- LINK_TRAINING (R377, R388, R393): by the link controllers, once their image has been verified; a port that is down stays down
until module reset. -/
def execLinkTraining (port : Fin 8) (partner : Fin 4) (ok : Bool) (s : State) : Result :=
  let p := s.fabric.ports[port]
  .next (if p.state = .down ∨ ¬ s.golium.running .link then s
    else if ok ∧ partner ≠ 0 then s.trainPort port partner (p.keyEpoch != 0)
    else s.downPort port)

/-- LINK_KEY_UPDATE (R376, R377): in place at version 3 only, from the session of the two Golium controllers. -/
def execLinkKeyUpdate (port : Fin 8) (s : State) : Result :=
  .next (if s.linked port ∧ s.fabric.ports[port].ver = 3 ∧ s.fabric.ports[port].spdm.session then s.onPort port Port.newKey else s)

/-- LANE_FAILURE (R377): half width from version 2 on, else the link cannot run. -/
def execLaneFailure (port : Fin 8) (s : State) : Result :=
  .next (if s.linked port then
    if 2 ≤ s.fabric.ports[port].ver.val then (s.onPort port fun p => { p with state := .half }).checkLimits else s.downPort port
  else s)

/-- PEER_MODULE_STOPPED (R454): unreachable for every job until the job's rank table is written again. -/
def execPeerModuleStopped (rank : Fin 4096) (s : State) : Result :=
  let f := s.fabric
  .next ({ s with fabric := { f with
    stopped := (List.finRange 8).map (fun p => (p, rank)) ++ f.stopped.filter (·.2 != rank) } } : State).dropUnreachable

/-! ### Requests of other ranks, served here (R371, R372, R374, R439, R451) -/

/-- What serving a request gives: an answer, a wait here that holds its turn, or nothing to answer. -/
inductive Served
  | reply (a : Answer) (s : State)
  | wait (k : WaitKind)
  | stall
  | silent (s : State)

/-- The device addresses behind a range of a window. -/
def State.windowTargets (s : State) (p : Fin 8) (k : AccessKind) : List (Nat × Nat) → Acc (List (Nat × Nat))
  | [] => .ok [] s
  | (o, n) :: l =>
    match s.exportResolve (s.spanCtx p) k o with
    | .fault c => .fault c
    | .transit => .wait .page
    | .ok (.device pa) =>
      match s.windowTargets p k l with
      | .ok ts s1 => .ok ((pa, n) :: ts) s1
      | e => e
    | .ok _ => .fault .notPresent

/-- Reads pieces of device memory. -/
def State.readPiecesAt (s : State) (c : Ctx) : List (Nat × Nat) → Acc (List Byte)
  | [] => .ok [] s
  | (pa, n) :: l =>
    match s.readTarget c false (.device pa) n with
    | .ok x _ =>
      match s.readPiecesAt c l with
      | .ok y s1 => .ok (x ++ y) s1
      | e => e
    | e => e

/-- A range's bytes cut into its pieces. -/
def cutWrites (l : List (Nat × Nat)) (data : List Byte) : List Write :=
  match l with
  | [] => []
  | (pa, n) :: rest => { target := .device pa, data := data.take n, va := 0 } :: cutWrites rest (data.drop n)

/-- Stores at the home slices; a partial store to an uncorrectable line is refused (R442). -/
def State.serveStore (s : State) (p : Fin 8) (o : Nat) (data : List Byte) (mask : Byte) : Acc Unit :=
  match s.windowTargets p .store (windowPieces o data.length) with
  | .ok ts _ =>
    let ws := (cutWrites ts data).map fun w => { w with mask := mask }
    if ts.any fun t => (s.regionAt p t.1).isSome then .fault .notVersioned
    else
      let blocked := s.blockedLines ws
      let hit := ws.any fun w => match w.target with | .device pa => blocked.contains (pa / 128 * 128) | _ => false
      if hit then .fault .memoryError else .ok () (s.performWrites p none ws)
  | .fault c => .fault c
  | .wait k => .wait k
  | .stall s1 => .stall s1

/-- A read-modify-write at the home slice. -/
def State.serveModify (s : State) (p : Fin 8) (o n : Nat) (hostOk : Bool) (f : Nat → Nat) : Acc Nat :=
  match s.exportResolve (s.spanCtx p) .atomic o with
  | .fault c => .fault c
  | .transit => .wait .page
  | .ok t => s.modify (s.spanCtx p) t n hostOk f

/-- The granule behind a window offset, and the offset in it. -/
def State.serveGranule (s : State) (p : Fin 8) (k : AccessKind) (o : Nat) : Acc (Nat × Region × Nat × Nat) :=
  match s.exportResolve (s.spanCtx p) k o with
  | .fault c => .fault c
  | .transit => .wait .page
  | .ok (.device pa) =>
    match s.regionAt p pa with
    | some (i, r, q) => .ok (i, r, q, pa % 128) s
    | none => .fault .notVersioned
  | .ok _ => .fault .notVersioned

/-- Granules of a range that lies in one region. -/
def State.serveRange (s : State) (p : Fin 8) (i : Option Nat) : Nat → Nat → Acc (List Nat)
  | 0, _ => .ok [] s
  | n + 1, o =>
    match s.serveGranule p .store o with
    | .ok (j, _, q, _) _ =>
      if i = none ∨ i = some j then
        match s.serveRange p (some j) n (o + 128) with
        | .ok l s1 => .ok (q :: l) s1
        | e => e
      else .fault .notVersioned
    | .fault c => .fault c
    | .wait k => .wait k
    | .stall s1 => .stall s1

/-- A message of a VPUB from another rank: the whole range is judged, then the granules of this piece are published (R277, R372). -/
def State.servePublish (s : State) (p : Fin 8) (o : Nat) (n : BitVec 32) (bytes start total : Nat) : Acc Unit :=
  match s.serveRange p none (total / 128) start, s.serveGranule p .store start with
  | .ok _ _, .ok (i, r, _, _) _ =>
    if n.toNat = noVersion then .fault .versionExhausted
    else
      match s.serveRange p none (bytes / 128) o with
      | .ok qs _ => .ok () (s.setRegion i (qs.foldl (fun r q => r.publish q n) r))
      | .fault c => .fault c
      | .wait k => .wait k
      | .stall s1 => .stall s1
  | .fault c, _ => .fault c
  | .wait k, _ => .wait k
  | _, .fault c => .fault c
  | _, _ => .wait .page

/-- The arrivals of another rank at a span barrier (R92, R356): SPANTAG stands for the offset. Before its launch has started here an
arrival is kept for it, so that it holds nothing up (R374; log 56). -/
def State.serveArrival (s : State) (a : SpanArrival) (q tag : Nat) (stage : Fin 8) (id : Fin 36) (n : Nat) : State :=
  match s.launches.reverse.find? fun l => l.part == a.part && l.spanTag.toNat == tag && l.state == .running with
  | none => { s with fabric := { s.fabric with arrivals := s.fabric.arrivals ++ [a] } }
  | some l => s.notePeer l q stage id n

/-- A session packet whose GEN is not the one open here is discarded, and counted at the port it came through (R451, R453). -/
def State.dropPacket (s : State) (port : Fin 8) : State := s.onPort port fun q => { q with genDrop := satAdd16 q.genDrop 1 }

/-- A sorted-exchange record of another rank (R451). -/
def State.serveRecord (s : State) (p port : Fin 8) (sid : Fin 16) (gen : Byte) (r : SxRecord) : State :=
  match s.session? p sid with
  | some x => if x.live ∧ x.desc.gen = gen then s.setSession { x with records := x.records ++ [r] } else s.dropPacket port
  | none => s.dropPacket port

/-- Another rank has aborted a session: the generation is retired here too, where it is the open one (R334, R451). -/
def State.serveAbort (s : State) (p port : Fin 8) (sid : Fin 16) (gen : Byte) : State :=
  match s.session? p sid with
  | some x => if x.live ∧ x.desc.gen = gen then s.endSession x true else s.dropPacket port
  | none => s.dropPacket port

/-- Turns an access into an answer, in the state before it where it faulted. -/
def State.replyOf {α : Type} (s : State) (a : Acc α) (bytes : α → List Byte) : Served :=
  match a with
  | .ok x s1 => .reply (.data (bytes x)) s1
  | .fault c => .reply (.error (BitVec.ofNat 8 c.code)) s
  | .wait k => .wait k
  | .stall _ => .stall

/-- Serves a request that carries the partition's tag and comes from rank `q` of its job. -/
def State.serveOp (s : State) (a : SpanArrival) (q : Nat) : Served :=
  let p := a.part
  let c := s.spanCtx p
  let o := a.req.offset
  match a.req.op with
  | .load n =>
    s.replyOf (match s.windowTargets p .load (windowPieces o n) with
      | .ok ts _ => s.readPiecesAt c ts
      | .fault e => .fault e
      | .wait k => .wait k
      | .stall s1 => .stall s1) id
  | .store data => s.replyOf (s.serveStore p o data 0xFF) fun _ => []
  | .merge mask data => s.replyOf (s.serveStore p o [data] mask) fun _ => []
  | .atomic op wide b e =>
    let n := if wide then 8 else 4
    s.replyOf (s.serveModify p o n (hostExecutes op) fun old => amoApply op n old (b.toNat % 2 ^ (8 * n)) (e.toNat % 2 ^ (8 * n))) (leBytes n)
  | .atomicFloat op b => s.replyOf (s.serveModify p o 4 false fun old => floatAmo op old b.toNat) (leBytes 4)
  | .topk pair => s.replyOf (s.serveModify p o 32 false (topkInsert s.parts[p].isDead · (pair.toNat % 2 ^ 32))) fun _ => []
  | .versionedLoad v n =>
    s.replyOf (match s.serveGranule p .load o with
      | .ok (_, g, k, off) s1 =>
        match g.readVersion k v.toNat with
        | .ok d => if s1.versionLost g k v.toNat then .fault .memoryError else .ok (((leBytes 128 d.toNat).drop off).take n) s1
        | .error (some e) => .fault e
        | .error none => .wait .versionLoad
      | .fault e => .fault e
      | .wait k => .wait k
      | .stall s1 => .stall s1) id
  | .versionedStore v data =>
    s.replyOf (match s.serveGranule p .store o with
      | .ok (i, g, k, _) s1 => s1.createVersion i g k v (granuleOfBytes data)
      | .fault e => .fault e
      | .wait k => .wait k
      | .stall s1 => .stall s1) fun _ => []
  | .publish v n start total => s.replyOf (s.servePublish p o v n start total) fun _ => []
  | .versionQuery w =>
    s.replyOf (match s.serveGranule p .load o with
      | .ok (_, g, k, _) s1 => .ok (g.query k w) s1
      | .fault e => .fault e
      | .wait k => .wait k
      | .stall s1 => .stall s1) fun v : Word => leBytes 8 v.toNat
  | .retire slot v =>
    s.replyOf (match s.serveGranule p .load o with
      | .ok (i, g, _, _) s1 => if g.cursors.length ≤ slot.val then .fault .notVersioned else .ok () (s1.setRegion i (g.retire slot.val v))
      | .fault e => .fault e
      | .wait k => .wait k
      | .stall s1 => .stall s1) fun _ => []
  | .barrierArrival stage id n => .silent (s.serveArrival a q o stage id n)
  | .sxRecord sid gen key source run position payload scale _ =>
    .silent (s.serveRecord p a.port sid gen
      { key := key, source := source, run := run, position := position, payload := payload, scale := scale })
  | .sxAbort sid gen => .silent (s.serveAbort p a.port sid gen)

/-- Serves a request: the job tag and the source rank are tested first (R371). -/
def State.serve (s : State) (a : SpanArrival) : Served :=
  let refused := if isAnswered a.req.op then Served.reply (.error 0x12) s else .silent s
  match s.parts[a.part].rankOf a.req.src with
  | some q => if s.parts[a.part].jobTag.toNat % 65536 = a.req.job.toNat then s.serveOp a q else refused
  | none => refused

/-- A request whose turn has come and that must wait here holds its turn, its place in the order of arrival, and for a version its place
on the wait list of the slice (R116, R374). -/
def State.hold (s : State) (a : SpanArrival) (k : WaitKind) (since : Nat) : State :=
  let kind := s.listed k (s.exportResolve (s.spanCtx a.part) .load a.req.offset)
  { s with fabric := { s.fabric with waits := s.fabric.waits ++ [{ arrival := a, kind := kind, since := since, woken := false }] } }

/-- A reply is sent; its flits take the next SEQs of the request's class (R374, R378). -/
def State.sendReply (s : State) (r : SpanReq) (a : Answer) : State :=
  let m : Message :=
    { dest := r.src, src := s.fabric.self, tag := r.tag, inc := r.inc, cls := r.cls, job := r.job, seq := 0, body := .reply a }
  { s with fabric := s.fabric.transmit s.cycle.toNat m, outputs := .fabricReply r.src r.tag r.inc a :: s.outputs }

/-- Performs a request whose turn has come, or puts it among those that wait here; whether its turn is over (R374). -/
def State.perform (s : State) (a : SpanArrival) (since : Nat) : Bool × State :=
  match s.serve a with
  | .reply x s1 => (true, s1.sendReply a.req x)
  | .silent s1 => (true, s1)
  | .wait k => (false, s.hold a k since)
  | .stall => (false, s.hold a .page since)

/-- Performs what has arrived early, in SEQ order, up to a request that must wait here; a SEQ that no turn waits for is passed over
(R374, R455). -/
def State.drain (s : State) (src : Fin 4096) (cls : Fin 16) : Nat → State
  | 0 => s
  | n + 1 =>
    let f := s.fabric
    let seq := f.expected src cls
    match f.passed.find? fun e => e.1 == src && e.2.1 == cls && e.2.2.1 == seq with
    | some e =>
      let f1 := { f with passed := f.passed.filter (· != e) }
      ({ s with fabric := f1.advance src cls e.2.2.2 } : State).drain src cls n
    | none =>
      let same := fun e : SpanArrival => e.req.src == src && e.req.cls == cls && e.req.seq == seq
      match f.early.find? same with
      | none => s
      | some a =>
        let f1 := { f with early := f.early.filter fun e => ! same e }
        let (done, s1) := ({ s with fabric := f1 } : State).perform a s.ticket
        if done then ({ s1 with fabric := s1.fabric.advance src cls (flitsOf a.req.op) } : State).drain src cls n else s1

/-- Everything of a source and class that can be performed now. -/
def State.drainAll (s : State) (src : Fin 4096) (cls : Fin 16) : State :=
  s.drain src cls (s.fabric.early.length + s.fabric.passed.length + 1)

/-- A request that waits here is tried again, in its place; where its turn is over, those behind it follow. -/
def State.retrySpan (s : State) (w : SpanWait) : State :=
  let a := w.arrival
  let (done, s1) := ({ s with fabric := { s.fabric with waits := s.fabric.waits.erase w } } : State).perform a w.since
  if done then ({ s1 with fabric := s1.fabric.advance a.req.src a.req.cls (flitsOf a.req.op) } : State).drainAll a.req.src a.req.cls else s1

/-- Whether a waiting request may be tried again: one on a wait list once it has been woken (R116). -/
def SpanWait.ripe (w : SpanWait) : Bool := w.kind != .versionLoad || w.woken

/-- SPAN_REQUEST (R371, R374, R453): a request that waits here is tried again; one already performed, or cancelled, is discarded; one
whose turn has not come is kept. -/
def execSpanRequest (p : Fin 8) (f : FlitIn) (r : SpanReq) (s : State) : Result :=
  let a : SpanArrival := { part := p, port := f.port, req := r }
  .next (match s.fabric.waits.find? fun w => w.arrival == a && w.ripe with
  | some w => s.retrySpan w
  | none =>
    let (delivered, s1) := s.receiveFlit f (flitsOf r.op)
    if delivered then
      let g := s1.fabric
      let same := fun e : SpanArrival => e.req.src == r.src && e.req.cls == r.cls && e.req.seq == r.seq
      if g.over_ r.src r.cls r.seq ∨ g.early.any same ∨ g.waits.any (same ·.arrival) then s1
      else ({ s1 with fabric := { g with early := g.early ++ [a] } } : State).drainAll r.src r.cls
    else s1)

/-- A message that is taken as it comes: its SEQs hold no request up (R374). -/
def State.pass (s : State) (src : Fin 4096) (cls : Fin 16) (first : Fin 65536) (n : Nat) : State :=
  ({ s with fabric := { s.fabric with passed := (src, cls, first, n) :: s.fabric.passed } } : State).drainAll src cls

/-- A reply or a cancel arrives: the state once its turn has been passed; none where it is not delivered or has come before (R374,
R376, R453). -/
def State.accept (s : State) (h : Heading) (n : Nat) : State × Option State :=
  let (delivered, s1) := s.receiveFlit h.flit n
  (s1, if delivered ∧ ¬ s1.fabric.over_ h.src h.cls h.seq then some (s1.pass h.src h.cls h.seq n) else none)

/-- FABRIC_REPLY (R378): an answer with an unknown tag or an old incarnation is counted as late and does nothing. -/
def execFabricReply (h : Heading) (tag : Fin 4096) (inc : Fin 16) (a : Answer) (s : State) : Result :=
  .next (match s.accept h (bodyFlits (.reply a)) with
    | (s1, none) => s1
    | (_, some s1) =>
      match s1.fabric.requests.find? fun r => r.req.tag == tag && r.req.inc == inc with
      | some r => s1.answer r a
      | none => s1.onPort h.flit.port fun p => { p with late := satAdd16 p.late 1 })

/-- A request not performed yet never is; one already performed is left (R455). -/
def State.cancelRun (s : State) (src : Fin 4096) (cls : Fin 16) (seqs : FlitRun) : State :=
  let f := s.fabric
  let same := fun e : SpanArrival => e.req.src == src && e.req.cls == cls && e.req.seq == seqs.first
  if f.over_ src cls seqs.first then s
  else
    ({ s with fabric := { f with waits := f.waits.filter fun e => ! same e.arrival, early := f.early.filter fun e => ! same e } } : State).pass
      src cls seqs.first seqs.count.val

/-- CANCEL (R455), a flit as any other (R374, R376). -/
def execCancel (h : Heading) (first : Fin 65536) (count : Fin 17) (s : State) : Result :=
  .next (match s.accept h 1 with
    | (s1, none) => s1
    | (_, some s1) => s1.cancelRun h.src h.cls { first := first, count := count })

end Sys2Proof.Machine
end

