-- ==== Sys2Proof/Machine/Matrix.lean ====
section
/-! DEFINITION. The matrix engine: majors 0x3C to 0x3E and 0x2D, and its two steps (R147, R284-R300). -/

namespace Sys2Proof.Machine

/-! ### Issue (R287) -/

/-- Places an instruction in the engine's queue; the control core stalls while 16 are pending. -/
def State.issueMatrix (s : State) (op : State → MatrixOp) : Result :=
  s.controlOnly fun c s =>
    let cl := s.clusters[c]
    if 16 ≤ cl.queue.length then s.stall 0
    else { s with clusters := s.clusters.set c { cl with queue := cl.queue ++ [op s] } }

/-- MGATHER (R291); `n` is the number of slices minus 1. -/
def execMgather (a b g : Reg) (n k : Fin 4) (s : State) : Result :=
  s.issueMatrix fun s => .gather (s.hart.getX b) (s.hart.getX a) (s.hart.getX g) n k
def execMldb (a : Reg) (s : State) : Result := s.issueMatrix fun s => .ldb (s.hart.getX a)
def execMcfg (a : Reg) (s : State) : Result := s.issueMatrix fun s => .cfg (s.hart.getX a)
def execMma (k : Fin 4) (s : State) : Result := s.issueMatrix fun _ => .mma k
def execMzero (s : State) : Result := s.issueMatrix fun _ => .zero
def execMswap (s : State) : Result := s.issueMatrix fun _ => .swap
def execMdrain (a b : Reg) (f : DrainFmt) (s : State) : Result :=
  s.issueMatrix fun s => .drain (s.hart.getX a) (s.hart.getX b) f

/-- MWAIT (R287, R295): like the others it stalls while 16 are pending; then it holds the control core until PEND is small enough. It
leaves as soon as it has its place, so PEND counts the instructions before it (log 27). -/
def execMwait (w : Reg) (s : State) : Result :=
  s.controlOnly fun c s =>
    if s.clusters[c].queue.length < 16 ∧ s.clusters[c].queue.length ≤ w.val then s.onHart (·.setFlow .seq) else s.stall 0

/-- Engine status (R296). -/
def Cluster.mstat (c : Cluster) : Word :=
  BitVec.ofNat 64 (c.flags.sat.toNat + c.flags.nx.toNat * 2 + c.flags.uf.toNat * 4 + c.flags.of.toNat * 8 + c.flags.nv.toNat * 16
    + c.queue.length * 2 ^ 16 + c.mode.toNat * 2 ^ 27 + c.brow.toNat * 2 ^ 30 + c.bcol.toNat * 2 ^ 33
    + c.trowsM1.toNat * 2 ^ 35 + c.tcolsM1.toNat * 2 ^ 46)

/-- MSTAT (R296). -/
def execMstat (d : Reg) (clear : Bool) (s : State) : Result :=
  s.controlOnly fun c s =>
    let cl := s.clusters[c]
    let s1 := if clear then { s with clusters := s.clusters.set c { cl with flags := .clear } } else s
    s1.onHart fun h => h.setX d cl.mstat

/-! ### Accesses of the engine -/

/-- What an access of the engine to the banks gives. -/
inductive EngineAcc (α : Type)
  | ok (a : α)
  | fault (c : Cause) (va : Word)
  | hold

/-- Whether `n` bytes at an address lie in granted scratchpad banks, for reading (R59, R440, R441). -/
def State.judgeBanks (s : State) (g : GangId) (read : Bool) (a n : Nat) : EngineAcc Unit :=
  let one := fun i : Nat =>
    let off := a + i - clusterBase
    match (if a + i < clusterBase ∨ clusterBase + clusterSize ≤ a + i then none else s.bank? (some g) (off / 0x40000)) with
    | none => some (Cause.bank, a + i)
    | some k =>
      if k.switching.isSome then none
      else if ¬ k.isScratch then some (Cause.bank, a + i)
      else if read ∧ k.bad.contains (off % 0x40000 / 32) then some (Cause.bankError, a + i) else none
  let held := fun i : Nat =>
    match s.bank? (some g) ((a + i - clusterBase) / 0x40000) with
    | some k => k.switching.isSome
    | none => false
  match (List.range n).findSome? one with
  | some (c, x) => .fault c (BitVec.ofNat 64 x)
  | none => if (List.range n).any held then .hold else .ok ()

/-- Bytes of the cluster window, already judged. -/
def State.windowBytes (s : State) (g : GangId) (a n : Nat) : List Byte :=
  (List.range n).map fun i =>
    match s.bank? (some g) ((a + i - clusterBase) / 0x40000) with
    | some k => k.bytes.get ((a + i - clusterBase) % 0x40000)
    | none => 0

/-- Reads bytes of the banks for the engine. -/
def State.engineRead (s : State) (g : GangId) (a : Word) (n : Nat) : EngineAcc (List Byte) :=
  match s.judgeBanks g true a.toNat n with
  | .ok () => .ok (s.windowBytes g a.toNat n)
  | .fault c va => .fault c va
  | .hold => .hold

/-- The writes that put bytes into banks, split at the banks' boundaries. -/
def bankWrites (a : Nat) (data : List Byte) : List Write :=
  let off := a - clusterBase
  let room := 0x40000 - off % 0x40000
  let one := fun (off : Nat) (l : List Byte) =>
    { target := .bank (off / 0x40000) (off % 0x40000), data := l, va := BitVec.ofNat 64 (clusterBase + off) : Write }
  if data.length ≤ room then [one off data] else [one off (data.take room), one (off + room) (data.drop room)]

/-! ### Effects -/

/-- Bytes of a row of the A latch with slices replaced from slice `k` on (R286, R291). -/
def putSlices (row : BitVec 2048) (k n : Nat) (d : List Byte) : BitVec 2048 :=
  (List.range n).foldl (fun r j =>
    let lo := 512 * ((k + j) % 4)
    (r &&& ~~~ ((BitVec.allOnes 512).setWidth 2048 <<< lo)) |||
      ((BitVec.ofNat 512 (leNat ((d.drop (64 * j)).take 64))).setWidth 2048 <<< lo)) row

/-- The rows MGATHER reads, from row `m` on (R291). -/
def State.gatherRows (s : State) (g : GangId) (index base : Word) (rows stride n : Nat) : Nat → Nat → EngineAcc (List (List Byte))
  | 0, _ => .ok []
  | f + 1, m =>
    let zeros := List.replicate (64 * n) (0 : Byte)
    let row : EngineAcc (List Byte) :=
      if rows ≤ m then .ok zeros
      else
        match s.engineRead g (index + BitVec.ofNat 64 (2 * m)) 2 with
        | .ok l =>
          if leNat l = 0xFFFF then .ok zeros
          else s.engineRead g (base + BitVec.ofNat 64 (leNat l * stride)) (64 * n)
        | .fault c va => .fault c va
        | .hold => .hold
    match row with
    | .ok d =>
      match s.gatherRows g index base rows stride n f (m + 1) with
      | .ok l => .ok (d :: l)
      | e => e
    | .fault c va => .fault c va
    | .hold => .hold

/-- A nested source in the latch: planes 0 to p - 1 of each block, block after block (R292). -/
def nestedPlanes (mode : Nat) : Nat := if mode = 2 then 8 else if mode = 3 then 4 else 2

/-- Depth K of an MMA (R285). -/
def depthOf (mode : Nat) : Nat := if mode = 0 then 32 else if mode ≤ 2 then 64 else if mode = 3 then 128 else 256

/-- The pieces of memory MLDB reads, by offset (R292). -/
def ldbPieces (mode : Nat) : List (Nat × Nat) :=
  if mode ≤ 1 then [(0, 16384)]
  else (List.range (depthOf mode / 4)).map fun b => (1024 * b, 128 * nestedPlanes mode)

/-- Judges a number of lines of 128 bytes in order: a source must lie wholly in granted scratchpad banks, the bytes that are not read
too. -/
def State.judgeLines (s : State) (g : GangId) : Nat → Word → EngineAcc Unit
  | 0, _ => .ok ()
  | n + 1, a =>
    match s.judgeBanks g false a.toNat 1 with
    | .ok () => s.judgeLines g n (a + 128)
    | e => e

/-- Bytes that the source of MLDB occupies (R292). -/
def ldbSize (mode : Nat) : Nat := if mode ≤ 1 then 16384 else 256 * depthOf mode

/-- Reads pieces one after another. -/
def State.readPieces (s : State) (g : GangId) (a : Word) : List (Nat × Nat) → EngineAcc (List Byte)
  | [] => .ok []
  | (o, n) :: l =>
    match s.engineRead g (a + BitVec.ofNat 64 o) n with
    | .ok d =>
      match s.readPieces g a l with
      | .ok r => .ok (d ++ r)
      | e => e
    | e => e

/-- B[k][n] as the latch holds it in a mode, as a raw element (R286, R292). -/
def bElem (b : BitVec 131072) (mode k n : Nat) : Nat :=
  if mode = 0 then (b.extractLsb' (16 * (256 * k + n)) 16).toNat
  else if mode = 1 then (b.extractLsb' (8 * (256 * k + n)) 8).toNat
  else
    let p := nestedPlanes mode
    let i := 256 * (k % 4) + n
    (List.range p).foldl (fun acc q =>
      acc + (b.extractLsb' (8 * (128 * (p * (k / 4) + q) + i / 8) + i % 8) 1).toNat * 2 ^ (7 - q)) 0

/-- B[k][n] as MMA reads it: a latch filled under another MODE gives free values (log 33). -/
def State.bValue (s : State) (c : Cluster) (k n : Nat) : Nat :=
  match c.bMode with
  | none => 0
  | some m =>
    if m = c.mode then bElem c.bLatch c.mode.toNat k n
    else Config.free (s.draws + 256 * k + n) % (if c.mode = 0 then 65536 else 256)

/-- A element k of row m for first slice `f` (R286). -/
def aValue (c : Cluster) (m : Fin 256) (f k : Nat) : Nat :=
  let w := if c.mode = 0 then 2 else 1
  (c.aLatch[m].extractLsb' (8 * ((64 * f + k * w) % 256)) (8 * w)).toNat

/-- Exact sum of values; none where it is invalid: infinity times zero, or infinities of both signs (R147). A NaN met before the second
infinity makes the sum a NaN and not invalid (log 28). -/
def exactSum : List (Option Val) → Val → Option Val
  | [], acc => some acc
  | none :: _, _ => none
  | some v :: l, acc =>
    match v, acc with
    | .nan a, b => exactSum l (.nan (a || b.isSignalling))
    | a, .nan b => exactSum l (.nan (b || a.isSignalling))
    | .inf a, .inf b => if a = b then exactSum l (.inf a) else none
    | .inf a, _ => exactSum l (.inf a)
    | _, .inf b => exactSum l (.inf b)
    | .fin a, .fin b => exactSum l (.fin (b.add .nearest a))

/-- One FP32 accumulation with one rounding (R147, R293). -/
def mmaFloat (w : Nat) (products : List (Option Val)) : Nat × Raised :=
  match exactSum products (fp32.decode w) with
  | none => fp32.invalid
  | some (.nan s) => fp32.nanOf s
  | some v => fp32.deliver .nearest v

/-- One INT32 accumulation (R147, R293). -/
def mmaInt (w : Nat) (sum : Int) : Nat × Raised :=
  let t := sgn 32 w + sum
  let c := max (-2 ^ 31) (min (2 ^ 31 - 1) t)
  (wrap 32 c, { sat := decide (c ≠ t) })

/-- One element of the working bank after an MMA. -/
def State.mmaElem (s : State) (c : Cluster) (f : Nat) (m : Fin 256) (n : Nat) : Nat × Raised :=
  let w := elemOf c.working[m] 32 n
  let ks := List.range (depthOf c.mode.toNat)
  if c.mode = 0 then
    mmaFloat w (ks.map fun k => (bf16.decode (aValue c m f k)).mul (bf16.decode (s.bValue c k n)))
  else mmaInt w (ks.foldl (fun acc k => acc + sgn 8 (aValue c m f k) * sgn 8 (s.bValue c k n)) 0)

/-- Sticky flags after exceptions (R293, R296). -/
def MatrixFlags.raise (f : MatrixFlags) (r : Raised) : MatrixFlags :=
  { nv := f.nv || r.nv, of := f.of || r.of, uf := f.uf || r.uf, nx := f.nx || r.nx, sat := f.sat || r.sat }

/-- The engine after an MMA (R293). -/
def State.mma (s : State) (c : Cluster) (f : Nat) : Cluster :=
  let rows := Vector.ofFn fun m : Fin 256 => (List.range 256).map fun n => s.mmaElem c f m n
  { c with
    working := rows.map fun r => BitVec.ofNat 8192 ((positions r).foldl (fun acc x => acc + x.2.1 * 2 ^ (32 * x.1)) 0)
    flags := rows.toList.foldl (fun g r => r.foldl (fun g x => g.raise x.2) g) c.flags }

/-- Size of an element MDRAIN writes (R297). -/
def drainSize : DrainFmt → Nat | .native => 4 | .bf16 => 2 | _ => 1

/-- An element MDRAIN writes, and whether it saturated; none where the format does not suit the bank (R297). -/
def drainElem (mode : BitVec 3) (f : DrainFmt) (x : Nat) : Option (Nat × Bool) :=
  match f with
  | .native => some (x, false)
  | .bf16 => if mode = 0 then some ((bf16.deliver .nearest (fp32.decode x)).1, false) else none
  | .e4m3 => if mode = 0 then some (narrow .e4m3 (fp32.decode x) 0) else none
  | .e5m2 => if mode = 0 then some (narrow .e5m2 (fp32.decode x) 0) else none
  | .int8 => if mode = 0 then none else some (narrow .int8 (.fin (exactOfInt (sgn 32 x))) 0)

/-- Rows and columns of the block that lie in the tile (R297). -/
def Cluster.clip (c : Cluster) : Nat × Nat :=
  (min 256 (c.trowsM1.toNat + 1 - 256 * c.brow.toNat), min 256 (c.tcolsM1.toNat + 1 - 256 * c.bcol.toNat))

/-- The rows MDRAIN writes: address and bytes, and whether an element saturated. -/
def Cluster.drainRows (c : Cluster) (a stride : Word) (f : DrainFmt) : Option (List (Nat × List Byte) × Bool) :=
  let (rows, cols) := c.clip
  let z := drainSize f
  let row := fun m : Nat =>
    let es := (List.range cols).map fun n => (drainElem c.mode f (elemOf c.visible[Fin.ofNat 256 m] 32 n)).getD (0, false)
    (((a + BitVec.ofNat 64 m * stride).toNat, es.flatMap fun e => leBytes z e.1), es.any (·.2))
  if (drainElem c.mode f 0).isNone then none
  else
    let l := (List.range (if cols = 0 then 0 else rows)).map row
    some (l.map (·.1), l.any (·.2))

/-- Judges the rows of a drain in order. -/
def State.judgeRows (s : State) (g : GangId) : List (Nat × List Byte) → EngineAcc Unit
  | [] => .ok ()
  | (a, d) :: l =>
    match s.judgeBanks g false a d.length with
    | .ok () => s.judgeRows g l
    | e => e

/-- The effect of a matrix instruction: the engine and the machine after it, a fault of the program, or a hold (R287). -/
def State.matrixEffect (s : State) (n : Fin 64) (g : GangId) (op : MatrixOp) : EngineAcc State :=
  let c := s.clusters[n]
  let put := fun (s : State) (c : Cluster) => { s with clusters := s.clusters.set n c }
  match op with
  | .cfg v =>
    if 4 < bits v.toNat 27 3 then .fault .tag 0
    else .ok (put s { c with
      mode := BitVec.ofNat 3 (bits v.toNat 27 3), brow := BitVec.ofNat 3 (bits v.toNat 30 3), bcol := BitVec.ofNat 2 (bits v.toNat 33 2)
      trowsM1 := BitVec.ofNat 11 (bits v.toNat 35 11), tcolsM1 := BitVec.ofNat 10 (bits v.toNat 46 10) })
  | .zero => .ok (put s { c with working := Vector.replicate 256 0 })
  | .swap => .ok (put s { c with working := c.visible, visible := c.working })
  | .mma f =>
    let s1 := put s (s.mma c f.val)
    .ok { s1 with draws := if c.bMode.isSome ∧ c.bMode ≠ some c.mode then s.draws + 65536 else s.draws }
  | .gather base index count n f =>
    let rows := min (bits count.toNat 32 9) 256
    let stride := bits count.toNat 0 32
    if ¬ aligned index 2 then .fault .misaligned index
    else if ¬ aligned base 4 ∨ stride % 4 ≠ 0 then .fault .misaligned base
    else
      match s.gatherRows g index base rows stride (n.val + 1) 256 0 with
      | .ok l => .ok (put s { c with
          aLatch := Vector.ofFn fun m : Fin 256 => putSlices c.aLatch[m] f.val (n.val + 1) (l.getD m.val []) })
      | .fault e va => .fault e va
      | .hold => .hold
  | .ldb a =>
    if ¬ aligned a 128 then .fault .misaligned a
    else
      match s.judgeLines g (ldbSize c.mode.toNat / 128) a with
      | .ok () =>
        match s.readPieces g a (ldbPieces c.mode.toNat) with
        | .ok l => .ok (put s { c with bLatch := BitVec.ofNat 131072 (leNat l), bMode := some c.mode })
        | .fault e va => .fault e va
        | .hold => .hold
      | .fault e va => .fault e va
      | .hold => .hold
  | .drain a stride f =>
    let z := drainSize f
    match c.drainRows a stride f with
    | none => .fault .tag 0
    | some (rows, sat) =>
      if ¬ aligned a z ∨ ¬ aligned stride z then .fault .misaligned a
      else
        match s.judgeRows g rows with
        | .ok () =>
          let s1 := s.performWrites (((s.gang? g).map (·.part)).getD 0) (some g) (rows.flatMap fun r => bankWrites r.1 r.2)
          .ok (put s1 { c with flags := c.flags.raise { sat := sat } })
        | .fault e va => .fault e va
        | .hold => .hold

/-- The latch parts a faulting fill was writing are left zero (R288). -/
def Cluster.spoil (c : Cluster) : MatrixOp → Cluster
  | .gather _ _ _ n f =>
    { c with aLatch := c.aLatch.map fun r => putSlices r f.val (n.val + 1) [] }
  | .ldb _ => { c with bLatch := 0, bMode := none }
  | _ => c

/-- MATRIX_INSTRUCTION_BEGIN (R287). -/
def execMatrixInstructionBegin (c : Fin 64) (s : State) : Result :=
  .next (let cl := s.clusters[c]
    if cl.queue.isEmpty ∨ cl.busy then s
    else { s with clusters := s.clusters.set c { cl with busy := true, owner := (s.program? c).map (·.id), stray := none } })

/-- The fault of an instruction that had begun: its program ends by it; where the program had ended already, the forking strand takes it
as it takes a program's (R288). -/
def State.matrixFault (s : State) (c : Fin 64) (op : MatrixOp) (e : Cause) (va : Word) : State :=
  let cl := s.clusters[c].spoil op
  match cl.stray with
  | none => { s with clusters := s.clusters.set c { cl with queue := [], busy := false } }.endForkedByFault c e va
  | some pc =>
    let s1 : State := { s with clusters := s.clusters.set c { cl with queue := cl.queue.drop 1, busy := false, stray := none } }
    match cl.owner with
    | some i => s1.onStrand i fun h => h.addReport { src := 1, pos := 0, cause := e.code, stval := if e.isMemory then va else pc }
    | none => s1

/-- MATRIX_INSTRUCTION_COMPLETE: the oldest instruction has its effect and leaves the queue, or ends the program (R287, R288). -/
def execMatrixInstructionComplete (c : Fin 64) (s : State) : Result :=
  .next (let cl := s.clusters[c]
    match cl.queue with
    | [] => s
    | op :: rest =>
      if ¬ cl.busy then s
      else
        let g := gangOf (cl.owner.getD s.hart.id)
        match s.matrixEffect c g op with
        | .hold => s
        | .ok s1 => { s1 with clusters := s1.clusters.set c { s1.clusters[c] with queue := rest, busy := false, stray := none } }
        | .fault e va => s.matrixFault c op e va)

/-! ### Strand access to the visible bank (R299, R300) -/

/-- Tag of the visible bank's elements. -/
def Cluster.accTag (c : Cluster) : Tag := if c.mode = 0 then .fp32 else .i32

/-- Runs an access to the cluster of the strand's gang, binding the gang to it (R289). -/
def State.atCluster (s : State) (k : Fin 64 → State → State) : State :=
  match s.clusterOf (gangOf s.hart.id) with
  | none => s.stall 0
  | some c => (k c s).onGang (gangOf s.hart.id) fun x => { x with bound := some c }

/-- Row of the visible bank a register names. -/
def Hart.accRow (h : Hart) (x : Reg) : Fin 256 := Fin.ofNat 256 (h.getX x).toNat

/-- VACCRD. -/
def execVaccrd (d x m : Reg) (s : State) : Result :=
  s.vector (s.hart.judge true false 256) fun s =>
    s.atCluster fun c s => s.onHart fun h =>
      let cl := s.clusters[c]
      h.whole d cl.accTag ((h.wholeActive m).map fun e => (e, elemOf cl.visible[h.accRow x] 32 e))

/-- VACCWR. -/
def execVaccwr (r x m : Reg) (s : State) : Result :=
  let tag := (s.clusterOf (gangOf s.hart.id)).map fun c => s.clusters[c].accTag
  s.vector (s.hart.judge (tag.isNone || tag == some (s.hart.tag r)) false 256) fun s =>
    s.atCluster fun c s =>
      let cl := s.clusters[c]
      let h := s.hart
      let row := putElems cl.visible[h.accRow x] 32 ((h.wholeActive m).map fun e => (e, elemOf h.v[r] 32 e))
      { s with clusters := s.clusters.set c { cl with visible := cl.visible.set (h.accRow x) row } }

end Sys2Proof.Machine
end

