-- ==== Sys2Proof/Machine/Parts.lean ====
section
/-! DEFINITION. Partition, queue and plain registers, interface states, debug policies (R357, R370, R371, R380-R387, R391, R392, R456, R457). -/

namespace Sys2Proof.Machine

def State.onPart (s : State) (p : Fin 8) (f : Partition → Partition) : State := { s with parts := s.parts.set p (f s.parts[p]) }

def State.send (s : State) (o : Output) : State := { s with outputs := o :: s.outputs }

/-! ### Virtual functions (R381, R391, R456) -/

/-- Partitions a VF owns. -/
def State.partsOf (s : State) (v : Fin 64) : List (Fin 8) :=
  (List.finRange 8).filter fun p => v != 0 && s.parts[p].vf == v

def State.setVf (s : State) (v : Fin 64) (x : VfState) : State :=
  { s with golium := { s.golium with vfs := s.golium.vfs.set v x } }

/-- The debug policy ends, measured where one was in force (R391). -/
def State.closePolicy (s : State) (p : Fin 8) : State :=
  if s.parts[p].policy then (s.onPart p fun x => { x with policy := false, grant := 0 }).measure (32 + p.val)
  else s

/-- A VF enters ERROR from a locked state: its debug blocks close (R391, R456). -/
def State.vfFails (s : State) (v : Fin 64) : State :=
  if v ≠ 0 ∧ (s.golium.vfs[v] = .configLocked ∨ s.golium.vfs[v] = .run) then
    ((s.partsOf v).foldl (fun s p => s.closePolicy p) s).setVf v .error
  else s

/-! ### Who may write (R380, R381, R456) -/

/-- What a write meets. -/
inductive Permit | yes | locked | ignored | violation
  deriving DecidableEq, Repr

/-- Registers locked from CONFIG_LOCKED on, and those locked in RUN only (R381). -/
inductive LockGroup | early | late | never
  deriving DecidableEq, Repr

/-- Whether a register of a group is locked in a state (R381). -/
def LockGroup.shut (g : LockGroup) (st : VfState) : Bool :=
  match g with
  | .early => st != .configUnlocked
  | .late => st == .run || st == .error
  | .never => false

/-- Whether a function may write a register of a partition or of its queues. A VF writes while it is unlocked, and with the TEE bit in
RUN (log 60); its request for a locked register without that bit is a violation (R380, R381, R456). -/
def State.permit (s : State) (f : Caller) (p : Fin 8) (g : LockGroup) : Permit :=
  let st := s.ownerState p
  if f.function = 0 then (if g.shut st then .locked else .yes)
  else if f.function ≠ s.parts[p].vf then .ignored
  else if ¬ g.shut st then .yes
  else if ¬ s.trusts f.function f.tee then .violation
  else if st = .run then .yes
  else .locked

def State.setPstat (s : State) (p : Fin 8) (n : Fin 7) : State := s.onPart p fun x => { x with pstat := n }

/-- A write under a permit: done, or refused with PSTAT code 4 (R381, R384). Before the module is ready nothing is written: no partition
and no queue is enabled then (R393; log 80). -/
def State.guarded (s : State) (f : Caller) (p : Fin 8) (g : LockGroup) (k : State → State) : Result :=
  .next (if ¬ s.golium.ready then s
    else
      match s.permit f p g with
      | .yes => k s
      | .locked => s.setPstat p 4
      | .ignored => s
      | .violation => s.vfFails s.parts[p].vf)

/-! ### PCFG and PMEM (R383, R384, R385) -/

/-- Fields of PCFG. -/
def cfgOctets (v : Word) : Nat := bits v.toNat 48 8
def cfgAsids (v : Word) : Nat × Nat := (bits v.toNat 16 10, bits v.toNat 16 10 + bits v.toNat 32 10)

/-- PCFG without LOCK and the reserved bits. -/
def cfgMask : Word := 0x80FF03FF03FF003F

/-- Whether a partition counts as enabled: EN is set, or its grant is being zeroed. -/
def Partition.enabled (p : Partition) : Bool := p.cfg.getLsbD 63 || p.enabling

/-- The other enabled partitions. -/
def State.others (s : State) (p : Fin 8) : List Partition :=
  ((List.finRange 8).filter fun i => i != p && s.parts[i].enabled).map fun i => s.parts[i]

/-- Whether a launch, job or session of a partition is in flight (R384). -/
def State.inUse (s : State) (p : Fin 8) : Bool :=
  (s.launches.any fun l => l.part == p && (l.state == .queued || l.state == .running)) ||
    (s.jobs.any fun j => j.part == p && ! j.complete) || s.sessions.any fun x => x.part == p && x.live

/-- The range a PMEM register grants. -/
def grantRange (g : Word) : Nat × Nat := (bits g.toNat 22 22 * 2 ^ 30, bits g.toNat 44 12 * 2 ^ 30)

/-- Valid grants of a register file. -/
def grantsOf (v : Vector Word 16) : List (Nat × Nat) := (v.toList.filter fun g => g.getLsbD 63).map grantRange

/-- Whether a range lies in one region of device memory (R65, R385); an empty range lies in none. -/
def inDeviceMemory (r : Nat × Nat) : Bool :=
  let inside := fun lo hi => decide (lo ≤ r.1 ∧ r.1 + r.2 ≤ hi)
  r.2 != 0 && (inside 0 0x8000000000 || inside 0x100000000000 0x1C0000000000 || inside 0x4000000000000 0x8000000000000)

/-- Whether ranges meet each other. -/
def selfOverlap : List (Nat × Nat) → Bool
  | [] => false
  | r :: l => l.any (overlap r) || selfOverlap l

/-- Whether a set of grants is refused with code 5. -/
def State.badGrants (s : State) (p : Fin 8) (v : Vector Word 16) : Bool :=
  let mine := grantsOf v
  mine.any (fun r => ! inDeviceMemory r) || selfOverlap mine ||
    (s.others p).any fun o => (grantsOf o.pmem).any fun r => mine.any (overlap r)

/-- PSTAT of a write to PCFG, the lowest code that applies (R384). -/
def State.judgeCfg (s : State) (p : Fin 8) (v : Word) : Fin 7 :=
  let en := v.getLsbD 63
  let a := cfgAsids v
  let x := s.parts[p]
  let moved := en != x.enabled || cfgOctets v != cfgOctets x.cfg || cfgAsids v != cfgAsids x.cfg
  if (s.others p).any (fun o => cfgOctets o.cfg &&& cfgOctets v != 0) ∨ (en ∧ cfgOctets v = 0) then 1
  else if 1023 < a.2 ∨ (s.others p).any (fun o => decide ((cfgAsids o.cfg).1 ≤ a.2 ∧ a.1 ≤ (cfgAsids o.cfg).2)) then 2
  else if moved ∧ s.inUse p then 3
  else if en ∧ s.badGrants p x.pmem then 5
  else 0

/-- EN is cleared: the key is destroyed, so the grant's bytes can no longer be read; the sessions' ids, the policy and the nonce end
(R331, R385, R391, R392). -/
def State.disable (s : State) (p : Fin 8) : State :=
  let s1 := s.closePolicy p
  ({ s1 with
    unkeyed := grantsOf s.parts[p].pmem ++ s1.unkeyed
    sessions := s1.sessions.filter fun x => x.part != p } : State).onPart p fun x =>
      { x with enabling := false, nonce := none, cfg := x.cfg &&& 0x7FFFFFFFFFFFFFFF }

/-- PCFG_WRITE (R383-R385): EN reads 1 only once the grant has been zeroed. -/
def execPcfgWrite (f : Caller) (p : Fin 8) (v : Word) (s : State) : Result :=
  s.guarded f p .early fun s =>
    let code := s.judgeCfg p v
    if code ≠ 0 then s.setPstat p code
    else
      let old := s.parts[p]
      let en := v.getLsbD 63
      let kept : Word := if en ∧ old.cfg.getLsbD 63 then 0x8000000000000000 else 0
      let new := (v &&& cfgMask &&& 0x7FFFFFFFFFFFFFFF) ||| kept
      let starts := en ∧ ¬ old.enabled
      let s1 := if ¬ en ∧ old.enabled then s.disable p else s
      s1.onPart p fun x =>
        { x with
          cfg := new
          pstat := 0
          enabling := x.enabling || decide starts
          keyGen := if starts then x.keyGen + 1 else x.keyGen }

/-- Makes ranges of memory read as zero, every line correct (R385, R442). -/
def State.zero (s : State) (l : List (Nat × Nat)) : State :=
  { s.mend (fun b => l.any fun r => decide (r.1 ≤ b ∧ b < r.1 + r.2)) with mem := l.foldl (fun m r => m.clear r.1 r.2) s.mem }

/-- PMEM_WRITE (R384, R385): what a range newly granted to an enabled partition reads as is not stated; it reads zero (log 61). A range
no longer granted stands under a key that no other agent has. -/
def execPmemWrite (f : Caller) (p : Fin 8) (i : Fin 16) (v : Word) (s : State) : Result :=
  s.guarded f p .early fun s =>
    let old := s.parts[p]
    let w := v &&& 0x80FFFFFFFFC00000
    let new := old.pmem.set i w
    if w ≠ old.pmem[i] ∧ s.inUse p then s.setPstat p 3
    else if s.badGrants p new then s.setPstat p 5
    else
      let changed := old.enabled ∧ w ≠ old.pmem[i]
      let lost := if changed ∧ old.pmem[i].getLsbD 63 then [grantRange old.pmem[i]] else []
      let s1 := if changed ∧ w.getLsbD 63 then s.zero [grantRange w] else s
      ({ s1 with unkeyed := lost ++ s1.unkeyed } : State).onPart p fun x => { x with pmem := new, pstat := 0 }

/-- PARTITION_ENABLE_COMPLETE (R385, R387). -/
def execPartitionEnableComplete (p : Fin 8) (s : State) : Result :=
  .next (if s.parts[p].enabling then
    (s.zero (grantsOf s.parts[p].pmem)).onPart p fun x =>
      { x with enabling := false, cfg := x.cfg ||| 0x8000000000000000, dead := [] }
  else s)

/-! ### Root, invalidation, job, exports, dead experts (R370, R371, R386, R387) -/

/-- Whether Golium lets a VF write an address: it lies in the partition's grant (R381). -/
def State.goliumAllows (s : State) (f : Caller) (p : Fin 8) (a : Nat) : Bool := f.function == 0 || s.parts[p].grants a

/-- PROOT_WRITE (R386). -/
def execProotWrite (f : Caller) (p : Fin 8) (v : Word) (s : State) : Result :=
  s.guarded f p .early fun s =>
    let w := v &&& 0xFFFFFFFFF0000
    if s.goliumAllows f p w.toNat then s.onPart p fun x => { x with proot := w } else s

/-- PINVAL_WRITE (R386, R434): translation always sees the newest entry (log 6), so BUSY reads 0 at once and page waits wake. -/
def execPinvalWrite (f : Caller) (p : Fin 8) (v : Word) (s : State) : Result :=
  s.guarded f p .late fun s =>
    if v.getLsbD 62 ∨ s.goliumAllows f p (bits v.toNat 12 40 * 4096) then
      let wake := fun h : Hart => if h.part = p then h.walkAgain else h
      { (s.onPart p fun x => { x with inval := v &&& 0x400FFFFFFFFFF000 }) with hart := wake s.hart, harts := s.harts.map wake }
    else s

/-- The rank table as Golium reads it (R370). -/
def State.readRanks (s : State) (base n : Nat) : List (Option (Fin 4096)) :=
  (List.range (min n 4096)).map fun q =>
    let e := s.mem.getNat (base + 2 * q) 2
    if bit e 15 then some (Fin.ofNat 4096 e) else none

/-- PJOBN_WRITE (R370, R454): a rank that had become unreachable for this job may be reached again. -/
def execPjobnWrite (f : Caller) (p : Fin 8) (v : Word) (s : State) : Result :=
  s.guarded f p .late fun s =>
    let t := s.readRanks s.parts[p].jobRt.toNat v.toNat
    let s1 := s.onPart p fun x => { x with jobN := v, ranks := t }
    { s1 with fabric := { s1.fabric with stopped := s1.fabric.stopped.filter fun e => e.1 != p } }

/-- An entry of the export map as read (R371). -/
def exportEntry (e : Nat) : ExportEntry where
  taddr := bits e 192 64
  len := bits e 128 64
  offset := bits e 64 64
  asid := bits e 38 10
  a := bit e 34
  w := bit e 33
  l := bit e 32

/-- Whether an entry is well-formed. -/
def ExportEntry.ok (e : ExportEntry) : Bool :=
  decide (e.taddr % 65536 = 0 ∧ e.len % 65536 = 0 ∧ e.len ≠ 0 ∧ e.offset % 65536 = 0 ∧ e.offset + e.len ≤ 2 ^ 40)

/-- PEXPN_WRITE (R371, R384): a refused map leaves the one in force. -/
def execPexpnWrite (f : Caller) (p : Fin 8) (v : Word) (s : State) : Result :=
  s.guarded f p .late fun s =>
    let raw := (List.range (min v.toNat 64)).map fun i => s.mem.getNat (s.parts[p].expAddr.toNat + 32 * i) 32
    let es := (raw.filter fun e => bit e 0).map exportEntry
    if 64 < v.toNat ∨ (es.any fun e => ! e.ok) ∨ selfOverlap (es.map fun e => (e.offset, e.len)) then s.setPstat p 6
    else s.onPart p fun x => { x with expN := v, exports := es, pstat := 0 }

/-- PDEADWORD_WRITE (R387). -/
def execPdeadwordWrite (f : Caller) (p : Fin 8) (v : Word) (s : State) : Result :=
  s.guarded f p .late fun s => s.onPart p fun x =>
    let i := x.deadSel.toNat % 1024
    let rest := x.dead.filter fun w => w.1 != i
    { x with deadWord := v, dead := if v = 0 then rest else (i, v) :: rest }

/-! ### Queues (R357) -/

/-- QCFG_WRITE: a weight of 0 keeps the old one; enabling resets the head and the tail. -/
def execQcfgWrite (f : Caller) (q : Fin 64) (v : Word) (s : State) : Result :=
  let k := s.queues[q]
  s.guarded f k.part .early fun s =>
    let w := if bits v.toNat 49 8 = 0 then (k.cfg &&& 0x01FE000000000000) else (v &&& 0x01FE000000000000)
    let cfg := (v &&& 0xFE01F000000003FF) ||| w
    let fresh := v.getLsbD 63 && ! k.enabled
    let new := if fresh then { k with cfg := cfg, head := 0, tail := 0 } else { k with cfg := cfg }
    { s with queues := s.queues.set q new }

def State.setQueue (s : State) (q : Fin 64) (f : Queue → Queue) : State := { s with queues := s.queues.set q (f s.queues[q]) }

/-- DOORBELL (R357): discarded while the queue is disabled, and where the tail lies outside the ring. -/
def execDoorbell (bell : Bell) (tail : Word) (s : State) : Result :=
  let q := bell.queue
  let k := s.queues[q]
  s.guarded bell.by_ k.part .never fun s =>
    if k.enabled ∧ k.head ≤ tail ∧ tail.toNat ≤ k.head.toNat + 2 ^ k.ringLog2 then s.setQueue q fun k => { k with tail := tail } else s

/-- REGISTER_WRITE (R380, R387, R394, R395): writes to read-only registers are ignored; PCAP is reached over the management link
too. Bits that translation does not use read zero in a root (R7, R160), and QSTVEC is aligned to 4 (R357). -/
def execRegisterWrite (f : Caller) (r : PlainReg) (v : Word) (s : State) : Result :=
  match r with
  | .clmask | .health | .portstat _ | .pstat _ => .next s
  | .pcap =>
    let w := v.toNat % 4096
    .next (if f.function = 0 ∧ 1200 ≤ w ∧ w ≤ 3300 then { s with golium := { s.golium with pcap := BitVec.ofNat 12 w } } else s)
  | .pjobtag p => s.guarded f p .late fun s => s.onPart p fun x => { x with jobTag := v }
  | .pjobrt p => s.guarded f p .late fun s => s.onPart p fun x => { x with jobRt := v }
  | .pjobself p => s.guarded f p .late fun s => s.onPart p fun x => { x with jobSelf := v }
  | .pexp p => s.guarded f p .late fun s => s.onPart p fun x => { x with expAddr := v }
  | .pdeadsel p => s.guarded f p .late fun s => s.onPart p fun x => { x with deadSel := v &&& 0x3FF }
  | .asidRoot p a => s.guarded f p .never fun s => s.onPart p fun x =>
      { x with roots := (a.val, v &&& 0xFFFFFFFFF0000) :: x.roots.filter fun e => e.1 != a.val }
  | .qring q => s.guarded f s.queues[q].part .never fun s => s.setQueue q fun k => { k with ring := v }
  | .qstatus q => s.guarded f s.queues[q].part .never fun s => s.setQueue q fun k => { k with status := v }
  | .qstvec q => s.guarded f s.queues[q].part .early fun s => s.setQueue q fun k => { k with stvec := v &&& ~~~ 3 }
  | .qsscratch q => s.guarded f s.queues[q].part .early fun s => s.setQueue q fun k => { k with sscratch := v }

/-! ### Interface states (R381, R390, R456): requests of the host link, once it is trained (R393) -/

/-- LOCK_INTERFACE: the configuration is measured. -/
def execLockInterface (v : Fin 64) (s : State) : Result :=
  .next (if s.golium.enumerable ∧ v ≠ 0 ∧ s.golium.vfs[v] = .configUnlocked then
    (s.partsOf v).foldl (fun s p => s.measure (16 + p.val)) (s.setVf v .configLocked)
  else s)

/-- START_INTERFACE. -/
def execStartInterface (v : Fin 64) (s : State) : Result :=
  .next (if s.golium.enumerable ∧ v ≠ 0 ∧ s.golium.vfs[v] = .configLocked then s.setVf v .run else s)

/-- Everything in flight in a partition is abandoned (R456). -/
def State.abandon (s : State) (p : Fin 8) : State :=
  let gone := fun h : Hart => h.part == p
  let owned := fun (i : StrandId) => s.allHarts.any fun h => h.id == i && gone h
  let left := fun (c : Fin 64) =>
    let x : Cluster := { s.clusters[c] with forks := s.clusters[c].forks.filter fun f => ! owned f.owner }
    if (s.program? c).any gone || x.owner.any owned then { x with queue := [], busy := false, owner := none, stray := none } else x
  { s with
    hart := if gone s.hart then Hart.idle else s.hart
    harts := s.harts.filter fun h => ! gone h
    gangs := s.gangs.filter fun g => g.part != p
    barriers := s.barriers.filter fun b => ! s.launches.any fun l => l.part == p &&
      match b.key with | .gang g _ => g.launch == l.id | .field n _ _ => n == l.id | .span n _ _ => n == l.id
    launches := s.launches.filter fun l => l.part != p
    clusters := Vector.ofFn left
    regions := s.regions.filter fun r => r.part != p
    sessions := s.sessions.filter fun x => x.part != p
    jobs := s.jobs.filter fun j => j.part != p
    queues := s.queues.map fun k => if k.part = p then { k with lists := [] } else k
    fabric := { s.fabric with
      waits := s.fabric.waits.filter fun e => e.arrival.part != p
      arrivals := s.fabric.arrivals.filter fun e => e.part != p
      requests := s.fabric.requests.map fun r =>
        match r.by_ with
        | .hart _ i _ _ => if owned i then { r with by_ := .unit 0 } else r
        | .job n _ => if s.jobs.any fun j => j.item == n && j.part == p then { r with by_ := .unit 0 } else r
        | .unit _ => r } }

/-- STOP_INTERFACE (R381, R456): it acts as a clear of PCFG.EN, with everything in flight abandoned. -/
def execStopInterface (v : Fin 64) (s : State) : Result :=
  .next (if s.golium.enumerable ∧ v ≠ 0 ∧ s.golium.vfs[v] ≠ .configUnlocked then
    ((s.partsOf v).foldl (fun s p => (s.abandon p).disable p) s).setVf v .configUnlocked
  else s)

/-- VF_ERROR, HEARTBEAT_TIMEOUT (R456): the latter ends the tenant's session. -/
def execVfError (v : Fin 64) (s : State) : Result := .next (s.vfFails v)
def execHeartbeatTimeout (v : Fin 64) (s : State) : Result :=
  let g := s.golium
  .next (if g.vfSpdm[v].session then
    ({ s with golium := { g with vfSpdm := g.vfSpdm.set v { g.vfSpdm[v] with session := false, handshake := false } } } : State).vfFails v
  else s.vfFails v)

/-! ### Debug policies (R391, R392, R457) -/

/-- A 256-bit nonce of free bits (log 4). -/
def State.drawNonce (s : State) : BitVec 256 × State :=
  let (n, s1) := s.draw
  (BitVec.ofNat 256 n, s1)

/-- Whether the VF of a partition is in RUN. -/
def State.running (s : State) (p : Fin 8) : Bool := s.ownerState p == .run

/-- A vendor-defined request over the secured session of a partition's VF; with no session open the request is out of order (R392,
R456, R457). -/
def State.overSession (s : State) (p : Fin 8) (k : State → State) : Result :=
  let v := s.parts[p].vf
  .next (if s.golium.vfSpdm[v].session then k s else s.send (.spdm (.vf v) 0x7F [4]))

/-- GET_DEBUG_NONCE (R392): answered as a vendor-defined response. -/
def execGetDebugNonce (p : Fin 8) (s : State) : Result :=
  s.overSession p fun s =>
    if s.running p then
      let (n, s1) := s.drawNonce
      (s1.onPart p fun x => { x with nonce := some n }).send (.spdm (.vf s.parts[p].vf) 0x7E [n.toNat])
    else s.send (.status 6)

/-- The bytes a policy's signature covers. -/
def policyBytes (d : DebugPolicy) : List Byte :=
  leBytes 2 d.format ++ leBytes 48 d.digest.toNat ++ leBytes 32 d.nonce.toNat ++ leBytes 2 d.grant.toNat

/-- The status byte of a submission: 6 first, then the lowest that applies (R457; log 62). -/
def State.judgePolicy (s : State) (p : Fin 8) (d : DebugPolicy) : Nat :=
  if ¬ s.running p then 6
  else if d.format ≠ 1 then 1
  else if ¬ Config.slhDsaVerify (Config.tenantDebugKey p.val) (policyBytes d) d.signature then 2
  else if s.digest? (16 + p.val) ≠ some d.digest then 3
  else if s.parts[p].nonce ≠ some d.nonce then 4
  else if 32 ≤ d.grant.toNat then 5
  else 0

/-- DEBUG_POLICY_SUBMIT (R391, R457): the nonce is consumed and the previous policy ends, whatever the status. -/
def execDebugPolicySubmit (p : Fin 8) (d : DebugPolicy) (s : State) : Result :=
  s.overSession p fun s =>
    let code := s.judgePolicy p d
    let s1 := s.onPart p fun x =>
      { x with nonce := none, policy := decide (code = 0), grant := if code = 0 then d.grant else 0 }
    (s1.measure (32 + p.val)).send (.status code)

end Sys2Proof.Machine
end

