-- ==== Sys2Proof/Machine/Spdm.lean ====
section
/-! DEFINITION. Golium's SPDM answers and the measurement log; accesses of the host (R82, R218, R379, R380, R389, R390, R456). -/

namespace Sys2Proof.Machine

/-! ### SPDM (R389). Codes are those of SPDM 1.3 (log 63). -/

def State.link (s : State) (l : SpdmLink) : Spdm :=
  match l with
  | .management => s.golium.management
  | .vdm => s.golium.vdm
  | .mailbox => s.golium.mailbox
  | .vf n => s.golium.vfSpdm[n]
  | .partner i => s.fabric.ports[i].spdm

def State.setLink (s : State) (l : SpdmLink) (x : Spdm) : State :=
  let g := s.golium
  match l with
  | .management => { s with golium := { g with management := x } }
  | .vdm => { s with golium := { g with vdm := x } }
  | .mailbox => { s with golium := { g with mailbox := x } }
  | .vf n => { s with golium := { g with vfSpdm := g.vfSpdm.set n x } }
  | .partner i => s.onPort i fun p => { p with spdm := x }

/-- Whether Golium hears a link: the management link once its ROM runs, the Golium of a link partner while the link's controllers run and
the port is not down, the others once the host link is trained (R376, R393, R395). -/
def State.hears (s : State) (l : SpdmLink) : Bool :=
  match l with
  | .management => s.golium.stage != 0
  | .partner i => s.golium.running .link && s.fabric.ports[i].state != .down
  | _ => s.golium.enumerable

/-- A request in its order changes the session state and is answered; a malformed one gets ERROR with InvalidRequest, one out of order
ERROR with UnexpectedRequest, and neither changes anything (R456; log 63). -/
def State.spdm (s : State) (m : SpdmMsg) (ok : Spdm → Bool) (f : Spdm → Spdm) (code : Nat) (body : List Nat) : State :=
  let l := m.link
  if ¬ s.hears l then s
  else if m.malformed then s.send (.spdm l 0x7F [1])
  else if ok (s.link l) then (s.setLink l (f (s.link l))).send (.spdm l code body)
  else s.send (.spdm l 0x7F [4])

/-- An answer whose contents (certificates, signatures, key shares) are free values (log 4). -/
def State.spdmFree (s : State) (m : SpdmMsg) (ok : Spdm → Bool) (f : Spdm → Spdm) (code : Nat) : State :=
  let (n, s1) := s.draw
  s1.spdm m ok f code [n]

def execGetVersion (m : SpdmMsg) (s : State) : Result :=
  .next (s.spdm m (fun _ => true) (fun x => { x with version := true, capabilities := false, algorithms := false }) 0x04 [0x13])
def execGetCapabilities (m : SpdmMsg) (s : State) : Result :=
  .next (s.spdm m (·.version) (fun x => { x with capabilities := true }) 0x61 [])
def execNegotiateAlgorithms (m : SpdmMsg) (s : State) : Result :=
  .next (s.spdm m (·.capabilities) (fun x => { x with algorithms := true }) 0x63 [])
def execGetDigests (m : SpdmMsg) (s : State) : Result := .next (s.spdmFree m (·.algorithms) id 0x01)
def execGetCertificate (m : SpdmMsg) (s : State) : Result := .next (s.spdmFree m (·.algorithms) id 0x02)
def execChallenge (m : SpdmMsg) (s : State) : Result := .next (s.spdmFree m (·.algorithms) id 0x03)

/-- The current digest of each block that has been measured, by index (R390). -/
def State.currentDigests (s : State) : List Nat :=
  (List.range 49).flatMap fun n => match s.digest? n with | some d => [n, d.toNat] | none => []

/-- GET_MEASUREMENTS (R390). -/
def execGetMeasurements (m : SpdmMsg) (s : State) : Result := .next (s.spdm m (·.algorithms) id 0x60 s.currentDigests)
def execKeyExchange (m : SpdmMsg) (s : State) : Result :=
  .next (s.spdmFree m (fun x => x.algorithms && ! x.session) (fun x => { x with handshake := true }) 0x64)
/-- FINISH and KEY_UPDATE supply keys (R389). -/
def execFinish (m : SpdmMsg) (s : State) : Result :=
  .next (s.spdmFree m (·.handshake) (fun x => { x with handshake := false, session := true, keyUpdates := 0, keys := x.keys + 1 }) 0x65)
def execKeyUpdate (m : SpdmMsg) (s : State) : Result :=
  .next (s.spdm m (·.session) (fun x => { x with keyUpdates := x.keyUpdates + 1, keys := x.keys + 1 }) 0x69 [])
def execHeartbeat (m : SpdmMsg) (s : State) : Result := .next (s.spdm m (·.session) id 0x68 [])

/-- END_SESSION: the end of a tenant's session puts its VF in ERROR (R456). -/
def execEndSession (m : SpdmMsg) (s : State) : Result :=
  let ends := (s.link m.link).session && s.hears m.link && ! m.malformed
  let s1 := s.spdm m (·.session) (fun x => { x with session := false, handshake := false }) 0x6C []
  .next (match m.link with
    | .vf n => if ends then s1.vfFails n else s1
    | _ => s1)

/-- MEASUREMENT_LOG_READ (R390): through the management link. -/
def execMeasurementLogRead (s : State) : Result := .next (if s.hears .management then s.send (.logRead s.golium.log) else s)

/-! ### The host as an agent (R82, R218, R379, R456) -/

/-- The partition that grants a device address. -/
def State.grantee (s : State) (a : Nat) : Option (Fin 8) := (List.finRange 8).find? fun p => s.parts[p].enabled && s.parts[p].grants a

/-- Whether a range meets bytes that no key reads: those under a destroyed key that are granted to nobody, and those of a grant that is
not zeroed yet under its new key (R24, R385). -/
def State.unreadable (s : State) (a n : Nat) : Bool :=
  ((s.grantee a).isNone && s.unkeyed.any fun r => decide (a < r.1 + r.2 ∧ r.1 < a + n)) ||
    [a, a + n - 1].any fun b => (s.grantee b).any fun p => s.parts[p].enabling

/-- What stands in the way of a host access: nothing, an abort, or an abort that is a violation of a VF's trust (R380, R456). -/
inductive HostVerdict
  | fine (p : Fin 8)
  | abort
  | violation (v : Fin 64)

/-- Judges a host access (R65, R380, R381, R456). -/
def State.judgeHost (s : State) (a : HostAcc) : HostVerdict :=
  if isHostMemory a.addr then .fine 0
  else if ¬ isDeviceMemory a.addr then .abort
  else
    match s.grantee a.addr with
    | none => if a.function = 0 then .fine 0 else .abort
    | some p =>
      let v := s.parts[p].vf
      if s.ownerState p ≠ .configUnlocked then
        if ¬ s.trusts a.function a.tee then .violation v else if a.function = v then .fine p else .abort
      else if a.function = 0 ∨ a.function = v then .fine p else .abort

/-- Performs a host access (R218: the link carries FetchAdd, Swap and CAS). What bytes under a destroyed key read as is free (log 81). -/
def State.hostAccess (s : State) (p : Fin 8) (a : HostAcc) : State :=
  let c := { s.spanCtx p with part := p }
  let t := Target.device a.addr
  let abort := s.send .hostAbort
  match a.op with
  | .load n =>
    if s.unreadable a.addr n then
      let (k, s1) := s.draw
      s1.send (.hostData (leBytes n k))
    else
      match s.readTarget c false t n with
      | .ok l s1 => s1.send (.hostData l)
      | _ => abort
  | .store d =>
    match s.judgeWrite c t with
    | .ok () s1 =>
      let w : Write := { target := t, data := d, va := 0 }
      if w.meets (s1.blockedLines [w]) then abort else s1.performWrites p none [w]
    | _ => abort
  | .atomic op wide b e =>
    let n := if wide then 8 else 4
    if ¬ hostExecutes op then abort
    else if s.unreadable a.addr n then
      let (k, s1) := s.draw
      s1.send (.hostData (leBytes n k))
    else
      match s.modify c t n true fun old => amoApply op n old (b.toNat % 2 ^ (8 * n)) (e.toNat % 2 ^ (8 * n)) with
      | .ok old s1 => s1.send (.hostData (leBytes n old))
      | _ => abort
  | .barRead | .barWrite _ | .linkRead _ _ => s

/-! ### Registers in BAR 0 (R380; log 80) -/

/-- A register as the host reaches it. -/
inductive BarReg
  | pcfg (p : Fin 8)
  | pmem (p : Fin 8) (i : Fin 16)
  | proot (p : Fin 8)
  | pinval (p : Fin 8)
  | pjobn (p : Fin 8)
  | pexpn (p : Fin 8)
  | pdeadword (p : Fin 8)
  | qcfg (q : Fin 64)
  | doorbell (q : Fin 64)
  | plain (r : PlainReg)
  deriving DecidableEq, Repr

/-- Registers of a partition by offset. -/
def partReg (p : Fin 8) (o : Nat) : Option BarReg :=
  if 0x80 ≤ o ∧ o < 0x100 ∧ o % 8 = 0 then some (.pmem p (Fin.ofNat 16 ((o - 0x80) / 8)))
  else
    ([(0x00, BarReg.pcfg p), (0x08, .plain (.pstat p)), (0x10, .proot p), (0x18, .plain (.pjobtag p)), (0x20, .plain (.pjobrt p)),
      (0x28, .pjobn p), (0x30, .plain (.pjobself p)), (0x38, .plain (.pexp p)), (0x40, .pexpn p), (0x48, .plain (.pdeadsel p)),
      (0x50, .pdeadword p), (0x58, .pinval p)].find? fun e => e.1 == o).map (·.2)

/-- Registers of a queue by offset. -/
def queueReg (q : Fin 64) (o : Nat) : Option BarReg :=
  ([(0x00, BarReg.qcfg q), (0x08, .plain (.qring q)), (0x10, .plain (.qstatus q)), (0x18, .doorbell q), (0x20, .plain (.qstvec q)),
    (0x28, .plain (.qsscratch q))].find? fun e => e.1 == o).map (·.2)

/-- Module registers by offset: CLMASK, HEALTH and PCAP in the order the table names them (log 80), PORTSTATn at 0x100 + 8n (R453). -/
def moduleReg (o : Nat) : Option BarReg :=
  if 0x100 ≤ o ∧ o < 0x140 ∧ o % 8 = 0 then some (.plain (.portstat (Fin.ofNat 8 ((o - 0x100) / 8))))
  else if o = 0 then some (.plain .clmask)
  else if o = 8 then some (.plain .health)
  else if o = 0x10 then some (.plain .pcap)
  else none

/-- The register at an offset of a function's BAR 0. -/
def State.barReg (s : State) (f : Fin 64) (o : Nat) : Option BarReg :=
  if f = 0 then
    if o < 0x10000 then moduleReg o
    else if o < 0x18000 then partReg (Fin.ofNat 8 ((o - 0x10000) / 0x1000)) (o % 0x1000)
    else if 0x20000 ≤ o ∧ o < 0x21000 then queueReg (Fin.ofNat 64 ((o - 0x20000) / 0x40)) (o % 0x40)
    else none
  else if o < 0x1000 then (s.partsOf f).head?.bind fun p => partReg p o
  else if o < 0x2000 then queueReg (Fin.ofNat 64 ((o - 0x1000) / 0x40)) (o % 0x40)
  else none

/-- The partition whose queue a register belongs to. -/
def State.queuePart (s : State) (r : BarReg) : Option (Fin 8) :=
  match r with
  | .qcfg q | .doorbell q | .plain (.qring q) | .plain (.qstatus q) | .plain (.qstvec q) | .plain (.qsscratch q) => some s.queues[q].part
  | _ => none

/-- PCFG as it reads: LOCK is set while the owning VF is locked (R383). -/
def State.pcfg (s : State) (p : Fin 8) : Word :=
  s.parts[p].cfg ||| (if s.ownerState p = .configUnlocked then 0 else 0x4000000000000000)

/-- A register as it reads; none where that is not stated: DOORBELL is only ever written. -/
def State.barValue (s : State) (r : BarReg) : Option Word :=
  match r with
  | .doorbell _ => none
  | .pcfg p => some (s.pcfg p)
  | .pmem p i => some (s.parts[p].pmem[i])
  | .proot p => some (s.parts[p].proot)
  | .pinval p => some (s.parts[p].inval)
  | .pjobn p => some (s.parts[p].jobN)
  | .pexpn p => some (s.parts[p].expN)
  | .pdeadword p => some (s.parts[p].deadWord)
  | .qcfg q => some (s.queues[q].cfg)
  | .plain r =>
    match r with
    | .clmask => some (s.clmask)
    | .health => some (s.health)
    | .pcap => some (s.golium.pcap.zeroExtend 64)
    | .portstat i => some (s.fabric.ports[i].status)
    | .pstat p => some (BitVec.ofNat 64 s.parts[p].pstat.val)
    | .pjobtag p => some (s.parts[p].jobTag)
    | .pjobrt p => some (s.parts[p].jobRt)
    | .pjobself p => some (s.parts[p].jobSelf)
    | .pexp p => some (s.parts[p].expAddr)
    | .pdeadsel p => some (s.parts[p].deadSel)
    | .asidRoot p a => some (s.rootOf p a.val)
    | .qring q => some (s.queues[q].ring)
    | .qstatus q => some (s.queues[q].status)
    | .qstvec q => some (s.queues[q].stvec)
    | .qsscratch q => some (s.queues[q].sscratch)

/-- The partition and the lock of a register that its VF's state locks (R381). -/
def State.barLock (s : State) (r : BarReg) : Option (Fin 8 × LockGroup) :=
  match r with
  | .pcfg p | .pmem p _ | .proot p => some (p, .early)
  | .pinval p | .pjobn p | .pexpn p | .pdeadword p => some (p, .late)
  | .plain (.pjobtag p) | .plain (.pjobrt p) | .plain (.pjobself p) | .plain (.pexp p) | .plain (.pdeadsel p) => some (p, .late)
  | .qcfg q | .plain (.qstvec q) | .plain (.qsscratch q) => some (s.queues[q].part, .early)
  | _ => none

/-- Whether a VF's read of a register reaches a locked register of its partition without the TEE bit (R381, R456). -/
def State.barViolates (s : State) (f : Caller) (o : Nat) : Bool :=
  match (s.barReg f.function o).bind s.barLock with
  | some (p, g) => f.function != 0 && f.function == s.parts[p].vf && g.shut (s.ownerState p) && ! s.trusts f.function f.tee
  | none => false

/-- Whether a register shows HEALTH, whose counts are brought up to date for the read (R395). -/
def BarReg.isHealth (r : BarReg) : Bool := r == .plain .health

/-- A host read of a register: a queue of another partition reads as 0; DOORBELL, and an offset that holds no register, as a free
value (log 80). -/
def State.barRead (s0 : State) (f : Fin 64) (o : Nat) : Word × State :=
  let s := if (s0.barReg f o).any (·.isHealth) then s0.sampleErrors else s0
  let value := fun r : BarReg =>
    match s.queuePart r with
    | some p => if f = 0 ∨ f = s.parts[p].vf then s.barValue r else some 0
    | none => s.barValue r
  match (s.barReg f o).bind value with
  | some v => (v, s)
  | none =>
    let (n, s1) := s.draw
    (BitVec.ofNat 64 n, s1)

/-- A host write of a register acts as the step of that register does. -/
def State.barWrite (s : State) (f : Caller) (o : Nat) (v : Word) : Result :=
  match s.barReg f.function o with
  | none => .next s
  | some (.pcfg p) => execPcfgWrite f p v s
  | some (.pmem p i) => execPmemWrite f p i v s
  | some (.proot p) => execProotWrite f p v s
  | some (.pinval p) => execPinvalWrite f p v s
  | some (.pjobn p) => execPjobnWrite f p v s
  | some (.pexpn p) => execPexpnWrite f p v s
  | some (.pdeadword p) => execPdeadwordWrite f p v s
  | some (.qcfg q) => execQcfgWrite f q v s
  | some (.doorbell q) => execDoorbell { by_ := f, queue := q } v s
  | some (.plain r) => execRegisterWrite f r v s

/-- A module register read by MCTP, over the management link or by a vendor-defined message to the PF; no other register is carried
(R395). -/
def State.linkRead (s : State) (l : SpdmLink) (r : PlainReg) : State :=
  let carried := (l = .management ∨ l = .vdm) ∧ (r = .clmask ∨ r = .health ∨ r = .pcap)
  if s.hears l ∧ carried then
    let s1 := if r = .health then s.sampleErrors else s
    match s1.barValue (.plain r) with
    | some v => s1.send (.linkData l (leBytes 8 v.toNat))
    | none => s1
  else s

/-- HOST_ACCESS (R82, R380), once the host link is trained (R393), and a register read by MCTP (R395). A VF's read of a locked register
without the TEE bit is a violation (R456). -/
def execHostAccess (a : HostAcc) (s : State) : Result :=
  match a.op with
  | .linkRead l r => .next (s.linkRead l r)
  | op =>
    if ¬ s.golium.enumerable then .next s
    else
    match op with
    | .barRead =>
      if s.barViolates { function := a.function, tee := a.tee } a.addr then .next ((s.vfFails a.function).send .hostAbort)
      else
        let (v, s1) := s.barRead a.function a.addr
        .next (s1.send (.hostData (leBytes 8 v.toNat)))
    | .barWrite v => s.barWrite { function := a.function, tee := a.tee } a.addr v
    | _ => .next (match s.judgeHost a with
      | .fine p => s.hostAccess p a
      | .abort => s.send .hostAbort
      | .violation v => (s.vfFails v).send .hostAbort)

end Sys2Proof.Machine
end

