-- ==== Sys2Proof/Machine/VFloat.lean ====
section
/-! DEFINITION. Vector floating point and compares: majors 0x25, 0x26 and 0x27 (R233-R236). -/

namespace Sys2Proof.Machine

/-- A multiply-add form: vd is read as the addend, with the sources' tag (R233). -/
def State.vecFma (s : State) (d a : Reg) (o : Src2) (m : Reg) (f : Fmt → Val → Val → Val → Nat × Raised) : Result :=
  let h := s.hart
  let t := h.tag a
  s.vectorHart (h.judge (isFpTag t && h.sameTag t o && h.tag d == t) false (tagMvl t)) fun h =>
    h.elementWise d m t fun e =>
      let k := tagFmt t
      f k (k.decode (h.elem a e)) (k.decode (h.src2 t o e)) (k.decode (h.elem d e))

/-- a * b + d, a * b - d, d - a * b, each with one rounding (R233). -/
def fmaElem (r : Rounding) (f : Fmt) (a b d : Val) : Nat × Raised := f.fma r a b d
def fmsElem (r : Rounding) (f : Fmt) (a b d : Val) : Nat × Raised := f.fma r a b d.negate
def fnmaElem (r : Rounding) (f : Fmt) (a b d : Val) : Nat × Raised := f.fma r a.negate b d

def execVfma (d a b m : Reg) (s : State) : Result := s.vecFma d a (.v b) m (fmaElem s.hart.rounding)
def execVfms (d a b m : Reg) (s : State) : Result := s.vecFma d a (.v b) m (fmsElem s.hart.rounding)
def execVfnma (d a b m : Reg) (s : State) : Result := s.vecFma d a (.v b) m (fnmaElem s.hart.rounding)
def execVfmaVx (d a x m : Reg) (s : State) : Result := s.vecFma d a (.x x) m (fmaElem s.hart.rounding)
def execVfmsVx (d a x m : Reg) (s : State) : Result := s.vecFma d a (.x x) m (fmsElem s.hart.rounding)
def execVfnmaVx (d a x m : Reg) (s : State) : Result := s.vecFma d a (.x x) m (fnmaElem s.hart.rounding)

/-- Division of one pair of elements (R234). -/
def vdivElem (r : Rounding) (t : Tag) (x y : Nat) : Nat × Raised :=
  (tagFmt t).div r ((tagFmt t).decode x) ((tagFmt t).decode y)

def execVdiv (d a b m : Reg) (s : State) : Result := s.vec2 d a (.v b) m isFpTag (vdivElem s.hart.rounding)
def execVdivVx (d a x m : Reg) (s : State) : Result := s.vec2 d a (.x x) m isFpTag (vdivElem s.hart.rounding)
def execVsqrt (d a m : Reg) (s : State) : Result :=
  s.vec1 d a m isFpTag fun t x => (tagFmt t).sqrt s.hart.rounding ((tagFmt t).decode x)

/-- A BF16 unit (R138, R235). -/
def State.vecUnit (s : State) (d a m : Reg) (u : Unit5) : Result := s.vec1 d a m (· == .bf16) fun _ x => bf16Unit u x

def execVrcp (d a m : Reg) (s : State) : Result := s.vecUnit d a m .rcp
def execVrsq (d a m : Reg) (s : State) : Result := s.vecUnit d a m .rsq
def execVexp2 (d a m : Reg) (s : State) : Result := s.vecUnit d a m .exp2
def execVlog2 (d a m : Reg) (s : State) : Result := s.vecUnit d a m .log2
def execVtanh (d a m : Reg) (s : State) : Result := s.vecUnit d a m .tanh

/-- The class mask of an encoding, one bit set (R235). -/
def classOf (f : Fmt) (x : Nat) : Nat :=
  match f.decode x with
  | .nan sg => if sg then 0x100 else 0x200
  | .inf neg => if neg then 0x001 else 0x080
  | .fin y =>
    if y.m = 0 then (if y.neg then 0x008 else 0x010)
    else if y.m < 2 ^ (f.prec - 1) then (if y.neg then 0x004 else 0x020)
    else if y.neg then 0x002 else 0x040

/-- VCLASS (R235). -/
def execVclass (d a m : Reg) (s : State) : Result :=
  let t := s.hart.tag a
  s.vectorHart (s.hart.judge (isFpTag t) false (tagMvl t)) fun h =>
    h.elementPure d m (if t = .bf16 then .i16 else .i32) fun e => classOf (tagFmt t) (h.elem a e)

/-! ### Compares -/

/-- The conditions of VCMP (R236). -/
inductive Cond | eq | ne | lt | le | ltu | leu | un
  deriving DecidableEq, Repr

/-- Whether a condition accepts a tag (R236). -/
def condTag (c : Cond) (t : Tag) : Bool :=
  match c with
  | .ltu | .leu => isIntTag t
  | .un => isFpTag t
  | _ => arithTagOf t
where arithTagOf (t : Tag) : Bool := t != .i16p

/-- One compare on FP elements, with its NV (R236). -/
def fpCompare (c : Cond) (a b : Val) : Bool × Raised :=
  let anyNan := a.isNan || b.isNan
  let quiet : Raised := { nv := a.isSignalling || b.isSignalling }
  let loud : Raised := { nv := anyNan }
  match c with
  | .eq => (a.eq b, quiet)
  | .ne => (! a.eq b, quiet)
  | .lt => (a.lt b, loud)
  | .le => (a.lt b || a.eq b, loud)
  | .un => (anyNan, quiet)
  | .ltu | .leu => (false, .none)

/-- One compare on integer elements (R236). -/
def intCompare (c : Cond) (w x y : Nat) : Bool :=
  match c with
  | .eq => x == y
  | .ne => x != y
  | .lt => decide (sgn w x < sgn w y)
  | .le => decide (sgn w x ≤ sgn w y)
  | .ltu => decide (x < y)
  | .leu => decide (x ≤ y)
  | .un => false

def compareElem (c : Cond) (t : Tag) (x y : Nat) : Bool × Raised :=
  if isFpTag t then fpCompare c ((tagFmt t).decode x) ((tagFmt t).decode y) else (intCompare c (tagWidth t) x y, .none)

/-- A compare: writes the active bits of pd (R158, R236). -/
def State.vecCompare (s : State) (p a : Reg) (o : Src2) (m : Reg) (c : Cond) : Result :=
  let t := s.hart.tag a
  s.vectorHart (s.hart.judge (condTag c t && s.hart.sameTag t o) false (tagMvl t)) fun h =>
    let l := (h.active m).map fun e => (e, compareElem c t (h.elem a e) (h.src2 t o e))
    (h.setP p (putBits (h.getP p) (l.map fun x => (x.1, x.2.1)))).raise (l.foldl (fun r x => r.or x.2.2) .none)

def execVcmpeq (p a b m : Reg) (s : State) : Result := s.vecCompare p a (.v b) m .eq
def execVcmpne (p a b m : Reg) (s : State) : Result := s.vecCompare p a (.v b) m .ne
def execVcmplt (p a b m : Reg) (s : State) : Result := s.vecCompare p a (.v b) m .lt
def execVcmple (p a b m : Reg) (s : State) : Result := s.vecCompare p a (.v b) m .le
def execVcmpltu (p a b m : Reg) (s : State) : Result := s.vecCompare p a (.v b) m .ltu
def execVcmpleu (p a b m : Reg) (s : State) : Result := s.vecCompare p a (.v b) m .leu
def execVcmpun (p a b m : Reg) (s : State) : Result := s.vecCompare p a (.v b) m .un
def execVcmpeqVx (p a x m : Reg) (s : State) : Result := s.vecCompare p a (.x x) m .eq
def execVcmpneVx (p a x m : Reg) (s : State) : Result := s.vecCompare p a (.x x) m .ne
def execVcmpltVx (p a x m : Reg) (s : State) : Result := s.vecCompare p a (.x x) m .lt
def execVcmpleVx (p a x m : Reg) (s : State) : Result := s.vecCompare p a (.x x) m .le
def execVcmpltuVx (p a x m : Reg) (s : State) : Result := s.vecCompare p a (.x x) m .ltu
def execVcmpleuVx (p a x m : Reg) (s : State) : Result := s.vecCompare p a (.x x) m .leu
def execVcmpunVx (p a x m : Reg) (s : State) : Result := s.vecCompare p a (.x x) m .un

end Sys2Proof.Machine
end

