-- ==== Sys2Proof/Machine/VPred.lean ====
section
/-! DEFINITION. Predicate operations: major 0x28 (R237-R240). -/

namespace Sys2Proof.Machine

/-- Writes the bits of a predicate below vl that the run commits; nothing is masked (R237). -/
def State.predBits (s : State) (d : Reg) (f : Hart → Nat → Bool) : Result :=
  s.vectorHart (s.hart.judge true false 512) fun h => h.setP d (putBits (h.getP d) (h.range.map fun e => (e, f h e)))

def execPand (d a b : Reg) (s : State) : Result :=
  s.predBits d fun h e => (h.getP a).getLsbD e && (h.getP b).getLsbD e
def execPor (d a b : Reg) (s : State) : Result :=
  s.predBits d fun h e => (h.getP a).getLsbD e || (h.getP b).getLsbD e
def execPxor (d a b : Reg) (s : State) : Result :=
  s.predBits d fun h e => (h.getP a).getLsbD e ^^ (h.getP b).getLsbD e
def execPandn (d a b : Reg) (s : State) : Result :=
  s.predBits d fun h e => (h.getP a).getLsbD e && ! (h.getP b).getLsbD e
def execPnot (d a : Reg) (s : State) : Result := s.predBits d fun h e => ! (h.getP a).getLsbD e
def execPmv (d a : Reg) (s : State) : Result := s.predBits d fun h e => (h.getP a).getLsbD e

/-- The patterns of PSET (R237). -/
def patternBit (t : Fin 4) (e : Nat) : Bool :=
  match t.val with
  | 0 => false
  | 1 => true
  | 2 => e % 2 == 0
  | _ => e % 2 == 1

def execPset (d : Reg) (t : Fin 4) (s : State) : Result := s.predBits d fun _ e => patternBit t e

/-- A whole write of a predicate's bits below vl (R223, R238). -/
def State.predWhole (s : State) (d : Reg) (f : Hart → Nat → Bool) : Result :=
  s.vectorHart (s.hart.judge true false 512) fun h =>
    h.setP d (putBits (h.getP d) ((List.range h.vlen).map fun e => (e, f h e)))

/-- PSHL and PSHR (R238). -/
def execPshl (d a x : Reg) (s : State) : Result :=
  s.predWhole d fun h e =>
    let k := (h.getX x).toNat
    decide (k ≤ e) && (h.getP a).getLsbD (e - k)
def execPshr (d a x : Reg) (s : State) : Result :=
  s.predWhole d fun h e =>
    let k := (h.getX x).toNat
    decide (e + k < h.vlen) && (h.getP a).getLsbD (e + k)

/-- A move of a predicate to a scalar register; it also reads bits at or above vl as 0 (R239). -/
def State.predMove (s : State) (d a : Reg) (f : Nat → (Nat → Bool) → Word) : Result :=
  s.vectorHart (s.hart.judge true false 512) fun h =>
    h.setX d (f h.vlen fun e => decide (e < h.vlen) && (h.getP a).getLsbD e)

def execPcnt (d a : Reg) (s : State) : Result :=
  s.predMove d a fun n p => BitVec.ofNat 64 ((List.range n).countP p)
def execPfirst (d a : Reg) (s : State) : Result :=
  s.predMove d a fun n p => match (List.range n).find? p with | some e => BitVec.ofNat 64 e | none => BitVec.allOnes 64
def execPlast (d a : Reg) (s : State) : Result :=
  s.predMove d a fun n p => match (List.range n).reverse.find? p with | some e => BitVec.ofNat 64 e | none => BitVec.allOnes 64
def execPmovx (d a : Reg) (j : Fin 8) (s : State) : Result :=
  s.predMove d a fun _ p =>
    BitVec.ofNat 64 ((List.range 64).foldl (fun acc i => acc + (p (64 * j.val + i)).toNat * 2 ^ i) 0)

/-- PFROMX writes 64 bits of a predicate, those below vl (R240). -/
def execPfromx (d a : Reg) (j : Fin 8) (s : State) : Result :=
  s.vectorHart (s.hart.judge true false 512) fun h =>
    let here := h.range.filter fun e => e / 64 == j.val
    h.setP d (putBits (h.getP d) (here.map fun e => (e, (h.getX a).getLsbD (e % 64))))

end Sys2Proof.Machine
end

