-- ==== Sys2Proof/Machine/VSort.lean ====
section
/-! DEFINITION. Sorting and selection: major 0x2C (R254-R257). -/

namespace Sys2Proof.Machine

/-- Inserts an item before the first one it precedes: stable insertion sort. -/
def insertBy {α : Type} (before : α → α → Bool) (x : α) : List α → List α
  | [] => [x]
  | y :: l => if before x y then x :: y :: l else y :: insertBy before x l

/-- Stable sort of a list: an item stays behind an earlier one that it does not precede. -/
def sortBy {α : Type} (before : α → α → Bool) (l : List α) : List α :=
  l.foldl (fun acc x => insertBy before x acc) []

/-- Tags of sort keys (R254, R255). -/
def keyTag (t : Tag) : Bool := t == .i32 || t == .i64

/-- Writes ranked elements to v(d) and their indices to v(d + 1) (R254, R255, R257). -/
def Hart.ranked (h : Hart) (d : Reg) (t ti : Tag) (l : List (Nat × Nat)) : Hart :=
  let p := positions l
  let g := h.whole d t (p.map fun x => (x.1, x.2.1))
  g.whole (nextReg d) ti (p.map fun x => (x.1, x.2.2))

/-- VSORT and VSORTD: unsigned keys, stable (R254). -/
def State.vecSort (s : State) (d a m : Reg) (before : Nat → Nat → Bool) : Result :=
  let t := s.hart.tag a
  s.vectorHart (s.hart.judge (keyTag t) false (tagMvl t)) fun h =>
    h.ranked d t t (sortBy (fun x y => before x.1 y.1) ((h.wholeActive m).map fun e => (h.elem a e, e)))

def execVsort (d a m : Reg) (s : State) : Result := s.vecSort d a m fun x y => decide (x < y)
def execVsortd (d a m : Reg) (s : State) : Result := s.vecSort d a m fun x y => decide (y < x)

/-- The merge of R255: `n` steps, va's element first on equal keys. -/
def mergeKeys (ka kb : Nat → Nat) (a b : Nat) : Nat → Nat → Nat → List (Nat × Nat)
  | 0, _, _ => []
  | n + 1, i, j =>
    if j = b ∨ (i < a ∧ ka i ≤ kb j) then (ka i, i) :: mergeKeys ka kb a b n (i + 1) j
    else (kb j, a + j) :: mergeKeys ka kb a b n i (j + 1)

/-- VMERGEK (R255). -/
def execVmergek (d a b : Reg) (s : State) : Result :=
  let t := s.hart.tag a
  s.vectorHart (s.hart.judge (keyTag t && s.hart.tag b == t) false (tagMvl t)) fun h =>
    let na := (h.vlen + 1) / 2
    h.ranked d t t (mergeKeys (h.elem a) (h.elem b) na (h.vlen - na) h.vlen 0 0)

/-- VSEGHEAD (R256); element-wise. -/
def execVseghead (p a m : Reg) (s : State) : Result :=
  let t := s.hart.tag a
  s.vectorHart (s.hart.judge (isIntTag t) false (tagMvl t)) fun h =>
    h.setP p (putBits (h.getP p) ((h.wholeActive m).map fun e => (e, e == 0 || h.elem a e != h.elem a (e - 1))))

/-- Whether value `x` ranks above value `y` in VTOPK (R257). -/
def ranksAbove (t : Tag) (x y : Nat) : Bool :=
  if isFpTag t then
    let a := (tagFmt t).decode x
    let b := (tagFmt t).decode y
    if a.isNan then false else if b.isNan then true else b.ltTotal a
  else decide (sgn (tagWidth t) y < sgn (tagWidth t) x)

/-- The value of a rank that no active element takes: −infinity or −2^31 (R257). -/
def lowest (t : Tag) : Nat := if isFpTag t then (tagFmt t).withSign true (tagFmt t).infBits else 2 ^ 31

/-- VTOPK (R257). -/
def execVtopk (d a x m : Reg) (s : State) : Result :=
  let t := s.hart.tag a
  let ti : Tag := if t = .bf16 then .i16 else .i32
  s.vectorHart (s.hart.judge (isFpTag t || t == .i32) false (tagMvl t)) fun h =>
    let k := min (h.getX x).toNat h.vlen
    if k = 0 then h
    else
      let act := (h.wholeActive m).map fun e => (h.elem a e, e)
      let order := (sortBy (fun x y => ranksAbove t x.1 y.1) act).take k
      let out := order.map (fun x => ((canonElem t x.1).1, x.2)) ++
        List.replicate (k - order.length) (lowest t, 2 ^ tagWidth ti - 1)
      (h.ranked d t ti out).raise (act.foldl (fun r x => r.or (canonElem t x.1).2) .none)

end Sys2Proof.Machine
end

