-- ==== Sys2Proof/Machine/Dispatch.lean ====
section
/-! DEFINITION. One arm per instruction, each one call of its meaning. -/

namespace Sys2Proof.Machine

/-- What an instruction does to a state (R36 for one instruction; R169 and the steps of 95_what_each_step_holds.md). -/
def exec (i : Instr) (s : State) : Host.Outcome State Fault Refusal :=
  match i with
  | .add d a b => Sys2Proof.Machine.execAdd d a b s
  | .sub d a b => Sys2Proof.Machine.execSub d a b s
  | .and d a b => Sys2Proof.Machine.execAnd d a b s
  | .or d a b => Sys2Proof.Machine.execOr d a b s
  | .xor d a b => Sys2Proof.Machine.execXor d a b s
  | .sll d a b => Sys2Proof.Machine.execSll d a b s
  | .srl d a b => Sys2Proof.Machine.execSrl d a b s
  | .sra d a b => Sys2Proof.Machine.execSra d a b s
  | .slt d a b => Sys2Proof.Machine.execSlt d a b s
  | .sltu d a b => Sys2Proof.Machine.execSltu d a b s
  | .min d a b => Sys2Proof.Machine.execMin d a b s
  | .max d a b => Sys2Proof.Machine.execMax d a b s
  | .minu d a b => Sys2Proof.Machine.execMinu d a b s
  | .maxu d a b => Sys2Proof.Machine.execMaxu d a b s
  | .addw d a b => Sys2Proof.Machine.execAddw d a b s
  | .subw d a b => Sys2Proof.Machine.execSubw d a b s
  | .mul d a b => Sys2Proof.Machine.execMul d a b s
  | .mulh d a b => Sys2Proof.Machine.execMulh d a b s
  | .mulhu d a b => Sys2Proof.Machine.execMulhu d a b s
  | .div d a b => Sys2Proof.Machine.execDiv d a b s
  | .divu d a b => Sys2Proof.Machine.execDivu d a b s
  | .rem d a b => Sys2Proof.Machine.execRem d a b s
  | .remu d a b => Sys2Proof.Machine.execRemu d a b s
  | .clz d a => Sys2Proof.Machine.execClz d a s
  | .ctz d a => Sys2Proof.Machine.execCtz d a s
  | .popc d a => Sys2Proof.Machine.execPopc d a s
  | .sextb d a => Sys2Proof.Machine.execSextb d a s
  | .sexth d a => Sys2Proof.Machine.execSexth d a s
  | .sextw d a => Sys2Proof.Machine.execSextw d a s
  | .zextw d a => Sys2Proof.Machine.execZextw d a s
  | .bswap d a => Sys2Proof.Machine.execBswap d a s
  | .addi d a imm => Sys2Proof.Machine.execAddi d a imm s
  | .andi d a imm => Sys2Proof.Machine.execAndi d a imm s
  | .ori d a imm => Sys2Proof.Machine.execOri d a imm s
  | .xori d a imm => Sys2Proof.Machine.execXori d a imm s
  | .slti d a imm => Sys2Proof.Machine.execSlti d a imm s
  | .sltiu d a imm => Sys2Proof.Machine.execSltiu d a imm s
  | .slli d a t => Sys2Proof.Machine.execSlli d a t s
  | .srli d a t => Sys2Proof.Machine.execSrli d a t s
  | .srai d a t => Sys2Proof.Machine.execSrai d a t s
  | .li d imm => Sys2Proof.Machine.execLi d imm s
  | .lis d imm => Sys2Proof.Machine.execLis d imm s
  | .addpc d imm => Sys2Proof.Machine.execAddpc d imm s
  | .ld d a cls sz o => Sys2Proof.Machine.execLd d a cls sz o s
  | .ldu d a cls sz o => Sys2Proof.Machine.execLdu d a cls sz o s
  | .st t a cls sz o => Sys2Proof.Machine.execSt t a cls sz o s
  | .beq a b o => Sys2Proof.Machine.execBeq a b o s
  | .bne a b o => Sys2Proof.Machine.execBne a b o s
  | .blt a b o => Sys2Proof.Machine.execBlt a b o s
  | .bge a b o => Sys2Proof.Machine.execBge a b o s
  | .bltu a b o => Sys2Proof.Machine.execBltu a b o s
  | .bgeu a b o => Sys2Proof.Machine.execBgeu a b o s
  | .jal d o => Sys2Proof.Machine.execJal d o s
  | .jalr d a imm => Sys2Proof.Machine.execJalr d a imm s
  | .strip n mask o => Sys2Proof.Machine.execStrip n mask o s
  | .loop n off => Sys2Proof.Machine.execLoop n off s
  | .loopi n off => Sys2Proof.Machine.execLoopi n off s
  | .joinW => Sys2Proof.Machine.execJoinW s
  | .joinN => Sys2Proof.Machine.execJoinN s
  | .detach => Sys2Proof.Machine.execDetach s
  | .exit => Sys2Proof.Machine.execExit s
  | .yield => Sys2Proof.Machine.execYield s
  | .fork a b => Sys2Proof.Machine.execFork a b s
  | .rendezvous id => Sys2Proof.Machine.execRendezvous id s
  | .fence mask sc => Sys2Proof.Machine.execFence mask sc s
  | .barArrive d b id sc => Sys2Proof.Machine.execBarArrive d b id sc s
  | .barWait d a id => Sys2Proof.Machine.execBarWait d a id s
  | .barInit a id => Sys2Proof.Machine.execBarInit a id s
  | .uiret => Sys2Proof.Machine.execUiret s
  | .uimask d a => Sys2Proof.Machine.execUimask d a s
  | .csrr d csr => Sys2Proof.Machine.execCsrr d csr s
  | .csrw d a csr => Sys2Proof.Machine.execCsrw d a csr s
  | .csrs d a csr => Sys2Proof.Machine.execCsrs d a csr s
  | .csrc d a csr => Sys2Proof.Machine.execCsrc d a csr s
  | .setvl d a w => Sys2Proof.Machine.execSetvl d a w s
  | .vtag v n t => Sys2Proof.Machine.execVtag v n t s
  | .svset a k => Sys2Proof.Machine.execSvset a k s
  | .svget d k => Sys2Proof.Machine.execSvget d k s
  | .launch d a => Sys2Proof.Machine.execLaunch d a s
  | .syscall => Sys2Proof.Machine.execSyscall s
  | .eret => Sys2Proof.Machine.execEret s
  | .invas a b allAddr allAsid => Sys2Proof.Machine.execInvas a b allAddr allAsid s
  | .bankcfg d a b => Sys2Proof.Machine.execBankcfg d a b s
  | .brk => Sys2Proof.Machine.execBrk s
  | .ldv d a b cls => Sys2Proof.Machine.execLdv d a b cls s
  | .vrqry d a w => Sys2Proof.Machine.execVrqry d a w s
  | .vpub v a b cls => Sys2Proof.Machine.execVpub v a b cls s
  | .vretire a b slot => Sys2Proof.Machine.execVretire a b slot s
  | .vrdecl d a => Sys2Proof.Machine.execVrdecl d a s
  | .vrfree d a => Sys2Proof.Machine.execVrfree d a s
  | .job d a => Sys2Proof.Machine.execJob d a s
  | .stream n b sz => Sys2Proof.Machine.execStream n b sz s
  | .streamoff n => Sys2Proof.Machine.execStreamoff n s
  | .sxopen d a sid => Sys2Proof.Machine.execSxopen d a sid s
  | .sxsplit d a sid => Sys2Proof.Machine.execSxsplit d a sid s
  | .sxround d sid => Sys2Proof.Machine.execSxround d sid s
  | .sxresplit d sid => Sys2Proof.Machine.execSxresplit d sid s
  | .sxclose d sid => Sys2Proof.Machine.execSxclose d sid s
  | .sxcloseAbort d sid => Sys2Proof.Machine.execSxcloseAbort d sid s
  | .sxsend k p sid m => Sys2Proof.Machine.execSxsend k p sid m s
  | .sxsendNew k p sid m => Sys2Proof.Machine.execSxsendNew k p sid m s
  | .sxrecv k p sid f => Sys2Proof.Machine.execSxrecv k p sid f s
  | .sxstat d sid => Sys2Proof.Machine.execSxstat d sid s
  | .amoadd d a b cls => Sys2Proof.Machine.execAmoadd d a b cls s
  | .amomin d a b cls => Sys2Proof.Machine.execAmomin d a b cls s
  | .amomax d a b cls => Sys2Proof.Machine.execAmomax d a b cls s
  | .amominu d a b cls => Sys2Proof.Machine.execAmominu d a b cls s
  | .amomaxu d a b cls => Sys2Proof.Machine.execAmomaxu d a b cls s
  | .amoand d a b cls => Sys2Proof.Machine.execAmoand d a b cls s
  | .amoor d a b cls => Sys2Proof.Machine.execAmoor d a b cls s
  | .amoxor d a b cls => Sys2Proof.Machine.execAmoxor d a b cls s
  | .amoswap d a b cls => Sys2Proof.Machine.execAmoswap d a b cls s
  | .amocas d a b cls => Sys2Proof.Machine.execAmocas d a b cls s
  | .amoaddW d a b cls => Sys2Proof.Machine.execAmoaddW d a b cls s
  | .amominW d a b cls => Sys2Proof.Machine.execAmominW d a b cls s
  | .amomaxW d a b cls => Sys2Proof.Machine.execAmomaxW d a b cls s
  | .amominuW d a b cls => Sys2Proof.Machine.execAmominuW d a b cls s
  | .amomaxuW d a b cls => Sys2Proof.Machine.execAmomaxuW d a b cls s
  | .amoandW d a b cls => Sys2Proof.Machine.execAmoandW d a b cls s
  | .amoorW d a b cls => Sys2Proof.Machine.execAmoorW d a b cls s
  | .amoxorW d a b cls => Sys2Proof.Machine.execAmoxorW d a b cls s
  | .amoswapW d a b cls => Sys2Proof.Machine.execAmoswapW d a b cls s
  | .amocasW d a b cls => Sys2Proof.Machine.execAmocasW d a b cls s
  | .topkins a b cls => Sys2Proof.Machine.execTopkins a b cls s
  | .waitc l r p t => Sys2Proof.Machine.execWaitc l r p t s
  | .vadd d a b m => Sys2Proof.Machine.execVadd d a b m s
  | .vsub d a b m => Sys2Proof.Machine.execVsub d a b m s
  | .vmul d a b m => Sys2Proof.Machine.execVmul d a b m s
  | .vmin d a b m => Sys2Proof.Machine.execVmin d a b m s
  | .vmax d a b m => Sys2Proof.Machine.execVmax d a b m s
  | .vabs d a m => Sys2Proof.Machine.execVabs d a m s
  | .vneg d a m => Sys2Proof.Machine.execVneg d a m s
  | .vmerge d a b m => Sys2Proof.Machine.execVmerge d a b m s
  | .vmv d a m => Sys2Proof.Machine.execVmv d a m s
  | .vbcast d a m => Sys2Proof.Machine.execVbcast d a m s
  | .vaddVx d a x m => Sys2Proof.Machine.execVaddVx d a x m s
  | .vsubVx d a x m => Sys2Proof.Machine.execVsubVx d a x m s
  | .vmulVx d a x m => Sys2Proof.Machine.execVmulVx d a x m s
  | .vminVx d a x m => Sys2Proof.Machine.execVminVx d a x m s
  | .vmaxVx d a x m => Sys2Proof.Machine.execVmaxVx d a x m s
  | .vmergeVx d a x m => Sys2Proof.Machine.execVmergeVx d a x m s
  | .vbcastVx d x m => Sys2Proof.Machine.execVbcastVx d x m s
  | .vand d a b m => Sys2Proof.Machine.execVand d a b m s
  | .vor d a b m => Sys2Proof.Machine.execVor d a b m s
  | .vxor d a b m => Sys2Proof.Machine.execVxor d a b m s
  | .vsll d a b m => Sys2Proof.Machine.execVsll d a b m s
  | .vsrl d a b m => Sys2Proof.Machine.execVsrl d a b m s
  | .vsra d a b m => Sys2Proof.Machine.execVsra d a b m s
  | .vminu d a b m => Sys2Proof.Machine.execVminu d a b m s
  | .vmaxu d a b m => Sys2Proof.Machine.execVmaxu d a b m s
  | .vmulh d a b m => Sys2Proof.Machine.execVmulh d a b m s
  | .vmulhu d a b m => Sys2Proof.Machine.execVmulhu d a b m s
  | .vadc d a b p => Sys2Proof.Machine.execVadc d a b p s
  | .vsbc d a b p => Sys2Proof.Machine.execVsbc d a b p s
  | .vadds d a b m => Sys2Proof.Machine.execVadds d a b m s
  | .vsubs d a b m => Sys2Proof.Machine.execVsubs d a b m s
  | .vaddsu d a b m => Sys2Proof.Machine.execVaddsu d a b m s
  | .vsubsu d a b m => Sys2Proof.Machine.execVsubsu d a b m s
  | .vsrar d a b m => Sys2Proof.Machine.execVsrar d a b m s
  | .vsrlr d a b m => Sys2Proof.Machine.execVsrlr d a b m s
  | .vdot2 d a b m => Sys2Proof.Machine.execVdot2 d a b m s
  | .vabsd d a b m => Sys2Proof.Machine.execVabsd d a b m s
  | .vclz d a m => Sys2Proof.Machine.execVclz d a m s
  | .vpopc d a m => Sys2Proof.Machine.execVpopc d a m s
  | .vandVx d a x m => Sys2Proof.Machine.execVandVx d a x m s
  | .vorVx d a x m => Sys2Proof.Machine.execVorVx d a x m s
  | .vxorVx d a x m => Sys2Proof.Machine.execVxorVx d a x m s
  | .vsllVx d a x m => Sys2Proof.Machine.execVsllVx d a x m s
  | .vsrlVx d a x m => Sys2Proof.Machine.execVsrlVx d a x m s
  | .vsraVx d a x m => Sys2Proof.Machine.execVsraVx d a x m s
  | .vminuVx d a x m => Sys2Proof.Machine.execVminuVx d a x m s
  | .vmaxuVx d a x m => Sys2Proof.Machine.execVmaxuVx d a x m s
  | .vmulhVx d a x m => Sys2Proof.Machine.execVmulhVx d a x m s
  | .vmulhuVx d a x m => Sys2Proof.Machine.execVmulhuVx d a x m s
  | .vaddsVx d a x m => Sys2Proof.Machine.execVaddsVx d a x m s
  | .vsubsVx d a x m => Sys2Proof.Machine.execVsubsVx d a x m s
  | .vaddsuVx d a x m => Sys2Proof.Machine.execVaddsuVx d a x m s
  | .vsubsuVx d a x m => Sys2Proof.Machine.execVsubsuVx d a x m s
  | .vsrarVx d a x m => Sys2Proof.Machine.execVsrarVx d a x m s
  | .vsrlrVx d a x m => Sys2Proof.Machine.execVsrlrVx d a x m s
  | .vabsdVx d a x m => Sys2Proof.Machine.execVabsdVx d a x m s
  | .vandVi d a imm m => Sys2Proof.Machine.execVandVi d a imm m s
  | .vorVi d a imm m => Sys2Proof.Machine.execVorVi d a imm m s
  | .vxorVi d a imm m => Sys2Proof.Machine.execVxorVi d a imm m s
  | .vsllVi d a imm m => Sys2Proof.Machine.execVsllVi d a imm m s
  | .vsrlVi d a imm m => Sys2Proof.Machine.execVsrlVi d a imm m s
  | .vsraVi d a imm m => Sys2Proof.Machine.execVsraVi d a imm m s
  | .vminuVi d a imm m => Sys2Proof.Machine.execVminuVi d a imm m s
  | .vmaxuVi d a imm m => Sys2Proof.Machine.execVmaxuVi d a imm m s
  | .vaddsVi d a imm m => Sys2Proof.Machine.execVaddsVi d a imm m s
  | .vsubsVi d a imm m => Sys2Proof.Machine.execVsubsVi d a imm m s
  | .vaddsuVi d a imm m => Sys2Proof.Machine.execVaddsuVi d a imm m s
  | .vsubsuVi d a imm m => Sys2Proof.Machine.execVsubsuVi d a imm m s
  | .vsrarVi d a imm m => Sys2Proof.Machine.execVsrarVi d a imm m s
  | .vsrlrVi d a imm m => Sys2Proof.Machine.execVsrlrVi d a imm m s
  | .vfma d a b m => Sys2Proof.Machine.execVfma d a b m s
  | .vfms d a b m => Sys2Proof.Machine.execVfms d a b m s
  | .vfnma d a b m => Sys2Proof.Machine.execVfnma d a b m s
  | .vdiv d a b m => Sys2Proof.Machine.execVdiv d a b m s
  | .vsqrt d a m => Sys2Proof.Machine.execVsqrt d a m s
  | .vrcp d a m => Sys2Proof.Machine.execVrcp d a m s
  | .vrsq d a m => Sys2Proof.Machine.execVrsq d a m s
  | .vexp2 d a m => Sys2Proof.Machine.execVexp2 d a m s
  | .vlog2 d a m => Sys2Proof.Machine.execVlog2 d a m s
  | .vtanh d a m => Sys2Proof.Machine.execVtanh d a m s
  | .vclass d a m => Sys2Proof.Machine.execVclass d a m s
  | .vfmaVx d a x m => Sys2Proof.Machine.execVfmaVx d a x m s
  | .vfmsVx d a x m => Sys2Proof.Machine.execVfmsVx d a x m s
  | .vfnmaVx d a x m => Sys2Proof.Machine.execVfnmaVx d a x m s
  | .vdivVx d a x m => Sys2Proof.Machine.execVdivVx d a x m s
  | .vcmpeq p a b m => Sys2Proof.Machine.execVcmpeq p a b m s
  | .vcmpne p a b m => Sys2Proof.Machine.execVcmpne p a b m s
  | .vcmplt p a b m => Sys2Proof.Machine.execVcmplt p a b m s
  | .vcmple p a b m => Sys2Proof.Machine.execVcmple p a b m s
  | .vcmpltu p a b m => Sys2Proof.Machine.execVcmpltu p a b m s
  | .vcmpleu p a b m => Sys2Proof.Machine.execVcmpleu p a b m s
  | .vcmpun p a b m => Sys2Proof.Machine.execVcmpun p a b m s
  | .vcmpeqVx p a x m => Sys2Proof.Machine.execVcmpeqVx p a x m s
  | .vcmpneVx p a x m => Sys2Proof.Machine.execVcmpneVx p a x m s
  | .vcmpltVx p a x m => Sys2Proof.Machine.execVcmpltVx p a x m s
  | .vcmpleVx p a x m => Sys2Proof.Machine.execVcmpleVx p a x m s
  | .vcmpltuVx p a x m => Sys2Proof.Machine.execVcmpltuVx p a x m s
  | .vcmpleuVx p a x m => Sys2Proof.Machine.execVcmpleuVx p a x m s
  | .vcmpunVx p a x m => Sys2Proof.Machine.execVcmpunVx p a x m s
  | .pand d a b => Sys2Proof.Machine.execPand d a b s
  | .por d a b => Sys2Proof.Machine.execPor d a b s
  | .pxor d a b => Sys2Proof.Machine.execPxor d a b s
  | .pandn d a b => Sys2Proof.Machine.execPandn d a b s
  | .pnot d a => Sys2Proof.Machine.execPnot d a s
  | .pshl d a x => Sys2Proof.Machine.execPshl d a x s
  | .pshr d a x => Sys2Proof.Machine.execPshr d a x s
  | .pmv d a => Sys2Proof.Machine.execPmv d a s
  | .pset d t => Sys2Proof.Machine.execPset d t s
  | .pcnt d a => Sys2Proof.Machine.execPcnt d a s
  | .pfirst d a => Sys2Proof.Machine.execPfirst d a s
  | .plast d a => Sys2Proof.Machine.execPlast d a s
  | .pmovx d a j => Sys2Proof.Machine.execPmovx d a j s
  | .pfromx d a j => Sys2Proof.Machine.execPfromx d a j s
  | .vslide1up d a x m => Sys2Proof.Machine.execVslide1up d a x m s
  | .vslide1dn d a x m => Sys2Proof.Machine.execVslide1dn d a x m s
  | .vslideup d a x m => Sys2Proof.Machine.execVslideup d a x m s
  | .vslidedn d a x m => Sys2Proof.Machine.execVslidedn d a x m s
  | .vgather d a b m => Sys2Proof.Machine.execVgather d a b m s
  | .vcompress d a m => Sys2Proof.Machine.execVcompress d a m s
  | .vexpand d a m => Sys2Proof.Machine.execVexpand d a m s
  | .vrev d a m => Sys2Proof.Machine.execVrev d a m s
  | .vhad d a k m => Sys2Proof.Machine.execVhad d a k m s
  | .vzip d a b m => Sys2Proof.Machine.execVzip d a b m s
  | .vunzip d a b m => Sys2Proof.Machine.execVunzip d a b m s
  | .vredsum d a b m => Sys2Proof.Machine.execVredsum d a b m s
  | .vredsumu d a b m => Sys2Proof.Machine.execVredsumu d a b m s
  | .vredmax d a b m => Sys2Proof.Machine.execVredmax d a b m s
  | .vredmin d a b m => Sys2Proof.Machine.execVredmin d a b m s
  | .vscan d a b m => Sys2Proof.Machine.execVscan d a b m s
  | .vscanf d a b m => Sys2Proof.Machine.execVscanf d a b m s
  | .vcvt d a q t m => Sys2Proof.Machine.execVcvt d a q t m s
  | .vcvts d a q m => Sys2Proof.Machine.execVcvts d a q m s
  | .vrand d m => Sys2Proof.Machine.execVrand d m s
  | .vqscale d a f m => Sys2Proof.Machine.execVqscale d a f m s
  | .viota d m => Sys2Proof.Machine.execViota d m s
  | .vmvxs d a imm m => Sys2Proof.Machine.execVmvxs d a imm m s
  | .vmvsx d x m => Sys2Proof.Machine.execVmvsx d x m s
  | .vsort d a m => Sys2Proof.Machine.execVsort d a m s
  | .vsortd d a m => Sys2Proof.Machine.execVsortd d a m s
  | .vmergek d a b => Sys2Proof.Machine.execVmergek d a b s
  | .vseghead p a m => Sys2Proof.Machine.execVseghead p a m s
  | .vtopk d a x m => Sys2Proof.Machine.execVtopk d a x m s
  | .vaccrd d x m => Sys2Proof.Machine.execVaccrd d x m s
  | .vaccwr t x m => Sys2Proof.Machine.execVaccwr t x m s
  | .vld d n cls f m => Sys2Proof.Machine.execVld d n cls f m s
  | .vlds d n t cls f m => Sys2Proof.Machine.execVlds d n t cls f m s
  | .vldx d n imm cls f m => Sys2Proof.Machine.execVldx d n imm cls f m s
  | .vldseg d n e cls f m => Sys2Proof.Machine.execVldseg d n e cls f m s
  | .vldb d n imm cls f p => Sys2Proof.Machine.execVldb d n imm cls f p s
  | .vst t n cls f m => Sys2Proof.Machine.execVst t n cls f m s
  | .vsts t n x cls f m => Sys2Proof.Machine.execVsts t n x cls f m s
  | .vstx t n imm cls f m => Sys2Proof.Machine.execVstx t n imm cls f m s
  | .vstxu t n imm cls f m => Sys2Proof.Machine.execVstxu t n imm cls f m s
  | .vstseg t n e cls f m => Sys2Proof.Machine.execVstseg t n e cls f m s
  | .vamoxAdd t n imm cls m => Sys2Proof.Machine.execVamoxAdd t n imm cls m s
  | .vamoxAddu t n imm cls m => Sys2Proof.Machine.execVamoxAddu t n imm cls m s
  | .vamoxMin t n imm cls m => Sys2Proof.Machine.execVamoxMin t n imm cls m s
  | .vamoxMax t n imm cls m => Sys2Proof.Machine.execVamoxMax t n imm cls m s
  | .vamoxAnd t n imm cls m => Sys2Proof.Machine.execVamoxAnd t n imm cls m s
  | .vamoxOr t n imm cls m => Sys2Proof.Machine.execVamoxOr t n imm cls m s
  | .vamoxXor t n imm cls m => Sys2Proof.Machine.execVamoxXor t n imm cls m s
  | .vamoxSwap t n imm cls m => Sys2Proof.Machine.execVamoxSwap t n imm cls m s
  | .vldv d n v cls m => Sys2Proof.Machine.execVldv d n v cls m s
  | .vstv t n v cls => Sys2Proof.Machine.execVstv t n v cls s
  | .vpush t n cls m => Sys2Proof.Machine.execVpush t n cls m s
  | .vpop d n cls m => Sys2Proof.Machine.execVpop d n cls m s
  | .mgather a b g n t => Sys2Proof.Machine.execMgather a b g n t s
  | .mldb a => Sys2Proof.Machine.execMldb a s
  | .mcfg a => Sys2Proof.Machine.execMcfg a s
  | .mma t => Sys2Proof.Machine.execMma t s
  | .mzero => Sys2Proof.Machine.execMzero s
  | .mswap => Sys2Proof.Machine.execMswap s
  | .mwait w => Sys2Proof.Machine.execMwait w s
  | .mdrain a b f => Sys2Proof.Machine.execMdrain a b f s
  | .mstat d clear => Sys2Proof.Machine.execMstat d clear s
  | .aniseFetch g => Sys2Proof.Machine.execAniseFetch g s
  | .privateFetch h => Sys2Proof.Machine.execPrivateFetch h s
  | .driftEviction h => Sys2Proof.Machine.execDriftEviction h s
  | .issueVisit h => Sys2Proof.Machine.execIssueVisit h s
  | .asyncReportTaken h => Sys2Proof.Machine.execAsyncReportTaken h s
  | .userInterruptTaken h => Sys2Proof.Machine.execUserInterruptTaken h s
  | .parking h => Sys2Proof.Machine.execParking h s
  | .swapOnWait g => Sys2Proof.Machine.execSwapOnWait g s
  | .preEmption g => Sys2Proof.Machine.execPreEmption g s
  | .timeSharingExpiry g => Sys2Proof.Machine.execTimeSharingExpiry g s
  | .strandRestore h => Sys2Proof.Machine.execStrandRestore h s
  | .gangResident g c k => Sys2Proof.Machine.execGangResident g c k s
  | .bankSwitchBegin g b => Sys2Proof.Machine.execBankSwitchBegin g b s
  | .bankSwitchEnd g b => Sys2Proof.Machine.execBankSwitchEnd g b s
  | .storePerformed h => Sys2Proof.Machine.execStorePerformed h s
  | .vldbDataWrite h => Sys2Proof.Machine.execVldbDataWrite h s
  | .transitWalkRetry h => Sys2Proof.Machine.execTransitWalkRetry h s
  | .transitTimeout w => Sys2Proof.Machine.execTransitTimeout w s
  | .versionedStoreStep r q n data => Sys2Proof.Machine.execVersionedStoreStep r q n data s
  | .versionWaitWake r q => Sys2Proof.Machine.execVersionWaitWake r q s
  | .waitListRetry h => Sys2Proof.Machine.execWaitListRetry h s
  | .horizonPropagation r q => Sys2Proof.Machine.execHorizonPropagation r q s
  | .barrierRegistration h id => Sys2Proof.Machine.execBarrierRegistration h id s
  | .watchdogTimeout w => Sys2Proof.Machine.execWatchdogTimeout w s
  | .forkedProgramStart c => Sys2Proof.Machine.execForkedProgramStart c s
  | .matrixInstructionBegin c => Sys2Proof.Machine.execMatrixInstructionBegin c s
  | .matrixInstructionComplete c => Sys2Proof.Machine.execMatrixInstructionComplete c s
  | .copy j => Sys2Proof.Machine.execCopy j s
  | .tile j => Sys2Proof.Machine.execTile j s
  | .gather j => Sys2Proof.Machine.execGather j s
  | .scatter j => Sys2Proof.Machine.execScatter j s
  | .pagegather j => Sys2Proof.Machine.execPagegather j s
  | .fill j => Sys2Proof.Machine.execFill j s
  | .digest j => Sys2Proof.Machine.execDigest j s
  | .jobCompletion j => Sys2Proof.Machine.execJobCompletion j s
  | .doorbell bell tail => Sys2Proof.Machine.execDoorbell bell tail s
  | .ringEntryTake q => Sys2Proof.Machine.execRingEntryTake q s
  | .itemStart n => Sys2Proof.Machine.execItemStart n s
  | .queueCreditTick => Sys2Proof.Machine.execQueueCreditTick s
  | .launchComplete l => Sys2Proof.Machine.execLaunchComplete l s
  | .versionWaitNodeComplete l node => Sys2Proof.Machine.execVersionWaitNodeComplete l node s
  | .sxRoundComplete p sid => Sys2Proof.Machine.execSxRoundComplete p sid s
  | .sxRecordDelivery p sid rx => Sys2Proof.Machine.execSxRecordDelivery p sid rx s
  | .spanRequest p f r => Sys2Proof.Machine.execSpanRequest p f r s
  | .fabricReply h tag inc a => Sys2Proof.Machine.execFabricReply h tag inc a s
  | .cancel h first count => Sys2Proof.Machine.execCancel h first count s
  | .fabricRequestTimeout tag => Sys2Proof.Machine.execFabricRequestTimeout tag s
  | .lockedRouteTimeout tag => Sys2Proof.Machine.execLockedRouteTimeout tag s
  | .portUnlock port partner => Sys2Proof.Machine.execPortUnlock port partner s
  | .portDown port => Sys2Proof.Machine.execPortDown port s
  | .linkTraining port partner ok => Sys2Proof.Machine.execLinkTraining port partner ok s
  | .linkKeyUpdate port => Sys2Proof.Machine.execLinkKeyUpdate port s
  | .pcfgWrite f p v => Sys2Proof.Machine.execPcfgWrite f p v s
  | .pmemWrite f p imm v => Sys2Proof.Machine.execPmemWrite f p imm v s
  | .partitionEnableComplete p => Sys2Proof.Machine.execPartitionEnableComplete p s
  | .prootWrite f p v => Sys2Proof.Machine.execProotWrite f p v s
  | .pinvalWrite f p v => Sys2Proof.Machine.execPinvalWrite f p v s
  | .pjobnWrite f p v => Sys2Proof.Machine.execPjobnWrite f p v s
  | .pexpnWrite f p v => Sys2Proof.Machine.execPexpnWrite f p v s
  | .pdeadwordWrite f p v => Sys2Proof.Machine.execPdeadwordWrite f p v s
  | .qcfgWrite f q v => Sys2Proof.Machine.execQcfgWrite f q v s
  | .registerWrite f r v => Sys2Proof.Machine.execRegisterWrite f r v s
  | .lockInterface vf => Sys2Proof.Machine.execLockInterface vf s
  | .startInterface vf => Sys2Proof.Machine.execStartInterface vf s
  | .stopInterface vf => Sys2Proof.Machine.execStopInterface vf s
  | .vfError vf => Sys2Proof.Machine.execVfError vf s
  | .heartbeatTimeout vf => Sys2Proof.Machine.execHeartbeatTimeout vf s
  | .getVersion l => Sys2Proof.Machine.execGetVersion l s
  | .getCapabilities l => Sys2Proof.Machine.execGetCapabilities l s
  | .negotiateAlgorithms l => Sys2Proof.Machine.execNegotiateAlgorithms l s
  | .getDigests l => Sys2Proof.Machine.execGetDigests l s
  | .getCertificate l => Sys2Proof.Machine.execGetCertificate l s
  | .challenge l => Sys2Proof.Machine.execChallenge l s
  | .getMeasurements l => Sys2Proof.Machine.execGetMeasurements l s
  | .keyExchange l => Sys2Proof.Machine.execKeyExchange l s
  | .finish l => Sys2Proof.Machine.execFinish l s
  | .keyUpdate l => Sys2Proof.Machine.execKeyUpdate l s
  | .heartbeat l => Sys2Proof.Machine.execHeartbeat l s
  | .endSession l => Sys2Proof.Machine.execEndSession l s
  | .getDebugNonce p => Sys2Proof.Machine.execGetDebugNonce p s
  | .debugPolicySubmit p d => Sys2Proof.Machine.execDebugPolicySubmit p d s
  | .measurementLogRead => Sys2Proof.Machine.execMeasurementLogRead s
  | .fuseMinimumRaise im => Sys2Proof.Machine.execFuseMinimumRaise im s
  | .powerOn => Sys2Proof.Machine.execPowerOn s
  | .bringUpStage ok => Sys2Proof.Machine.execBringUpStage ok s
  | .thermalHold => Sys2Proof.Machine.execThermalHold s
  | .thermalResume => Sys2Proof.Machine.execThermalResume s
  | .thermalTrip => Sys2Proof.Machine.execThermalTrip s
  | .clusterDrain c => Sys2Proof.Machine.execClusterDrain c s
  | .clusterFence c => Sys2Proof.Machine.execClusterFence c s
  | .rowSpare => Sys2Proof.Machine.execRowSpare s
  | .pageRetire page => Sys2Proof.Machine.execPageRetire page s
  | .moduleReset => Sys2Proof.Machine.execModuleReset s
  | .powerLoss => Sys2Proof.Machine.execPowerLoss s
  | .laneFailure port => Sys2Proof.Machine.execLaneFailure port s
  | .peerModuleStopped rank => Sys2Proof.Machine.execPeerModuleStopped rank s
  | .tagHoldExpiry tag => Sys2Proof.Machine.execTagHoldExpiry tag s
  | .hostAccess a => Sys2Proof.Machine.execHostAccess a s

end Sys2Proof.Machine
end

