-- ==== Sys2Proof/Machine/Uses.lean ====
section
/-! DEFINITION. What a vector instruction uses: its vector registers, whether it is whole, its class, its beats (R37, R142, R168, R224, R225, R268). -/

namespace Sys2Proof.Machine

/-- Destination and sources of the vector instructions whose result has the tag of their first source, but for `newTag` (R221). -/
def aluRegs : Instr → List Reg
  | .vadd d a b _ | .vsub d a b _ | .vmul d a b _ | .vmin d a b _ | .vmax d a b _ | .vmerge d a b _ | .vand d a b _ | .vor d a b _
  | .vxor d a b _ | .vsll d a b _ | .vsrl d a b _ | .vsra d a b _ | .vminu d a b _ | .vmaxu d a b _ | .vmulh d a b _
  | .vmulhu d a b _ | .vadc d a b _ | .vsbc d a b _ | .vadds d a b _ | .vsubs d a b _ | .vaddsu d a b _ | .vsubsu d a b _
  | .vsrar d a b _ | .vsrlr d a b _ | .vdot2 d a b _ | .vabsd d a b _ | .vfma d a b _ | .vfms d a b _ | .vfnma d a b _
  | .vdiv d a b _ | .vgather d a b _ | .vzip d a b _ | .vunzip d a b _ | .vredsum d a b _ | .vredsumu d a b _ | .vredmax d a b _
  | .vredmin d a b _ | .vscan d a b _ | .vscanf d a b _ => [d, a, b]
  | .vabs d a _ | .vneg d a _ | .vmv d a _ | .vbcast d a _ | .vaddVx d a _ _ | .vsubVx d a _ _ | .vmulVx d a _ _ | .vminVx d a _ _
  | .vmaxVx d a _ _ | .vmergeVx d a _ _ | .vclz d a _ | .vpopc d a _ | .vandVx d a _ _ | .vorVx d a _ _ | .vxorVx d a _ _
  | .vsllVx d a _ _ | .vsrlVx d a _ _ | .vsraVx d a _ _ | .vminuVx d a _ _ | .vmaxuVx d a _ _ | .vmulhVx d a _ _
  | .vmulhuVx d a _ _ | .vaddsVx d a _ _ | .vsubsVx d a _ _ | .vaddsuVx d a _ _ | .vsubsuVx d a _ _ | .vsrarVx d a _ _
  | .vsrlrVx d a _ _ | .vabsdVx d a _ _ | .vandVi d a _ _ | .vorVi d a _ _ | .vxorVi d a _ _ | .vsllVi d a _ _ | .vsrlVi d a _ _
  | .vsraVi d a _ _ | .vminuVi d a _ _ | .vmaxuVi d a _ _ | .vaddsVi d a _ _ | .vsubsVi d a _ _ | .vaddsuVi d a _ _
  | .vsubsuVi d a _ _ | .vsrarVi d a _ _ | .vsrlrVi d a _ _ | .vsqrt d a _ | .vrcp d a _ | .vrsq d a _ | .vexp2 d a _
  | .vlog2 d a _ | .vtanh d a _ | .vclass d a _ | .vfmaVx d a _ _ | .vfmsVx d a _ _ | .vfnmaVx d a _ _ | .vdivVx d a _ _
  | .vslide1up d a _ _ | .vslide1dn d a _ _ | .vslideup d a _ _ | .vslidedn d a _ _ | .vcompress d a _ | .vexpand d a _
  | .vrev d a _ | .vhad d a _ _ | .vcvt d a _ _ _ | .vcvts d a _ _ | .vqscale d a _ _ => [d, a]
  | _ => []

/-- Vector registers a vector instruction reads or writes (R268). -/
def vectorRegs : Instr → List Reg
  | .vbcastVx d _ _ | .vrand d _ | .viota d _ | .vmvsx d _ _ | .vaccrd d _ _ | .vld d _ _ _ _ | .vlds d _ _ _ _ _
  | .vldv d _ _ _ _ | .vpop d _ _ _ => [d]
  | .vcmpeq _ a b _ | .vcmpne _ a b _ | .vcmplt _ a b _ | .vcmple _ a b _ | .vcmpltu _ a b _ | .vcmpleu _ a b _ | .vcmpun _ a b _ => [a, b]
  | .vcmpeqVx _ a _ _ | .vcmpneVx _ a _ _ | .vcmpltVx _ a _ _ | .vcmpleVx _ a _ _ | .vcmpltuVx _ a _ _ | .vcmpleuVx _ a _ _
  | .vcmpunVx _ a _ _ | .vmvxs _ a _ _ | .vseghead _ a _ => [a]
  | .vsort d a _ | .vsortd d a _ | .vtopk d a _ _ => [d, d + 1, a]
  | .vmergek d a b => [d, d + 1, a, b]
  | .vaccwr s _ _ | .vst s _ _ _ _ | .vsts s _ _ _ _ _ | .vstv s _ _ _ | .vpush s _ _ _ => [s]
  | .vldx d _ i _ _ _ | .vldb d _ i _ _ _ => [d, i]
  | .vldseg d _ e _ _ _ => regRange d e.val
  | .vstx s _ i _ _ _ | .vstxu s _ i _ _ _ | .vamoxAdd s _ i _ _ | .vamoxAddu s _ i _ _ | .vamoxMin s _ i _ _
  | .vamoxMax s _ i _ _ | .vamoxAnd s _ i _ _ | .vamoxOr s _ i _ _ | .vamoxXor s _ i _ _ | .vamoxSwap s _ i _ _ => [s, i]
  | .vstseg s _ e _ _ _ => regRange s e.val
  | i => aluRegs i

/-- Vector registers an instruction of the hart reads or writes, the sorted-exchange ones included (R336, R337). -/
def State.vectorUses (s : State) (i : Instr) : List Reg :=
  let pay := fun (p : Reg) (sid : Fin 16) (t : SxDescriptor → Tag) =>
    match s.session? s.hart.part sid with
    | some x => regRange p (payloadRegs x.desc (t x.desc) s.hart.vlen)
    | none => []
  match i with
  | .sxsend k p sid _ | .sxsendNew k p sid _ => k :: pay p sid fun _ => s.hart.tag p
  | .sxrecv k p sid _ => k :: pay p sid SxDescriptor.outTag
  | i => vectorRegs i

/-- Whole instructions, and those that a run of element-wise instructions never includes: they stop and resume by themselves
(R37, R112, R223, R268, R270, R272). -/
def runsAlone (h : Hart) : Instr → Bool
  | .vslide1up _ _ _ _ | .vslide1dn _ _ _ _ | .vslideup _ _ _ _ | .vslidedn _ _ _ _ | .vgather _ _ _ _ | .vcompress _ _ _
  | .vexpand _ _ _ | .vrev _ _ _ | .vhad _ _ _ _ | .vzip _ _ _ _ | .vunzip _ _ _ _ => true
  | .vredsum _ _ _ _ | .vredsumu _ _ _ _ | .vredmax _ _ _ _ | .vredmin _ _ _ _ | .vscan _ _ _ _ | .vscanf _ _ _ _ => true
  | .vsort _ _ _ | .vsortd _ _ _ | .vmergek _ _ _ | .vseghead _ _ _ | .vtopk _ _ _ _ => true
  | .pcnt _ _ | .pfirst _ _ | .plast _ _ | .pmovx _ _ _ | .pshl _ _ _ | .pshr _ _ _ => true
  | .vbcast _ _ _ | .viota _ _ | .vqscale _ _ _ _ | .vcvts _ _ _ _ | .vmvxs _ _ _ _ | .vaccrd _ _ _ | .vaccwr _ _ _ => true
  | .vcvt _ a _ t _ => tagWidth (h.tag a) != tagWidth t
  | .vldb _ _ _ _ _ _ | .vpush _ _ _ _ | .vpop _ _ _ _ | .vstv _ _ _ _ => true
  | .vamoxAdd _ _ _ _ _ | .vamoxAddu _ _ _ _ _ | .vamoxMin _ _ _ _ _ | .vamoxMax _ _ _ _ _ | .vamoxAnd _ _ _ _ _
  | .vamoxOr _ _ _ _ _ | .vamoxXor _ _ _ _ _ | .vamoxSwap _ _ _ _ _ => true
  | _ => false

/-- Load-class and store-class instructions; VAMOX is both (R168). -/
def loadClass : Instr → Bool
  | .vld _ _ _ _ _ | .vlds _ _ _ _ _ _ | .vldx _ _ _ _ _ _ | .vldseg _ _ _ _ _ _ | .vldb _ _ _ _ _ _ | .vldv _ _ _ _ _ | .vpop _ _ _ _ => true
  | .vamoxAdd _ _ _ _ _ | .vamoxAddu _ _ _ _ _ | .vamoxMin _ _ _ _ _ | .vamoxMax _ _ _ _ _ | .vamoxAnd _ _ _ _ _
  | .vamoxOr _ _ _ _ _ | .vamoxXor _ _ _ _ _ | .vamoxSwap _ _ _ _ _ => true
  | _ => false

def storeClass : Instr → Bool
  | .vst _ _ _ _ _ | .vsts _ _ _ _ _ _ | .vstx _ _ _ _ _ _ | .vstxu _ _ _ _ _ _ | .vstseg _ _ _ _ _ _ | .vstv _ _ _ _ | .vpush _ _ _ _ => true
  | .vamoxAdd _ _ _ _ _ | .vamoxAddu _ _ _ _ _ | .vamoxMin _ _ _ _ _ | .vamoxMax _ _ _ _ _ | .vamoxAnd _ _ _ _ _
  | .vamoxOr _ _ _ _ _ | .vamoxXor _ _ _ _ _ | .vamoxSwap _ _ _ _ _ => true
  | _ => false

/-- Instructions that access memory, and RENDEZVOUS, which orders every earlier access before it: a background load still in flight
is performed before them (R53, R88, R89, R279, R331; log 65). -/
def accesses : Instr → Bool
  | .ld _ _ _ _ _ | .ldu _ _ _ _ _ | .st _ _ _ _ _ | .ldv _ _ _ _ | .vpub _ _ _ _ | .vrqry _ _ _ | .topkins _ _ _ | .svset _ _
  | .svget _ _ | .launch _ _ | .job _ _ | .vrdecl _ _ | .vrfree _ _ | .sxopen _ _ _ | .rendezvous _ => true
  | .amoadd _ _ _ _ | .amomin _ _ _ _ | .amomax _ _ _ _ | .amominu _ _ _ _ | .amomaxu _ _ _ _ | .amoand _ _ _ _ | .amoor _ _ _ _
  | .amoxor _ _ _ _ | .amoswap _ _ _ _ | .amocas _ _ _ _ | .amoaddW _ _ _ _ | .amominW _ _ _ _ | .amomaxW _ _ _ _
  | .amominuW _ _ _ _ | .amomaxuW _ _ _ _ | .amoandW _ _ _ _ | .amoorW _ _ _ _ | .amoxorW _ _ _ _ | .amoswapW _ _ _ _
  | .amocasW _ _ _ _ => true
  | i => loadClass i || storeClass i

/-- Instructions that take a value of the random counter (R142). -/
def isRandom : Instr → Bool
  | .vrand _ _ | .vcvts _ _ _ _ => true
  | _ => false

/-- The tag a vector instruction leaves in its destination, where it may change it (R163, R221, R248-R254). -/
def Hart.newTag (h : Hart) : Instr → Option (Reg × Tag)
  | .vcvt d _ _ t _ => some (d, t)
  | .vcvts d _ _ _ => some (d, .bf16)
  | .vqscale d _ _ _ | .vrand d _ | .vaccrd d _ _ | .vdot2 d _ _ _ => some (d, .i32)
  | .viota d _ => some (d, h.widthTag)
  | .vsort d a _ | .vsortd d a _ | .vtopk d a _ _ | .vmergek d a _ => some (d, h.tag a)
  | i => match aluRegs i with | d :: a :: _ => some (d, h.tag a) | _ => none

/-- The tags once a vector instruction has run, as far as its width counts (R225). -/
def Hart.retag (h : Hart) (i : Instr) : Hart :=
  match h.newTag i with
  | some (d, t) => { h with tags := h.tags.set d t }
  | none => h

/-- Vector registers whose elements an instruction reads (R225): its destination only where it accumulates into it. -/
def vectorReads : Instr → List Reg
  | .vfma d a b _ | .vfms d a b _ | .vfnma d a b _ | .vdot2 d a b _ => [d, a, b]
  | .vfmaVx d a _ _ | .vfmsVx d a _ _ | .vfnmaVx d a _ _ => [d, a]
  | .vld _ _ _ _ _ | .vlds _ _ _ _ _ _ | .vldseg _ _ _ _ _ _ | .vldv _ _ _ _ _ | .vpop _ _ _ _ | .vbcastVx _ _ _ | .vrand _ _
  | .viota _ _ | .vmvsx _ _ _ | .vaccrd _ _ _ => []
  | .vldx _ _ i _ _ _ | .vldb _ _ i _ _ _ => [i]
  | .vsort _ a _ | .vsortd _ a _ | .vtopk _ a _ _ => [a]
  | .vmergek _ a b => [a, b]
  | i => match aluRegs i with | _ :: l => l | [] => vectorRegs i

/-- Beats of a vector instruction, with n of R225 over the widest element it reads or writes; a scalar one adds nothing (R225, R362). -/
def Hart.beats (h : Hart) (i : Instr) : Nat :=
  let dest := match h.newTag i with | some (_, t) => tagWidth t | none => 16
  let written := match h.newTag i with | some _ => vectorReads i | none => vectorRegs i
  let widest := written.foldl (fun w r => max w (tagWidth (h.tag r))) dest
  let n := (h.vlen * widest + 1023) / 1024
  match i with
  | .pand _ _ _ | .por _ _ _ | .pxor _ _ _ | .pandn _ _ _ | .pnot _ _ | .pmv _ _ | .pset _ _ | .pshl _ _ _ | .pshr _ _ _
  | .pcnt _ _ | .pfirst _ _ | .plast _ _ | .pmovx _ _ _ | .pfromx _ _ _ | .vmvxs _ _ _ _ => 1
  | .vdiv _ _ _ _ | .vdivVx _ _ _ _ | .vsqrt _ _ _ => 2 * n
  | .vgather _ _ _ _ => (h.vlen + 7) / 8
  | .vredsum _ _ _ _ | .vscan _ _ _ _ => 2 * h.vlen
  | .vredsumu _ _ _ _ => 8
  | .vsort _ _ _ | .vsortd _ _ _ | .vmergek _ _ _ => 36
  | .vtopk _ _ _ _ => 20
  | i => if vectorRegs i = [] then 0 else n

/-- Whether a word belongs to a vector major (R168). -/
def vectorWord (w : BitVec 32) : Bool :=
  let m := bits w.toNat 25 6
  decide ((0x20 ≤ m ∧ m ≤ 0x2D) ∨ (0x30 ≤ m ∧ m ≤ 0x3B))

/-- Whether an instruction may name a register that awaits a background load's write: one of its vector registers, those of the
sorted-exchange data instructions, or one of its fields of a predicate (R224). -/
def State.mayName (s : State) (w : BitVec 32) (i : Option Instr) (r : Reg) : Bool :=
  (vectorWord w || bits w.toNat 25 6 == 0x1C) &&
    ([20, 15, 14, 12, 10, 5, 0].any (fun lo => bits w.toNat lo 5 == r.val) || i.any fun x => (s.vectorUses x).contains r)

/-- Where the composition of a convoy is broken: the first offending position from `c` on, the first that is judged (R168, R421,
R463). -/
def offence (c : Nat) (l : List (BitVec 32 × Option Instr)) : Option Nat :=
  if l.length ≤ 1 then none
  else
    (List.range l.length).find? fun p =>
      match l[p]? with
      | none => false
      | some (w, i) =>
        let m := bits w.toNat 25 6
        let seen := fun k : Instr → Bool => ((l.take p).drop c).any fun x => x.2.any k
        decide (c ≤ p) && (! vectorWord w || (i.any loadClass && seen loadClass) || (i.any storeClass && seen storeClass) ||
          ((m == 0x29 || m == 0x2A || m == 0x2C) && decide (p + 1 ≠ l.length)) || (p == 3 && continues w))

/-! ### Where the elements of a load or a store lie (R36) -/

/-- The shape of a plain vector load or store that a run may hold, and whether it is a load. -/
def plainShape (h : Hart) : Instr → Option (VShape × Bool)
  | .vld d n c f m => some (unitShape h d n c f m, true)
  | .vlds d n x c f m => some (stridedShape h d n x c f m, true)
  | .vldx d n i c f m => some (indexedShape h d n i c f m, true)
  | .vldseg d n e c f m => some (segmentShape h d n e c f m, true)
  | .vst r n c f m => some (unitShape h r n c f m, false)
  | .vsts r n x c f m => some (stridedShape h r n x c f m, false)
  | .vstx r n i c f m | .vstxu r n i c f m => some (indexedShape h r n i c f m, false)
  | .vstseg r n e c f m => some (segmentShape h r n e c f m, false)
  | _ => none

/-- Bytes that an element reaches: its number, which memory, first byte, length. -/
structure Place where
  elem : Nat
  space : Nat
  first : Nat
  len : Nat
  deriving DecidableEq, Repr

/-- The bytes an access reaches over the whole vl, masked-off elements left out. -/
def State.placesOf (s : State) (v : VShape) (load : Bool) : List Place :=
  let h := s.hart
  let bytes := (v.lead h + 7) / 8
  let place := fun (e : Nat) (va : Word) (n : Nat) =>
    match s.resolve h.ctx (if load then .load else .store) va with
    | .ok (.device pa) => some { elem := e, space := 0, first := pa, len := n : Place }
    | .ok (.bank b off) => some { elem := e, space := 1, first := b * 0x40000 + off, len := n }
    | .ok (.remote q off) => some { elem := e, space := q + 2, first := off, len := n }
    | _ => none
  ((List.range h.vlen).filter fun e => (h.getP v.mask).getLsbD e).flatMap fun e =>
    (v.fieldsAt h load e).filterMap (place e · bytes) ++ if load then (v.scalesAt h true e).filterMap (place e · 1) else []

/-- Whether two places have a byte in common. -/
def Place.meets (x y : Place) : Bool := x.space == y.space && decide (x.first < y.first + y.len ∧ y.first < x.first + x.len)

/-- Whether a load of a run must wait for a store before it in the run, since bytes of theirs overlap (R36; log 73). -/
def bytesMeet (stored loaded : List Place) : Bool := stored.any fun x => loaded.any fun y => x.meets y

/-- Whether a store of a run must wait for a load before it in the run: an element of the store writes bytes that a later element of
the load reads, so a stop between the two would have the resumed load see them (R33, R36, R39; log 73). -/
def overtakes (loaded stored : List Place) : Bool := loaded.any fun x => stored.any fun y => decide (y.elem < x.elem) && x.meets y

/-- Scalar registers an instruction reads (R409). -/
def scalarReads : Instr → List Reg
  | .add _ a b | .sub _ a b | .and _ a b | .or _ a b | .xor _ a b | .sll _ a b | .srl _ a b | .sra _ a b | .slt _ a b
  | .sltu _ a b | .min _ a b | .max _ a b | .minu _ a b | .maxu _ a b | .addw _ a b | .subw _ a b | .mul _ a b | .mulh _ a b
  | .mulhu _ a b | .div _ a b | .divu _ a b | .rem _ a b | .remu _ a b | .beq a b _ | .bne a b _ | .blt a b _ | .bge a b _
  | .bltu a b _ | .bgeu a b _ | .fork a b | .invas a b _ _ | .bankcfg _ a b | .ldv _ a b _ | .vretire a b _ | .amoadd _ a b _
  | .amomin _ a b _ | .amomax _ a b _ | .amominu _ a b _ | .amomaxu _ a b _ | .amoand _ a b _ | .amoor _ a b _ | .amoxor _ a b _
  | .amoswap _ a b _ | .amoaddW _ a b _ | .amominW _ a b _ | .amomaxW _ a b _ | .amominuW _ a b _ | .amomaxuW _ a b _
  | .amoandW _ a b _ | .amoorW _ a b _ | .amoxorW _ a b _ | .amoswapW _ a b _ | .topkins a b _ | .mdrain a b _ => [a, b]
  | .clz _ a | .ctz _ a | .popc _ a | .sextb _ a | .sexth _ a | .sextw _ a | .zextw _ a | .bswap _ a | .addi _ a _ | .andi _ a _
  | .ori _ a _ | .xori _ a _ | .slti _ a _ | .sltiu _ a _ | .slli _ a _ | .srli _ a _ | .srai _ a _ | .ld _ a _ _ _
  | .ldu _ a _ _ _ | .jalr _ a _ | .barWait _ a _ | .barInit a _ | .uimask _ a | .csrw _ a _ | .csrs _ a _ | .csrc _ a _
  | .setvl _ a _ | .svset a _ | .launch _ a | .vrqry _ a _ | .vrdecl _ a | .vrfree _ a | .job _ a | .sxopen _ a _ | .sxsplit _ a _
  | .pfromx _ a _ | .mldb a | .mcfg a => [a]
  | .st s a _ _ _ => [s, a]
  | .strip n _ _ | .loop n _ => [n]
  | .barArrive _ b _ _ => [b]
  | .vpub v a b _ => [v, a, b]
  | .stream n b _ => [b, addrReg n]
  | .amocas d a b _ | .amocasW d a b _ => [d, a, b]
  | .vaddVx _ _ x _ | .vsubVx _ _ x _ | .vmulVx _ _ x _ | .vminVx _ _ x _ | .vmaxVx _ _ x _ | .vmergeVx _ _ x _ | .vbcastVx _ x _
  | .vandVx _ _ x _ | .vorVx _ _ x _ | .vxorVx _ _ x _ | .vsllVx _ _ x _ | .vsrlVx _ _ x _ | .vsraVx _ _ x _ | .vminuVx _ _ x _
  | .vmaxuVx _ _ x _ | .vmulhVx _ _ x _ | .vmulhuVx _ _ x _ | .vaddsVx _ _ x _ | .vsubsVx _ _ x _ | .vaddsuVx _ _ x _
  | .vsubsuVx _ _ x _ | .vsrarVx _ _ x _ | .vsrlrVx _ _ x _ | .vabsdVx _ _ x _ | .vfmaVx _ _ x _ | .vfmsVx _ _ x _
  | .vfnmaVx _ _ x _ | .vdivVx _ _ x _ | .vcmpeqVx _ _ x _ | .vcmpneVx _ _ x _ | .vcmpltVx _ _ x _ | .vcmpleVx _ _ x _
  | .vcmpltuVx _ _ x _ | .vcmpleuVx _ _ x _ | .vcmpunVx _ _ x _ | .pshl _ _ x | .pshr _ _ x | .vslide1up _ _ x _
  | .vslide1dn _ _ x _ | .vslideup _ _ x _ | .vslidedn _ _ x _ | .vmvsx _ x _ | .vtopk _ _ x _ | .vaccrd _ x _ | .vaccwr _ x _ => [x]
  | .vmvxs _ _ i _ => [i]
  | .vld _ n _ _ _ | .vldx _ n _ _ _ _ | .vldseg _ n _ _ _ _ | .vldb _ n _ _ _ _ | .vst _ n _ _ _ | .vstx _ n _ _ _ _
  | .vstxu _ n _ _ _ _ | .vstseg _ n _ _ _ _ | .vamoxAdd _ n _ _ _ | .vamoxAddu _ n _ _ _ | .vamoxMin _ n _ _ _
  | .vamoxMax _ n _ _ _ | .vamoxAnd _ n _ _ _ | .vamoxOr _ n _ _ _ | .vamoxXor _ n _ _ _ | .vamoxSwap _ n _ _ _ | .vpush _ n _ _
  | .vpop _ n _ _ => [addrReg n]
  | .vlds _ n s _ _ _ => [addrReg n, s]
  | .vsts _ n x _ _ _ => [addrReg n, x]
  | .vldv _ n v _ _ | .vstv _ n v _ => [addrReg n, v]
  | .mgather a b g _ _ => [a, b, g]
  | _ => []

/-- Predicates an instruction reads (R409). -/
def predReads : Instr → List Reg
  | .sxsend _ _ _ m | .sxsendNew _ _ _ m | .vadd _ _ _ m | .vsub _ _ _ m | .vmul _ _ _ m | .vmin _ _ _ m | .vmax _ _ _ m
  | .vabs _ _ m | .vneg _ _ m | .vmerge _ _ _ m | .vmv _ _ m | .vbcast _ _ m | .vaddVx _ _ _ m | .vsubVx _ _ _ m | .vmulVx _ _ _ m
  | .vminVx _ _ _ m | .vmaxVx _ _ _ m | .vmergeVx _ _ _ m | .vbcastVx _ _ m | .vand _ _ _ m | .vor _ _ _ m | .vxor _ _ _ m
  | .vsll _ _ _ m | .vsrl _ _ _ m | .vsra _ _ _ m | .vminu _ _ _ m | .vmaxu _ _ _ m | .vmulh _ _ _ m | .vmulhu _ _ _ m
  | .vadds _ _ _ m | .vsubs _ _ _ m | .vaddsu _ _ _ m | .vsubsu _ _ _ m | .vsrar _ _ _ m | .vsrlr _ _ _ m | .vdot2 _ _ _ m
  | .vabsd _ _ _ m | .vclz _ _ m | .vpopc _ _ m | .vandVx _ _ _ m | .vorVx _ _ _ m | .vxorVx _ _ _ m | .vsllVx _ _ _ m
  | .vsrlVx _ _ _ m | .vsraVx _ _ _ m | .vminuVx _ _ _ m | .vmaxuVx _ _ _ m | .vmulhVx _ _ _ m | .vmulhuVx _ _ _ m
  | .vaddsVx _ _ _ m | .vsubsVx _ _ _ m | .vaddsuVx _ _ _ m | .vsubsuVx _ _ _ m | .vsrarVx _ _ _ m | .vsrlrVx _ _ _ m
  | .vabsdVx _ _ _ m | .vandVi _ _ _ m | .vorVi _ _ _ m | .vxorVi _ _ _ m | .vsllVi _ _ _ m | .vsrlVi _ _ _ m | .vsraVi _ _ _ m
  | .vminuVi _ _ _ m | .vmaxuVi _ _ _ m | .vaddsVi _ _ _ m | .vsubsVi _ _ _ m | .vaddsuVi _ _ _ m | .vsubsuVi _ _ _ m
  | .vsrarVi _ _ _ m | .vsrlrVi _ _ _ m | .vfma _ _ _ m | .vfms _ _ _ m | .vfnma _ _ _ m | .vdiv _ _ _ m | .vsqrt _ _ m
  | .vrcp _ _ m | .vrsq _ _ m | .vexp2 _ _ m | .vlog2 _ _ m | .vtanh _ _ m | .vclass _ _ m | .vfmaVx _ _ _ m | .vfmsVx _ _ _ m
  | .vfnmaVx _ _ _ m | .vdivVx _ _ _ m | .vcmpeq _ _ _ m | .vcmpne _ _ _ m | .vcmplt _ _ _ m | .vcmple _ _ _ m | .vcmpltu _ _ _ m
  | .vcmpleu _ _ _ m | .vcmpun _ _ _ m | .vcmpeqVx _ _ _ m | .vcmpneVx _ _ _ m | .vcmpltVx _ _ _ m | .vcmpleVx _ _ _ m
  | .vcmpltuVx _ _ _ m | .vcmpleuVx _ _ _ m | .vcmpunVx _ _ _ m | .vslide1up _ _ _ m | .vslide1dn _ _ _ m | .vslideup _ _ _ m
  | .vslidedn _ _ _ m | .vgather _ _ _ m | .vcompress _ _ m | .vexpand _ _ m | .vrev _ _ m | .vhad _ _ _ m | .vzip _ _ _ m
  | .vunzip _ _ _ m | .vredsum _ _ _ m | .vredsumu _ _ _ m | .vredmax _ _ _ m | .vredmin _ _ _ m | .vscan _ _ _ m
  | .vscanf _ _ _ m | .vcvt _ _ _ _ m | .vcvts _ _ _ m | .vrand _ m | .vqscale _ _ _ m | .viota _ m | .vmvxs _ _ _ m
  | .vmvsx _ _ m | .vsort _ _ m | .vsortd _ _ m | .vseghead _ _ m | .vtopk _ _ _ m | .vaccrd _ _ m | .vaccwr _ _ m
  | .vld _ _ _ _ m | .vlds _ _ _ _ _ m | .vldx _ _ _ _ _ m | .vldseg _ _ _ _ _ m | .vst _ _ _ _ m | .vsts _ _ _ _ _ m
  | .vstx _ _ _ _ _ m | .vstxu _ _ _ _ _ m | .vstseg _ _ _ _ _ m | .vamoxAdd _ _ _ _ m | .vamoxAddu _ _ _ _ m
  | .vamoxMin _ _ _ _ m | .vamoxMax _ _ _ _ m | .vamoxAnd _ _ _ _ m | .vamoxOr _ _ _ _ m | .vamoxXor _ _ _ _ m
  | .vamoxSwap _ _ _ _ m | .vldv _ _ _ _ m | .vpush _ _ _ m | .vpop _ _ _ m => [m]
  | .vadc _ _ _ p | .vsbc _ _ _ p => [p]
  | .pand _ a b | .por _ a b | .pxor _ a b | .pandn _ a b => [a, b]
  | .pnot _ a | .pshl _ a _ | .pshr _ a _ | .pmv _ a | .pcnt _ a | .pfirst _ a | .plast _ a | .pmovx _ a _ => [a]
  | _ => []

/-- Instructions whose FP results are rounded under RMODE (R124). -/
def roundsByMode : Instr → Bool
  | .vadd _ _ _ _ | .vsub _ _ _ _ | .vmul _ _ _ _ | .vaddVx _ _ _ _ | .vsubVx _ _ _ _ | .vmulVx _ _ _ _ | .vfma _ _ _ _ | .vfms _ _ _ _
  | .vfnma _ _ _ _ | .vfmaVx _ _ _ _ | .vfmsVx _ _ _ _ | .vfnmaVx _ _ _ _ | .vdiv _ _ _ _ | .vdivVx _ _ _ _ | .vsqrt _ _ _
  | .vcvt _ _ _ _ _ | .vhad _ _ _ _ | .vredsum _ _ _ _ | .vredsumu _ _ _ _ | .vscan _ _ _ _ | .vscanf _ _ _ _ => true
  | _ => false

/-- The memory format of a vector access (R259). -/
def memFormat : Instr → Option MemFmt
  | .vld _ _ _ f _ | .vlds _ _ _ _ f _ | .vldx _ _ _ _ f _ | .vldseg _ _ _ _ f _ | .vldb _ _ _ _ f _ | .vst _ _ _ f _
  | .vsts _ _ _ _ f _ | .vstx _ _ _ _ f _ | .vstxu _ _ _ _ f _ | .vstseg _ _ _ _ f _ => some f
  | _ => none

/-- CSRs that an instruction uses without naming them: vl and the stop for a vector instruction, the rounding mode, the scale base, the
plane count, the random counter, the bumps, the declared scopes and the translation root of an access, what a return restores, and the
loop's at its last convoy (R39, R55, R60, R87, R124, R131, R135, R142, R191, R205, R214; log 91). -/
def Hart.implicitCsrs (h : Hart) (i : Instr) : List Csr :=
  let vector := (encode i).any fun n => vectorWord (BitVec.ofNat 32 n)
  let scaled := (memFormat i).any fun f => f != .native && f != .nested && f != .bf16
  (if vector then [.vl, .vstart, .vconv] else []) ++
    (if roundsByMode i && (vectorReads i).any (fun r => isFpTag (h.tag r)) then [.rmode] else []) ++
    (if scaled then [.bscale] else []) ++ (if memFormat i == some .nested && loadClass i then [.planes] else []) ++
    (if isRandom i then [.rngseed, .rngctr] else []) ++ (if accesses i then [.clscope, .asid, .troot] else []) ++
    (if h.st.lact && h.pc == h.csr.lend then [.lcount, .lstart, .lend] else []) ++
    match i with
    | .strip _ mask _ => .vl :: ((List.finRange 8).filter fun n => mask.getLsbD n.val).map Csr.bump
    | .eret => [.sepc, .scause]
    | .uiret => [.uiepc, .uicause]
    | .fork _ _ => [.asid, .troot]
    | _ => []

/-- Whether an instruction consumes the register that a word in the layout of R409 names. -/
def State.consumes (s : State) (i : Instr) (v : Word) : Bool :=
  let n := bits v.toNat 0 10
  let named := fun l : List Reg => l.any fun r => r.val == n
  let kind := bits v.toNat 10 3
  if kind = 0 then named (scalarReads i)
  else if kind = 1 then named (vectorReads i) || match i with
    | .sxsend _ _ _ _ | .sxsendNew _ _ _ _ => named (s.vectorUses i)
    | _ => false
  else if kind = 2 then named (predReads i)
  else if kind = 3 then
    match i with
    | .csrr _ c | .csrw _ _ c | .csrs _ _ c | .csrc _ _ c => c.code == n
    | i => (s.hart.implicitCsrs i).any fun c => c.code == n
  else named (s.vectorUses i)

end Sys2Proof.Machine
end

