-- ==== Sys2Proof/Machine/Convoy.lean ====
section
/-! DEFINITION. The issue of a convoy: fetch, judgement, its runs of elements, stops, retirement (R35-R40, R44, R55, R168, R192,
R407-R417, R421, R422, R436, R463; log 2). -/

namespace Sys2Proof.Machine

/-! ### Fetch (R35, R436) -/

/-- What fetching a convoy gives: its words, a cause at the word it was met at, or a page in transit. -/
inductive Fetched
  | words (l : List (BitVec 32))
  | fault (c : Cause) (a : Word)
  | transit
  deriving DecidableEq, Repr

/-- At most `n` words from an address on, up to the first that does not continue. -/
def State.fetchWords (s : State) : Nat → Word → Fetched
  | 0, _ => .words []
  | n + 1, a =>
    match s.fetch s.hart.ctx a with
    | .fault c => .fault c a
    | .transit => .transit
    | .word w =>
      if continues w then
        match s.fetchWords n (a + 4) with
        | .words l => .words (w :: l)
        | e => e
      else .words [w]

/-- The convoy at the pc of the hart in front. -/
def State.fetchConvoy (s : State) : Fetched := s.fetchWords 4 s.hart.pc

/-- The instruction a word holds. -/
noncomputable def instrOf (w : BitVec 32) : Option Instr := (decode w.toNat).toOption

/-! ### One instruction -/

/-- The hart with an instruction in issue: its word, its position, the start of its run, where the run stops. Its convoy has been
fetched, so that a trap's handler has been reached (R414). -/
def State.begin (s : State) (w : BitVec 32) (pos runPos : Nat) (lim : Option Nat) (draws : Nat) : State :=
  s.onHart fun h => { h with
    delivery := none
    iss := { flow := .seq, pos := pos, runPos := runPos, lim := lim, draws := draws, ir := w, judging := false } }

/-- The hart with an instruction that is only judged (R421). -/
def State.beginJudging (s : State) (w : BitVec 32) (pos runPos draws : Nat) : State :=
  (s.begin w pos runPos none draws).onHart fun h => { h with iss := { h.iss with judging := true } }

/-- Background loads that a test picks are written, oldest first (R224). -/
def State.settleVldbs (s : State) (p : State → PendingVldb → Bool) : Nat → State
  | 0 => s
  | n + 1 =>
    if s.hart.vldbs.any (p s) then (resultState (execVldbDataWrite s.hart.id s) s).settleVldbs p n else s

/-- The background loads that an instruction waits for are written: all before an access to memory, else those whose registers
it may name (R88, R224; log 65). -/
def State.settle (s : State) (w : BitVec 32) (i : Option Instr) : State :=
  if s.hart.vldbs.isEmpty then s
  else
    s.settleVldbs (fun s v => i.any accesses || s.mayName w i v.dest || s.mayName w i v.pred) s.hart.vldbs.length

/-- Bad data of a background load that an instruction must report: the lowest bad element (R268, R412). -/
def State.badUse (s : State) (i : Instr) : Option BadElem :=
  match i with
  | .waitc l _ _ _ => if l.val = 15 then none else s.hart.badV.head?
  | .exit => s.hart.badV.head?
  | i => s.hart.badV.find? fun b => (s.vectorUses i).contains b.reg

/-- The report of R268, by the cause of where the bytes were (R441): the instruction stops before it begins, and the load is not
reported again. -/
def State.reportBad (s : State) (b : BadElem) : State :=
  (s.onHart fun h => { h with badV := h.badV.filter fun x => x.reg != b.reg }).trap false 0 b.cause b.va

/-! ### Judgement (R421, R463) -/

/-- A judged instruction of a convoy: position, word, instruction, first position of its run, whether it reads a versioned region
against deterministic mode. -/
structure Slot where
  pos : Nat
  word : BitVec 32
  instr : Instr
  runPos : Nat
  barred : Bool

/-- A check that failed: position, word, cause, STVAL. -/
structure Verdict where
  pos : Nat
  word : BitVec 32
  cause : Cause
  stval : Word

/-- Whether a cause is one of the six checks of R421. -/
def Cause.isCheck : Cause → Bool
  | .illegal | .engine | .privilege | .tag | .sxPayload | .deterministic | .vectorLength => true
  | _ => false

/-- Bytes of an instruction's elements, if it is a plain vector load (or store). -/
def State.bytesOf (s : State) (i : Instr) (load : Bool) : List Place :=
  match plainShape s.hart i with
  | some (v, l) => if l = load then s.placesOf v l else []
  | none => []

/-- Whether a plain vector access, or a background load, reads a versioned region against deterministic mode (R149, R262). -/
def State.barred (s : State) (i : Instr) : Bool :=
  match i, plainShape s.hart i with
  | .vldb d n x c f _, _ => s.forbidden (indexedShape s.hart d n x c f 0) true (List.range s.hart.vlen)
  | _, some (v, load) => s.forbidden v load (s.hart.active v.mask)
  | _, none => false

/-- The bytes that the words of a run judged so far load and store. -/
structure RunBytes where
  loaded : List Place
  stored : List Place
  deriving DecidableEq, Repr

def RunBytes.none : RunBytes := { loaded := [], stored := [] }

/-- Whether an access cannot join a run: it loads what a store of the run writes, or stores what a later element of a load of the run
reads (R36; log 73). -/
def RunBytes.splits (b : RunBytes) (loads stores : List Place) : Bool := bytesMeet b.stored loads || overtakes b.loaded stores

/-- Judges the words of a convoy in position order by the six checks; each sees tags and registers as the earlier ones leave them,
and a word that stands alone changes nothing for the later (R421). A load that must see an earlier store of the run, and a store
that an earlier load of the run must not see, begin a run of their own (R36; log 73): `seen` holds the run's accesses. -/
noncomputable def State.judge (s : State) (start draws : Nat) (seen : RunBytes) : List (Nat × BitVec 32) → Except Verdict (List Slot)
  | [] => .ok []
  | (p, w) :: l =>
    match instrOf w with
    | none => .error { pos := p, word := w, cause := .illegal, stval := w.zeroExtend 64 }
    | some i =>
      let s1 := s.settle w (some i)
      let alone := runsAlone s1.hart i
      let (loads, stores) := (s1.bytesOf i true, s1.bytesOf i false)
      let run := if alone || seen.splits loads stores then p else start
      let before := if alone ∨ run ≠ start then RunBytes.none else seen
      let t := resultState (exec i (s1.beginJudging w p run draws)) s1
      let kept := if alone then RunBytes.none else { loaded := before.loaded ++ loads, stored := before.stored ++ stores }
      let rest := fun (u : State) =>
        (u.judge (if alone then p + 1 else run) (draws + (isRandom i).toNat) kept l).map fun r =>
          { pos := p, word := w, instr := i, runPos := run, barred := (s1.begin w p run none draws).barred i : Slot } :: r
      match t.hart.iss.flow with
      | .trapped _ _ _ c v => if c.isCheck then .error { pos := p, word := w, cause := c, stval := v } else rest s1
      | .seq => rest (if vectorWord w then t else s1)
      | _ => rest s1

/-! ### Runs (R36-R40, R263) -/

/-- Where a run was stopped: the instruction, and the state its meaning left. -/
structure Halted where
  slot : Slot
  state : State

/-- Runs instructions over the elements below a limit, up to the first that stops. -/
noncomputable def State.runSlots (s : State) (lim : Option Nat) (draws : Nat) : List Slot → Option Halted × State
  | [] => (none, s)
  | x :: l =>
    let s1 := s.settle x.word (some x.instr)
    let t := resultState (exec x.instr (s1.begin x.word x.pos x.runPos lim draws)) s1
    match t.hart.iss.flow with
    | .seq | .jump _ => t.runSlots lim (draws + (isRandom x.instr).toNat) l
    | _ => (some { slot := x, state := t }, s1)

/-- The element a stopped instruction stopped at. -/
def Halted.elem (x : Halted) : Nat :=
  match x.state.hart.iss.flow with
  | .trapped _ _ e _ _ => e
  | .held e => e
  | _ => 0

/-- Repeats a run from its start with each stop as the new limit, until nothing below it stops: the lowest element wins, then
the lowest position (R38). A stop at the run's first element leaves nothing to repeat. -/
noncomputable def State.settleRun (s : State) (draws : Nat) (l : List Slot) : Nat → Option Nat → Option Halted → Option Halted × State
  | 0, lim, last => (last, (s.runSlots lim draws l).2)
  | n + 1, lim, last =>
    match s.runSlots lim draws l with
    | (none, t) => (last, t)
    | (some x, _) =>
      if x.elem ≤ s.hart.resumeAt x.slot.runPos then (some x, s) else s.settleRun draws l n (some x.elem) (some x)

/-- Applies the stop of a run: `s` is the state at its start, `t` the one with the elements below the stop committed. -/
def State.stopRun (s t : State) (draws : Nat) (x : Halted) : State :=
  let u := t.begin x.slot.word x.slot.pos x.slot.runPos none draws
  match x.state.hart.iss.flow with
  | .trapped b _ e c v => u.trap b e c v
  | .held e =>
    let f := if t.fabric = s.fabric then x.state.fabric else t.fabric
    ({ u with fabric := f } : State).onHart fun h =>
      ({ h with
        wait := x.state.hart.wait
        csr := { h.csr with vconv := BitVec.ofNat 2 x.slot.runPos, vstart := BitVec.ofNat 10 e } }).setFlow (.held e)
  | f => u.onHart (·.setFlow f)

/-- An instruction that stops by itself. -/
noncomputable def State.runAlone (s : State) (draws : Nat) (x : Slot) : State :=
  let s1 := s.settle x.word (some x.instr)
  let t := resultState (exec x.instr (s1.begin x.word x.pos x.pos none draws)) s1
  match t.hart.iss.flow with
  | .held e => t.onHart fun h => { h with csr := { h.csr with vconv := BitVec.ofNat 2 x.pos, vstart := BitVec.ofNat 10 e } }
  | _ => t

/-- The first instruction of a run that must report bad data (R268). -/
def State.badSlot (s : State) (l : List Slot) : Option (Slot × BadElem) :=
  l.findSome? fun x => (s.badUse x.instr).map fun b => (x, b)

/-- Background loads that the words of a run may depend on are written before it begins. -/
def State.settleRunLoads (s : State) (l : List Slot) : State := l.foldl (fun s x => s.settle x.word (some x.instr)) s

/-- The element at which a pre-emption stops the run that holds a position, between two element groups (R38, R364). -/
def Hart.cutAt (h : Hart) (l : List Slot) : Option Nat :=
  h.cut.bind fun c =>
    let e := 8 * (c.2.val + 1)
    let first := h.resumeAt ((l.head?.map (·.runPos)).getD 0)
    if (l.any fun x => x.pos == c.1.val) ∧ first < e ∧ e < h.vlen then some e else none

/-- The convoy stops for a pre-emption at an element of a run, or before a whole instruction at element 0 (R38). -/
def Hart.stopForCut (h : Hart) (run e : Nat) : Hart :=
  { h with wait := none, delivery := none, csr := { h.csr with vconv := BitVec.ofNat 2 run, vstart := BitVec.ofNat 10 e } }.setFlow (.cut e)

/-- A run of element-wise instructions. -/
noncomputable def State.runElements (s : State) (draws : Nat) (l : List Slot) : State :=
  let run := (l.head?.map (·.runPos)).getD 0
  let cut := s.hart.cutAt l
  match s.settleRun draws l (l.length + 1) cut none with
  | (none, t) =>
    match cut with
    | none => t.onHart (·.setFlow .seq)
    | some e => t.onHart (·.stopForCut run e)
  | (some x, t) => s.stopRun t draws x

/-- Whether a pre-emption stops the convoy before a whole instruction, which has not begun (R38, R364). -/
def Hart.cutBefore (h : Hart) (x : Slot) : Bool := h.cut.any (fun c => c.1.val == x.pos) && h.resumeAt x.pos == 0

/-- Runs one run of a convoy. -/
noncomputable def State.runOne (s : State) (draws : Nat) (l : List Slot) : State :=
  let s1 := s.settleRunLoads l
  match s1.badSlot l with
  | some (x, b) => (s1.begin x.word x.pos x.runPos none draws).reportBad b
  | none =>
    match l with
    | [x] =>
      if runsAlone s1.hart x.instr then
        if s1.hart.cutBefore x then s1.onHart (·.stopForCut x.pos 0) else s1.runAlone draws x
      else s1.runElements draws l
    | l => s1.runElements draws l

/-- Slots grouped by run. -/
def groupRuns : List Slot → List (List Slot)
  | [] => []
  | x :: l =>
    match groupRuns l with
    | (y :: g) :: rest => if x.runPos = y.runPos then (x :: y :: g) :: rest else [x] :: (y :: g) :: rest
    | rest => [x] :: rest

/-- Runs in order, up to the first that does not complete. -/
noncomputable def State.runAll (s : State) (draws : Nat) : List (List Slot) → State
  | [] => s.onHart (·.setFlow .seq)
  | l :: rest =>
    let t := s.runOne draws l
    match t.hart.iss.flow with
    | .seq => t.runAll (draws + (l.filter fun x => isRandom x.instr).length) rest
    | _ => t

/-- Random instructions among words (R142). -/
noncomputable def randoms (ws : List (BitVec 32)) : Nat := (ws.filter fun w => (instrOf w).any isRandom).length

/-- A vector convoy: judged from position VCONV on, then composed, then run (R36-R40, R262, R421, R463). A stop whose element is at
or above vl leaves nothing more to do (R415). -/
noncomputable def State.runConvoy (s : State) (ws : List (BitVec 32)) : State :=
  let c := s.hart.csr.vconv.toNat
  let skipped := randoms (ws.take c)
  match s.judge c skipped RunBytes.none ((positions ws).drop c) with
  | .error v => (s.begin v.word v.pos v.pos none 0).trap true 0 v.cause v.stval
  | .ok slots =>
    match offence c (ws.map fun w => (w, instrOf w)), slots.find? (·.barred) with
    | some p, _ => (s.begin (ws.headD 0) 0 0 none 0).trap true 0 .convoy (s.hart.pc + BitVec.ofNat 64 (4 * p))
    | none, some x => (s.begin x.word x.pos x.runPos none 0).trapWord .deterministic
    | none, none =>
      if s.hart.csr.vstart ≠ 0 ∧ s.hart.vlen ≤ s.hart.csr.vstart.toNat then s.onHart (·.setFlow .seq)
      else s.runAll skipped (groupRuns slots)

/-! ### Retirement (R39, R44, R55, R142, R192, R417) -/

/-- Whether an instruction leaves VCONV and VSTART for the next convoy: ERET, UIRET, a CSR write to one of them (R214, R315, R416). -/
def keepsStop : Instr → Bool
  | .eret | .uiret => true
  | .csrw _ _ c => c == .vstart || c == .vconv
  | .csrs _ a c | .csrc _ a c => a != 0 && (c == .vstart || c == .vconv)
  | _ => false

/-- The end test of an active loop at its last convoy; a taken transfer wins over it (R55, R192). -/
def Hart.endTest (h : Hart) (pc seq : Word) : Word × Hart :=
  if h.st.lact ∧ pc = h.csr.lend then
    if 1 < h.csr.lcount.toNat then (h.csr.lstart, { h with csr := { h.csr with lcount := h.csr.lcount - 1 } })
    else (seq, { h with csr := { h.csr with lcount := 0 }, st := { h.st with lact := false } })
  else (seq, h)

/-- The breakpoint skip once the convoy at an address has issued (R417). -/
def Hart.skipped (h : Hart) (pc : Word) : Option Word := if h.skipBreak = some pc then none else h.skipBreak

/-- What retirement of a convoy of `n` instructions changes in its hart. -/
def Hart.retire (h : Hart) (next : Word) (jumped kept eret : Bool) (n draws : Nat) : Hart :=
  let back := if h.st.uih then none else h.paused.bind fun p => if p.1 = next then some p.2 else none
  ((({ h with
    pc := next
    arrived := jumped
    skipBreak := if eret then h.skipBreak else h.skipped h.pc
    wait := back
    paused := if h.st.uih then h.paused else none
    abandoned := h.abandoned.filter fun e => h.st.priv || (if e.uih = h.st.uih then e.pc == next else h.st.uih)
    csr := { h.csr with
      vconv := if kept then h.csr.vconv else 0
      vstart := if kept then h.csr.vstart else 0
      instret := h.csr.instret + BitVec.ofNat 64 n
      rngctr := h.csr.rngctr + BitVec.ofNat 32 draws } }).count 0x01 1).count 0x02 n)

/-- Attached members of a gang that have gone past a convoy detach (R44). -/
def State.detachPast (s : State) (g : GangId) (n : Nat) : State :=
  s.onMembers g fun h => if h.st.att ∧ n < h.streamNo then { h with st := { h.st with att := false } } else h

/-- The attached stream at a retirement: the pilot's next address is the stream's, for every convoy it retires first; a core whose
own next address differs detaches (R41, R44). `seq` is the address that follows the convoy. -/
def State.follow (s : State) (next seq : Word) : State :=
  let h := s.hart
  let g := gangOf h.id
  if h.isControl ∨ ¬ h.st.att ∨ (s.gang? g).isNone then s
  else
    let step := fun (s : State) => s.onHart fun h => { h with streamNo := h.streamNo + 1 }
    let leave := s.onHart fun h => { h with st := { h.st with att := false } }
    match s.resolved? g h.streamNo with
    | some a => if a = next then step s else leave
    | none =>
      if (s.pilot? g).map (·.id) = some h.id then
        let s1 := s.resolve! g h.streamNo next
        step (if next = seq then s1 else s1.detachPast g h.streamNo)
      else if next = seq then step s else leave

/-- Single step: a convoy that retired at user privilege is followed by a trap (R417). -/
def State.singleStep (s : State) (pc : Word) (user : Bool) : State :=
  if user ∧ ¬ s.hart.isControl ∧ s.parts[s.hart.part].policy ∧ s.hart.dbg.ctl.getLsbD 2 then
    let s1 := s.onHart fun h => { h with dbg := { h.dbg with hit := 0 } }
    (s1.enterTrap s1.hart.pc 0 0 false false Cause.breakpoint.code pc).onHart (·.setFlow (.trapped false 0 0 .breakpoint pc))
  else s

/-- A convoy retires: `s` is the state before it issued, `t` the one its instructions left. -/
def State.retire (s t : State) (next : Word) (jumped kept eret : Bool) (n draws : Nat) : State :=
  let (dest, h1) := if jumped then (next, t.hart) else t.hart.endTest s.hart.pc next
  let t1 : State := { t with hart := h1.retire dest jumped kept eret n draws }
  let t2 := if t1.hart.st.uih then t1.orphan else t1.orphan.unshelve t1.hart.wait.isSome
  ((t2.follow dest (s.hart.pc + BitVec.ofNat 64 (4 * n))).singleStep s.hart.pc (! s.hart.st.priv))

/-- Whether an instruction began to wait for a version: it did not wait before, or another of its convoy did (R418). -/
def newVersionWait (before after : Option Wait) : Bool :=
  after.any fun w => (w.kind == .versionLoad || w.kind == .versionRefused) && before.all fun b => ! b.kind.version || b.pos != w.pos

/-- What every issue of a convoy leaves behind, whatever became of it; the turn at a bank is that of a convoy that is still held. -/
def Hart.issued (h : Hart) : Hart :=
  { h with
    first := false
    due := none
    restored := false
    cut := none
    turn := match h.iss.flow with | .held _ => h.turn | _ => none }

/-- Ends the issue of a convoy by what it did with control (R36-R40, R407). A convoy that traps does not retire and is not counted in
INSTRET, SYSCALL and BRK included (log 84). -/
def State.finish (s t : State) (kept eret : Bool) (n draws : Nat) : State :=
  let u := match t.hart.iss.flow with
    | .seq => s.retire t (s.hart.pc + BitVec.ofNat 64 (4 * n)) false kept eret n draws
    | .jump a => s.retire t a true kept eret n draws
    | .trapped _ _ _ k _ =>
      (t.blame (t.clusterOf (gangOf t.hart.id)) k.code).orphan.onHart fun h => { h with skipBreak := h.skipped s.hart.pc }
    | .held _ => t.onHart fun h =>
      { (if newVersionWait s.hart.wait h.wait then h.count 0x08 1 else h) with deficit := s.hart.deficit }
    | .cut _ => t.onHart fun h => { h with deficit := s.hart.deficit }
    | .ended => t.orphan
  u.onHart Hart.issued

/-! ### The issue of a convoy -/

/-- Beats of a hart's instructions, each with the tags that the earlier ones leave (R225). -/
noncomputable def Hart.beatsOf (h : Hart) : List (BitVec 32) → Nat
  | [] => 0
  | w :: ws =>
    match instrOf w with
    | none => h.beatsOf ws
    | some i => h.beats i + (h.retag i).beatsOf ws

/-- Beats a convoy charges (R225, R362). -/
noncomputable def State.beatsOf (s : State) (ws : List (BitVec 32)) : Nat := s.hart.beatsOf ws

/-- The charge of an issue: the deficit falls, and event 0x03 counts it (R362, R418). -/
def State.charged (s : State) (beats : Nat) : State :=
  s.onHart fun h => { h with deficit := max (h.deficit - max 1 (beats : Int)) (-(s.quantum h + 32)) }.count 0x03 (max 1 beats)

/-- The only word of a convoy that must report bad data of a background load; what its own judgement finds comes first (R268, R421; log
92). -/
noncomputable def State.reportOrJudge (s : State) (w : BitVec 32) (i : Instr) (b : BadElem) : State :=
  let report := (s.begin w 0 0 none 0).reportBad b
  match (resultState (exec i (s.beginJudging w 0 0 0)) s).hart.iss.flow with
  | .trapped _ _ _ c v => if c.isCheck then (s.begin w 0 0 none 0).trap true 0 c v else report
  | _ => report

/-- The only word of a convoy: its meaning, then the end of its issue. -/
noncomputable def State.issueWord (s : State) (w : BitVec 32) : Result :=
  let i? := instrOf w
  let s1 := (s.settle w i?).charged (s.beatsOf [w])
  match i? with
  | none => .next (s.finish ((s1.begin w 0 0 none 0).trapWord .illegal) false false 1 0)
  | some i =>
    match s1.badUse i with
    | some b => .next (s.finish (s1.reportOrJudge w i b) false false 1 0)
    | none =>
      match exec i (s1.begin w 0 0 none 0) with
      | .next t => .next (s.finish t (keepsStop i) (i == .eret) 1 (isRandom i).toNat)
      | .fault f => .fault f
      | .refused r => .refused r

/-- Several words, or one vector word. -/
noncomputable def State.issueMany (s : State) (ws : List (BitVec 32)) : State :=
  s.finish ((s.charged (s.beatsOf ws)).runConvoy ws) false false ws.length (randoms ws)

/-- Whether the words of a convoy are issued by `issueWord`: one word, and no vector word that resumes at a stop or that a pre-emption
may stop. -/
def State.plain (s : State) (ws : List (BitVec 32)) : Bool :=
  ws.length == 1 && (! vectorWord (ws.headD 0) || (s.hart.csr.vconv == 0 && s.hart.csr.vstart == 0 && s.hart.cut.isNone))

/-- Comparators that match the convoy at the pc (R164, R417). -/
def State.breakHits (s : State) : BitVec 4 :=
  let h := s.hart
  if h.isControl ∨ h.st.priv ∨ h.skipBreak = some h.pc ∨ ¬ s.parts[h.part].policy ∨ ¬ h.dbg.ctl.getLsbD 0 then 0
  else
    let n := (List.finRange 4).foldl (fun n i =>
      let b := h.dbg.bkaddr[i]
      if b.getLsbD 0 ∧ convoyAddr b = h.pc then n + 2 ^ i.val else n) 0
    BitVec.ofNat 4 n

/-- Whether a control transfer has reached a word that is not the first of its convoy (R35, R422). -/
def State.midConvoy (s : State) : Bool :=
  s.hart.arrived && match s.fetch s.hart.ctx (s.hart.pc - 4) with
    | .word w => continues w
    | _ => false

/-- A trap before the convoy issues. -/
def State.early (s : State) (c : Cause) (v : Word) : Result :=
  .next (s.finish ((s.begin 0 0 0 none 0).trap true 0 c v) false false 1 0)

/-- The first instruction of a convoy that consumes the register found with a parity error (R409). -/
noncomputable def State.parityUse (s : State) (ws : List (BitVec 32)) : Option (Nat × BitVec 32 × Word) :=
  s.hart.parityAt.bind fun v =>
    (((positions ws).drop s.hart.csr.vconv.toNat).find? fun x => (instrOf x.2).any (s.consumes · v)).map fun x => (x.1, x.2, v)

/-- The report of a parity error to the instruction that consumes it; the register's value stays unreliable (R409, R412). -/
def State.reportParity (s : State) (pos : Nat) (w : BitVec 32) (v : Word) : State :=
  s.finish (((s.onHart fun h => { h with parityAt := none }).begin w pos pos none 0).trap true 0 .parity v) false false 1 0

/-- A fetch that meets a page in transit: the hart waits at its convoy until the page is there (R436). -/
def State.issueFetch (s : State) : State :=
  s.fetchWait.onHart fun h => (h.setFlow (.held 0)).issued

/-- A fetch fault: the strand aborts where it was to fetch its handler's first convoy (R414); else it traps, STVAL being the convoy's
address for a page that is not present, the word's for any other cause (R59, R409, R412, R436). -/
def State.fetchFault (s : State) (c : Cause) (a : Word) : Result :=
  match s.hart.delivery with
  | some k =>
    if c.abortsDelivery then .next (s.onHart fun h => ((h.startAbort k).setFlow (.held 0)).issued)
    else s.early c (if c = .notPresent then s.hart.pc else a)
  | none => s.early c (if c = .notPresent then s.hart.pc else a)

/-- The hart in front issues the convoy at its pc. -/
noncomputable def State.issue (s : State) : Result :=
  match s.fetchConvoy with
  | .fault c a => s.fetchFault c a
  | .transit => .next s.issueFetch
  | .words ws =>
    if s.midConvoy then s.early .convoy s.hart.pc
    else if s.breakHits ≠ 0 then (s.onHart fun h => { h with dbg := { h.dbg with hit := s.breakHits } }).early .breakpoint s.hart.pc
    else
      match s.parityUse ws with
      | some (pos, w, v) => .next (s.reportParity pos w v)
      | none => if s.plain ws then s.issueWord (ws.headD 0) else .next (s.issueMany ws)

/-! ### Strand abort (R414) -/

/-- An aborted strand ends as EXIT does, once its loads and stores counters are 0, and its queue's status block is written. -/
def State.abortStrand (s : State) (c : Nat) (vec : Word) : State :=
  if s.hart.cnt.loads = 0 ∧ s.hart.cnt.stores = 0 then
    let l := s.hart.id.launch
    let t := (s.orphan.endStrand).onHart Hart.issued
    match t.launches.find? fun x => x.id == l with
    | none => t
    | some x =>
      ({ t with launches := t.launches.map fun y : Launch => if y.id = l then { y with aborted := true } else y }).onQueue x.queue
        fun k => k.fault 6 c vec x.seq
  else s.onHart fun h => { h.setFlow (.held 0) with first := false }

/-! ### What the hart in front does next (R315, R410, R411, R414) -/

/-- Whether a result is a trap found before the convoy began. -/
def atIssue : Result → Bool
  | .next t => match t.hart.iss.flow with | .trapped b _ _ _ _ => b | _ => false
  | _ => false

/-- Reports and notifications come before the convoy, a trap at its issue before them (R411, R415). -/
noncomputable def State.actReady (s : State) : Result :=
  if s.hart.reportDue then
    if s.hart.wait.isNone ∧ atIssue s.issue then s.issue else .next (s.takeReport.onHart Hart.issued)
  else if s.hart.notifyDue then .next (s.takeNotification.onHart Hart.issued)
  else s.issue

/-- What the hart in front does: it ends, it takes the trap that ends its wait, or it goes on. A versioned access whose wait has
ended by its limit issues again and traps at the granule it still waits for (R444, R445). -/
noncomputable def State.act (s : State) : Result :=
  match s.hart.phase with
  | .aborting c vec => .next (s.abortStrand c vec)
  | _ =>
    match s.hart.wait.bind fun w => w.expired.map fun c => (w, c) with
    | some (w, c) =>
      if w.kind.version then (s.onHart fun h => { h with due := some c, wait := none }).issue
      else .next ((s.orphan.takeExpiry w c).onHart Hart.issued)
    | none => s.actReady

end Sys2Proof.Machine
end

