-- ==== Sys2Proof/Machine/Progress.lean ====
section
/-! DEFINITION. Which hart issues, and what the module does by itself when none does; the state that fetches a given word (R28-R34,
R42, R52, R98, R355-R363, R372, R394; log 2). -/

namespace Sys2Proof.Machine

/-! ### May the hart in front issue? -/

/-- What the convoy at the pc charges (R362). -/
noncomputable def State.charge (s : State) : Nat :=
  match s.fetchConvoy with
  | .words ws => max 1 (s.beatsOf ws)
  | _ => 1

/-- Whether the last attempt to issue was held. -/
def Hart.isHeld (h : Hart) : Bool := match h.iss.flow with | .held _ => true | _ => false

/-- Whether the visit of the hart in front goes on (R362). -/
noncomputable def State.visiting (s : State) : Bool :=
  s.hart.first || (! s.hart.isHeld && decide ((s.charge : Int) ≤ s.hart.deficit))

/-- Whether the hart in front may issue now (R34, R42, R44, R394). -/
noncomputable def State.mayIssue (s : State) : Bool :=
  ! s.golium.thold && s.ready s.hart && ! s.streamHeld s.hart && s.visiting

/-! ### Steps of the module's other units -/

/-- Takes the first step that changes more than the count of free values. -/
def State.firstChange (s : State) : List (State → Result) → Option State
  | [] => none
  | f :: l =>
    match f s with
    | .next t => if { t with draws := s.draws } = s then s.firstChange l else some t
    | _ => s.firstChange l

/-- Whether the walk a hart waits for would find its page (R434, R436). -/
def State.pageThere (s : State) (h : Hart) (w : Wait) : Bool :=
  match w.kind with
  | .page => s.resolve h.ctx .load w.addr != .transit
  | .fetch => s.resolve h.ctx .fetch w.addr != .transit
  | _ => false

/-- Steps that end what strands and forked programs have begun, or wait for. -/
def State.strandSteps (s : State) : List (State → Result) :=
  s.allHarts.flatMap fun h =>
    (if h.pending.isEmpty then [] else [execStorePerformed h.id]) ++
    (if h.vldbs.isEmpty then [] else [execVldbDataWrite h.id]) ++
    match h.wait with
    | some w =>
      if w.met then []
      else if s.pageThere h w then [execTransitWalkRetry h.id]
      else if w.kind = .versionRefused then [execWaitListRetry h.id]
      else []
    | none => []

/-- Loads that wait for a version which has come are woken, one at a time in the order of their list (R116). -/
def State.versionSteps (s : State) : List (State → Result) :=
  (s.allParked.filter s.versionCame).filterMap fun e => (s.regionAt e.part e.pa).map fun x => execVersionWaitWake x.1 x.2.2

/-- Registrations of barrier arrivals. -/
def State.barrierSteps (s : State) : List (State → Result) :=
  s.barriers.flatMap fun b => b.pending.map fun a => execBarrierRegistration a.strand b.key.id

/-- Steps of control cores and matrix engines. -/
def clusterSteps : List (State → Result) :=
  (List.finRange 64).flatMap fun c => [execForkedProgramStart c, execMatrixInstructionBegin c, execMatrixInstructionComplete c]

/-- Steps of one job. -/
def jobSteps (n : Nat) : List (State → Result) :=
  [execCopy n, execTile n, execGather n, execScatter n, execPagegather n, execFill n, execDigest n, execJobCompletion n]

/-- Whether a strand may still join a session of this package, whose round does not complete before it had its turn: one that does not
wait, in its slot, parked or swapped out, or one that has not started (log 77). -/
def State.maySoonJoin (s : State) (x : Session) : Bool :=
  (s.allHarts.any fun h => h.engine == .strand && h.phase == .running && x.lacks h.id && ! s.waiting h) || s.lacksGang x

/-- Steps of the sorted exchange. -/
def State.sessionSteps (s : State) (x : Session) : List (State → Result) :=
  (if s.maySoonJoin x then [] else [execSxRoundComplete x.part x.sid]) ++
    x.receivers.map fun r => execSxRecordDelivery x.part x.sid r.index

/-- Bank switches of a gang. -/
def Gang.bankSteps (g : Gang) : List (State → Result) :=
  ((List.finRange 44).filter fun b => match g.banks[b.val]? with | some k => k.switching.isSome || ! k.queued.isEmpty | none => false).flatMap
    fun b => [execBankSwitchBegin g.id b, execBankSwitchEnd g.id b]

/-- Steps of queues, launches and lists. -/
def State.queueSteps (s : State) : List (State → Result) :=
  ((List.finRange 64).filter fun q => s.queues[q].enabled || s.queues[q].owed).map execRingEntryTake ++
    s.launches.flatMap (fun l => match l.state with
      | .queued => [execItemStart l.item]
      | .running => [execLaunchComplete l.id]
      | _ => []) ++
    (s.queues.toList.flatMap fun k => k.lists.flatMap fun l =>
      (l.nodes.filter fun n => n.kind == 2 && n.state == .running).map fun n => execVersionWaitNodeComplete l.id n.addr)

/-- Placement and restoring of gangs, and what takes their slots. -/
def State.placeSteps (s : State) : List (State → Result) :=
  (s.allHarts.filter fun h => h.saved != .resident).map (fun h => execStrandRestore h.id) ++
    (s.gangs.filter Gang.wants).flatMap (fun g =>
      (List.finRange 64).flatMap fun c => (List.finRange 4).map fun k => execGangResident g.id c k) ++
    (s.gangs.filter fun g => g.slot.isSome).flatMap fun g => [execPreEmption g.id, execSwapOnWait g.id]

/-- Requests of other ranks that wait here and can go on. -/
def State.spanSteps (s : State) : List (State → Result) :=
  let goesOn := fun e : SpanWait =>
    match s.serve e.arrival with
    | .wait k => e.kind == .versionRefused && s.listed k (s.exportResolve (s.spanCtx e.arrival.part) .load e.arrival.req.offset) == .versionLoad
    | .stall => false
    | _ => true
  (s.fabric.waits.filter fun e => e.ripe && goesOn e).map fun e =>
    execSpanRequest e.arrival.part { port := e.arrival.port, fails := 0 } e.arrival.req

/-- Clusters with grounds to be fenced drain, and are fenced once they hold nothing (R458). -/
def State.fenceSteps (s : State) : List (State → Result) :=
  ((List.finRange 64).filter fun c => s.clusters[c].parityFound || decide (3 ≤ s.clusters[c].bankFaults)).map execClusterDrain ++
    ((List.finRange 64).filter s.drained).map execClusterFence

/-- Ports that have retrained are held against their limit, and pages in which a line was rewritten are retired (R443, R458, R459). -/
def State.healthSteps (s : State) : List (State → Result) :=
  (if s.fabric.retrained then [fun s => .next s.checkLimits] else []) ++ s.rewritten.map fun l => execPageRetire (l / 65536)

/-- Steps that come last: horizons, zeroed grants, cores that hold their gang, what Golium takes out of service. -/
def State.lateSteps (s : State) : List (State → Result) :=
  (positions s.regions).map (fun x => execHorizonPropagation x.1 x.2.count) ++
    (List.finRange 8).map execPartitionEnableComplete ++
    (s.allHarts.filter fun h => h.st.att && s.waiting h).map (fun h => execDriftEviction h.id) ++ s.fenceSteps ++ s.healthSteps

/-- Every step the module can take by itself. -/
def State.steps (s : State) : List (State → Result) :=
  s.strandSteps ++ s.versionSteps ++ s.barrierSteps ++ clusterSteps ++ (s.jobs.filter fun j => ! j.complete).flatMap (fun j => jobSteps j.item) ++
    s.sessions.flatMap s.sessionSteps ++ s.gangs.flatMap Gang.bankSteps ++ s.queueSteps ++ s.placeSteps ++ s.spanSteps ++ s.lateSteps

/-! ### The next hart -/

/-- Brings a control core's program in front, for one convoy. -/
def State.focusProgram (s : State) (h : Hart) : State :=
  { s with
    hart := { h with first := true, deficit := 0 }
    harts := (s.harts.filter fun x => ! decide (x.engine = h.engine)) ++ s.hart.kept }

/-- The hart that follows seat `n` in the cyclic order of the seats: the next above it, or the lowest. -/
def State.nextSeat (s : State) (n : Nat) (l : List Hart) : Option Hart :=
  let least := fun (l : List Hart) => l.foldl (fun best h => match best with
    | none => some h
    | some b => if s.seatOf h < s.seatOf b then some h else some b) none
  (least (l.filter fun h => n < s.seatOf h)).orElse fun _ => least l

/-- Whether the visits that lead from seat `n` to seat `m` pass a seat. -/
def passes (n m k : Nat) : Bool := if n < m then decide (n < k ∧ k < m) else decide (n < k ∨ k < m)

/-- The visits up to seat `m` find waiting and parked strands, whose deficit becomes 0 (R362). -/
def State.passOver (s : State) (m : Nat) : State :=
  let idle := fun h : Hart =>
    if h.engine = .strand ∧ passes s.seat m (s.seatOf h) ∧ (s.waiting h ∨ h.saved = .parked) then { h with deficit := 0 } else h
  { s with seat := m, hart := idle s.hart, harts := s.harts.map idle }

/-- The next ready hart is visited: the slots of each core in ascending order, cyclically, and the cores one after another (R362;
log 2); where only the one in front is ready, it is visited again. -/
def State.rotate (s : State) : State :=
  match s.nextSeat s.seat (s.allHarts.filter fun h => s.ready h && ! s.streamHeld h) with
  | none => s
  | some h =>
    let s1 := s.passOver (s.seatOf h)
    if h.engine = .strand then resultState (execIssueVisit h.id s1) s1
    else if h.engine = s.hart.engine then s1.onHart fun k => { k with first := true, deficit := 0 }
    else s1.focusProgram h

/-- No convoy issues: a unit takes a step, or the next hart is visited. -/
def State.progress (s : State) : State :=
  match s.firstChange s.steps with
  | some t => t
  | none => s.rotate

/-- Whether an instruction is a step from outside or inside, which no convoy holds. -/
def isEvent (i : Instr) : Bool := i.wf && (encode i).isNone

/-! ### A state whose next step runs a given word -/

/-- Where the tables of `withFetchWord` stand, and its convoy. -/
def fetchRoot : Nat := 0x10000
def fetchPc : Nat := 0x20000

/-- Two tables of one entry each, used by both stages: 1 GiB at address 0 with every permission. -/
def fetchTables (m : Memory) : Memory :=
  (m.setBytes fetchRoot (leBytes 8 (0x11000 + 1))).setBytes 0x11000 (leBytes 8 0x3F)

/-- The hart of `withFetchWord`: a strand at its start, or a control core for a matrix word. -/
def fetchHart (w : Nat) : Hart :=
  let m := bits w 25 6
  { Hart.idle with
    engine := if 0x3C ≤ m ∧ m ≤ 0x3E then .control 0 else .strand
    phase := .running
    pc := BitVec.ofNat 64 fetchPc
    csr := { Csrs.start with troot := BitVec.ofNat 64 fetchRoot } }

/-- The partition of `withFetchWord`: its root, and a grant of the first GiB. -/
def Partition.fetching (p : Partition) : Partition :=
  { p with proot := BitVec.ofNat 64 fetchRoot, pmem := p.pmem.set 0 0x8000100000000000 }

/-- `s` with a word stored where the next step fetches it. -/
def State.placeWord (s : State) (w : Nat) : State :=
  { s with
    hart := fetchHart w
    mem := (fetchTables s.mem).setBytes fetchPc (leBytes 4 w)
    parts := s.parts.set 0 s.parts[0].fetching
    golium := { s.golium with powered := true, thold := false }
    agenda := [] }

end Sys2Proof.Machine
end

