-- ==== Sys2Proof/Machine/Step.lean ====
section
/-! DEFINITION. The step: a step from the agenda, a convoy of the hart in front, or progress of another unit (log 2). -/

namespace Sys2Proof.Machine

/-- A step of the agenda. -/
def State.takeAgenda (s : State) (i : Instr) (rest : List Instr) : Host.Outcome State Fault Refusal :=
  let s1 := { s with agenda := rest }
  if isEvent i then
    match exec i s1 with
    | .next t => .next t.noteRunnable
    | e => e
  else .next s1

/-- One step of the module. Without power nothing but POWER_ON happens (R393, R394, R396). -/
noncomputable def step (s : State) : Host.Outcome State Fault Refusal :=
  if s.golium.powered then
    match s.agenda with
    | i :: rest => s.takeAgenda i rest
    | [] =>
      if s.mayIssue then
        match s.act with
        | .next t => .next t.noteRunnable
        | e => e
      else .next s.progress.noteRunnable
  else
    match s.agenda with
    | i :: rest => if i = .powerOn then exec i { s with agenda := rest } else .next { s with agenda := rest }
    | [] => .fault .noPower

/-- `s` with an instruction stored where `step` fetches its next instruction; every instruction is one word of 32 bits. -/
def State.withFetchWord (s : State) (_nbits w : Nat) : State := s.placeWord w

end Sys2Proof.Machine
end

