-- ==== Sys2Proof/Machine/Pseudo.lean ====
section
/-! DEFINITION. The pseudo-instructions of the assembler and the instructions they stand for (R175). -/

namespace Sys2Proof.Machine

/-- Whether a constant fits `n` signed bits. -/
def fitsSigned (c : Word) (n : Nat) : Bool := (c.extractLsb' 0 n).signExtend 64 == c

/-- Bits `k + 19` to `k` of a constant. -/
def liPart (c : Word) (k : Nat) : BitVec 20 := c.extractLsb' k 20

/-- `li xd, c`: the shortest of the four expansions that R175 gives. -/
def pseudoLi (d : Reg) (c : Word) : List Instr :=
  if fitsSigned c 20 then [.li d (liPart c 0)]
  else if fitsSigned c 40 then [.li d (liPart c 20), .lis d (liPart c 0)]
  else if fitsSigned c 60 then [.li d (liPart c 40), .lis d (liPart c 20), .lis d (liPart c 0)]
  else [.li d ((c.extractLsb' 60 4).zeroExtend 20), .lis d (liPart c 40), .lis d (liPart c 20), .lis d (liPart c 0)]

/-- `nop`. -/
def pseudoNop : Instr := .addi 0 0 0

/-- `mv xd, xa`. -/
def pseudoMv (d a : Reg) : Instr := .addi d a 0

/-- `j label`, with the label's offset in words. -/
def pseudoJ (o : BitVec 20) : Instr := .jal 0 o

/-- `call label`. -/
def pseudoCall (o : BitVec 20) : Instr := .jal 1 o

/-- `ret`. -/
def pseudoRet : Instr := .jalr 0 1 0

end Sys2Proof.Machine
end

