-- ==== Sys2Proof/Safety.lean ====
section
/-! DEFINITION. What counts as a safe run, and the terms claims use: what completes, and what a next state may differ in. -/

namespace Sys2Proof.Safety

open Sys2Proof.Machine

/-- The state a result answers with, where it answers with one. -/
def nextOf : Result → Option State
  | .next t => some t
  | _ => none

/-- `k` steps lead from `s` to `t`, none of them a fault or a refusal. -/
inductive Reaches : Nat → State → State → Prop
  | refl (s : State) : Reaches 0 s s
  | step {k : Nat} {s t u : State} : Reaches k s t → Sys2Proof.Machine.step t = .next u → Reaches (k + 1) s u

/-- No run of any length from `s` stops: traps are next states, so only `Fault.noPower` could stop one. -/
def NeverStops (s : State) : Prop :=
  ∀ k t, Reaches k s t → ∃ u, Sys2Proof.Machine.step t = .next u

/-- The memories of the module are in canonical form (R65, R70; log 3). -/
def MemoriesCanonical (s : State) : Prop :=
  Memory.wf s.mem ∧ ∀ g ∈ s.gangs, ∀ b ∈ g.banks, Memory.wf b.bytes

/-- The effects of several instructions one after the other, stopping at the first that answers with no state. -/
def runs : List Instr → State → Result
  | [], s => .next s
  | i :: l, s =>
    match exec i s with
    | .next t => runs l t
    | e => e

/-! ### Completion -/

/-- `i` completes from every state that meets `pre`, in a next state that `post` relates to it. -/
def Completes (i : Instr) (pre : State → Prop) (post : State → State → Prop) : Prop :=
  ∀ s, pre s → ∃ t, exec i s = .next t ∧ post s t

/-- The hart in front issues an instruction, rather than having its convoy checked before the first word (R421; log 2). -/
def Issuing (s : State) : Prop := s.hart.iss.judging = false

/-- The hart in front is a strand. -/
def OnStrand (s : State) : Prop := s.hart.engine = .strand

/-- It is a strand at supervisor privilege. -/
def Supervisor (s : State) : Prop := OnStrand s ∧ s.hart.st.priv = true

/-- It is the program of a control core. -/
def OnControl (c : Fin 64) (s : State) : Prop := s.hart.engine = .control c

/-! ### Frames -/

/-- Nothing but the hart in front differs, and it differs as `f` says. -/
def HartBecomes (f : Hart → Hart) (s t : State) : Prop := t = { s with hart := f s.hart }

/-- Nothing but scalar register `d` of the hart in front differs: not the memory, not the pc, not a flag. It holds `v`;
x0 stays 0 (R152). -/
def WritesX (d : Reg) (v : Hart → Word) (s t : State) : Prop :=
  t = { s with hart := { s.hart with x := t.hart.x } } ∧
    t.hart.getX d = (if d = 0 then 0 else v s.hart) ∧ ∀ r, r ≠ d → t.hart.getX r = s.hart.getX r

/-- `i` completes in every state, writing `v` to `d` and nothing else. -/
def YieldsX (i : Instr) (d : Reg) (v : Hart → Word) : Prop := Completes i (fun _ => True) (WritesX d v)

/-- Every byte of memory outside `[a, a + n)` reads as before. -/
def MemoryKept (a n : Nat) (s t : State) : Prop := ∀ x, x < a ∨ a + n ≤ x → t.mem.get x = s.mem.get x

/-- Nothing but vector register `d` of the hart in front, its tag and dirty bit, and the sticky flags differ: the elements
`act` names hold `f`'s results under tag `T`, the others their old bits; each exception raised is ORed into FFLAGS and SATF. -/
def WritesV (d : Reg) (T : Tag) (act : List Nat) (f : Nat → Nat × Raised) (s t : State) : Prop :=
  t = { s with hart := { s.hart with
    v := t.hart.v
    tags := t.hart.tags
    csr := { s.hart.csr with
      vdirty := s.hart.csr.vdirty ||| (1#32 <<< d.val)
      fflags := t.hart.csr.fflags
      satf := t.hart.csr.satf } } } ∧
  t.hart.tag d = T ∧
  (∀ r, r ≠ d → t.hart.v[r] = s.hart.v[r] ∧ t.hart.tag r = s.hart.tag r) ∧
  (∀ e, tagWidth T * e + tagWidth T ≤ 8192 →
    elemOf t.hart.v[d] (tagWidth T) e = if e ∈ act then (f e).1 % 2 ^ tagWidth T else elemOf s.hart.v[d] (tagWidth T) e) ∧
  (∀ k, t.hart.csr.fflags.getLsbD k = (s.hart.csr.fflags.getLsbD k || act.any fun e => (f e).2.bits.getLsbD k)) ∧
  t.hart.csr.satf = (s.hart.csr.satf || act.any fun e => (f e).2.sat)

/-- The tag and length checks of a vector instruction on a strand (R222, R421): with a wrong tag cause 0x04, with vl above
`most` cause 0x09, each at issue with nothing changed before it; with vl 0 nothing changes (R159); else the effect. -/
def Judged (i : Instr) (tagsOk : Hart → Bool) (most : Hart → Nat) (post : State → State → Prop) : Prop :=
  (∀ s, OnStrand s → tagsOk s.hart = false → exec i s = .next (s.trapWord .tag)) ∧
  (∀ s, OnStrand s → tagsOk s.hart = true → most s.hart < s.hart.vlen → exec i s = .next (s.trapWord .vectorLength)) ∧
  (∀ s, OnStrand s → tagsOk s.hart = true → s.hart.vlen ≤ most s.hart → s.hart.vlen = 0 → exec i s = .next s) ∧
  Completes i (fun s => OnStrand s ∧ tagsOk s.hart = true ∧ s.hart.vlen ≤ most s.hart ∧ s.hart.vlen ≠ 0) post

/-- An element-wise result: where the run leaves elements to commit, those that `m` makes active are written (R38, R221). -/
def ElementWise (d m : Reg) (T : Hart → Tag) (f : Hart → Nat → Nat × Raised) (s t : State) : Prop :=
  if s.hart.range = [] then t = s else WritesV d (T s.hart) (s.hart.active m) (f s.hart) s t

/-- The two-operand element-wise instructions: the sources' tag is the result's (R221, R222). -/
def ElementOp (i : Instr) (d a : Reg) (o : Src2) (m : Reg) (accepts : Tag → Bool) (f : Hart → Tag → Nat → Nat → Nat × Raised) : Prop :=
  Judged i (fun h => accepts (h.tag a) && h.sameTag (h.tag a) o) (fun h => tagMvl (h.tag a))
    (ElementWise d m (·.tag a) fun h e => f h (h.tag a) (h.elem a e) (h.src2 (h.tag a) o e))

/-- A whole instruction's write to vector register `d` (R37). -/
def WholeWrite (d : Reg) (T : Hart → Tag) (act : Hart → List Nat) (f : Hart → Nat → Nat × Raised) (s t : State) : Prop :=
  WritesV d (T s.hart) (act s.hart) (f s.hart) s t

/-- Nothing but predicate register `p` of the hart in front, and FFLAGS, differ; p0 stays all ones (R152). -/
def WritesP (p : Reg) (act : List Nat) (f : Nat → Bool × Raised) (s t : State) : Prop :=
  t = { s with hart := { s.hart with
    p := t.hart.p
    csr := { s.hart.csr with fflags := t.hart.csr.fflags, satf := t.hart.csr.satf } } } ∧
  (∀ r, r ≠ p → t.hart.getP r = s.hart.getP r) ∧
  (∀ e, e < 512 → (t.hart.getP p).getLsbD e = if p = 0 then true else if e ∈ act then (f e).1 else (s.hart.getP p).getLsbD e) ∧
  (∀ k, t.hart.csr.fflags.getLsbD k = (s.hart.csr.fflags.getLsbD k || act.any fun e => (f e).2.bits.getLsbD k)) ∧
  t.hart.csr.satf = (s.hart.csr.satf || act.any fun e => (f e).2.sat)

/-- `v` is the sum of a list of operands over some binary bracketing of them in some order, each addition being `f`'s, and `r`
the exceptions of those additions (R146). -/
inductive Bracketed (f : Nat → Nat → Nat × Raised) : List Nat → Nat → Raised → Prop
  | one (x : Nat) : Bracketed f [x] x .none
  | add {l l1 l2 : List Nat} {x y : Nat} {p q : Raised} : l.Perm (l1 ++ l2) → Bracketed f l1 x p → Bracketed f l2 y q →
      Bracketed f l (f x y).1 ((p.or q).or (f x y).2)

/-! ### Plain accesses -/

/-- A plain access of the hart in front leads to device address `pa`, outside every versioned region (R57-R65, R187). -/
def LeadsToDevice (k : AccessKind) (s : State) (va : Word) (pa : Nat) : Prop :=
  s.resolve s.hart.ctx k va = .ok (.device pa) ∧ s.regionAt s.hart.part pa = none

/-- It leads to offset `off` of granted bank `b`, which holds `K` in scratchpad mode and is not switching (R59, R72, R187). -/
def LeadsToBank (k : AccessKind) (s : State) (va : Word) (b off : Nat) (K : Bank) : Prop :=
  s.resolve s.hart.ctx k va = .ok (.bank b off) ∧ s.bank? (some (gangOf s.hart.id)) b = some K ∧
    K.switching = none ∧ K.mode = .scratch

/-- What the hart in front reads at a device address is neither uncorrectable nor refused by the host (R412, R441). -/
def Readable (s : State) (pa : Nat) : Prop :=
  s.hostRefuses s.hart.ctx.part pa = false ∧ s.badLines.contains (pa / 128 * 128) = false ∧
    s.dirtyBad s.hart.ctx.gang (pa / 128 * 128) = false

/-- A plain load of `n` bytes finds `l`: in device memory, in a scratchpad bank, or, as a snapshot, in a versioned region
(R114, R187); no line or bank word it reads is uncorrectable (R412). -/
def Finds (s : State) (va : Word) (n : Nat) (l : List Byte) : Prop :=
  (∃ pa, LeadsToDevice .load s va pa ∧ Readable s pa ∧ l = s.mem.getBytes pa n) ∨
  (∃ b off K, LeadsToBank .load s va b off K ∧ K.bad.contains (off / 32) = false ∧ l = K.bytes.getBytes off n) ∨
  (∃ pa i r q, s.resolve s.hart.ctx .load va = .ok (.device pa) ∧ s.regionAt s.hart.part pa = some (i, r, q) ∧
    s.hart.st.det = false ∧ s.versionLost r q 0xFFFFFFFF = false ∧ l = ((leBytes 128 (r.granule q).newest.toNat).drop (pa % 128)).take n)

/-- Nothing but `n` bytes of device memory at `pa` and the hart in front differs: it becomes `h`, and the bytes read as the
low `n` bytes of `v`, where the memory is in its canonical form. -/
def StoresDevice (pa n v : Nat) (h : Hart → Hart) (s t : State) : Prop :=
  t = { s with mem := t.mem, hart := h s.hart } ∧ MemoryKept pa n s t ∧ (Memory.wf s.mem → t.mem.getBytes pa n = leBytes n v)

/-- The same for `n` bytes of bank `b` of the hart's gang, at offset `off`. -/
def StoresBank (b off n v : Nat) (K : Bank) (h : Hart → Hart) (s t : State) : Prop :=
  (∃ m, t = { s.setBank (some (gangOf s.hart.id)) b { K with bytes := m } with hart := h s.hart } ∧
    (∀ x, x < off ∨ off + n ≤ x → m.get x = K.bytes.get x) ∧ (Memory.wf K.bytes → m.getBytes off n = leBytes n v))

end Sys2Proof.Safety
end

