-- ==== Sys2Proof/Certificates/Slice0/Obligations.lean ====
section
/-! DEFINITION. The statements for the provers. Each docstring names the rules of spec/ it follows, or the log entry it rests on. -/

open Sys2Proof Sys2Proof.Machine Sys2Proof.Safety

/-! ### Scalar arithmetic (R178-R185) -/

/-- R180: the two-register operations; the shift amount is the low six bits, W forms sign-extend a 32-bit result. -/
def Claim.RegisterOperationsWriteTheirResult : Prop := ∀ d a b : Reg,
  YieldsX (.add d a b) d (fun h => h.getX a + h.getX b) ∧
  YieldsX (.sub d a b) d (fun h => h.getX a - h.getX b) ∧
  YieldsX (.and d a b) d (fun h => h.getX a &&& h.getX b) ∧
  YieldsX (.or d a b) d (fun h => h.getX a ||| h.getX b) ∧
  YieldsX (.xor d a b) d (fun h => h.getX a ^^^ h.getX b) ∧
  YieldsX (.sll d a b) d (fun h => h.getX a <<< (h.getX b &&& 63)) ∧
  YieldsX (.srl d a b) d (fun h => h.getX a >>> (h.getX b &&& 63)) ∧
  YieldsX (.sra d a b) d (fun h => (h.getX a).sshiftRight (h.getX b &&& 63).toNat) ∧
  YieldsX (.slt d a b) d (fun h => if (h.getX a).toInt < (h.getX b).toInt then 1 else 0) ∧
  YieldsX (.sltu d a b) d (fun h => if h.getX a < h.getX b then 1 else 0) ∧
  YieldsX (.min d a b) d (fun h => if (h.getX a).toInt ≤ (h.getX b).toInt then h.getX a else h.getX b) ∧
  YieldsX (.max d a b) d (fun h => if (h.getX a).toInt ≤ (h.getX b).toInt then h.getX b else h.getX a) ∧
  YieldsX (.minu d a b) d (fun h => if h.getX a ≤ h.getX b then h.getX a else h.getX b) ∧
  YieldsX (.maxu d a b) d (fun h => if h.getX a ≤ h.getX b then h.getX b else h.getX a) ∧
  YieldsX (.addw d a b) d (fun h => ((h.getX a + h.getX b).truncate 32).signExtend 64) ∧
  YieldsX (.subw d a b) d (fun h => ((h.getX a - h.getX b).truncate 32).signExtend 64)

/-- R181: products and quotients; a division by 0 gives all ones, its remainder the dividend, and nothing traps. -/
def Claim.MultiplyAndDivideNeverTrap : Prop := ∀ d a b : Reg,
  YieldsX (.mul d a b) d (fun h => h.getX a * h.getX b) ∧
  YieldsX (.mulh d a b) d (fun h => ((h.getX a).signExtend 128 * (h.getX b).signExtend 128).extractLsb' 64 64) ∧
  YieldsX (.mulhu d a b) d (fun h => ((h.getX a).zeroExtend 128 * (h.getX b).zeroExtend 128).extractLsb' 64 64) ∧
  YieldsX (.div d a b) d (fun h => if h.getX b = 0 then BitVec.allOnes 64 else (h.getX a).sdiv (h.getX b)) ∧
  YieldsX (.divu d a b) d (fun h => if h.getX b = 0 then BitVec.allOnes 64 else h.getX a / h.getX b) ∧
  YieldsX (.rem d a b) d (fun h => if h.getX b = 0 then h.getX a else (h.getX a).srem (h.getX b)) ∧
  YieldsX (.remu d a b) d (fun h => if h.getX b = 0 then h.getX a else h.getX a % h.getX b)

/-- R182: counts, extensions, byte reversal; a count of zeros is 64 for 0. -/
def Claim.BitCountsAndExtensions : Prop := ∀ d a : Reg,
  (∃ n : Word → Word, YieldsX (.clz d a) d (fun h => n (h.getX a)) ∧
    ∀ x, (x = 0 → n x = 64) ∧ (x ≠ 0 → (n x).toNat < 64 ∧ x.toNat / 2 ^ (63 - (n x).toNat) = 1)) ∧
  (∃ n : Word → Word, YieldsX (.ctz d a) d (fun h => n (h.getX a)) ∧
    ∀ x, (x = 0 → n x = 64) ∧ (x ≠ 0 → x.getLsbD (n x).toNat = true ∧ ∀ k, k < (n x).toNat → x.getLsbD k = false)) ∧
  YieldsX (.popc d a) d (fun h => BitVec.ofNat 64 ((List.range 64).countP fun k => (h.getX a).getLsbD k)) ∧
  YieldsX (.sextb d a) d (fun h => ((h.getX a).truncate 8).signExtend 64) ∧
  YieldsX (.sexth d a) d (fun h => ((h.getX a).truncate 16).signExtend 64) ∧
  YieldsX (.sextw d a) d (fun h => ((h.getX a).truncate 32).signExtend 64) ∧
  YieldsX (.zextw d a) d (fun h => ((h.getX a).truncate 32).zeroExtend 64) ∧
  (∃ n : Word → Word, YieldsX (.bswap d a) d (fun h => n (h.getX a)) ∧
    ∀ x k, k < 8 → (n x).extractLsb' (8 * k) 8 = x.extractLsb' (8 * (7 - k)) 8)

/-- R183 to R185: the immediate forms; 15-bit and 20-bit immediates are sign-extended, LIS alone zero-extends. -/
def Claim.ImmediateOperationsWriteTheirResult : Prop := ∀ (d a : Reg) (i : BitVec 15) (n : Fin 64) (j : BitVec 20),
  YieldsX (.addi d a i) d (fun h => h.getX a + i.signExtend 64) ∧
  YieldsX (.andi d a i) d (fun h => h.getX a &&& i.signExtend 64) ∧
  YieldsX (.ori d a i) d (fun h => h.getX a ||| i.signExtend 64) ∧
  YieldsX (.xori d a i) d (fun h => h.getX a ^^^ i.signExtend 64) ∧
  YieldsX (.slti d a i) d (fun h => if (h.getX a).toInt < (i.signExtend 64 : Word).toInt then 1 else 0) ∧
  YieldsX (.sltiu d a i) d (fun h => if h.getX a < i.signExtend 64 then 1 else 0) ∧
  YieldsX (.slli d a n) d (fun h => h.getX a <<< n.val) ∧
  YieldsX (.srli d a n) d (fun h => h.getX a >>> n.val) ∧
  YieldsX (.srai d a n) d (fun h => (h.getX a).sshiftRight n.val) ∧
  YieldsX (.li d j) d (fun _ => j.signExtend 64) ∧
  YieldsX (.lis d j) d (fun h => (h.getX d <<< 20) + j.zeroExtend 64) ∧
  YieldsX (.addpc d j) d (fun h => h.pc + j.signExtend 64)

/-- R175: the instructions that `li xd, c` stands for leave `c` in xd and nothing else changed, `mv` copies a register, `nop`
changes nothing, `j`, `call` and `ret` are the jumps of R190. -/
def Obligations.PseudoInstructionsDoWhatTheyStandFor : Prop := ∀ (d a : Reg) (c : Word) (o : BitVec 20) (s : State),
  (∃ t, runs (pseudoLi d c) s = .next t ∧ WritesX d (fun _ => c) s t) ∧
  YieldsX (pseudoMv d a) d (fun h => h.getX a) ∧
  exec pseudoNop s = .next s ∧
  (pseudoJ o = .jal 0 o ∧ pseudoCall o = .jal 1 o ∧ pseudoRet = .jalr 0 1 0) ∧
  ((pseudoLi d c).length ≤ 4 ∧ (c.toInt < 2 ^ 19 → -2 ^ 19 ≤ c.toInt → (pseudoLi d c).length = 1))

/-! ### Scalar loads, stores and atomics (R186, R187, R217-R220) -/

/-- R186, R187: an aligned load that no earlier matrix instruction of its program holds back (R287) writes the bytes found,
sign-extended by LD, zero-extended by LDU, to its register and nothing else. -/
def Claim.LoadsWriteWhatMemoryHolds : Prop := ∀ (d a : Reg) (cls : Fin 16) (sz : Size) (o : BitVec 8) (l : List Byte),
  let va := fun s : State => s.hart.getX a + o.signExtend 64 * BitVec.ofNat 64 sz.bytes
  let pre := fun s : State => (va s).toNat % sz.bytes = 0 ∧ s.behindMatrix = false ∧ Finds s (va s) sz.bytes l
  Completes (.ld d a cls sz o) pre (WritesX d fun _ => signedOfBytes l) ∧
  Completes (.ldu d a cls sz o) pre (WritesX d fun _ => BitVec.ofNat 64 (leNat l))

/-- R186, R98: an aligned store to device memory or to a scratchpad bank puts the low bytes of its register there, one more
store counts until it is performed, and every other byte and register stays. -/
def Claim.StoresWriteTheirBytesAndNoOther : Prop := ∀ (x a : Reg) (cls : Fin 16) (sz : Size) (o : BitVec 8),
  let va := fun s : State => s.hart.getX a + o.signExtend 64 * BitVec.ofNat 64 sz.bytes
  let ready := fun s : State => (va s).toNat % sz.bytes = 0 ∧ s.hart.storesFull = false ∧ s.behindMatrix = false
  let counted := fun h : Hart => h.addPending cls
  (∀ s pa, ready s → LeadsToDevice .store s (va s) pa → s.badLines.contains (pa / 128 * 128) = false →
    s.hostRefuses s.hart.part pa = false →
    ∃ t, exec (.st x a cls sz o) s = .next t ∧ StoresDevice pa sz.bytes (s.hart.getX x).toNat counted s t) ∧
  (∀ s b off K, ready s → LeadsToBank .store s (va s) b off K →
    ∃ t, exec (.st x a cls sz o) s = .next t ∧ StoresBank b off sz.bytes (s.hart.getX x).toNat K counted s t) ∧
  (∀ h : Hart, h.engine = .strand → (counted h).cnt.stores = h.cnt.stores + 1 ∧
    counted h = { h with pending := h.pending ++ [{ cls := cls, counted := true }]
                         storesIssued := h.storesIssued + 1
                         cnt := { h.cnt with stores := h.cnt.stores + 1 } })

/-- R217 to R219: an atomic on device memory or on a scratchpad bank writes the old value, sign-extended, to its register and
`f` of it to memory, in one step; host memory executes only AMOADD, AMOSWAP and AMOCAS, versioned regions none, and
deterministic mode only posted ones but AMOCAS. -/
def Claim.AtomicOn (i : Instr) (d a b : Reg) (cls : Fin 16) (n : Nat) (host cas : Bool) (f : Nat → Nat → Nat → Nat) : Prop :=
  let low := fun x : Word => x.toNat % 2 ^ (8 * n)
  let new := fun (s : State) old => f old (low (s.hart.getX b)) (low (s.hart.getX d))
  let done := fun old (h : Hart) => (h.addPending cls).setX d (signedOfBytes (leBytes n old))
  let ready := fun s : State => OnStrand s ∧ (s.hart.st.det = true → d = 0 ∧ cas = false) ∧ (s.hart.getX a).toNat % n = 0 ∧
    s.hart.storesFull = false
  let clean := fun (s : State) (pa : Nat) => s.dirtyBad s.hart.ctx.gang (pa / 128 * 128) = false
  (∀ s pa, ready s → LeadsToDevice .atomic s (s.hart.getX a) pa → (isHostMemory pa = true → host = true) →
    Readable s pa →
    let old := s.mem.getNat pa n
    ∃ t, exec i s = .next t ∧ StoresDevice pa n (new s old) (done old) s t) ∧
  (∀ s x off K, ready s → LeadsToBank .atomic s (s.hart.getX a) x off K → K.bad.contains (off / 32) = false →
    let old := K.bytes.getNat off n
    ∃ t, exec i s = .next t ∧ StoresBank x off n (new s old) K (done old) s t) ∧
  (∀ s pa, ready s → LeadsToDevice .atomic s (s.hart.getX a) pa → isHostMemory pa = true → host = false → clean s pa →
    exec i s = .next (s.trap false 0 .atomicTarget (s.hart.getX a))) ∧
  (∀ s pa, ready s → s.resolve s.hart.ctx .atomic (s.hart.getX a) = .ok (.device pa) → (s.regionAt s.hart.part pa).isSome = true →
    clean s pa → exec i s = .next (s.trap false 0 .notVersioned (s.hart.getX a))) ∧
  (∀ s, OnStrand s → s.hart.st.det = true → d ≠ 0 ∨ cas = true → exec i s = .next (s.trapWord .deterministic))

/-- R217, with the signed comparisons on values of the access's width. -/
def Claim.AtomicsApplyTheirOperationInOneStep : Prop := ∀ (d a b : Reg) (cls : Fin 16),
  let sg := fun (n v : Nat) => (BitVec.ofNat (8 * n) v).toInt
  Claim.AtomicOn (.amoadd d a b cls) d a b cls 8 true false (fun o x _ => (o + x) % 2 ^ 64) ∧
  Claim.AtomicOn (.amomin d a b cls) d a b cls 8 false false (fun o x _ => if sg 8 x < sg 8 o then x else o) ∧
  Claim.AtomicOn (.amomax d a b cls) d a b cls 8 false false (fun o x _ => if sg 8 o < sg 8 x then x else o) ∧
  Claim.AtomicOn (.amominu d a b cls) d a b cls 8 false false (fun o x _ => min o x) ∧
  Claim.AtomicOn (.amomaxu d a b cls) d a b cls 8 false false (fun o x _ => max o x) ∧
  Claim.AtomicOn (.amoand d a b cls) d a b cls 8 false false (fun o x _ => o &&& x) ∧
  Claim.AtomicOn (.amoor d a b cls) d a b cls 8 false false (fun o x _ => o ||| x) ∧
  Claim.AtomicOn (.amoxor d a b cls) d a b cls 8 false false (fun o x _ => o ^^^ x) ∧
  Claim.AtomicOn (.amoswap d a b cls) d a b cls 8 true false (fun _ x _ => x) ∧
  Claim.AtomicOn (.amocas d a b cls) d a b cls 8 true true (fun o x e => if o = e then x else o) ∧
  Claim.AtomicOn (.amoaddW d a b cls) d a b cls 4 true false (fun o x _ => (o + x) % 2 ^ 32) ∧
  Claim.AtomicOn (.amominW d a b cls) d a b cls 4 false false (fun o x _ => if sg 4 x < sg 4 o then x else o) ∧
  Claim.AtomicOn (.amomaxW d a b cls) d a b cls 4 false false (fun o x _ => if sg 4 o < sg 4 x then x else o) ∧
  Claim.AtomicOn (.amominuW d a b cls) d a b cls 4 false false (fun o x _ => min o x) ∧
  Claim.AtomicOn (.amomaxuW d a b cls) d a b cls 4 false false (fun o x _ => max o x) ∧
  Claim.AtomicOn (.amoandW d a b cls) d a b cls 4 false false (fun o x _ => o &&& x) ∧
  Claim.AtomicOn (.amoorW d a b cls) d a b cls 4 false false (fun o x _ => o ||| x) ∧
  Claim.AtomicOn (.amoxorW d a b cls) d a b cls 4 false false (fun o x _ => o ^^^ x) ∧
  Claim.AtomicOn (.amoswapW d a b cls) d a b cls 4 true false (fun _ x _ => x) ∧
  Claim.AtomicOn (.amocasW d a b cls) d a b cls 4 true true (fun o x e => if o = e then x else o)

/-- R220, R339, R340: TOPKINS replaces the 32-byte record by the record with the pair inserted, also in deterministic mode. -/
def Claim.TopkInsertReplacesItsRecord : Prop := ∀ (a b : Reg) (cls : Fin 16) (s : State) (pa : Nat),
  OnStrand s → (s.hart.getX a).toNat % 32 = 0 → s.hart.storesFull = false → LeadsToDevice .atomic s (s.hart.getX a) pa →
  isHostMemory pa = false → Readable s pa →
  let pair := (s.hart.getX b).toNat % 2 ^ 32
  let new := topkInsert s.parts[s.hart.part].isDead (s.mem.getNat pa 32) pair
  (∃ t, exec (.topkins a b cls) s = .next t ∧ StoresDevice pa 32 new (fun h => h.addPending cls) s t) ∧
  (s.parts[s.hart.part].isDead (pair % 65536) = true ∨ 0xFFFE ≤ pair % 65536 → new = s.mem.getNat pa 32)

/-- R220: TOPKINS on a scratchpad bank or on host memory takes cause 0x13, on a bank of another mode 0x14. -/
def Claim.TopkInsertKeepsToItsTargets : Prop := ∀ (a b : Reg) (cls : Fin 16) (s : State) (va : Word), va = s.hart.getX a →
  OnStrand s → va.toNat % 32 = 0 → s.hart.storesFull = false →
  (∀ x off K, LeadsToBank .atomic s va x off K → exec (.topkins a b cls) s = .next (s.trap false 0 .atomicTarget va)) ∧
  (∀ pa, LeadsToDevice .atomic s va pa → isHostMemory pa = true → s.dirtyBad s.hart.ctx.gang (pa / 128 * 128) = false →
    exec (.topkins a b cls) s = .next (s.trap false 0 .atomicTarget va)) ∧
  (∀ x off K, s.resolve s.hart.ctx .atomic va = .ok (.bank x off) → s.bank? (some (gangOf s.hart.id)) x = some K →
    K.switching = none → K.mode ≠ .scratch → exec (.topkins a b cls) s = .next (s.trap false 0 .bank va))

/-- R186, R190, R198, R212, R217, R220, R273, R301: a misaligned address or target takes cause 0x06 with the address in STVAL,
before the access is made and with no register written. -/
def Claim.MisalignedScalarAccessesTrap : Prop := ∀ (d a b : Reg) (cls : Fin 16) (sz : Size) (o : BitVec 8) (i : BitVec 15) (s : State),
  let off := s.hart.getX a + o.signExtend 64 * BitVec.ofNat 64 sz.bytes
  let x := s.hart.getX a
  let jt := x + i.signExtend 64
  let bad := fun va : Word => Host.Outcome.next (s.trap false 0 .misaligned va)
  (off.toNat % sz.bytes ≠ 0 → exec (.ld d a cls sz o) s = bad off ∧ exec (.ldu d a cls sz o) s = bad off ∧ exec (.st d a cls sz o) s = bad off) ∧
  (jt.toNat % 4 ≠ 0 → exec (.jalr d a i) s = bad jt) ∧
  (OnStrand s →
    (x.toNat % 4 ≠ 0 → exec (.fork a b) s = bad x) ∧
    (x.toNat % 8 ≠ 0 → s.hart.st.det = false → exec (.amoadd d a b cls) s = bad x ∧ exec (.amocas d a b cls) s = bad x ∧
      exec (.ldv d a b cls) s = bad x) ∧
    (x.toNat % 4 ≠ 0 → s.hart.st.det = false → exec (.amoaddW d a b cls) s = bad x ∧ exec (.amocasW d a b cls) s = bad x) ∧
    (x.toNat % 32 ≠ 0 → exec (.topkins a b cls) s = bad x) ∧
    (x.toNat % 128 ≠ 0 → exec (.launch d a) s = bad x ∧ exec (.job d a) s = bad x))

/-! ### Control transfers, loops, gang instructions (R189-R199) -/

/-- R189, R190, R422: branches and jumps name the next convoy; the link register holds pc + 4, and JALR reads its target first. -/
def Claim.BranchesAndJumpsNameTheNextConvoy : Prop := ∀ (a b d : Reg) (o : BitVec 12) (j : BitVec 20) (i : BitVec 15),
  let goal := fun (h : Hart) => h.pc + o.signExtend 64 * 4
  let takes := fun (i : Instr) (test : Word → Word → Prop) => ∀ s : State,
    (test (s.hart.getX a) (s.hart.getX b) → exec i s = .next { s with hart := s.hart.setFlow (.jump (goal s.hart)) }) ∧
    (¬ test (s.hart.getX a) (s.hart.getX b) → exec i s = .next { s with hart := s.hart.setFlow .seq })
  takes (.beq a b o) (· = ·) ∧ takes (.bne a b o) (· ≠ ·) ∧
  takes (.blt a b o) (fun x y => x.toInt < y.toInt) ∧ takes (.bge a b o) (fun x y => y.toInt ≤ x.toInt) ∧
  takes (.bltu a b o) (fun x y => x.toNat < y.toNat) ∧ takes (.bgeu a b o) (fun x y => y.toNat ≤ x.toNat) ∧
  Completes (.jal d j) (fun _ => True) (HartBecomes fun h =>
    (h.setX d (h.pc + 4)).setFlow (.jump (h.pc + j.signExtend 64 * 4))) ∧
  Completes (.jalr d a i) (fun s => (s.hart.getX a + i.signExtend 64).toNat % 4 = 0) (HartBecomes fun h =>
    (h.setX d (h.pc + 4)).setFlow (.jump (h.getX a + i.signExtend 64)))

/-- R191, R78: STRIP adds BUMPi to every address register its mask names and steps their streams, then takes vl from its
count, then branches while the count is positive; nothing else changes, but that Golium counts uncorrectable lines that the device
meets as it fetches ahead (R412; which lines it fetches is the model's choice, log 99). -/
def Claim.StripBumpsThenCountsThenBranches : Prop := ∀ (n : Reg) (m : BitVec 8) (o : BitVec 12),
  let named := fun r : Reg => 16 ≤ r.val ∧ r.val < 24 ∧ m.getLsbD (r.val - 16) = true
  let bumped := fun (h : Hart) (r : Reg) => if named r then h.getX r + h.csr.bump.getD (r.val - 16) 0 else h.getX r
  let count := fun h : Hart => bumped h n - h.csr.vl.zeroExtend 64
  Completes (.strip n m o) OnStrand fun s t =>
    t.golium = { s.golium with unconsumed := t.golium.unconsumed } ∧ (s.badLines = [] → t.golium = s.golium) ∧
    t = { s with golium := t.golium, hart := { s.hart with
      x := t.hart.x
      streams := s.hart.streams.map fun b =>
        if m.getLsbD b.reg.val then { b with position := b.position + s.hart.csr.bump[b.reg] } else b
      iss := { s.hart.iss with flow := if 0 < (count s.hart).toInt then .jump (s.hart.pc + o.signExtend 64 * 4) else .seq } } } ∧
    ∀ r, t.hart.getX r = if r = n ∧ n ≠ 0 then count s.hart else bumped s.hart r

/-- R192, R55: LOOP and LOOPI start the loop with a count that is not 0; with a count of 0 the next convoy is the one after
the convoy at LEND, found from the C bits; while a loop is active they take cause 0x07 and change nothing before it. -/
def Claim.LoopsStartWhileNoneIsActive : Prop := ∀ (n : Reg) (k : Fin 32) (off : Fin 524288) (s : State),
  let lend := s.hart.pc + 4 * BitVec.ofNat 64 off.val
  let set := fun h : Hart => { h with csr := { h.csr with lstart := h.pc + 4, lend := lend } }
  let started := fun c : Word => { s with hart := { set s.hart with
    csr := { (set s.hart).csr with lcount := c }, st := { s.hart.st with lact := true } } }
  (s.hart.st.lact = true → exec (.loop n off) s = .next (s.trapWord .loopWrite) ∧ exec (.loopi k off) s = .next (s.trapWord .loopWrite)) ∧
  (s.hart.st.lact = false → s.hart.getX n ≠ 0 → exec (.loop n off) s = .next (started (s.hart.getX n))) ∧
  (s.hart.st.lact = false → k ≠ 0 → exec (.loopi k off) s = .next (started (BitVec.ofNat 64 k.val))) ∧
  (∀ w, s.hart.st.lact = false → s.hart.getX n = 0 → s.fetch s.hart.ctx lend = .word w → w.getLsbD 31 = false →
    exec (.loop n off) s = .next { s with hart := (set s.hart).setFlow (.jump (lend + 4)) })

/-- R195, R197: DETACH leaves the attached set; YIELD only zeroes the slot's deficit (R362). -/
def Claim.DetachAndYieldTouchNothingElse : Prop :=
  Completes .detach OnStrand (HartBecomes fun h => { h with st := { h.st with att := false } }) ∧
  Completes .yield OnStrand (HartBecomes fun h => { h with deficit := 0 })

/-- R50, R430: the pilot's JOIN re-attaches every strand waiting at its address and releases those waiting elsewhere, JOIN.W
once every detached member waits there; in a handler a JOIN does nothing.
Which members count as waiting is the model's reading (log 9). -/
def Claim.JoinReattachesTheWaitingMembers : Prop := ∀ s : State, OnStrand s → s.hart.wait = none →
  let g := gangOf s.hart.id
  let a := s.hart.pc
  let mine := fun h : Hart => h.engine = .strand ∧ gangOf h.id = g ∧ h.phase ≠ .absent
  let rejoins := fun h : Hart => match h.wait with
    | none => h
    | some w =>
      if mine h ∧ h.joinWait = some a then { h with wait := some { w with met := true }, st := { h.st with att := true }, streamNo := s.hart.streamNo }
      else if mine h ∧ h.joinWait.isSome then { h with wait := some { w with met := true } } else h
  let joined := Host.Outcome.next { s with
    harts := s.harts.map rejoins
    gangs := s.gangs.map fun x => if x.id = g then { x with joinAt := none } else x }
  (s.hart.st.priv = true ∨ s.hart.st.uih = true →
    exec .joinW s = .next { s with hart := s.hart.setFlow .seq } ∧ exec .joinN s = .next { s with hart := s.hart.setFlow .seq }) ∧
  (s.hart.st.priv = false → s.hart.st.uih = false → s.hart.st.att = true → s.streamKnown g s.hart.streamNo = false →
    (s.pilot? g).map (·.id) = some s.hart.id →
    exec .joinN s = joined ∧ ((∀ h ∈ s.members g, h.st.att = true ∨ h.joinWait = some a) → exec .joinW s = joined))

/-- R196, R48, R52: EXIT ends a strand whose loads and stores are done, and a forked program whose matrix instructions and
stores are done, which then counts off its strand's tiles counter; until then it holds, and no memory changes. -/
def Claim.ExitEndsTheStrandOrProgram : Prop := ∀ s : State,
  (OnStrand s → s.hart.cnt.loads = 0 → s.hart.cnt.stores = 0 → ∃ t, exec .exit s = .next t ∧ t.mem = s.mem ∧
    t.hart.phase = .exited ∧ t.hart.st.att = false ∧ t.hart.x = s.hart.x ∧ t.hart.v = s.hart.v ∧
    ∀ sid x, t.session? s.hart.part sid = some x → x.joined s.hart.id = false) ∧
  (∀ c, OnControl c s → s.clusters[c].queue = [] → s.hart.pending = [] → exec .exit s = .next { s with
    hart := { s.hart with phase := .exited, wait := none }.setFlow .ended
    harts := s.harts.map fun h =>
      if h.engine = .strand ∧ h.id = s.hart.id ∧ h.phase ≠ .absent then { h with cnt := { h.cnt with tiles := h.cnt.tiles - 1 } } else h }) ∧
  ((OnStrand s ∧ (s.hart.cnt.loads ≠ 0 ∨ s.hart.cnt.stores ≠ 0)) ∨ (∃ c, OnControl c s ∧ (s.clusters[c].queue ≠ [] ∨ s.hart.pending ≠ [])) →
    exec .exit s = .next { s with hart := { s.hart with wait := none }.setFlow (.held 0) })

/-- R52, R198, R289: FORK queues a program on the cluster of its gang, counts it, and binds the gang there.
That the program translates with its strand's ASID, root and privilege is the model's choice (log 36). -/
def Claim.ForkQueuesAProgram : Prop := ∀ (a b : Reg) (c : Fin 64),
  Completes (.fork a b) (fun s => OnStrand s ∧ (s.hart.getX a).toNat % 4 = 0 ∧ s.clusterOf (gangOf s.hart.id) = some c ∧
      s.clusters[c].forks.length < 4 ∧ s.hart.cnt.tiles ≠ 0xFFFF) fun s t =>
    t = { s with
      hart := { s.hart with cnt := { s.hart.cnt with tiles := s.hart.cnt.tiles + 1 } }
      clusters := s.clusters.set c { s.clusters[c] with forks := s.clusters[c].forks ++ [
        { entry := s.hart.getX a, arg := s.hart.getX b, owner := s.hart.id, asid := s.hart.csr.asid
          troot := s.hart.csr.troot, super := s.hart.st.priv }] }
      gangs := s.gangs.map fun x => if x.id = gangOf s.hart.id then { x with bound := some c } else x }

/-- R53, R199, R298, R316: a RENDEZVOUS meets the strand or program that waits at the same id, be it in a handler meanwhile, and
both go on; without it, it waits. That a partner in a handler is met through its paused wait is the model's reading (log 47). -/
def Claim.RendezvousMeetsItsPartner : Prop := ∀ (id : Fin 16) (s : State), s.hart.wait = none →
  (OnStrand s ∨ ∃ c, OnControl c s ∧ s.clusters[c].queue = []) →
  let open_ := fun w : Wait => w.kind = .rendezvous ∧ w.met = false ∧ w.addr = BitVec.ofNat 64 id.val
  let meets := fun o : Hart => o.id = s.hart.id ∧ o.phase = .running ∧ o.isControl ≠ s.hart.isControl ∧
    ((∃ w, o.wait = some w ∧ open_ w) ∨ ∃ p, o.paused = some p ∧ open_ p.2)
  let ends := fun w w' : Wait => (open_ w → w' = { w with met := true }) ∧ (¬ open_ w → w' = w)
  ((∃ o ∈ s.harts, meets o) → ∃ t, exec (.rendezvous id) s = .next t ∧
    t = { s with hart := s.hart.setFlow .seq, harts := t.harts } ∧ t.harts.length = s.harts.length ∧
    ∀ k (hs : k < s.harts.length) (ht : k < t.harts.length),
      (¬ meets s.harts[k] → t.harts[k] = s.harts[k]) ∧
      (meets s.harts[k] → t.harts[k] = { s.harts[k] with wait := t.harts[k].wait, paused := t.harts[k].paused } ∧
        Option.Rel ends s.harts[k].wait t.harts[k].wait ∧
        Option.Rel (fun p q => q.1 = p.1 ∧ ends p.2 q.2) s.harts[k].paused t.harts[k].paused)) ∧
  ((∀ o ∈ s.harts, ¬ meets o) → exec (.rendezvous id) s = .next { s with hart := { s.hart with
    wait := some (s.newWait .rendezvous 0 (BitVec.ofNat 64 id.val)), turn := none
    iss := { s.hart.iss with flow := .held 0 } } }) ∧
  (let w := s.newWait .rendezvous 0 (BitVec.ofNat 64 id.val)
   open_ w ∧ w.pos = s.hart.iss.pos ∧ w.elem = 0 ∧ w.ir = s.hart.iss.ir ∧ w.expired = none)

/-! ### Fences, barriers, counter waits, user interrupts (R91-R99, R200-R207, R315) -/

/-- R200, R206, R207, R99: FENCE and WAITC change no register, flag or memory; they go on once what they name is done, FENCE
once no background load of a class it names is outstanding (R91).
That stores reach memory in program order is the model's choice (log 5). -/
def Claim.FenceAndCounterWaitsChangeNothing : Prop := ∀ (m : BitVec 16) (sc : Scope) (l t c k : Fin 16) (s : State),
  let go := Host.Outcome.next { s with hart := s.hart.setFlow .seq }
  let atMost := fun (n : BitVec 16) (i : Fin 16) => i = 15 ∨ n.toNat ≤ i.val
  let done := if s.hart.engine = .strand
    then atMost s.hart.cnt.loads l ∧ atMost s.hart.cnt.stores t ∧ atMost s.hart.cnt.copies c ∧ atMost s.hart.cnt.tiles k
    else t = 15 ∨ s.hart.pending = []
  ((∀ v ∈ s.hart.vldbs, m.getLsbD v.cls.val = false) → exec (.fence m sc) s = go) ∧
  ((∃ v ∈ s.hart.vldbs, m.getLsbD v.cls.val = true) →
    exec (.fence m sc) s = .next { s with hart := { s.hart with wait := none }.setFlow (.held 0) }) ∧
  (done → exec (.waitc l t c k) s = go) ∧
  (¬ done → ∃ w : Wait, w.kind = .counters ∧ w.met = false ∧
    exec (.waitc l t c k) s = .next { s with hart := { s.hart with wait := some w, turn := none, iss := { s.hart.iss with flow := .held 0 } } })

/-- R93, R201: BAR.ARRIVE writes the phase as its token and leaves one arrival to register. BAR.INIT (R203) drops the registered
arrivals of its one barrier, its own and other ranks', and sets its phase, against which every waiting BAR.WAIT is judged again.
Which arrivals are discarded is the model's reading (log 87). -/
def Claim.BarrierArrivalsAndInitialisation : Prop := ∀ (d a : Reg) (id : Fin 36) (sc : Scope),
  let key := fun s : State => barrierKey s.hart.id id
  let others := fun s t : State => ∀ k, k ≠ key s → t.barrier k = s.barrier k
  Completes (.barArrive d a id sc) (fun s => OnStrand s ∧ s.hart.id ∉ (s.barrier (key s)).registered ∧
      ∀ e ∈ (s.barrier (key s)).pending, e.strand ≠ s.hart.id) (fun s t =>
    t = { s with hart := s.hart.setX d ((s.barrier (key s)).phase.zeroExtend 64), barriers := t.barriers } ∧ others s t ∧
    ∃ e : Arrival, e.strand = s.hart.id ∧ e.mask = (s.hart.getX a).truncate 16 ∧
      t.barrier (key s) = { s.barrier (key s) with pending := (s.barrier (key s)).pending ++ [e] }) ∧
  let again := fun (phase : BitVec 8) (w : Wait) =>
    let n := (phase - BitVec.ofNat 8 w.addr.toNat).toNat
    if ¬ (w.kind = .barrier ∧ w.met = false ∧ w.addr.toNat / 256 = id.val) ∨ n = 0 then w
    else if n < 128 then { w with met := true, elem := n } else { w with expired := some .phaseToken }
  let see := fun (s : State) (h : Hart) =>
    let f := again ((s.hart.getX a).truncate 8)
    if participates (key s) h then { h with wait := h.wait.map f, paused := h.paused.map fun p => (p.1, f p.2) } else h
  Completes (.barInit a id) Supervisor (fun s t =>
    t = { s with hart := see s s.hart, harts := s.harts.map (see s), barriers := t.barriers } ∧ others s t ∧
    t.barrier (key s) = { s.barrier (key s) with
      registered := [], phase := (s.hart.getX a).truncate 8, announced := false
      peers := (s.barrier (key s)).peers.filter fun e =>
        e.2 != (s.barrier (key s)).phase.toNat && e.2 != ((s.hart.getX a).truncate 8 : BitVec 8).toNat }) ∧
  ∀ s, OnStrand s → s.hart.st.priv = false → exec (.barInit a id) s = .next (s.trapWord .privilege)

/-- R94, R202: a BAR.WAIT that does not wait yet writes the distance 1 to 127 from its token to the phase, waits at 0 and
takes cause 0x0A above; one whose generation has completed writes 1, one that BAR.INIT ended the distance it found (R203). -/
def Claim.BarrierWaitJudgesItsToken : Prop := ∀ (d a : Reg) (id : Fin 36) (s : State), OnStrand s →
  let t : BitVec 8 := (s.hart.getX a).truncate 8
  let dist := ((s.barrier (barrierKey s.hart.id id)).phase - t).toNat
  let gives := fun n : Nat => exec (.barWait d a id) s = .next { s with hart := (s.hart.setX d (BitVec.ofNat 64 n)).setFlow .seq }
  (s.hart.wait = none → 1 ≤ dist → dist ≤ 127 → gives dist) ∧
  (s.hart.wait = none → 128 ≤ dist → exec (.barWait d a id) s = .next (s.trap false 0 .phaseToken (t.zeroExtend 64))) ∧
  (s.hart.wait = none → dist = 0 → ∃ w : Wait, w.kind = .barrier ∧ w.met = false ∧
    exec (.barWait d a id) s = .next { s with hart := { s.hart with wait := some w, turn := none, iss := { s.hart.iss with flow := .held 0 } } }) ∧
  (∀ w, s.hart.wait = some w → w.kind = .barrier → w.met = true → gives (if w.elem = 0 then 1 else w.elem))

/-- R204, R205, R315: UIMASK exchanges STATUS.UIE; UIRET, inside a handler alone, swaps x1 to x7 back, clears UIH and
resumes at UIEPC with the stop UICAUSE keeps. -/
def Claim.UserInterruptInstructions : Prop := ∀ d a : Reg,
  Completes (.uimask d a) OnStrand (HartBecomes fun h =>
    { h with st := { h.st with uie := (h.getX a).getLsbD 0 } }.setX d (if h.st.uie then 1 else 0)) ∧
  Completes .uiret (fun s => OnStrand s ∧ s.hart.st.uih = true) (fun s t =>
    t = { s with hart := { s.hart with
      x := t.hart.x, shadow := t.hart.shadow
      st := { s.hart.st with uih := false }
      csr := { s.hart.csr with vconv := s.hart.csr.uicause.extractLsb' 23 2, vstart := s.hart.csr.uicause.extractLsb' 13 10 }
      iss := { s.hart.iss with flow := .jump s.hart.csr.uiepc } } } ∧
    (∀ r : Reg, t.hart.getX r = if 1 ≤ r.val ∧ r.val ≤ 7 then s.hart.shadow.getD (r.val - 1) 0 else s.hart.getX r) ∧
    ∀ k : Fin 7, t.hart.shadow[k] = s.hart.getX ⟨k.val + 1, by omega⟩) ∧
  ∀ s, OnStrand s → s.hart.st.uih = false → exec .uiret s = .next (s.trapWord .illegal)

/-! ### Registers of the system group (R160-R164, R208-R214) -/

/-- R208, R160: CSRR writes the register's value and nothing else; CSRS and CSRC from x0 are reads; a read of CYCLE gives the
count it leaves behind; the debug block reads 0 where no grant is in force (R164). -/
def Claim.CsrReadsWriteTheirDestination : Prop := ∀ (d : Reg) (c : Csr),
  let may := fun s : State => s.hart.csrRefused c false = none
  let gives := fun (pre : State → Prop) (v : Hart → Word) =>
    Completes (.csrr d c) (fun s => may s ∧ pre s) (WritesX d v) ∧
    Completes (.csrs d 0 c) (fun s => may s ∧ pre s) (WritesX d v) ∧
    Completes (.csrc d 0 c) (fun s => may s ∧ pre s) (WritesX d v)
  (isDebug c = false → c ≠ .cycle → gives (fun _ => True) (·.csrValue c)) ∧
  (isDebug c = true → gives (fun s => s.debugReadable c = false) (fun _ => 0)) ∧
  (isDebug c = true → (∀ i, c ≠ .perfcnt i) → gives (fun s => s.debugReadable c = true) (·.csrValue c)) ∧
  (c = .cycle → Completes (.csrr d c) may fun s t =>
    t = { s with hart := s.hart.setX d t.cycle, cycle := t.cycle, draws := s.draws + 1 })

/-- R208, R160, R161, R163: CSRW, CSRS and CSRC write the old value to xd and the new one, its old bits set or cleared by xa,
to the register as far as its fields reach; no other register, no memory and no other CSR changes (LCOUNT: R193).
That VSTART, SCAUSE.SVSTART and SCAUSE.SRC take any value is the model's reading (log 10). The debug block has a statement of its own. -/
def Claim.CsrWritesReachTheirFieldsOnly : Prop := ∀ (d a : Reg) (c : Csr) (m : Word),
  (match c with
    | .bscale | .rngseed | .lcount | .stval | .sscratch | .bump _ => m = BitVec.allOnes 64
    | .fflags => m = 31
    | .rmode | .vconv => m = 3
    | .satf => m = 1
    | .rngctr | .vdirty => m = 0xFFFFFFFF
    | .vstart | .asid => m = 1023
    | .lstart | .lend | .uivec | .uiepc | .stvec | .sepc => m = ~~~ 3
    | .troot => m = 0xFFFFFFFFF0000
    | .uicause => m = 0xFFFFFFFF01FFE1FF
    | .scause => m = 0xFFF00CF01FF
    | _ => False) →
  let post := fun (f : Word → Word → Word) (s t : State) =>
    t = { s with hart := { s.hart with x := t.hart.x, csr := t.hart.csr, st := { s.hart.st with lact := t.hart.st.lact } } } ∧
    t.hart.getX d = (if d = 0 then 0 else s.hart.csrValue c) ∧ (∀ r, r ≠ d → t.hart.getX r = s.hart.getX r) ∧
    t.hart.csrValue c = f (s.hart.csrValue c) (s.hart.getX a) &&& m ∧
    (∀ k, k ≠ c → (c = .lcount → k ≠ .status) → t.hart.csrValue k = s.hart.csrValue k)
  let may := fun s : State => s.hart.csrRefused c true = none
  Completes (.csrw d a c) may (post fun _ x => x) ∧
  (a ≠ 0 → Completes (.csrs d a c) may (post fun old x => old ||| x) ∧ Completes (.csrc d a c) may (post fun old x => old &&& ~~~ x))

/-- R87, R160, R162, R163: writes to fields with a range of their own keep the old value outside it. -/
def Claim.RestrictedCsrFieldsKeepTheirValue : Prop := ∀ (a : Reg) (s : State), OnStrand s →
  let v := s.hart.getX a
  let leaves := fun (c : Csr) (p : Hart → Prop) => ∃ t, exec (.csrw 0 a c) s = .next t ∧ p t.hart ∧ t.hart.x = s.hart.x ∧ t.mem = s.mem
  leaves .planes (fun h => h.csr.planes.toNat = if 2 ≤ v.toNat % 16 ∧ v.toNat % 16 ≤ 8 then v.toNat % 16 else s.hart.csr.planes.toNat) ∧
  leaves .status (fun h => h.st = { s.hart.st with uie := v.getLsbD 2, spriv := if s.hart.st.priv then v.getLsbD 1 else s.hart.st.spriv }) ∧
  leaves .vtaga (fun h => ∀ i : Fin 32, h.tags[i] =
    if i.val < 16 then (Tag.ofCode (v.extractLsb' (3 * i.val) 3).toNat).getD s.hart.tags[i] else s.hart.tags[i]) ∧
  leaves .vtagb (fun h => ∀ i : Fin 32, h.tags[i] =
    if i.val < 16 then s.hart.tags[i] else (Tag.ofCode (v.extractLsb' (3 * (i.val - 16)) 3).toNat).getD s.hart.tags[i]) ∧
  leaves .clscope (fun h => h.csr.clscope.extractLsb' 45 3 = 6 ∧ ∀ k, k < 15 → h.csr.clscope.extractLsb' (3 * k) 3 =
    if v.extractLsb' (3 * k) 3 = 7 then s.hart.csr.clscope.extractLsb' (3 * k) 3 else v.extractLsb' (3 * k) 3) ∧
  (s.hart.st.priv = true → leaves .vl (fun h =>
    if (v.extractLsb' 0 10).toNat ≤ 512 ∧ v.extractLsb' 10 2 ≠ 3 then h.csr.vl = v.extractLsb' 0 10 ∧ h.csr.width = v.extractLsb' 10 2
    else h.csr.vl = s.hart.csr.vl ∧ h.csr.width = s.hart.csr.width))

/-- R160, R161, R154, R421: a supervisor register at user privilege and a user's write to a read-only one take cause 0x03, a
supervisor's write to a read-only one and a CSR no control core has 0x01, LSTART and LEND in an active loop 0x07. -/
def Claim.ForbiddenCsrAccessesTrap : Prop := ∀ (d a : Reg) (c : Csr) (s : State),
  let supervisors := c = .stvec ∨ c = .sepc ∨ c = .scause ∨ c = .stval ∨ c = .sscratch ∨ c = .asid ∨ c = .troot
  let readOnly := c = .vcid ∨ c = .coord ∨ c = .cycle ∨ c = .instret ∨ c = .cntld ∨ c = .cntst ∨ c = .cntcp ∨ c = .cnttl
  let readers := c = .vl ∨ c = .vstart ∨ c = .vconv ∨ c = .vdirty
  let controls := c = .cycle ∨ c = .instret ∨ c = .lcount ∨ c = .lstart ∨ c = .lend ∨ c = .fflags ∨ c = .rmode
  let reads := fun k : Cause => exec (.csrr d c) s = .next (s.trapWord k)
  let writes := fun k : Cause => exec (.csrw d a c) s = .next (s.trapWord k) ∧
    (a ≠ 0 → exec (.csrs d a c) s = .next (s.trapWord k) ∧ exec (.csrc d a c) s = .next (s.trapWord k))
  (OnStrand s → s.hart.st.priv = false → supervisors → reads .privilege ∧ writes .privilege) ∧
  (OnStrand s → s.hart.st.priv = false → readOnly ∨ readers → writes .privilege) ∧
  (OnStrand s → s.hart.st.priv = true → readOnly → writes .illegal) ∧
  (OnStrand s → s.hart.st.lact = true → c = .lstart ∨ c = .lend → writes .loopWrite) ∧
  (s.hart.engine ≠ .strand → ¬ controls → reads .illegal ∧ writes .illegal)

/-- R55, R192, R193: a write that leaves LCOUNT at 0 ends an active loop at once; any other value is seen by the next end test; a
branch leaves the loop active, and a LOOP or LOOPI then takes cause 0x07. -/
def Obligations.LeavingALoopByLcount : Prop := ∀ (d a b : Reg) (o : BitVec 12) (j : BitVec 20) (off : Fin 524288) (s : State), s.hart.st.lact = true →
  let new := fun i f => ∃ t, exec i s = .next t ∧ t.hart.csr.lcount = f ∧ (t.hart.st.lact = true ↔ f ≠ 0)
  new (.csrw d a .lcount) (s.hart.getX a) ∧
  (a ≠ 0 → new (.csrs d a .lcount) (s.hart.csr.lcount ||| s.hart.getX a) ∧ new (.csrc d a .lcount) (s.hart.csr.lcount &&& ~~~ s.hart.getX a)) ∧
  (∀ h : Hart, ∀ seq : Word, h.st.lact = true → h.endTest h.csr.lend seq =
    if 1 < h.csr.lcount.toNat then (h.csr.lstart, { h with csr := { h.csr with lcount := h.csr.lcount - 1 } })
    else (seq, { h with csr := { h.csr with lcount := 0 }, st := { h.st with lact := false } })) ∧
  (∀ i ∈ [Instr.beq a b o, .bne a b o, .blt a b o, .bge a b o, .bltu a b o, .bgeu a b o, .jal d j],
    ∃ t, exec i s = .next t ∧ t.hart.st.lact = true ∧ exec (.loop a off) t = .next (t.trapWord .loopWrite) ∧
      exec (.loopi a off) t = .next (t.trapWord .loopWrite))

/-- R209, R210: SETVL grants the smaller of its operand and the width's maximum; VTAG sets tags and no bit of a register. -/
def Claim.VectorLengthAndTags : Prop := ∀ (d a v n : Reg) (w : VWidth) (T : Tag),
  let most := match w with | .w16 => 512 | .w32 => 256 | .w64 => 128
  Completes (.setvl d a w) OnStrand (HartBecomes fun h =>
    let g := min (h.getX a).toNat most
    { h with csr := { h.csr with vl := BitVec.ofNat 10 g, width := BitVec.ofNat 2 w.code } }.setX d (BitVec.ofNat 64 g)) ∧
  Completes (.vtag v n T) OnStrand fun s t => t = { s with hart := { s.hart with tags := t.hart.tags } } ∧
    ∀ r : Fin 32, t.hart.tags[r] = if v.val ≤ r.val ∧ r.val ≤ v.val + n.val then T else s.hart.tags[r]

/-- R211: SVSET is a counted store to a shape variable of the strand's launch; SVGET reads one, and is counted with the stores too. -/
def Claim.ShapeVariables : Prop := ∀ (a d : Reg) (k : Fin 32),
  Completes (.svset a k) (fun s => OnStrand s ∧ s.hart.storesFull = false) (fun s t => t = { s with
    hart := s.hart.addPending 0
    launches := s.launches.map fun x : Launch => if x.id = s.hart.id.launch then { x with sv := x.sv.set k (s.hart.getX a) } else x }) ∧
  ∀ l : Launch, Completes (.svget d k) (fun s => OnStrand s ∧ s.hart.storesFull = false ∧
      s.launches.find? (·.id == s.hart.id.launch) = some l) (HartBecomes fun h => (h.setX d l.sv[k]).addPending 0)

/-! ### Taking a trap and returning from one (R213, R214, R407-R416) -/

/-- R407, R408: entry saves the convoy, the stop, the cause and the value, raises the privilege, detaches, goes to STVEC, and
changes no other register, predicate, tag, flag or byte of memory. -/
def Claim.TrapEntrySavesAndRedirects : Prop := ∀ (s : State) (pc v : Word) (e : Nat) (k : Cause), OnStrand s → Issuing s → s.vectorDead = false →
  let entered := fun (t : State) (vconv vstart : Nat) =>
    let c := t.hart.csr
    t = { s with hart := t.hart } ∧ t.hart.pc = s.hart.csr.stvec ∧ c.sepc = pc ∧ c.stval = v ∧
    c.scause.extractLsb' 0 8 = BitVec.ofNat 8 k.code ∧ c.scause.getLsbD 8 = s.hart.st.priv ∧
    c.scause.getLsbD 16 = false ∧ c.scause.getLsbD 17 = false ∧ c.scause.extractLsb' 18 2 = BitVec.ofNat 2 s.hart.iss.pos ∧
    c.scause.extractLsb' 22 2 = 0 ∧ c.scause.extractLsb' 32 10 = BitVec.ofNat 10 vstart ∧ c.scause.extractLsb' 42 2 = BitVec.ofNat 2 vconv ∧
    c = { s.hart.csr with sepc := c.sepc, scause := c.scause, stval := c.stval, vconv := 0, vstart := 0 } ∧
    t.hart.st = { s.hart.st with spriv := s.hart.st.priv, priv := true, att := false } ∧
    t.hart.x = s.hart.x ∧ t.hart.v = s.hart.v ∧ t.hart.p = s.hart.p ∧ t.hart.tags = s.hart.tags ∧ t.hart.cnt = s.hart.cnt ∧
    t.hart.pending = s.hart.pending ∧ t.hart.shadow = s.hart.shadow ∧ t.hart.streams = s.hart.streams
  entered (s.trapTo pc true e k v) s.hart.csr.vconv.toNat s.hart.csr.vstart.toNat ∧
  (e < 1024 → s.hart.iss.runPos < 4 → entered (s.trapTo pc false e k v) s.hart.iss.runPos e)

/-- R413: a trap at supervisor privilege sets NEST and SPRIV and overwrites SEPC, SCAUSE and STVAL. -/
def Obligations.NestedTrapsOverwriteTheSavedState : Prop := ∀ (s : State) (v : Word) (k : Cause), Supervisor s → Issuing s → s.vectorDead = false →
  let t := s.trap true 0 k v
  t.hart.csr.scause.getLsbD 8 = true ∧ t.hart.st.spriv = true ∧ t.hart.st.priv = true ∧
  t.hart.csr.sepc = s.hart.pc ∧ t.hart.csr.stval = v ∧ t.hart.csr.scause.extractLsb' 0 8 = BitVec.ofNat 8 k.code ∧
  ∀ u : State, u.hart = { s.hart with csr := { s.hart.csr with sepc := u.hart.csr.sepc, scause := u.hart.csr.scause, stval := u.hart.csr.stval } } →
    u = { s with hart := u.hart } → u.trap true 0 k v = t

/-- R414: a trap whose handler cannot be fetched ends the strand instead: STVEC is 0, or its fetch takes 0x10, 0x11 or 0x30. No
register, CSR or pc is written at the trap (DEDUCED, see the assumption log).
What the abort leaves in the strand's registers is the model's reading (log 67). -/
def Claim.AbortOfAStrandWithoutHandler : Prop := ∀ (s : State) (v : Word) (k : Cause), OnStrand s → Issuing s →
  s.vectorDead = true →
  let t := s.trap true 0 k v
  t = { s with hart := t.hart } ∧ t.hart.phase = .aborting k.code s.hart.csr.stvec ∧ t.hart.st.att = false ∧ t.hart.wait = none ∧
  t.hart.x = s.hart.x ∧ t.hart.csr = s.hart.csr ∧ t.hart.pc = s.hart.pc ∧ t.hart.st.priv = s.hart.st.priv

/-- R213, R409: SYSCALL and BRK enter the supervisor with SEPC holding pc + 4, at either privilege. -/
def Claim.SystemCallAndBreakpointEnterTheSupervisor : Prop :=
  let entered := fun (k : Nat) (v : Word) (s t : State) =>
    t.hart.pc = s.hart.csr.stvec ∧ t.hart.csr.sepc = s.hart.pc + 4 ∧ t.hart.csr.stval = v ∧ t.hart.st.priv = true ∧
    t.hart.st.spriv = s.hart.st.priv ∧ t.hart.csr.scause.extractLsb' 0 9 = BitVec.ofNat 9 (k + s.hart.st.priv.toNat * 256) ∧
    t.hart.x = s.hart.x ∧ t.hart.v = s.hart.v ∧ t.mem = s.mem
  let ready := fun s : State => OnStrand s ∧ Issuing s ∧ s.vectorDead = false
  Completes .syscall ready (fun s t => entered 0x0C 0 s t) ∧
  Completes .brk ready (fun s t => entered 0x0B s.hart.pc s t ∧ t.hart.dbg.hit = 0)

/-- R214, R215: ERET restores the stop, the pc and the privilege that SCAUSE, SEPC and SPRIV hold; INVAS changes no register
and no memory, and lets the waits for a page test again (log 6). -/
def Claim.SupervisorReturnsAndInvalidates : Prop := ∀ (a b : Reg) (p q : Bool),
  Completes .eret Supervisor (HartBecomes fun h => { h with
    pc := h.csr.sepc
    csr := { h.csr with vconv := h.csr.scause.extractLsb' 42 2, vstart := h.csr.scause.extractLsb' 32 10 }
    st := { h.st with priv := h.st.spriv }
    skipBreak := some h.csr.sepc
    iss := { h.iss with flow := .jump h.csr.sepc } }) ∧
  Completes (.invas a b p q) Supervisor (fun s t => t = { s with harts := t.harts } ∧ t.harts = s.harts.map fun h =>
    { h with wait := h.wait.map fun w => if w.kind = .page ∨ w.kind = .fetch then { w with met := true } else w })

/-- R171, R295, R424: the supervisor instructions take cause 0x03 at user privilege, and a strand takes cause 0x08 for MWAIT and
the other instructions of the matrix majors. -/
def Claim.PrivilegeAndEngineTraps : Prop := ∀ (s : State) (d a b c : Reg) (id : Fin 36) (n m : Fin 4) (f : DrainFmt) (p q : Bool), OnStrand s →
  (s.hart.st.priv = false → ∀ i ∈ [Instr.eret, .invas a b p q, .vrdecl d a, .vrfree d a, .barInit a id],
    exec i s = .next (s.trapWord .privilege)) ∧
  ∀ i ∈ [Instr.mgather a b c n m, .mldb a, .mcfg a, .mma n, .mzero, .mswap, .mdrain a b f, .mwait a, .mstat d p],
    exec i s = .next (s.trapWord .engine)

/-! ### Vector arithmetic (R221-R236) -/

/-- Values below 2^w as integers: signed values, signed and unsigned clamping with SAT (R122, R129). -/
def Claim.signedOfBits (w x : Nat) : Int := (BitVec.ofNat w x).toInt
def Claim.bitsOfInt (w : Nat) (i : Int) : Nat := (i % (2 ^ w : Nat)).toNat
def Claim.clampedTo (w : Nat) (lo hi i : Int) : Nat × Raised :=
  (Claim.bitsOfInt w (if i < lo then lo else if hi < i then hi else i), { sat := decide (i < lo ∨ hi < i) })
def Claim.clampedSigned (w : Nat) (i : Int) : Nat × Raised := Claim.clampedTo w (-(2 ^ (w - 1) : Nat)) ((2 ^ (w - 1) : Nat) - 1) i
def Claim.clampedUnsigned (w : Nat) (i : Int) : Nat × Raised := Claim.clampedTo w 0 ((2 ^ w : Nat) - 1) i

/-- An operation with an integer meaning modulo 2^w and an FP meaning in the hart's rounding mode (R226). -/
def Claim.byTag (i : Nat → Nat → Nat → Nat) (f : Fmt → Rounding → Nat → Nat → Nat × Raised) (h : Hart) (t : Tag) (x y : Nat) : Nat × Raised :=
  if isFpTag t then f (tagFmt t) h.rounding x y else (i (tagWidth t) x y % 2 ^ tagWidth t, .none)

/-- A write of the elements the run commits, of which `act` are written (R38). -/
def Claim.RunWrites (d : Reg) (T : Hart → Tag) (act : Hart → List Nat) (f : Hart → Nat → Nat × Raised) (s t : State) : Prop :=
  if s.hart.range = [] then t = s else WritesV d (T s.hart) (act s.hart) (f s.hart) s t

/-- R226: add, subtract, multiply, minimum, maximum, absolute value and negation, on integers modulo 2^w and on FP elements. -/
def Claim.CommonVectorArithmetic : Prop := ∀ (d a b x m : Reg),
  let ok := fun t : Tag => decide (t ≠ .i16p)
  let both := fun (v vx : Instr) f => ElementOp v d a (.v b) m ok f ∧ ElementOp vx d a (.x x) m ok f
  let one := fun (i : Instr) f => ElementOp i d a (.x 0) m ok f
  let sg := Claim.signedOfBits
  both (.vadd d a b m) (.vaddVx d a x m) (Claim.byTag (fun _ p q => p + q) fun k r p q => k.add r (k.decode p) (k.decode q)) ∧
  both (.vsub d a b m) (.vsubVx d a x m) (Claim.byTag (fun w p q => p + 2 ^ w - q) fun k r p q => k.sub r (k.decode p) (k.decode q)) ∧
  both (.vmul d a b m) (.vmulVx d a x m) (Claim.byTag (fun _ p q => p * q) fun k r p q => k.mul r (k.decode p) (k.decode q)) ∧
  both (.vmin d a b m) (.vminVx d a x m) (Claim.byTag (fun w p q => if sg w q < sg w p then q else p) fun k _ p q => k.minmax false p q) ∧
  both (.vmax d a b m) (.vmaxVx d a x m) (Claim.byTag (fun w p q => if sg w p < sg w q then q else p) fun k _ p q => k.minmax true p q) ∧
  one (.vabs d a m) (Claim.byTag (fun w p _ => if sg w p < 0 then 2 ^ w - p else p) fun k _ p _ =>
    match k.decode p with | .nan g => k.nanOf g | _ => (p % 2 ^ (k.width - 1), .none)) ∧
  one (.vneg d a m) (Claim.byTag (fun w p _ => 2 ^ w - p) fun k _ p _ =>
    match k.decode p with | .nan g => k.nanOf g | _ => ((p + 2 ^ (k.width - 1)) % 2 ^ k.width, .none))

/-- R227: VMERGE picks by its predicate, VMV copies bits of every tag, VBCAST repeats element 0 or a scalar read as vd's tag. -/
def Claim.MergesMovesAndBroadcasts : Prop := ∀ (d a b x m : Reg),
  let merges := fun (i : Instr) (o : Src2) => Judged i (fun h => h.sameTag (h.tag a) o) (fun h => tagMvl (h.tag a))
    (Claim.RunWrites d (·.tag a) (·.range) fun h e => (if (h.getP m).getLsbD e then h.elem a e else h.src2 (h.tag a) o e, .none))
  merges (.vmerge d a b m) (.v b) ∧ merges (.vmergeVx d a x m) (.x x) ∧
  ElementOp (.vmv d a m) d a (.x 0) m (fun _ => true) (fun _ _ p _ => (p, .none)) ∧
  Judged (.vbcast d a m) (fun _ => true) (fun h => tagMvl (h.tag a))
    (WholeWrite d (·.tag a) (·.wholeActive m) fun h _ => (h.elem a 0, .none)) ∧
  Judged (.vbcastVx d x m) (fun _ => true) (fun h => tagMvl (h.tag d))
    (ElementWise d m (·.tag d) fun h _ => ((h.getX x).toNat % 2 ^ tagWidth (h.tag d), .none))

/-- R228, R229, R231: bitwise, shifts, unsigned minimum and maximum, high products, differences, counts, rounding shifts; shift
amounts are the low bits of the second operand. -/
def Claim.VectorIntegerArithmetic : Prop := ∀ (d a b x m : Reg) (i : BitVec 5),
  let two := fun (v vx : Instr) (f : Nat → Nat → Nat → Nat) =>
    ElementOp v d a (.v b) m isIntTag (fun _ t p q => (f (tagWidth t) p q, .none)) ∧
    ElementOp vx d a (.x x) m isIntTag (fun _ t p q => (f (tagWidth t) p q, .none))
  let three := fun (v vx vi : Instr) f => two v vx f ∧ ElementOp vi d a (.i i) m isIntTag (fun _ t p q => (f (tagWidth t) p q, .none))
  let logic := fun (v vx vi : Instr) (f : Nat → Nat → Nat) => ∀ k : Src2,
    ElementOp (match k with | .v _ => v | .x _ => vx | .i _ => vi) d a (match k with | .v _ => .v b | .x _ => .x x | .i _ => .i i) m
      (fun t => isIntTag t || t == .i16p) (fun _ _ p q => (f p q, .none))
  let sg := Claim.signedOfBits
  let rounded := fun (p : Int) (k : Nat) => if k = 0 then p else (p + (2 ^ (k - 1) : Nat)) / (2 ^ k : Nat)
  logic (.vand d a b m) (.vandVx d a x m) (.vandVi d a i m) (· &&& ·) ∧
  logic (.vor d a b m) (.vorVx d a x m) (.vorVi d a i m) (· ||| ·) ∧
  logic (.vxor d a b m) (.vxorVx d a x m) (.vxorVi d a i m) (· ^^^ ·) ∧
  three (.vsll d a b m) (.vsllVx d a x m) (.vsllVi d a i m) (fun w p q => p * 2 ^ (q % w)) ∧
  three (.vsrl d a b m) (.vsrlVx d a x m) (.vsrlVi d a i m) (fun w p q => p / 2 ^ (q % w)) ∧
  three (.vsra d a b m) (.vsraVx d a x m) (.vsraVi d a i m) (fun w p q => Claim.bitsOfInt w (sg w p / (2 ^ (q % w) : Nat))) ∧
  three (.vminu d a b m) (.vminuVx d a x m) (.vminuVi d a i m) (fun _ p q => min p q) ∧
  three (.vmaxu d a b m) (.vmaxuVx d a x m) (.vmaxuVi d a i m) (fun _ p q => max p q) ∧
  two (.vmulh d a b m) (.vmulhVx d a x m) (fun w p q => Claim.bitsOfInt w (sg w p * sg w q / (2 ^ w : Nat))) ∧
  two (.vmulhu d a b m) (.vmulhuVx d a x m) (fun w p q => p * q / 2 ^ w) ∧
  two (.vabsd d a b m) (.vabsdVx d a x m) (fun w p q => Claim.bitsOfInt w (if sg w p < sg w q then sg w q - sg w p else sg w p - sg w q)) ∧
  three (.vsrar d a b m) (.vsrarVx d a x m) (.vsrarVi d a i m) (fun w p q => Claim.bitsOfInt w (rounded (sg w p) (q % w))) ∧
  three (.vsrlr d a b m) (.vsrlrVx d a x m) (.vsrlrVi d a i m) (fun w p q => (rounded p (q % w)).toNat) ∧
  ElementOp (.vclz d a m) d a (.x 0) m isIntTag (fun _ t p _ => (if p = 0 then tagWidth t else tagWidth t - 1 - Nat.log2 p, .none)) ∧
  ElementOp (.vpopc d a m) d a (.x 0) m isIntTag (fun _ t p _ => ((List.range (tagWidth t)).countP fun k => p.testBit k, .none))

/-- R129, R231, R232: saturating sums and differences clamp to the range of the width and set SATF where they clamp. -/
def Claim.SaturatingArithmeticClampsAndSetsSatf : Prop := ∀ (d a b x m : Reg) (i : BitVec 5),
  let three := fun (v vx vi : Instr) (f : Nat → Nat → Nat → Nat × Raised) =>
    ElementOp v d a (.v b) m isIntTag (fun _ t p q => f (tagWidth t) p q) ∧
    ElementOp vx d a (.x x) m isIntTag (fun _ t p q => f (tagWidth t) p q) ∧
    ElementOp vi d a (.i i) m isIntTag (fun _ t p q => f (tagWidth t) p q)
  let sg := Claim.signedOfBits
  three (.vadds d a b m) (.vaddsVx d a x m) (.vaddsVi d a i m) (fun w p q => Claim.clampedSigned w (sg w p + sg w q)) ∧
  three (.vsubs d a b m) (.vsubsVx d a x m) (.vsubsVi d a i m) (fun w p q => Claim.clampedSigned w (sg w p - sg w q)) ∧
  three (.vaddsu d a b m) (.vaddsuVx d a x m) (.vaddsuVi d a i m) (fun w p q => Claim.clampedUnsigned w (p + q)) ∧
  three (.vsubsu d a b m) (.vsubsuVx d a x m) (.vsubsuVi d a i m) (fun w p q => Claim.clampedUnsigned w ((p : Int) - q)) ∧
  Judged (.vdot2 d a b m) (fun h => decide (h.tag a = .i16p ∧ h.tag b = .i16p ∧ h.tag d = .i32)) (fun _ => 256)
    (ElementWise d m (fun _ => .i32) fun h e =>
      let p := h.elem a e
      let q := h.elem b e
      Claim.clampedSigned 32 (sg 32 (h.elem d e) + sg 16 (p % 65536) * sg 16 (q % 65536) + sg 16 (p / 65536) * sg 16 (q / 65536)))

/-- R230: VADC and VSBC take a carry from each bit of a predicate and leave the carry or borrow there; nothing is masked. -/
def Claim.CarryChainsReadAndWriteThePredicate : Prop := ∀ (d a b p : Reg),
  let chained := fun (i : Instr) (f : Nat → Nat → Nat → Nat → Nat × Bool) =>
    Judged i (fun h => isIntTag (h.tag a) && h.tag b == h.tag a) (fun h => tagMvl (h.tag a)) fun s t =>
      let r := fun e => f (tagWidth (s.hart.tag a)) (s.hart.elem a e) (s.hart.elem b e) ((s.hart.getP p).getLsbD e).toNat
      ∃ u, Claim.RunWrites d (·.tag a) (·.range) (fun _ e => ((r e).1, .none)) s u ∧
        WritesP p s.hart.range (fun e => ((r e).2, .none)) u t
  chained (.vadc d a b p) (fun w x y c => ((x + y + c) % 2 ^ w, decide (2 ^ w ≤ x + y + c))) ∧
  chained (.vsbc d a b p) (fun w x y c => ((2 ^ w + x - y - c) % 2 ^ w, decide (x < y + c)))

/-- R233 to R235: fused multiply-adds with one rounding and vd as the addend, division, square root, the five BF16 units, and
the class mask. -/
def Claim.VectorFloatingPoint : Prop := ∀ (d a b x m : Reg),
  let fused := fun (v vx : Instr) (f : Fmt → Rounding → Val → Val → Val → Nat × Raised) => ∀ vector : Bool,
    let o : Src2 := if vector then .v b else .x x
    Judged (if vector then v else vx) (fun h => isFpTag (h.tag a) && h.sameTag (h.tag a) o && h.tag d == h.tag a) (fun h => tagMvl (h.tag a))
      (ElementWise d m (·.tag a) fun h e =>
        let k := tagFmt (h.tag a)
        f k h.rounding (k.decode (h.elem a e)) (k.decode (h.src2 (h.tag a) o e)) (k.decode (h.elem d e)))
  let unit := fun (i : Instr) (u : Unit5) => ElementOp i d a (.x 0) m (· == .bf16) (fun _ _ p _ => bf16Unit u p)
  fused (.vfma d a b m) (.vfmaVx d a x m) (fun k r p q c => k.fma r p q c) ∧
  fused (.vfms d a b m) (.vfmsVx d a x m) (fun k r p q c => k.fma r p q c.negate) ∧
  fused (.vfnma d a b m) (.vfnmaVx d a x m) (fun k r p q c => k.fma r p.negate q c) ∧
  ElementOp (.vdiv d a b m) d a (.v b) m isFpTag (fun h t p q => (tagFmt t).div h.rounding ((tagFmt t).decode p) ((tagFmt t).decode q)) ∧
  ElementOp (.vdivVx d a x m) d a (.x x) m isFpTag (fun h t p q => (tagFmt t).div h.rounding ((tagFmt t).decode p) ((tagFmt t).decode q)) ∧
  ElementOp (.vsqrt d a m) d a (.x 0) m isFpTag (fun h t p _ => (tagFmt t).sqrt h.rounding ((tagFmt t).decode p)) ∧
  unit (.vrcp d a m) .rcp ∧ unit (.vrsq d a m) .rsq ∧ unit (.vexp2 d a m) .exp2 ∧ unit (.vlog2 d a m) .log2 ∧ unit (.vtanh d a m) .tanh ∧
  Judged (.vclass d a m) (fun h => isFpTag (h.tag a)) (fun h => tagMvl (h.tag a))
    (ElementWise d m (fun h => if h.tag a = .bf16 then .i16 else .i32) fun h e => (classOf (tagFmt (h.tag a)) (h.elem a e), .none))

/-- R236: a compare writes the active bits of pd; EQ, NE and UN raise NV for signalling NaNs, LT and LE for every NaN. -/
def Claim.VectorComparesWriteAPredicate : Prop := ∀ (p a b x m : Reg),
  let form := fun (v vx : Instr) (ok : Tag → Bool) (fi : Nat → Nat → Nat → Bool) (ff : Val → Val → Bool) (loud : Bool) => ∀ vector : Bool,
    let o : Src2 := if vector then .v b else .x x
    Judged (if vector then v else vx) (fun h => ok (h.tag a) && h.sameTag (h.tag a) o) (fun h => tagMvl (h.tag a)) fun s t =>
      let T := s.hart.tag a
      WritesP p (s.hart.active m) (fun e =>
        let y := s.hart.elem a e
        let z := s.hart.src2 T o e
        if isFpTag T then
          let u := (tagFmt T).decode y
          let w := (tagFmt T).decode z
          (ff u w, { nv := if loud then u.isNan || w.isNan else u.isSignalling || w.isSignalling })
        else (fi (tagWidth T) y z, .none)) s t
  let every := fun t : Tag => decide (t ≠ .i16p)
  let sg := Claim.signedOfBits
  form (.vcmpeq p a b m) (.vcmpeqVx p a x m) every (fun _ y z => decide (y = z)) (fun u w => u.eq w) false ∧
  form (.vcmpne p a b m) (.vcmpneVx p a x m) every (fun _ y z => decide (y ≠ z)) (fun u w => ! u.eq w) false ∧
  form (.vcmplt p a b m) (.vcmpltVx p a x m) every (fun n y z => decide (sg n y < sg n z)) (fun u w => u.lt w) true ∧
  form (.vcmple p a b m) (.vcmpleVx p a x m) every (fun n y z => decide (sg n y ≤ sg n z)) (fun u w => u.lt w || u.eq w) true ∧
  form (.vcmpltu p a b m) (.vcmpltuVx p a x m) isIntTag (fun _ y z => decide (y < z)) (fun _ _ => false) true ∧
  form (.vcmpleu p a b m) (.vcmpleuVx p a x m) isIntTag (fun _ y z => decide (y ≤ z)) (fun _ _ => false) true ∧
  form (.vcmpun p a b m) (.vcmpunVx p a x m) isFpTag (fun _ _ _ => false) (fun u w => u.isNan || w.isNan) false

/-- R126, R226, R233, R234: whatever the operands, an FP result that is a NaN is the canonical one, and NV is raised where an
operand is a signalling NaN. -/
def Obligations.FloatingResultsHaveTheCanonicalNan : Prop := ∀ (k : Fmt) (r : Rounding) (x y z : Val), k = fp32 ∨ k = bf16 →
  let fine := fun (v : Nat × Raised) (ops : List Val) =>
    ((k.decode v.1).isNan = true → v.1 = k.nanBits) ∧ (ops.any (·.isSignalling) = true → v.1 = k.nanBits ∧ v.2.nv = true) ∧
    (ops.any (·.isNan) = true → v.1 = k.nanBits)
  fine (k.add r x y) [x, y] ∧ fine (k.sub r x y) [x, y] ∧ fine (k.mul r x y) [x, y] ∧ fine (k.fma r x y z) [x, y, z] ∧
  fine (k.div r x y) [x, y] ∧ fine (k.sqrt r x) [x]

/-! ### Predicates, permutes, reductions, conversions, sorts (R237-R257, R299, R300) -/

/-- R237, R238, R240: predicate instructions write the bits below vl that their rule names, and mask nothing; PSHL and PSHR bring
in zeros. -/
def Claim.PredicateOperations : Prop := ∀ (d a b x : Reg) (k : Fin 4) (j : Fin 8),
  let writes := fun (i : Instr) (act : Hart → List Nat) (f : Hart → Nat → Bool) =>
    Judged i (fun _ => true) (fun _ => 512) fun s t => WritesP d (act s.hart) (fun e => (f s.hart e, .none)) s t
  let p := fun (h : Hart) (r : Reg) (e : Nat) => (h.getP r).getLsbD e
  let all := fun h : Hart => List.range h.vlen
  writes (.pand d a b) (·.range) (fun h e => p h a e && p h b e) ∧ writes (.por d a b) (·.range) (fun h e => p h a e || p h b e) ∧
  writes (.pxor d a b) (·.range) (fun h e => p h a e != p h b e) ∧ writes (.pandn d a b) (·.range) (fun h e => p h a e && ! p h b e) ∧
  writes (.pnot d a) (·.range) (fun h e => ! p h a e) ∧ writes (.pmv d a) (·.range) (fun h e => p h a e) ∧
  writes (.pset d k) (·.range) (fun _ e => decide (k = 1 ∨ (k = 2 ∧ e % 2 = 0) ∨ (k = 3 ∧ e % 2 = 1))) ∧
  writes (.pshl d a x) all (fun h e => decide ((h.getX x).toNat ≤ e) && p h a (e - (h.getX x).toNat)) ∧
  writes (.pshr d a x) all (fun h e => decide (e + (h.getX x).toNat < h.vlen) && p h a (e + (h.getX x).toNat)) ∧
  writes (.pfromx d a j) (fun h => h.range.filter fun e => decide (e / 64 = j.val)) (fun h e => (h.getX a).getLsbD (e % 64))

/-- R239: counts, first and last set bit below vl (all ones where there is none), and 64 bits of a predicate, bits at or above
vl read as 0. -/
def Claim.PredicateMovesToScalars : Prop := ∀ (d a : Reg) (j : Fin 8),
  let set := fun h : Hart => (List.range h.vlen).filter fun e => (h.getP a).getLsbD e
  let writes := fun (i : Instr) (f : Hart → Word → Prop) => Judged i (fun _ => true) (fun _ => 512) fun s t =>
    ∃ v, f s.hart v ∧ WritesX d (fun _ => v) s t
  let extreme := fun (i : Instr) (least : Nat → Nat → Prop) => writes i fun h v =>
    (set h = [] → v = BitVec.allOnes 64) ∧ (set h ≠ [] → v.toNat ∈ set h ∧ ∀ e ∈ set h, least v.toNat e)
  writes (.pcnt d a) (fun h v => v.toNat = (set h).length) ∧ extreme (.pfirst d a) (fun v e => v ≤ e) ∧
  extreme (.plast d a) (fun v e => e ≤ v) ∧
  writes (.pmovx d a j) (fun h v => ∀ k, k < 64 → v.getLsbD k = decide (64 * j.val + k ∈ set h))

/-- R240: PFROMX has function code 13 and j from 0 to 7, its words with 8 to 31 being no instruction; on a fresh run of vl elements it
sets bit 64j + i of pd to bit i of xa for each i from 0 to 63 with 64j + i < vl, and changes no other bit and nothing else. -/
def Obligations.PfromxMovesAScalarIntoAPredicate : Prop := ∀ (d a : Reg),
  (∀ j : Fin 8, decode (0x5000000D + d.val * 2 ^ 20 + a.val * 2 ^ 15 + j.val * 2 ^ 10) = .ok (.pfromx d a j)) ∧
  (∀ k i, 8 ≤ k → k < 32 → decode (0x5000000D + d.val * 2 ^ 20 + a.val * 2 ^ 15 + k * 2 ^ 10) ≠ .ok i) ∧
  ∀ (j : Fin 8) (s : State), OnStrand s → s.hart.vlen ≤ 512 → s.hart.range = List.range s.hart.vlen →
    ∃ t, exec (.pfromx d a j) s = .next t ∧ t = { s with hart := { s.hart with p := t.hart.p } } ∧
      (∀ i, i < 64 → d ≠ 0 → 64 * j.val + i < s.hart.vlen →
        (t.hart.getP d).getLsbD (64 * j.val + i) = (s.hart.getX a).getLsbD i) ∧
      ∀ (r : Reg) (k : Nat), r ≠ d ∨ d = 0 ∨ k < 64 * j.val ∨ 64 * j.val + 64 ≤ k ∨ s.hart.vlen ≤ k →
        (t.hart.getP r).getLsbD k = (s.hart.getP r).getLsbD k

/-- R241 to R245, R223: permutes read all of their sources before they write, as whole instructions; VHAD at a distance no partner
of which lies below MVL leaves vd as it is (R139). -/
def Claim.PermutesMoveWholeElements : Prop := ∀ (d a b x m : Reg) (k : Fin 9),
  let whole := fun (i : Instr) (ok : Hart → Bool) (act : Hart → List Nat) (f : Hart → Nat → Nat) =>
    Judged i ok (fun h => tagMvl (h.tag a)) (WholeWrite d (·.tag a) act fun h e => (f h e, .none))
  let plain := fun (i : Instr) (f : Hart → Nat → Nat) => whole i (fun _ => true) (·.wholeActive m) f
  let same := fun h : Hart => h.tag b == h.tag a
  let n := fun h : Hart => (h.getX x).toNat
  let scalar := fun h : Hart => n h % 2 ^ tagWidth (h.tag a)
  plain (.vslide1up d a x m) (fun h e => if e = 0 then scalar h else h.elem a (e - 1)) ∧
  plain (.vslide1dn d a x m) (fun h e => if e + 1 < h.vlen then h.elem a (e + 1) else scalar h) ∧
  whole (.vslideup d a x m) (fun _ => true) (fun h => (h.wholeActive m).filter fun e => decide (n h ≤ e)) (fun h e => h.elem a (e - n h)) ∧
  plain (.vslidedn d a x m) (fun h e => if e + n h < h.vlen then h.elem a (e + n h) else 0) ∧
  plain (.vrev d a m) (fun h e => h.elem a (h.vlen - 1 - e)) ∧
  whole (.vzip d a b m) same (·.wholeActive m) (fun h e => if e % 2 = 0 then h.elem a (e / 2) else h.elem b ((e - 1) / 2)) ∧
  whole (.vunzip d a b m) same (·.wholeActive m) (fun h e => if 2 * e < h.vlen then h.elem a (2 * e) else h.elem b (2 * e - h.vlen)) ∧
  whole (.vcompress d a m) (fun _ => true) (fun h => List.range (h.wholeActive m).length) (fun h e => h.elem a ((h.wholeActive m).getD e 0)) ∧
  whole (.vexpand d a m) (fun _ => true) (·.wholeActive m) (fun h e => h.elem a ((h.wholeActive m).countP fun q => decide (q < e))) ∧
  Judged (.vgather d a b m) (fun h => isIntTag (h.tag b)) (fun h => min (tagMvl (h.tag a)) (tagMvl (h.tag b)))
    (WholeWrite d (·.tag a) (·.wholeActive m) fun h e =>
      (if h.elem b e < h.vlen then h.elem a (h.elem b e) else 0, .none)) ∧
  Judged (.vhad d a k m) (fun h => decide (h.tag a ≠ .i16p)) (fun h => tagMvl (h.tag a)) fun s t =>
    (tagMvl (s.hart.tag a) ≤ 2 ^ k.val → t = s) ∧
    (2 ^ k.val < tagMvl (s.hart.tag a) → (WholeWrite d (·.tag a) (fun h => (h.wholeActive m).filter fun e =>
        decide ((if e.testBit k.val then e - 2 ^ k.val else e + 2 ^ k.val) ∈ h.wholeActive m)) fun h e =>
      if e.testBit k.val
      then Claim.byTag (fun w p q => p + 2 ^ w - q) (fun f r p q => f.sub r (f.decode p) (f.decode q)) h (h.tag a) (h.elem a (e - 2 ^ k.val)) (h.elem a e)
      else Claim.byTag (fun _ p q => p + q) (fun f r p q => f.add r (f.decode p) (f.decode q)) h (h.tag a) (h.elem a e) (h.elem a (e + 2 ^ k.val))) s t)

/-- R145, R246, R247: the ordered reductions take the active elements in ascending order from element 0 of vb; an initial NaN
becomes canonical. -/
def Claim.OrderedReductionsAndScans : Prop := ∀ (d a b m : Reg),
  let ok := fun h : Hart => decide (h.tag a ≠ .i16p) && h.tag b == h.tag a
  let most := fun h : Hart => tagMvl (h.tag a)
  let sg := Claim.signedOfBits
  let fold := fun (f : Hart → Tag → Nat → Nat → Nat × Raised) (h : Hart) (init : Nat × Raised) (l : List Nat) =>
    l.foldl (fun acc e => let r := f h (h.tag a) acc.1 (h.elem a e); (r.1, acc.2.or r.2)) init
  let start := fun h : Hart => if isFpTag (h.tag a) then
      match (tagFmt (h.tag a)).decode (h.elem b 0) with
      | .nan g => (tagFmt (h.tag a)).nanOf g
      | _ => (h.elem b 0, Raised.none)
    else (h.elem b 0, Raised.none)
  let add := Claim.byTag (fun _ p q => p + q) fun f r p q => f.add r (f.decode p) (f.decode q)
  let reduces := fun (i : Instr) (f : Hart → Tag → Nat → Nat → Nat × Raised) =>
    Judged i ok most (WholeWrite d (·.tag a) (fun _ => [0]) fun h _ => fold f h (start h) (h.wholeActive m))
  reduces (.vredsum d a b m) add ∧
  reduces (.vredmax d a b m) (Claim.byTag (fun w p q => if sg w p < sg w q then q else p) fun k _ p q => k.minmax true p q) ∧
  reduces (.vredmin d a b m) (Claim.byTag (fun w p q => if sg w q < sg w p then q else p) fun k _ p q => k.minmax false p q) ∧
  Judged (.vscan d a b m) ok most (WholeWrite d (·.tag a) (·.wholeActive m) fun h e =>
    add h (h.tag a) (fold add h (h.elem b 0, Raised.none) ((h.wholeActive m).filter fun q => decide (q < e))).1 (h.elem a e))

/-- R146, R149, R246, R247: the unordered forms take cause 0x05 in deterministic mode; elsewhere they write what the ordered form
writes for integers, and for FP elements a sum over some binary bracketing of the initial value, made canonical where it is a NaN,
and the active elements up to the one written: which bracketing is left open (a free value, log 4). -/
def Claim.UnorderedReductionsCompleteOutsideDeterministicMode : Prop := ∀ (d a b m : Reg) (s : State), OnStrand s →
  s.hart.tag a ≠ .i16p → s.hart.tag b = s.hart.tag a →
  let ready := s.hart.st.det = false ∧ s.hart.vlen ≠ 0 ∧ s.hart.vlen ≤ tagMvl (s.hart.tag a)
  let total := fun l : List Nat => (s.hart.elem b 0 + (l.map (s.hart.elem a)).sum) % 2 ^ tagWidth (s.hart.tag a)
  let k := tagFmt (s.hart.tag a)
  let start := match k.decode (s.hart.elem b 0) with | .nan g => k.nanOf g | _ => (s.hart.elem b 0, Raised.none)
  let sum := fun (l : List Nat) (x : Nat × Raised) => ∃ p, x.2 = start.2.or p ∧
    Bracketed (Claim.byTag (fun _ p q => p + q) (fun f r p q => f.add r (f.decode p) (f.decode q)) s.hart (s.hart.tag a))
      (start.1 :: l.map (s.hart.elem a)) x.1 p
  let some_ := fun (i : Instr) (act : List Nat) (upTo : Nat → List Nat) =>
    (s.hart.st.det = true → exec i s = .next (s.trapWord .deterministic)) ∧
    (ready → ∃ t f, exec i s = .next t ∧ s.draws ≤ t.draws ∧ (isIntTag (s.hart.tag a) = true → t.draws = s.draws ∧ ∀ e, f e = (total (upTo e), Raised.none)) ∧
      (isFpTag (s.hart.tag a) = true → ∀ e ∈ act, sum (upTo e) (f e)) ∧
      WritesV d (s.hart.tag a) act f { s with draws := t.draws } t)
  some_ (.vredsumu d a b m) [0] (fun _ => s.hart.wholeActive m) ∧
  some_ (.vscanf d a b m) (s.hart.wholeActive m) (fun e => (s.hart.wholeActive m).filter fun q => decide (q ≤ e))

/-- R144, R248, R249, R250, R142: VCVT is element-wise between tags of one width and whole otherwise, Q choosing the part of the
wider side; VCVTS and VRAND use the hash of R140 and count one step each. -/
def Obligations.ConversionsAndRandomElements : Prop := ∀ (d a m : Reg) (q : Fin 4) (T : Tag) (half : Fin 2),
  let ws := fun h : Hart => tagWidth (h.tag a)
  let wd := tagWidth T
  let parts := fun h : Hart => max (ws h) wd / min (ws h) wd
  let n := fun h : Hart => 8192 / max (ws h) wd
  let f := fun (h : Hart) (e : Nat) => convertElem h.rounding (h.tag a) T (h.elem a e)
  let conv := Instr.vcvt d a q T m
  let ready := fun s : State => OnStrand s ∧ s.hart.tag a ≠ .i16p ∧ q.val < parts s.hart ∧ s.hart.vlen ≤ n s.hart ∧ s.hart.vlen ≠ 0
  (∀ s, OnStrand s → parts s.hart ≤ q.val → exec conv s = .next (s.trapWord .illegal)) ∧
  (∀ s, OnStrand s → q.val < parts s.hart → s.hart.tag a = .i16p → exec conv s = .next (s.trapWord .tag)) ∧
  (∀ s, OnStrand s → q.val < parts s.hart → s.hart.tag a ≠ .i16p → n s.hart < s.hart.vlen → exec conv s = .next (s.trapWord .vectorLength)) ∧
  Completes conv (fun s => ready s ∧ ws s.hart = wd) (ElementWise d m (fun _ => T) f) ∧
  Completes conv (fun s => ready s ∧ ws s.hart < wd) (WholeWrite d (fun _ => T) (·.wholeActive m) fun h e => f h (q.val * n h + e)) ∧
  Completes conv (fun s => ready s ∧ wd < ws s.hart) (WholeWrite d (fun _ => T)
    (fun h => (h.wholeActive m).map fun e => q.val * n h + e) fun h e => f h (e - q.val * n h)) ∧
  let stepped := fun t : State => { t.hart with iss := { t.hart.iss with draws := t.hart.iss.draws + 1 } }
  let random := fun (h : Hart) (e : Nat) =>
    (randBits h.csr.rngseed h.rank.val h.id.vcid.val (h.csr.rngctr + BitVec.ofNat 32 h.iss.draws).toNat e).toNat
  let draws := fun (i : Instr) (ok : Hart → Bool) (post : State → State → Prop) =>
    (∀ s, OnStrand s → ok s.hart = false → exec i s = .next (s.trapWord .tag)) ∧
    (∀ s, OnStrand s → ok s.hart = true → 256 < s.hart.vlen → exec i s = .next (s.trapWord .vectorLength)) ∧
    (∀ s, OnStrand s → ok s.hart = true → s.hart.vlen = 0 → exec i s = .next { s with hart := stepped s }) ∧
    Completes i (fun s => OnStrand s ∧ ok s.hart = true ∧ s.hart.vlen ≤ 256 ∧ s.hart.vlen ≠ 0) fun s t =>
      ∃ u, post s u ∧ t = { u with hart := stepped u }
  draws (.vrand d m) (fun _ => true) (ElementWise d m (fun _ => .i32) fun h e => (random h e, .none)) ∧
  draws (.vcvts d a half m) (fun h => h.tag a == .fp32) (WholeWrite d (fun _ => .bf16)
    (fun h => (h.wholeActive m).map fun e => half.val * 256 + e) fun h e =>
      stochastic (h.elem a (e - half.val * 256)) (random h (e - half.val * 256) % 65536))

/-- R127, R136, R251: VQSCALE writes the E8M0 codes of the blocks of 32 elements, four to a word of an I32 register, and raises NV
where an active element is a signalling NaN. -/
def Claim.BlockScalesAreWrittenFourToAWord : Prop := ∀ (d a m : Reg) (f : QFmt),
  Judged (.vqscale d a f m) (fun h => decide (h.tag a ≠ .i64 ∧ h.tag a ≠ .i16p)) (fun h => tagMvl (h.tag a)) fun s t =>
    let h := s.hart
    let blocks := (h.vlen + 31) / 32
    ∃ c : Nat → Nat, (∀ j, blocks ≤ j → c j = 0) ∧
      (∀ j, j < blocks → c j = blockCode f (((h.wholeActive m).filter fun e => decide (e / 32 = j)).map fun e => elemValue (h.tag a) (h.elem a e))) ∧
      (∀ j, c j < 256) ∧
      WholeWrite d (fun _ => .i32) (fun _ => List.range ((blocks + 3) / 4)) (fun _ i =>
        (c (4 * i) + c (4 * i + 1) * 2 ^ 8 + c (4 * i + 2) * 2 ^ 16 + c (4 * i + 3) * 2 ^ 24,
        { nv := (h.wholeActive m).any fun e => (elemValue (h.tag a) (h.elem a e)).isSignalling })) s t

/-- R252, R253: VIOTA counts the set bits of its predicate below each element; VMVXS and VMVSX move one element, unmasked and
by element 0 of the mask. That an inactive VMVSX leaves VDIRTY is the model's choice (log 98). -/
def Claim.IotaAndScalarMoves : Prop := ∀ (d a i m x : Reg),
  let tagOf := fun h : Hart => if h.csr.width = 0 then Tag.i16 else if h.csr.width = 1 then Tag.i32 else Tag.i64
  Judged (.viota d m) (fun _ => true) (fun h => tagMvl (tagOf h)) (WholeWrite d tagOf (fun h => List.range h.vlen) fun h e =>
    ((List.range e).countP fun j => (h.getP m).getLsbD j, .none)) ∧
  Completes (.vmvxs d a i m) (fun s => OnStrand s ∧ s.hart.vlen ≠ 0) (WritesX d fun h =>
    if isFpTag (h.tag a) then BitVec.ofNat 64 (h.elem a i.val) else BitVec.ofInt 64 (Claim.signedOfBits (tagWidth (h.tag a)) (h.elem a i.val))) ∧
  Judged (.vmvsx d x m) (fun _ => true) (fun h => tagMvl (h.tag d)) fun s t =>
    if 0 ∈ s.hart.active m
    then WritesV d (s.hart.tag d) [0] (fun _ => ((s.hart.getX x).toNat % 2 ^ tagWidth (s.hart.tag d), .none)) s t
    else t = s

/-- R254 to R257: the sorts are stable, VMERGEK merges two sorted halves, VTOPK ranks by value and then by index, VSEGHEAD marks
the elements that differ from the one before; ranked elements go to v(d), their indices to v(d + 1).
That VTOPK raises NV for signalling NaNs only, and writes a NaN it keeps as the canonical one, is the model's reading (log 18). -/
def Obligations.SortsRankElementsStably : Prop := ∀ (d a b m x : Reg),
  let pairs := fun (h : Hart) (l : List Nat) => l.map fun e => (h.elem a e, e)
  let ranked := fun (T U : Tag) (l : List (Nat × Nat)) (s t : State) => ∃ u,
    WritesV d T (List.range l.length) (fun e => ((l.getD e (0, 0)).1, .none)) s u ∧
    WritesV (d + 1) U (List.range l.length) (fun e => ((l.getD e (0, 0)).2, .none)) u t
  let key := fun h : Hart => decide (h.tag a = .i32 ∨ h.tag a = .i64)
  let most := fun h : Hart => tagMvl (h.tag a)
  let sorts := fun (i : Instr) (lt : Nat → Nat → Prop) => Judged i key most fun s t => ∃ l : List (Nat × Nat),
    l.Perm (pairs s.hart (s.hart.wholeActive m)) ∧ l.Pairwise (fun p q => lt p.1 q.1 ∨ (p.1 = q.1 ∧ p.2 < q.2)) ∧
    ranked (s.hart.tag a) (s.hart.tag a) l s t
  sorts (.vsort d a m) (fun p q => p < q) ∧ sorts (.vsortd d a m) (fun p q => q < p) ∧
  Judged (.vmergek d a b) (fun h => key h && h.tag b == h.tag a) most (fun s t =>
    let h := s.hart
    let na := (h.vlen + 1) / 2
    let left := pairs h (List.range na)
    let right := (List.range (h.vlen - na)).map fun j => (h.elem b j, na + j)
    ∃ l : List (Nat × Nat), l.Perm (left ++ right) ∧ ranked (h.tag a) (h.tag a) l s t ∧
      (left.Pairwise (fun p q => p.1 ≤ q.1) → right.Pairwise (fun p q => p.1 ≤ q.1) →
        l.Pairwise (fun p q => p.1 < q.1 ∨ (p.1 = q.1 ∧ p.2 < q.2)))) ∧
  Judged (.vseghead d a m) (fun h => isIntTag (h.tag a)) most (fun s t =>
    WritesP d (s.hart.wholeActive m) (fun e => (decide (e = 0 ∨ s.hart.elem a e ≠ s.hart.elem a (e - 1)), .none)) s t) ∧
  Judged (.vtopk d a x m) (fun h => decide (isFpTag (h.tag a) = true ∨ h.tag a = .i32)) most (fun s t =>
    let h := s.hart
    let T := h.tag a
    let U : Tag := if T = .bf16 then .i16 else .i32
    let k := min (h.getX x).toNat h.vlen
    let out := fun v : Nat => if isFpTag T = true ∧ ((tagFmt T).decode v).isNan = true then (tagFmt T).nanBits else v
    let none_ := if isFpTag T then (tagFmt T).infBits + 2 ^ ((tagFmt T).width - 1) else 2 ^ 31
    if k = 0 then t = s
    else ∃ (l : List (Nat × Nat)) (r : State), l.Perm (pairs h (h.wholeActive m)) ∧
      l.Pairwise (fun p q => ranksAbove T p.1 q.1 = true ∨ (ranksAbove T q.1 p.1 = false ∧ p.2 < q.2)) ∧
      ranked T U ((l.take k).map (fun p => (out p.1, p.2)) ++ List.replicate (k - l.length) (none_, 2 ^ tagWidth U - 1)) s r ∧
      t = { r with hart := { r.hart with csr := { r.hart.csr with fflags := t.hart.csr.fflags } } } ∧
      (t.hart.csr.fflags = r.hart.csr.fflags ||| if isFpTag T = true ∧ (h.wholeActive m).any (fun e => ((tagFmt T).decode (h.elem a e)).isSignalling) then 16#5 else 0#5))

/-- R299, R300, R289: VACCRD and VACCWR move a row of the visible accumulator bank of the cluster the gang is resident in, and
bind the gang there; without a slot they hold. -/
def Claim.AccumulatorRowsMoveToAndFromVectors : Prop := ∀ (d r x m : Reg) (c : Fin 64),
  let bound := fun s : State => { s with gangs := s.gangs.map fun g => if g.id = gangOf s.hart.id then { g with bound := some c } else g }
  let here := fun s : State => OnStrand s ∧ s.clusterOf (gangOf s.hart.id) = some c
  let tagOf := fun s : State => if s.clusters[c].mode = 0 then Tag.fp32 else Tag.i32
  let row := fun s : State => Fin.ofNat 256 (s.hart.getX x).toNat
  let fits := fun s : State => s.hart.vlen ≤ 256 ∧ s.hart.vlen ≠ 0
  Completes (.vaccrd d x m) (fun s => here s ∧ fits s) (fun s t =>
    WritesV d (tagOf s) (s.hart.wholeActive m) (fun e => ((s.clusters[c].visible[row s].extractLsb' (32 * e) 32).toNat, .none)) (bound s) t) ∧
  Completes (.vaccwr r x m) (fun s => here s ∧ fits s ∧ s.hart.tag r = tagOf s) (fun s t => ∃ w : BitVec 8192,
    t = { bound s with clusters := s.clusters.set c { s.clusters[c] with visible := s.clusters[c].visible.set (row s) w } } ∧
    ∀ e, e < 256 → (w.extractLsb' (32 * e) 32).toNat =
      if e ∈ s.hart.wholeActive m then s.hart.elem r e else (s.clusters[c].visible[row s].extractLsb' (32 * e) 32).toNat) ∧
  (∀ s, here s → s.hart.tag r ≠ tagOf s → exec (.vaccwr r x m) s = .next (s.trapWord .tag)) ∧
  ∀ s, OnStrand s → s.clusterOf (gangOf s.hart.id) = none → fits s →
    exec (.vaccrd d x m) s = .next { s with hart := { s.hart with wait := none }.setFlow (.held 0) }

/-! ### Vector memory (R258-R272) -/

/-- A vector load whose elements all find their data: the active elements of its registers hold it, in the tags they had. -/
def Claim.LoadsBy (i : Instr) (shape : Hart → VShape) (index : Option Reg) : Prop := ∀ (s : State) (val : Reg → Nat → Nat),
  let h := s.hart
  let v := shape h
  OnStrand s → h.judgeAccess loadPairs v.fmt v.regs index false = none → h.vlen ≠ 0 → v.misaligned h = false → h.st.det = false →
  (∀ e ∈ h.active v.mask, ∀ x ∈ positions (v.fields e),
    s.loadField v.fmt v.cls v.base e x.1 x.2 = .ok (x.2.reg, val x.2.reg e) s) →
  ∃ t, exec i s = .next t ∧ if h.range = [] then t = s else
    t = { s with hart := { h with v := t.hart.v, csr := { h.csr with vdirty := t.hart.csr.vdirty } } } ∧
    (∀ k : Reg, t.hart.csr.vdirty.getLsbD k.val = (h.csr.vdirty.getLsbD k.val || decide (k ∈ v.regs))) ∧
    (∀ r, r ∉ v.regs → t.hart.v[r] = h.v[r]) ∧
    ∀ r ∈ v.regs, ∀ e, let w := tagWidth (h.tag r); w * e + w ≤ 8192 →
      elemOf t.hart.v[r] w e = if e ∈ h.active v.mask then val r e % 2 ^ w else elemOf h.v[r] w e

/-- R258, R263 to R267: unit-stride, strided, indexed and segment loads; field k of element e of a segment load is register
d + k. -/
def Claim.VectorLoadsWriteTheirActiveElements : Prop := ∀ (d x i c m : Reg) (n : Fin 8) (cls : Fin 16) (f : MemFmt),
  Claim.LoadsBy (.vld d n cls f m) (fun h => unitShape h d n cls f m) none ∧
  Claim.LoadsBy (.vlds d n x cls f m) (fun h => stridedShape h d n x cls f m) none ∧
  Claim.LoadsBy (.vldx d n i cls f m) (fun h => indexedShape h d n i cls f m) (some i) ∧
  Claim.LoadsBy (.vldseg d n c cls f m) (fun h => segmentShape h d n c cls f m) none ∧
  (∀ (h : Hart) (e k : Nat), k < c.val →
    ((segmentShape h d n c cls f m).fields e)[k]? = some ⟨d + Fin.ofNat 32 k, ((e * c.val + k : Nat) : Int), k * ((h.vlen + 31) / 32) + e / 32⟩) ∧
  (∀ (h : Hart) (e : Nat), ((unitShape h d n cls f m).fields e).map (·.j) = [(e : Int)] ∧
    ((stridedShape h d n x cls f m).fields e).map (·.j) = [(e : Int) * (h.getX x).toInt] ∧
    ((indexedShape h d n i cls f m).fields e).map (·.j) = [(h.elem i e : Int)])

/-- R130, R133, R258: without a scale, field j of an access in a byte format lies j widths above the base, low bits first, and
widens to the register's tag; a native field is copied, INT8 and INT4 are sign-extended to integer tags, BF16 fills the high half. -/
def Claim.MemoryFieldsWidenToTheRegister : Prop := ∀ (s : State) (f : MemFmt) (cls : Fin 16) (base : Word) (e k : Nat) (x : VField) (pa : Nat),
  let T := s.hart.tag x.reg
  let m := memWidth f T
  let va := base + BitVec.ofInt 64 (x.j * m / 8)
  f ≠ .nested → s.hart.csr.bscale = 0 → LeadsToDevice .load s va pa → Readable s pa →
  let raw := if m = 4 then (s.mem.get pa).toNat / 2 ^ (x.j * m % 8).toNat % 16 else s.mem.getNat pa (m / 8)
  s.loadField f cls base e k x = .ok (x.reg, widen f T raw (.pow 0)) s ∧
  widen .native T raw (.pow 0) = raw ∧
  (isIntTag T = true → raw < 256 → widen .int8 T raw (.pow 0) = Claim.bitsOfInt (tagWidth T) (Claim.signedOfBits 8 raw)) ∧
  (isIntTag T = true → raw < 16 → widen .int4 T raw (.pow 0) = Claim.bitsOfInt (tagWidth T) (Claim.signedOfBits 4 raw)) ∧
  (raw < 65536 → widen .bf16 T raw (.pow 0) = if (bf16.decode raw).isNan then fp32.nanBits else raw * 65536)

/-- A vector store whose elements may all be written: every write is performed, in element order (`free`: in some order), one
store is counted, SATF gathers the elements that saturated, and every byte outside the writes stays. -/
def Claim.StoresBy (i : Instr) (shape : Hart → VShape) (index : Option Reg) (free : Bool) : Prop :=
  ∀ (s : State) (ws : Nat → VField → List Write) (sat : Nat → VField → Bool),
  let h := s.hart
  let v := shape h
  let act := h.active v.mask
  let of := fun e => (v.fields e).flatMap (ws e)
  OnStrand s → h.judgeAccess storePairs v.fmt v.regs index free = none → h.vlen ≠ 0 → v.misaligned h = false →
  h.storesFull = false → s.badLines = [] → s.hostGaps = [] → (∀ g ∈ s.gangs, g.dirtyBad = []) → act ≠ [] →
  (∀ e ∈ act, ∀ x ∈ positions (v.fields e), s.storeField v.fmt v.cls v.base e x.1 x.2 = .ok (ws e x.2, sat e x.2) s ∧
    ∀ w ∈ ws e x.2, ∃ pa, w.target = .device pa) →
  ∃ (t : State) (l : List (List Write)), exec i s = .next t ∧ l.Perm (act.map of) ∧ (free = false → l = act.map of ∧ t.draws = s.draws) ∧
    t = { s with
      mem := l.flatten.foldl (fun m w => match w.target with
        | .device pa => m.setBytes pa (w.merge (m.getBytes pa w.data.length))
        | _ => m) s.mem
      draws := t.draws
      hart := (h.addPending v.cls).raise { sat := act.any fun e => (v.fields e).any (sat e) } } ∧
    ∀ a, (∀ e ∈ act, ∀ w ∈ of e, ∀ pa, w.target = .device pa → a < pa ∨ pa + w.data.length ≤ a) → t.mem.get a = s.mem.get a

/-- R258, R263 to R267, R102: the vector stores; where VSTXU names one address twice, which element wins is open. -/
def Claim.VectorStoresWriteTheirActiveElements : Prop := ∀ (r x i c m : Reg) (n : Fin 8) (cls : Fin 16) (f : MemFmt),
  Claim.StoresBy (.vst r n cls f m) (fun h => unitShape h r n cls f m) none false ∧
  Claim.StoresBy (.vsts r n x cls f m) (fun h => stridedShape h r n x cls f m) none false ∧
  Claim.StoresBy (.vstx r n i cls f m) (fun h => indexedShape h r n i cls f m) (some i) false ∧
  Claim.StoresBy (.vstxu r n i cls f m) (fun h => indexedShape h r n i cls f m) (some i) true ∧
  Claim.StoresBy (.vstseg r n c cls f m) (fun h => segmentShape h r n c cls f m) none false ∧
  ∀ (s : State) (e k pa : Nat) (y : VField), f = .native →
    let w := tagWidth (s.hart.tag y.reg)
    let va := s.hart.base n + BitVec.ofInt 64 (y.j * w / 8)
    LeadsToDevice .store s va pa → s.storeField f cls (s.hart.base n) e k y =
      .ok ([{ target := .device pa, data := leBytes (w / 8) (s.hart.elem y.reg e), va := va }], false) s

/-- R268: VLDB writes no register when it issues: it is counted in the loads counter and its data is written later, by
VLDB_DATA_WRITE, which also leaves the duplicate mask in its predicate and counts the load off.
When the data is read is the model's choice (log 17). -/
def Claim.BackgroundLoadsAreWrittenLater : Prop := ∀ (d p i : Reg) (n : Fin 8) (cls : Fin 16) (f : MemFmt) (s : State) (el : Nat → VldbElem),
  let h := s.hart
  let all := List.range h.vlen
  OnStrand s → h.judgeAccess loadPairs f [d] (some i) false = none → h.vlen ≠ 0 → h.st.det = false →
  (f = .nested ∨ memWidth f (h.tag d) < 16 ∨ (h.base n).toNat % (memWidth f (h.tag d) / 8) = 0) → h.cnt.loads ≠ 0xFFFF →
  (∀ e ∈ all, s.vldbElem f cls (h.tag d) (h.base n) i e = .ok (el e) s) →
  ∃ v : PendingVldb, v.dest = d ∧ v.pred = p ∧ v.tag = h.tag d ∧ v.elems = all.map el ∧
    (∀ e, e < 512 → (v.dup.getLsbD e = true ↔ ∃ k, e < k ∧ k < h.vlen ∧ h.elem i k = h.elem i e)) ∧
    exec (.vldb d n i cls f p) s = .next { s with hart := { h with vldbs := h.vldbs ++ [v], cnt := { h.cnt with loads := h.cnt.loads + 1 } } }

/-- An indexed atomic on its active elements, each at its index times its size above the base and led to a device address `pa e`: all are
applied, each to what the lower ones left; indices of a VAMOX.ADDU on FP32, whose order is open, are distinct (R269 to R271). -/
def Claim.VamoxOn (i : Instr) (op : Vamox) (r : Reg) (n : Fin 8) (x : Reg) (cls : Fin 16) (m : Reg) (f : Nat → Nat → Nat → Nat) (g : Nat → Nat → Nat) : Prop :=
  ∀ (s : State) (pa : Nat → Nat),
  let h := s.hart
  let T := h.tag r
  let z := tagWidth T / 8
  let va := fun e => h.base n + BitVec.ofNat 64 (h.elem x e * z)
  let act := h.active m
  let put := fun (mem : Memory) (e : Nat) =>
    let old := mem.getNat (pa e) z
    mem.setBytes (pa e) (leBytes z (if T = .fp32 then g old (h.elem r e) else f (8 * z) old (h.elem r e)))
  let after := fun k => { s with mem := (act.take k).foldl put s.mem }
  OnStrand s → vamoxTag op T = true → isIntTag (h.tag x) = true → (h.st.det = true → vamoxFree op T = false) →
  h.vlen ≠ 0 → h.vlen ≤ tagMvl T → h.vlen ≤ tagMvl (h.tag x) → h.storesFull = false → act ≠ [] →
  (op = .addu → T = .fp32 → (act.map (h.elem x)).Nodup) →
  (∀ k e, act[k]? = some e → (va e).toNat % z = 0 ∧ LeadsToDevice .atomic (after k) (va e) (pa e) ∧ Readable s (pa e) ∧
    (isHostMemory (pa e) = true → T ≠ .fp32 ∧ (op = .add ∨ op = .addu ∨ op = .swap))) →
  exec i s = .next { after act.length with hart := h.addPending cls } ∧
  ∀ a, (∀ e ∈ act, a < pa e ∨ pa e + z ≤ a) → (after act.length).mem.get a = s.mem.get a

/-- R269, R270, R271: integer operations modulo the width, signed minimum and maximum; FP32 sums round to nearest; no register is
written. Every active element is applied, in ascending order, for VAMOX.ADDU on FP32 where their indices are distinct. -/
def Claim.IndexedAtomicsApplyTheirOperation : Prop := ∀ (r x m : Reg) (n : Fin 8) (cls : Fin 16),
  let sg := Claim.signedOfBits
  let add := fun o b : Nat => (fp32.add .nearest (fp32.decode o) (fp32.decode b)).1
  let no := fun o _ : Nat => o
  Claim.VamoxOn (.vamoxAdd r n x cls m) .add r n x cls m (fun w o b => (o + b) % 2 ^ w) add ∧
  Claim.VamoxOn (.vamoxAddu r n x cls m) .addu r n x cls m (fun w o b => (o + b) % 2 ^ w) add ∧
  Claim.VamoxOn (.vamoxMin r n x cls m) .min r n x cls m (fun w o b => if sg w b < sg w o then b else o) (fun o b => (fp32.minmax false o b).1) ∧
  Claim.VamoxOn (.vamoxMax r n x cls m) .max r n x cls m (fun w o b => if sg w o < sg w b then b else o) (fun o b => (fp32.minmax true o b).1) ∧
  Claim.VamoxOn (.vamoxAnd r n x cls m) .and r n x cls m (fun _ o b => o &&& b) no ∧
  Claim.VamoxOn (.vamoxOr r n x cls m) .or r n x cls m (fun _ o b => o ||| b) no ∧
  Claim.VamoxOn (.vamoxXor r n x cls m) .xor r n x cls m (fun _ o b => o ^^^ b) no ∧
  Claim.VamoxOn (.vamoxSwap r n x cls m) .swap r n x cls m (fun _ _ b => b) (fun _ b => b)

/-- R74, R272: a VPUSH before which no other waits appends one entry, inactive elements and the rest of the entry zero; a VPOP
before which no other waits takes the oldest entry, unless it is uncorrectable (R441). -/
def Claim.FifoBanksPushAndPopEntries : Prop := ∀ (r m : Reg) (n : Fin 8) (cls : Fin 16) (s : State) (b : Nat) (K : Bank) (w : BitVec 4) (z : BitVec 16),
  let h := s.hart
  let T := h.tag r
  let va := (h.base n).toNat
  let bytes := h.vlen * tagWidth T / 8
  let g := some (gangOf h.id)
  OnStrand s → h.vlen ≠ 0 → h.vlen ≤ tagMvl T → clusterBase ≤ va → va < clusterBase + clusterSize → (va - clusterBase) / 0x40000 = b →
  s.bank? g b = some K → K.switching = none → K.mode = .fifo w z → K.receive = false → bytes ≤ 2 ^ w.toNat →
  let put := fun k : Bank => s.setBank g b k
  let entry := (((List.range h.vlen).map fun e => if (h.getP m).getLsbD e then h.elem r e else 0).flatMap (leBytes (tagWidth T / 8))) ++
    List.replicate (2 ^ w.toNat - bytes) 0
  (K.entries.length < z.toNat + 1 → h.storesFull = false → s.fifoAhead h .push (h.base n) = false → exec (.vpush r n cls m) s = .next { put { K with entries := K.entries ++ [entry] } with
    hart := { (if h.wholeActive m = [] then h else h.addPending cls) with turn := none } }) ∧
  (∀ y rest, K.entries = y :: rest → s.fifoAhead h .pop (h.base n) = false → K.bad.contains 0 = false → ∃ t, exec (.vpop r n cls m) s = .next t ∧
    WritesV r T (h.wholeActive m) (fun e => (leNat ((y.drop (e * (tagWidth T / 8))).take (tagWidth T / 8)), .none))
      { put { K with entries := rest, bad := K.bad.map (· - 1) } with hart := { h with turn := none } } t) ∧
  (∀ k : WaitKind, (∀ o ∈ s.allHarts, o.id ≠ h.id → gangOf o.id = gangOf h.id → o.wait = none ∧ o.turn = none) → s.fifoAhead h k (h.base n) = false)

/-! ### Versioned memory (R108-R120, R273-R281) -/

/-- An address leads to granule `q` of the live region of index `i` (R109). -/
def Claim.LeadsToGranule (k : AccessKind) (s : State) (va : Word) (pa i : Nat) (r : Region) (q : Nat) : Prop :=
  s.resolve s.hart.ctx k va = .ok (.device pa) ∧ s.regionAt s.hart.part pa = some (i, r, q)

/-- R114, R273: a versioned load reads the greatest created version at or below its own; below the horizon it takes cause 0x18,
above the latest it waits, or ends in the cause of a wait that has reached its limit, and outside every region it takes cause 0x1D. -/
def Claim.VersionedLoadsReadTheGreatestVersionBelow : Prop := ∀ (d a b : Reg) (cls : Fin 16) (s : State) (pa i q : Nat) (r : Region),
  let h := s.hart
  let va := h.getX a
  let v := (h.getX b).toNat % 2 ^ 32
  let snapshot := v = 0xFFFFFFFF
  let g := r.granule q
  let at_ := fun n : BitVec 1024 => BitVec.ofNat 64 (leNat (((leBytes 128 n.toNat).drop (pa % 128)).take 8))
  OnStrand s → va.toNat % 8 = 0 →
  (Claim.LeadsToGranule .load s va pa i r q →
    (snapshot → h.st.det = false → s.versionLost r q v = false → ∃ t, exec (.ldv d a b cls) s = .next t ∧ WritesX d (fun _ => at_ g.newest) s t) ∧
    (snapshot → h.st.det = true → exec (.ldv d a b cls) s = .next (s.trapWord .deterministic)) ∧
    (¬ snapshot → r.horizon ≤ v → v ≤ g.latest.toNat → ∀ n x, some (n, x) ∈ g.slots → n.toNat ≤ v →
      (∀ k y, some (k, y) ∈ g.slots → k.toNat ≤ v → (k.toNat < n.toNat ∨ (k, y) = (n, x))) → s.versionLost r q v = false →
      ∃ t, exec (.ldv d a b cls) s = .next t ∧ WritesX d (fun _ => at_ x) s t) ∧
    (¬ snapshot → v < r.horizon → exec (.ldv d a b cls) s = .next (s.trap false 0 .versionMissing va)) ∧
    (¬ snapshot → r.horizon ≤ v → g.latest.toNat < v → h.due = none → ∃ w : Wait, w.met = false ∧
      w.kind = (if s.listFull (s.resolve h.ctx .load va) then .versionRefused else .versionLoad) ∧
      exec (.ldv d a b cls) s = .next { s with hart := { h with wait := some w, turn := none, iss := { h.iss with flow := .held 0 } } }) ∧
    (¬ snapshot → r.horizon ≤ v → g.latest.toNat < v → ∀ c, h.due = some c → exec (.ldv d a b cls) s = .next (s.trap false 0 c va))) ∧
  (LeadsToDevice .load s va pa → (h.st.det = false ∨ ¬ snapshot) → exec (.ldv d a b cls) s = .next (s.trap false 0 .notVersioned va))

/-- R112, R118: VERSIONED_STORE_STEP, the step VSTV takes in each granule, puts the data into one free slot, which one is
open, and the version into LATEST; versions not above LATEST and the number that names a snapshot change nothing. -/
def Claim.VersionedStoresCreateOneVersion : Prop := ∀ (s : State) (i q : Nat) (r : Region) (n : BitVec 32) (x : BitVec 1024),
  s.regions[i]? = some r → q < r.pages.length * 512 →
  let g := r.granule q
  let free := fun k => ∃ o, g.slots[k]? = some o ∧ (o = none ∨ ∃ y, o = some y ∧ y.1.toNat < g.keep (r.horizonAt q))
  (n ≠ BitVec.allOnes 32 → g.latest < n → (∃ k, free k) → ∃ t k, exec (.versionedStoreStep i q n x) s = .next t ∧ free k ∧
    t = { s with draws := t.draws, badLines := s.badLines.filter fun l => l ≠ r.dataLine q k, rewritten := t.rewritten, regions := s.regions.set i (r.setGranule { g with latest := n, slots := g.slots.set k (some (n, x)) }) }) ∧
  (n = BitVec.allOnes 32 ∨ ¬ g.latest < n ∨ (∀ k, ¬ free k) → exec (.versionedStoreStep i q n x) s = .next s) ∧
  (¬ (n = BitVec.allOnes 32) → n = g.latest → s.createVersion i r q n x = .fault .versionCollision) ∧
  (¬ (n = BitVec.allOnes 32) → n < g.latest → s.createVersion i r q n x = .fault .versionOrder) ∧
  (n = BitVec.allOnes 32 → s.createVersion i r q n x = .fault .versionExhausted)

/-- R274, R275: VLDV gives each active element the bytes of one version of its granule; VSTV stores whole granules of a register
and counts as one store. -/
def Claim.VectorVersionedAccesses : Prop := ∀ (d x m : Reg) (n : Fin 8) (cls : Fin 16) (s : State),
  let h := s.hart
  let T := h.tag d
  let w := tagWidth T
  let v := (h.getX x).toNat % 2 ^ 32
  let addr := fun e => h.base n + BitVec.ofNat 64 (e * (w / 8))
  OnStrand s → h.vlen ≠ 0 → h.vlen ≤ tagMvl T → h.st.det = false →
  (∀ x8 : Nat → BitVec 1024, (h.base n).toNat % (w / 8) = 0 →
    (∀ e ∈ h.active m, ∀ key,
      s.versionedBytes (addr e - BitVec.ofNat 64 ((addr e).toNat % 128)) v 128 cls key = .ok (leBytes 128 (x8 e).toNat) s) →
    ∃ t, exec (.vldv d n x cls m) s = .next t ∧ if h.range = [] then t = s else
      WritesV d T (h.active m) (fun e => (leNat (((leBytes 128 (x8 e).toNat).drop ((addr e).toNat % 128)).take (w / 8)), .none)) s t) ∧
  (∀ u : State, (h.base n).toNat % 128 = 0 → h.vlen * w / 8 % 128 = 0 → h.storesFull = false → h.classPending cls = false → h.firstElem = 0 →
    let todo := List.range (h.vlen * w / 8 / 128)
    s.vstvRun (fun q s => s.vstvGranule (h.base n + BitVec.ofNat 64 (128 * q)) v cls (leBytes 128 (h.v[d].extractLsb' (1024 * q) 1024).toNat)
      (q * (1024 / w))) todo = (todo.length, none, u) →
    exec (.vstv d n x cls) s = .next { u with hart := u.hart.addPending cls })

/-- R113, R117, R276 to R278: VPUB raises LATEST of every granule of its range; VRETIRE moves a cursor forward, or makes it
inactive; VRQRY reads a word of a granule's record. -/
def Claim.PublishRetireAndQuery : Prop := ∀ (d a b v : Reg) (cls slot : Fin 16) (w : Fin 5) (s : State) (pa i q : Nat) (r : Region),
  let h := s.hart
  let va := h.getX a
  let size := (h.getX b).toNat
  let n := BitVec.ofNat 32 ((h.getX v).toNat % 2 ^ 32)
  let c := BitVec.ofNat 32 ((h.getX b).toNat % 2 ^ 32)
  OnStrand s →
  (∀ qs, va.toNat % 128 = 0 → size % 128 = 0 → size ≠ 0 → n ≠ BitVec.allOnes 32 → h.storesFull = false → h.classPending cls = false →
    Claim.LeadsToGranule .store s va pa i r q → s.rangeRegion none (size / 128) va = .ok qs →
    ∃ t r1, exec (.vpub v a b cls) s = .next t ∧ t = { s with regions := s.regions.set i r1, hart := h.addPending cls } ∧
      (∀ k, r1.granule k = if k ∈ qs ∧ (r.granule k).latest < n then { r.granule k with latest := n } else r.granule k) ∧
      r1 = { r with granules := r1.granules }) ∧
  (Claim.LeadsToGranule .load s va pa i r q →
    (∀ old, r.cursors[slot.val]? = some old → ∃ t r1, exec (.vretire a b slot) s = .next t ∧ t = { s with regions := s.regions.set i r1 } ∧
      r1 = { r with cursors := r1.cursors, ahead := r1.ahead } ∧ r1.horizonAt 0 = r1.horizon % 2 ^ 32 ∧
      r1.cursors = r.cursors.set slot.val (match old with
        | none => none
        | some k => if c = BitVec.allOnes 32 then none else some (if k < c then c else k))) ∧
    (r.cursors.length ≤ slot.val → exec (.vretire a b slot) s = .next (s.trap false 0 .notVersioned (BitVec.ofNat 64 r.base))) ∧
    ∃ t, exec (.vrqry d a w) s = .next t ∧ WritesX d (fun _ => r.query q w) s t) ∧
  ((r.query q 0).extractLsb' 0 32 = (r.granule q).latest ∧
    (r.query q 4).toNat % 2 ^ 32 = r.horizon % 2 ^ 32)

/-- R279 to R281: VRDECL answers the lowest status that its descriptor meets, and with 0 adds a live region whose cursors are all
at 0; VRFREE answers 1 where no region has that base, else writes each granule's newest version back to its mapped page, wakes the
loads that wait in the region, and ends it. -/
def Claim.RegionsAreDeclaredAndFreed : Prop := ∀ (d a : Reg) (s : State) (v : Nat),
  let h := s.hart
  let k := RegionDescriptor.parse v
  Supervisor s →
  ((h.getX a).toNat % 64 = 0 → s.readBlock (h.getX a) 64 = .ok v s →
    (∀ n, s.declareStatus k = .error n → ∃ t, exec (.vrdecl d a) s = .next t ∧ WritesX d (fun _ => BitVec.ofNat 64 n) s t) ∧
    (k.format ≠ 1 → s.declareStatus k = .error 1) ∧ (k.format = 1 → k.inRange = false → s.declareStatus k = .error 2) ∧
    (∀ pages l, s.declareStatus k = .ok pages → s.readEntries 8 k.poolCount (BitVec.ofNat 64 k.poolList) = .ok l s →
      (s.poolPages k l = none → ∃ t, exec (.vrdecl d a) s = .next t ∧ WritesX d (fun _ => 6) s t) ∧
      ∀ pool, s.poolPages k l = some pool → ∃ r : Region,
        exec (.vrdecl d a) s = .next { s with
          regions := s.regions ++ [r], hart := h.setX d 0
          badLines := s.badLines.filter fun l => ! (r.slotLines 0).contains l
          rewritten := s.badLines.filter (r.slotLines 0).contains ++ s.rewritten } ∧
        r.part = h.part ∧ r.base = k.base ∧ r.pages = pages ∧ r.pool = pool ∧ r.depth = k.depth ∧ r.granules = [] ∧
        r.cursors = List.replicate k.cursors (some 0) ∧ r.horizonAt 0 = 0)) ∧
  ((∀ r ∈ s.regions, r.part = h.part → r.base ≠ (h.getX a).toNat) → ∃ t, exec (.vrfree d a) s = .next t ∧ WritesX d (fun _ => 1) s t) ∧
  (∀ r pre post, s.regions = pre ++ r :: post → r.part = h.part → r.base = (h.getX a).toNat →
    (∀ u ∈ pre, u.part = h.part → u.base ≠ (h.getX a).toNat) →
    let waits := fun w : Waker => s.allParked.any fun e => s.waitsAt pre.length none e && e.who == w
    let woken := fun o : Hart => if waits (.hart o.engine o.id) then { o with wait := o.wait.map fun w => { w with met := true } } else o
    ∃ t, exec (.vrfree d a) s = .next t ∧ t = { s with
        mem := t.mem, badLines := t.badLines, regions := pre ++ post, hart := (woken h).setX d 0, harts := s.harts.map woken
        jobs := s.jobs.map fun j => if waits (.job j.item) then { j with hold := j.hold.map fun w => { w with woken := true } } else j
        fabric := { s.fabric with waits := s.fabric.waits.map fun e => if waits (.span e.since) then { e with woken := true } else e } } ∧
      (s.badLines = [] → t.badLines = []) ∧
      (∀ x, (∀ p ∈ r.pages, x < p ∨ p + 65536 ≤ x) → t.mem.get x = s.mem.get x) ∧
      (Memory.wf s.mem → r.pages.Pairwise (fun p q => p + 65536 ≤ q ∨ q + 65536 ≤ p) → ∀ i pa k, r.pages[i]? = some pa → k < 512 →
        t.mem.getBytes (pa + 128 * k) 128 = leBytes 128 (r.granule (512 * i + k)).newest.toNat))

/-! ### The sorted exchange (R317-R338, R448-R451) -/

/-- The strand in issue takes part in session `sid` (R318, R331): it is session `x`, and `q` is its part in it. -/
def Claim.TakesPart (sid : Fin 16) (x : Session) (q : SxParticipant) (s : State) : Prop :=
  OnStrand s ∧ s.session? s.hart.part sid = some x ∧ x.live = true ∧ x.participant? s.hart.id = some q ∧
    q.stale = false ∧ q.closed = false

/-- Session `sid` of the strand's partition becomes `y` and the hart in front becomes `h` of itself; nothing else differs. -/
def Claim.SessionBecomes (sid : Fin 16) (y : Session) (h : Hart → Hart) (s t : State) : Prop :=
  t = { s with hart := h s.hart, sessions := t.sessions } ∧ t.session? s.hart.part sid = some y ∧
    ∀ p j, (p, j) ≠ (s.hart.part, sid) → t.session? p j = s.session? p j

/-- R331: the first SXOPEN of an id reads the descriptor and the splitters and opens the session, a later one joins it at the
rounds completed so far; in a launch of SPANTAG 0 the span is its own rank (R356); each status is the lowest that applies, and a status other than 0 changes nothing else. -/
def Claim.SessionsOpenAndAreJoined : Prop := ∀ (d a : Reg) (sid : Fin 16) (s : State), OnStrand s →
  let va := s.hart.getX a
  let answers := fun n : Nat => exec (.sxopen d a sid) s = .next { s with hart := s.hart.setX d (BitVec.ofNat 64 n) }
  let joins := fun (x : Session) => ∃ t, exec (.sxopen d a sid) s = .next t ∧
    t = { s with hart := s.hart.setX d 0, sessions := t.sessions, gangs := t.gangs } ∧
    (∀ p j, (p, j) ≠ (s.hart.part, sid) → t.session? p j = s.session? p j) ∧
    (∃ y, t.session? s.hart.part sid = some y ∧ y.live = true ∧ y.desc = x.desc ∧ y.descAddr = x.descAddr ∧
      y.opener = x.opener ∧ y.completed = x.completed ∧ y.splitters = x.splitters ∧ y.records = x.records ∧
      y.participant? s.hart.id = some (.join s.hart.id x.completed)) ∧
    ∀ k, s.serves x.desc x.opener ≠ none → s.bank? (some (gangOf s.hart.id)) (rxBankOf x.desc s.hart.id) = some k →
      t.bank? (some (gangOf s.hart.id)) (rxBankOf x.desc s.hart.id) = some { k with receive := true, entries := [] }
  (va.toNat % 128 ≠ 0 → exec (.sxopen d a sid) s = .next (s.trap false 0 .misaligned va)) ∧
  (va.toNat % 128 = 0 → (∀ x, s.session? s.hart.part sid = some x → x.live = false) →
    ∀ v, s.readBlock va 128 = .ok v s →
      (∀ n, parseSession v s.spanRanks = .error n → answers n) ∧
      ∀ parsed, parseSession v s.spanRanks = .ok parsed →
        let k := if s.ownSpan then { parsed with span := min parsed.span 1 } else parsed
        let retired := (s.session? s.hart.part sid).bind (·.retired)
        (s.receiveBankOk k s.hart.id = false → answers 4) ∧
        (s.receiveBankOk k s.hart.id = true → retired = some k.gen → answers 5) ∧
        (s.receiveBankOk k s.hart.id = true → retired ≠ some k.gen → s.hart.st.det = true ∧ k.det = false →
          exec (.sxopen d a sid) s = .next (s.trapWord .deterministic)) ∧
        (s.receiveBankOk k s.hart.id = true → retired ≠ some k.gen → ¬ (s.hart.st.det = true ∧ k.det = false) →
          ∀ keys, s.readKeys (k.keyBits / 8) (k.receivers - 1) k.split = .ok keys s →
            (ascending keys = false → exec (.sxopen d a sid) s = .next (s.trap true 0 .sxSplitters (BitVec.ofNat 64 sid.val))) ∧
            (ascending keys = true → ∃ x : Session, x.desc = k ∧ x.descAddr = va ∧ x.opener = s.hart.id ∧ x.completed = 0 ∧
              x.splitters = keys ∧ x.records = [] ∧ joins x))) ∧
  (va.toNat % 128 = 0 → ∀ x, s.session? s.hart.part sid = some x → x.live = true →
    (x.covers s.hart.id = false ∨ va ≠ x.descAddr → answers 3) ∧
    (x.covers s.hart.id = true → va = x.descAddr → s.receiveBankOk x.desc x.opener = false → answers 4) ∧
    (x.covers s.hart.id = true → va = x.descAddr → s.receiveBankOk x.desc x.opener = true →
      x.participant? s.hart.id = none → joins x))

/-- R330, R332: SXSPLIT and SXRESPLIT stage the strand's one request for the next splitters and write 0. -/
def Claim.SplitterRequestsAreStaged : Prop := ∀ (d a : Reg) (sid : Fin 16) (x : Session) (q : SxParticipant),
  Completes (.sxsplit d a sid) (fun s => Claim.TakesPart sid x q s ∧ (s.hart.getX a).toNat % 8 = 0)
    (fun s => Claim.SessionBecomes sid (x.setParticipant { q with request := .table (s.hart.getX a) }) (·.setX d 0) s) ∧
  Completes (.sxresplit d sid) (Claim.TakesPart sid x q)
    (Claim.SessionBecomes sid (x.setParticipant { q with request := .resplit }) (·.setX d 0)) ∧
  ∀ s, Claim.TakesPart sid x q s → (s.hart.getX a).toNat % 8 ≠ 0 →
    exec (.sxsplit d a sid) s = .next (s.trap false 0 .misaligned (s.hart.getX a))

/-- R333, R415: SXROUND registers the strand's arrival for the round above its count and waits; issued again, from its wait or at its
convoy after a trap, it stays with the round it registered for (log 47), and once that round is complete it writes its number modulo 2^16 and
leaves a report of cause 0x24 for each bad completion it has not reported (R330). A round that needs an unreachable rank is not waited for:
cause 0x2A, and nothing else (R450). -/
def Claim.RoundsCloseAndAreCounted : Prop := ∀ (d : Reg) (sid : Fin 16) (x : Session) (q : SxParticipant) (n : Nat),
  let mine := fun w : Wait => w.kind == .sxRound && w.addr == BitVec.ofNat 64 sid.val
  let closes := fun s : State => match s.hart.wait with
    | some w => n = if mine w then w.elem else q.rounds + 1
    | none => n = match s.hart.abandoned.find? fun e => e.pc == s.hart.pc && mine e.wait with
      | some e => e.wait.elem
      | none => q.rounds + 1
  let reported := fun h : Hart => (q.bad.filter fun k => decide (k ≤ n)).foldl (fun h _ =>
    h.addReport { src := 0, pos := 0, cause := 0x24, stval := BitVec.ofNat 64 sid.val }) h
  Completes (.sxround d sid) (fun s => Claim.TakesPart sid x q s ∧ closes s ∧ n ≤ q.rounds)
    (Claim.SessionBecomes sid (x.setParticipant { q with bad := q.bad.filter fun k => decide (n < k) })
      fun h => ((reported h).setX d (BitVec.ofNat 64 (n % 65536))).setFlow .seq) ∧
  Completes (.sxround d sid) (fun s => Claim.TakesPart sid x q s ∧ closes s ∧ q.rounds < n ∧ s.roundLost x = false) (fun s => Claim.SessionBecomes sid
    (x.setParticipant (if q.arrived then q else { q with arrived := true, closing := some n, closingAt := s.hart.pc }))
    (fun h => { h with
      wait := some { s.newWait .sxRound 0 (BitVec.ofNat 64 sid.val) with elem := n }, turn := none
      iss := { h.iss with flow := .held 0 } }) s) ∧
  ∀ s, Claim.TakesPart sid x q s → closes s → q.rounds < n → s.roundLost x = true →
    (∀ y ∈ s.sessions, ∀ z ∈ y.participants, z.strand = s.hart.id → z.closingAt = s.hart.pc → z.arrived = false) →
    exec (.sxround d sid) s = .next (s.trap false 0 .unreachable (BitVec.ofNat 64 sid.val))

/-- R334, R448: SXCLOSE ends the strand's part in the session; SXCLOSE.ABORT retires its generation for every participant, which
each then meet cause 0x23, frees the id, and tells the other ranks of a session that spans them. Both write 0. -/
def Claim.SessionsAreLeftAndAborted : Prop := ∀ (d : Reg) (sid : Fin 16) (x : Session) (q : SxParticipant),
  let kept := fun s t : State => t = { s with
    hart := s.hart.setX d 0, sessions := t.sessions, gangs := t.gangs, outputs := t.outputs, fabric := t.fabric } ∧
    ∀ p j, (p, j) ≠ (s.hart.part, sid) → t.session? p j = s.session? p j
  Completes (.sxclose d sid) (Claim.TakesPart sid x q) (fun s t => kept s t ∧ t.outputs = s.outputs ∧ t.fabric = s.fabric ∧
    ∀ y, t.session? s.hart.part sid = some y → y.joined s.hart.id = false) ∧
  Completes (.sxcloseAbort d sid) (Claim.TakesPart sid x q) (fun s t => kept s t ∧
    (x.desc.span ≠ 2 ∨ x.ranks ≤ 1 → t.outputs = s.outputs ∧ t.fabric = s.fabric) ∧
    (x.desc.span = 2 → 1 < x.ranks → ∃ l, t.outputs = l ++ s.outputs ∧
      (∀ o ∈ l, ∃ to_ r, o = .message to_ r ∧ r.op = .sxAbort sid x.desc.gen) ∧
      ∀ n ∈ s.otherRanks s.hart.part, ∀ to_, s.fabricRank s.hart.part n = some to_ →
        ∃ r, .message to_ r ∈ l ∧ r.op = .sxAbort sid x.desc.gen ∧ r.src = s.fabric.self) ∧
    ∃ y, t.session? s.hart.part sid = some y ∧ y.live = false ∧ y.retired = some x.desc.gen ∧ y.records = [] ∧
      ∀ r ∈ y.participants, r.closed = false → r.stale = true) ∧
  ∀ s x q a k m, OnStrand s → s.session? s.hart.part sid = some x → x.participant? s.hart.id = some q → q.stale = true →
    ∀ i ∈ [Instr.sxround d sid, .sxresplit d sid, .sxclose d sid, .sxcloseAbort d sid, .sxsplit d a sid,
      .sxsend k a sid m, .sxsendNew k a sid m, .sxrecv k a sid m],
      exec i s = .next (s.trap true 0 .sxRetired (BitVec.ofNat 64 sid.val))

/-- R317, R318, R335, R336: SXSEND and SXSEND.NEW append one record for each active element below vl, in ascending order, with the
strand's source number, its run, and positions that go on in the run, after its SXROUND to the round after (R327); a key that falls
takes cause 0x21. -/
def Claim.RecordsAreSentInRuns : Prop := ∀ (k p m : Reg) (sid : Fin 16) (x : Session) (q : SxParticipant) (new : Bool) (s : State),
  let i : Instr := if new then .sxsendNew k p sid m else .sxsend k p sid m
  let h := s.hart
  let act := (List.range h.vlen).filter fun e => (h.getP m).getLsbD e
  let keys := act.map (h.elem k)
  let c := if q.arrived then q.later else q.now
  let starts := new = true ∨ c.runs = 0
  let inOrder := (∀ n, n + 1 < keys.length → keys.getD n 0 ≤ keys.getD (n + 1) 0) ∧
    (if starts then c.runs < 16 else c.lastKey ≤ keys.headD 0)
  Claim.TakesPart sid x q s →
  ((h.tag k = if x.desc.wideKey then Tag.i64 else .i32) → x.desc.elements = 0 → h.vlen ≤ (if x.desc.wideKey then 128 else 256) →
    (act = [] → exec i s = .next s) ∧
    (act ≠ [] → ¬ inOrder → exec i s = .next (s.trap true 0 .sxKeyOrder (BitVec.ofNat 64 sid.val)))) ∧
  (h.judgeSend k p x.desc = none → act ≠ [] → inOrder → ∃ t, exec i s = .next t ∧
    t = { s with
      hart := { h with csr := { h.csr with satf := t.hart.csr.satf } }
      sessions := t.sessions } ∧
    (∀ b j, (b, j) ≠ (h.part, sid) → t.session? b j = s.session? b j) ∧
    ∃ (y : Session) (l : List SxRecord) (z : SxParticipant), t.session? h.part sid = some y ∧
      (if q.arrived then y.laterRecords = x.laterRecords ++ l ∧ y.records = x.records
        else y.records = x.records ++ l ∧ y.laterRecords = x.laterRecords) ∧
      l.length = act.length ∧ y.participant? h.id = some z ∧ z.rounds = q.rounds ∧
      let after := if q.arrived then z.later else z.now
      after.sent = c.sent + act.length ∧ after.runs = (if starts then c.runs + 1 else c.runs) ∧
      ∀ n, n < act.length → ∃ r, l[n]? = some r ∧ r.key = h.elem k (act.getD n 0) ∧
        r.source = h.rank.val * 1024 + h.id.vcid.val ∧ r.run = after.runs - 1 ∧
        r.position = (if starts then 0 else c.runLen) + n ∧ r.payload.length = x.desc.elements ∧
        (x.desc.ptype ∈ [PayloadType.fp32, .bf16, .int32] → r.payload = h.payload p x.desc (act.getD n 0))) ∧
  (h.tag k ≠ (if x.desc.wideKey then Tag.i64 else .i32) →
    exec i s = .next (s.trap true 0 .sxPayload (BitVec.ofNat 64 sid.val)))

/-- R335, R337: SXRECV takes at most vl records of the strand's round from the head of its buffer, writes their keys, payloads and
first-of-key bits, record by record, and sets vl to how many it took; with vl 0 it changes nothing, and with no round or no receiver sets vl to 0. -/
def Claim.RecordsAreReceivedInOrder : Prop := ∀ (k p f : Reg) (sid : Fin 16) (x : Session) (q : SxParticipant) (s : State),
  let h := s.hart
  let i : Instr := .sxrecv k p sid f
  let most := if x.desc.wideKey then 128 else 256
  let size := if x.desc.ptype = .bf16 then 512 else 256
  let regs := fun n : Nat => (n * x.desc.elements + size - 1) / size
  let fits := x.desc.elements = 0 ∨ p.val + regs h.vlen ≤ 32
  Claim.TakesPart sid x q s →
  (h.vlen = 0 → exec i s = .next s) ∧
  (h.vlen ≠ 0 → most < h.vlen ∨ ¬ fits → exec i s = .next (s.trapWord .vectorLength)) ∧
  (h.vlen ≠ 0 → h.vlen ≤ most → fits →
    (q.rounds = 0 ∨ s.serves x.desc x.opener = none → exec i s = .next { s with hart := { h with csr := { h.csr with vl := 0 } } }) ∧
    ∀ (j : Nat) (r : SxReceiver), q.rounds ≠ 0 → s.serves x.desc x.opener = some j →
      x.receivers.find? (fun r => r.index == j) = some r →
      let ready := r.buffer.filter fun y => decide (y.1 = q.rounds)
      let n := min h.vlen ready.length
      let waits := r.cut = false ∧ (r.finished + 1 < q.rounds ∨ (ready = [] ∧ r.finished < q.rounds))
      let written := fun b : Reg => x.desc.elements ≠ 0 ∧ p.val ≤ b.val ∧ b.val < p.val + regs n
      (waits → s.roundLost x = true → ∃ u : State, exec i s = .next (u.trap false 0 .unreachable (BitVec.ofNat 64 sid.val)) ∧
          u = { s with sessions := u.sessions }) ∧
      (waits → s.roundLost x = false → ∃ t, exec i s = .next t ∧ t = { s with hart := t.hart, sessions := t.sessions } ∧
          t.hart.iss.flow = .held 0 ∧ (∃ w, t.hart.wait = some w ∧ w.kind = .sxRecv) ∧
          t.hart.x = h.x ∧ t.hart.v = h.v ∧ t.hart.p = h.p ∧ t.hart.csr = h.csr) ∧
      (¬ waits → ∃ t, exec i s = .next t ∧ t = { s with hart := t.hart, sessions := t.sessions } ∧
          t.hart.x = h.x ∧ t.hart.pc = h.pc ∧ t.hart.st = h.st ∧
          t.hart.csr = { h.csr with
            vl := BitVec.ofNat 10 n, width := if x.desc.wideKey then 2 else 1, vdirty := t.hart.csr.vdirty } ∧
          (∀ b, b ≠ k → ¬ written b → t.hart.v[b] = h.v[b] ∧ t.hart.tag b = h.tag b) ∧
          (∀ b, b ≠ f → t.hart.getP b = h.getP b) ∧
          (¬ written k → t.hart.tag k = if x.desc.wideKey then Tag.i64 else .i32) ∧
          (∀ b, written b → t.hart.tag b = match x.desc.ptype with | .bf16 => Tag.bf16 | .int32 => .i32 | _ => .fp32) ∧
          (∀ e y, e < n → ready[e]? = some y →
            (¬ written k → t.hart.elem k e = y.2.key % 2 ^ x.desc.keyBits) ∧
            (∀ (c : Nat) (b : Reg), c < x.desc.elements → b.val = p.val + (e * x.desc.elements + c) / size → b ≠ k →
              t.hart.elem b ((e * x.desc.elements + c) % size) = y.2.payload.getD c 0 % 2 ^ tagWidth (t.hart.tag b)) ∧
            (f ≠ 0 → (t.hart.getP f).getLsbD e =
              match (if e = 0 then r.last else (ready[e - 1]?).map fun z => (z.1, z.2.key)) with
              | some z => decide (z ≠ (q.rounds, y.2.key))
              | none => true)) ∧
          (∀ e, n ≤ e → e < 512 → (t.hart.getP f).getLsbD e = (h.getP f).getLsbD e) ∧
          let put := fun (v : Vector VecBits 32) (b : Reg) (w i z : Nat) => v.set b (putElem v[b] w i z)
          t.hart.v = (List.range n).foldl (fun v e =>
            let y := (ready[e]?.map (·.2)).getD { key := 0, source := 0, run := 0, position := 0, payload := [], scale := 0 }
            (List.range x.desc.elements).foldl (fun v c =>
              put v (p + Fin.ofNat 32 ((e * x.desc.elements + c) / size)) (8192 / size) ((e * x.desc.elements + c) % size)
                (y.payload.getD c 0)) (put v k x.desc.keyBits e y.key)) h.v))

/-- R338: SXSTAT writes 0 for a session that is not open for the strand, else its view of it: received and null counts, round count,
generation, SDROP, OVF, OPEN, DONE; nothing else changes. -/
def Claim.SessionStatusIsRead : Prop := ∀ (d : Reg) (sid : Fin 16),
  Completes (.sxstat d sid) (fun s => OnStrand s ∧ s.session? s.hart.part sid = none) (WritesX d fun _ => 0) ∧
  ∀ x q, Completes (.sxstat d sid) (Claim.TakesPart sid x q) fun s t => ∃ v : Word, WritesX d (fun _ => v) s t ∧
    (v.extractLsb' 32 16).toNat = q.rounds % 65536 ∧ v.extractLsb' 48 8 = x.desc.gen ∧ v.getLsbD 62 = true ∧
    v.getLsbD 60 = x.sdrop ∧ v.extractLsb' 56 4 = 0 ∧
    ∀ r ∈ x.receivers, x.receivers.find? (fun y => y.index == r.index) = some r → s.serves x.desc x.opener = some r.index →
      (v.getLsbD 63 = true ↔ q.rounds ≠ 0 ∧ q.rounds ≤ r.finished) ∧
      ∀ y, r.tallies.find? (fun z => z.round == q.rounds) = some y → y.received ≤ 65535 → y.nulls ≤ 65535 →
        (v.extractLsb' 0 16).toNat = y.received ∧ (v.extractLsb' 16 16).toNat = y.nulls ∧
        (v.getLsbD 61 = true ↔ y.dropped = true ∨ r.missed = true ∨ r.cut = true)

/-- R327, R330: a round completes once no joined participant is still to arrive; every joined participant's round count rises by 1,
its arrival and its request are taken back, what was sent after the SXROUNDs becomes the next round's, and with no request staged
the splitters stay. The participants of this rank only take part (log 31). When the step comes is the model's choice (log 77). -/
def Claim.RoundsCompleteTogether : Prop := ∀ (p : Fin 8) (sid : Fin 16) (s : State) (x : Session), s.session? p sid = some x →
  (s.roundReady x = false → exec (.sxRoundComplete p sid) s = .next s) ∧
  (s.roundReady x = true → s.sessionOver x = false → (∀ q ∈ x.participants, q.request = .none) →
    ∃ t, exec (.sxRoundComplete p sid) s = .next t ∧ t.mem = s.mem ∧ t.hart.x = s.hart.x ∧ t.hart.v = s.hart.v ∧
      t.hart.reports = s.hart.reports ∧ (∀ b j, (b, j) ≠ (p, sid) → t.session? b j = s.session? b j) ∧
      ∃ y, t.session? p sid = some y ∧ y.completed = x.completed + 1 ∧ y.splitters = x.splitters ∧ y.records = x.laterRecords ∧
        y.samples = x.laterSamples ∧ y.laterRecords = [] ∧ y.receivers.map (·.index) = x.receivers.map (·.index) ∧ y.participants.length = x.participants.length ∧
        ∀ (n : Nat) (q z : SxParticipant), x.participants[n]? = some q → y.participants[n]? = some z → z.strand = q.strand ∧
          (q.closed = true ∨ q.stale = true → z = q) ∧
          (q.closed = false → q.stale = false → z.rounds = q.rounds + 1 ∧ z.arrived = false ∧ z.now = q.later ∧ z.later = .none))

/-- R317, R321, R323: without a combiner, a receiver's stream of a round holds exactly the records whose keys the splitters give
it, in record order. -/
def Obligations.StreamsAreInRecordOrder : Prop := ∀ (s : State) (x : Session) (j : Nat),
  let order := fun r : SxRecord => [r.key, r.source, r.run, r.position]
  let mine := x.records.filter fun r => decide ((x.splitters.filter fun t => decide (t ≤ r.key)).length = j)
  let stream := (s.streamFor x j).1
  x.desc.comb = .none →
    (stream.map order).Perm (mine.map order) ∧ (stream.map order).Pairwise (fun a b => ¬ b < a) ∧ (s.streamFor x j).2 = s

/-- R328, R338: a record of the oldest stream of a receiver lands at the tail of its buffer and is counted, or, where the buffer
is full, is dropped, which SXSTAT's OVF shows; nothing else changes. -/
def Claim.RecordsLandOrAreDropped : Prop := ∀ (p : Fin 8) (sid : Fin 16) (j : Nat) (s : State) (x : Session) (r : SxReceiver)
    (q : SxParticipant) (round : Nat) (y : SxRecord) (l : List SxRecord) (more : List (Nat × List SxRecord)),
  s.session? p sid = some x → x.receivers.find? (fun r => r.index == j) = some r → r.incoming = (round, y :: l) :: more →
  x.participant? (x.serving j) = some q → q.stale = false → q.closed = false → r.cut = false → r.freeing = none →
  ∃ t z, exec (.sxRecordDelivery p sid j) s = .next t ∧ t = { s with sessions := t.sessions } ∧
    (t.session? p sid).bind (fun u => u.receivers.find? fun r => r.index == j) = some z ∧
    z.incoming = (if l = [] then more else (round, l) :: more) ∧ (l = [] → z.finished = round) ∧
    (r.buffer.length < 262144 / x.desc.recordBytes → z.buffer = r.buffer ++ [(round, y)] ∧
      ∀ u, r.tallies.find? (fun v => v.round == round) = some u → ∃ w, z.tallies.find? (fun v => v.round == round) = some w ∧
        w.received = u.received + 1 ∧ w.dropped = u.dropped) ∧
    (262144 / x.desc.recordBytes ≤ r.buffer.length → z.buffer = r.buffer ∧
      ∀ u, r.tallies.find? (fun v => v.round == round) = some u → ∃ w, z.tallies.find? (fun v => v.round == round) = some w ∧
        w.received = u.received ∧ w.dropped = true)

/-! ### Jobs, launches, streams, bank modes (R70-R73, R106, R212, R216, R282, R301, R350) -/

/-- R106, R301: JOB snapshots the card, writes the job's id and counts it in its class, or writes the code of a card it does not
accept and queues nothing; an address not aligned to 128 traps, and while the die or the counter is full it is held. -/
def Claim.JobsAreQueuedOrRefused : Prop := ∀ (d a : Reg) (s : State) (v : Nat), OnStrand s →
  let h := s.hart
  let va := h.getX a
  let tiles := v.testBit 21
  (va.toNat % 128 ≠ 0 → exec (.job d a) s = .next (s.trap false 0 .misaligned va)) ∧
  (va.toNat % 128 = 0 → s.readBlock va 128 = .ok v s →
    let format := v % 65536
    let ring := v / 2 ^ 64 % 2 ^ 64
    let log2 := v / 2 ^ 27 % 32
    let refused := fun n : Nat => exec (.job d a) s = .next { s with hart := h.setX d (BitVec.ofNat 64 n) }
    (¬ (1 ≤ format ∧ format ≤ 2) → refused 0x8000000000000001) ∧
    (1 ≤ format ∧ format ≤ 2 → ring % 64 ≠ 0 ∨ 16 < log2 → refused 0x8000000000000002) ∧
    (1 ≤ format ∧ format ≤ 2 → ring % 64 = 0 → log2 ≤ 16 → s.hasRoom s.myDie = true →
      (if tiles then h.cnt.tiles else h.cnt.copies) ≠ 0xFFFF → ∃ j : Job, exec (.job d a) s = .next { s with
        jobs := s.jobs ++ [j], items := s.items + 1
        hart := { h with
          nextJob := if h.nextJob = 0xFFFFFFFF then 1 else h.nextJob + 1
          cnt := if tiles then { h.cnt with tiles := h.cnt.tiles + 1 } else { h.cnt with copies := h.cnt.copies + 1 }
          }.setX d (h.nextJob.zeroExtend 64) } ∧
        j.card = leBytes 128 v ∧ j.ctx = .strand h.id ∧ j.id = h.nextJob ∧ j.complete = false) ∧
    (1 ≤ format ∧ format ≤ 2 → ring % 64 = 0 → log2 ≤ 16 →
      s.hasRoom s.myDie = false ∨ (if tiles then h.cnt.tiles else h.cnt.copies) = 0xFFFF →
      exec (.job d a) s = .next { s with hart := { h with wait := none }.setFlow (.held 0) }))

/-- R212, R350, R355: LAUNCH queues the launch its header makes on the queue it names and writes its sequence number, or writes
the code of a rejected header and queues nothing; while the die is full it is held. -/
def Claim.LaunchesAreQueuedOrRefused : Prop := ∀ (d a : Reg) (s : State) (v : Nat), OnStrand s →
  let va := s.hart.getX a
  let n := headerQueue v
  let q := s.queues[n]
  let refused := fun n : Nat => exec (.launch d a) s = .next { s with hart := s.hart.setX d (BitVec.ofNat 64 n) }
  (va.toNat % 128 ≠ 0 → exec (.launch d a) s = .next (s.trap false 0 .misaligned va)) ∧
  (va.toNat % 128 = 0 → s.readBlock va 128 = .ok v s →
    (v % 65536 ≠ 1 → refused 0x8000000000000001) ∧
    (v % 65536 = 1 → (v / 2 ^ 20 % 32 < 12 ∨ 20 < v / 2 ^ 20 % 32 ∨ 44 < v / 2 ^ 32 % 64 ∨ v / 2 ^ 64 % 4 ≠ 0) → refused 0x8000000000000002) ∧
    (checkHeader v false = none → q.cfg.getLsbD 63 = false ∨ q.cfg.toNat / 2 ^ 59 % 8 ≠ s.hart.part.val → refused 0x8000000000000003) ∧
    (checkHeader v false = none → q.cfg.getLsbD 63 = true → q.cfg.toNat / 2 ^ 59 % 8 = s.hart.part.val → s.hasRoom s.myDie = true →
      ∃ l : Launch, exec (.launch d a) s = .next { s with
        launches := s.launches ++ [l], items := s.items + 1, queues := s.queues.set n { q with nextSeq := q.nextSeq + 1 }
        hart := s.hart.setX d q.nextSeq } ∧
      l.state = .queued ∧ l.queue = n ∧ l.record = va ∧ l.seq = q.nextSeq ∧ l.parent = some s.hart.id.launch ∧
      l.stages = v / 2 ^ 16 % 8 + 1 ∧ l.entry.toNat = v / 2 ^ 64 % 2 ^ 64) ∧
    (checkHeader v false = none → q.cfg.getLsbD 63 = true → q.cfg.toNat / 2 ^ 59 % 8 = s.hart.part.val → s.hasRoom s.myDie = false →
      exec (.launch d a) s = .next { s with hart := { s.hart with wait := none }.setFlow (.held 0) }))

/-- R78, R282: STREAM binds the address register's stream, at most four at a time; STREAMOFF ends it. -/
def Claim.StreamsAreBoundAndReleased : Prop := ∀ (n : Fin 8) (b : Reg) (z : Size),
  let others := fun h : Hart => h.streams.filter fun x => x.reg != n
  Completes (.stream n b z) OnStrand (HartBecomes fun h => { h with
    streams := if (others h).length < 4 then others h ++ [{ reg := n, base := h.getX (Fin.ofNat 32 (16 + n.val)), length := h.getX b, size := z, position := h.getX (Fin.ofNat 32 (16 + n.val)) }]
      else others h }) ∧
  Completes (.streamoff n) OnStrand (HartBecomes fun h => { h with streams := others h })

/-- R71, R72, R216: BANKCFG writes the configuration the bank will hold; with bit 63 or the same configuration it only reads, else
the switch is queued; a bank not granted or a mode not defined takes cause 0x14. -/
def Claim.BankSwitchesAreQueued : Prop := ∀ (d a b : Reg) (s : State), OnStrand s →
  let g := some (gangOf s.hart.id)
  let n := (s.hart.getX a).toNat % 64
  let v := (s.hart.getX b).toNat
  let traps := exec (.bankcfg d a b) s = .next (s.trap false 0 .bank (BitVec.ofNat 64 (clusterBase + n * 0x40000)))
  (s.bank? g n = none → traps) ∧
  ∀ k, s.bank? g n = some k →
    ((s.hart.getX b).getLsbD 63 = true → exec (.bankcfg d a b) s = .next { s with hart := s.hart.setX d k.configWord }) ∧
    ((s.hart.getX b).getLsbD 63 = false → bankModeOf v = none → traps) ∧
    ∀ m, (s.hart.getX b).getLsbD 63 = false → bankModeOf v = some m →
      (m = k.future → exec (.bankcfg d a b) s = .next { s with hart := s.hart.setX d k.configWord }) ∧
      (m ≠ k.future → exec (.bankcfg d a b) s = .next { s.setBank g n { k with queued := k.queued ++ [m] } with
        hart := s.hart.setX d k.configWord })

/-- R72 to R74, R442: a queued switch begins, the pushes and pops that wait at the bank arriving again in their place; a bank that leaves cache mode
writes its dirty lines back, the uncorrectable ones staying so; it ends with the bank in its new mode, zero-filled or empty. -/
def Claim.BankSwitchesBeginAndEnd : Prop := ∀ (g : GangId) (b : Fin 44) (s : State) (k : Bank) (m : BankMode) (l : List BankMode),
  s.bank? (some g) b.val = some k →
  let here := fun (h : Hart) (w : Wait) => decide (gangOf h.id = g ∧ (w.kind = .push ∨ w.kind = .pop) ∧ bankNumber w.addr = b.val)
  let again := fun h : Hart => match h.wait with
    | some w => if here h w then { h with wait := none, turn := some { kind := w.kind, addr := w.addr, since := w.since } } else h
    | none => h
  let lost := fun n : Nat => k.mode = .cache ∧ ∃ x, s.gang? g = some x ∧ (b.val, n) ∈ x.dirtyBad
  (k.switching = none → k.queued = m :: l → k.receive = false → (∀ n, ¬ lost n) → exec (.bankSwitchBegin g b) s =
    .next { s.setBank (some g) b.val { k with switching := some m, queued := l } with
      hart := again s.hart, harts := s.harts.map again }) ∧
  (k.switching = none → k.queued = m :: l → k.receive = false → ∃ t, exec (.bankSwitchBegin g b) s = .next t ∧
    (∀ n, n ∈ t.badLines ↔ n ∈ s.badLines ∨ lost n) ∧ t.mem = s.mem ∧ t.hart = again s.hart ∧ t.harts = s.harts.map again) ∧
  (k.switching = some m → exec (.bankSwitchEnd g b) s = .next (s.setBank (some g) b.val
    { mode := m, switching := none, queued := k.queued, bytes := [], entries := [], receive := false, bad := [] })) ∧
  (k.switching = none → exec (.bankSwitchEnd g b) s = .next s)

/-! ### The matrix engine (R284-R297) -/

/-- R287, R290-R297: a matrix instruction takes the last place of the engine's queue with its operands as they are then; while 16
are pending it holds; on a strand it takes cause 0x08. -/
def Claim.MatrixInstructionsAreQueued : Prop := ∀ (a b g : Reg) (n k : Fin 4) (f : DrainFmt),
  let queues := fun (i : Instr) (op : Hart → MatrixOp) => ∀ (s : State) (c : Fin 64),
    (OnControl c s → s.clusters[c].queue.length < 16 → exec i s = .next { s with
      clusters := s.clusters.set c { s.clusters[c] with queue := s.clusters[c].queue ++ [op s.hart] } }) ∧
    (OnControl c s → 16 ≤ s.clusters[c].queue.length →
      exec i s = .next { s with hart := { s.hart with wait := none }.setFlow (.held 0) }) ∧
    (OnStrand s → exec i s = .next (s.trapWord .engine))
  queues (.mgather a b g n k) (fun h => .gather (h.getX b) (h.getX a) (h.getX g) n k) ∧
  queues (.mldb a) (fun h => .ldb (h.getX a)) ∧ queues (.mcfg a) (fun h => .cfg (h.getX a)) ∧
  queues (.mma k) (fun _ => .mma k) ∧ queues .mzero (fun _ => .zero) ∧ queues .mswap (fun _ => .swap) ∧
  queues (.mdrain a b f) (fun h => .drain (h.getX a) (h.getX b) f)

/-- R287, R295, R296: MWAIT goes on once at most its number of instructions, and fewer than 16, are pending; MSTAT reads the
engine's status, clearing the sticky flags where it says so.
That MWAIT also waits for a free place, and that PEND does not count it, is the model's reading (log 27). -/
def Claim.MatrixWaitsAndStatus : Prop := ∀ (c : Fin 64) (w d : Reg) (clear : Bool) (s : State), OnControl c s →
  let q := s.clusters[c]
  (q.queue.length ≤ w.val → q.queue.length < 16 → exec (.mwait w) s = .next { s with hart := s.hart.setFlow .seq }) ∧
  (w.val < q.queue.length ∨ 16 ≤ q.queue.length →
    exec (.mwait w) s = .next { s with hart := { s.hart with wait := none }.setFlow (.held 0) }) ∧
  ∃ v : Word, exec (.mstat d clear) s = .next { s with
      hart := s.hart.setX d v
      clusters := if clear then s.clusters.set c { q with flags := { nv := false, of := false, uf := false, nx := false, sat := false } } else s.clusters } ∧
    v.getLsbD 0 = q.flags.sat ∧ v.getLsbD 1 = q.flags.nx ∧ v.getLsbD 2 = q.flags.uf ∧ v.getLsbD 3 = q.flags.of ∧ v.getLsbD 4 = q.flags.nv ∧
    (q.queue.length ≤ 16 → v.extractLsb' 27 3 = q.mode ∧ v.extractLsb' 30 3 = q.brow ∧ v.extractLsb' 33 2 = q.bcol ∧
      v.extractLsb' 35 11 = q.trowsM1 ∧ v.extractLsb' 46 10 = q.tcolsM1 ∧ (v.extractLsb' 16 5).toNat = q.queue.length)

/-- R287, R290, R293-R295: the oldest instruction of an engine begins, then has its whole effect and leaves the queue: MZERO, MSWAP,
MCFG and, in an integer MODE whose B latch MLDB filled under it, MMA with one clamp for each element's exact sum. -/
def Claim.MatrixInstructionsHaveTheirEffect : Prop := ∀ (c : Fin 64) (s : State),
  let q := s.clusters[c]
  let done := fun (r : List MatrixOp) (x : Cluster) => exec (.matrixInstructionComplete c) s = .next { s with
    clusters := s.clusters.set c { x with queue := r, busy := false, stray := none } }
  (q.queue ≠ [] → q.busy = false → exec (.matrixInstructionBegin c) s = .next { s with
    clusters := s.clusters.set c { q with busy := true, owner := (s.program? c).map (·.id), stray := none } }) ∧
  (q.queue = [] ∨ q.busy = true → exec (.matrixInstructionBegin c) s = .next s) ∧
  (q.queue = [] ∨ q.busy = false → exec (.matrixInstructionComplete c) s = .next s) ∧
  (q.busy = true → ∀ r,
    (q.queue = .zero :: r → done r { q with working := Vector.replicate 256 0 }) ∧
    (q.queue = .swap :: r → done r { q with working := q.visible, visible := q.working }) ∧
    (∀ v : Word, q.queue = .cfg v :: r → (v.extractLsb' 27 3).toNat ≤ 4 → done r { q with
      mode := v.extractLsb' 27 3, brow := v.extractLsb' 30 3, bcol := v.extractLsb' 33 2
      trowsM1 := v.extractLsb' 35 11, tcolsM1 := v.extractLsb' 46 10 }) ∧
    (∀ k : Fin 4, q.queue = .mma k :: r → q.mode ≠ 0 → q.bMode = some q.mode → ∃ x : Cluster, done r x ∧
      x = { q with working := x.working, flags := { q.flags with sat := x.flags.sat } } ∧
      let total := fun m n : Fin 256 => sgn 32 (elemOf q.working[m] 32 n.val) + ((List.range (depthOf q.mode.toNat)).map fun i =>
        sgn 8 (aValue q m k.val i) * sgn 8 (bElem q.bLatch q.mode.toNat i n.val)).foldl (· + ·) 0
      (∀ m n, sgn 32 (elemOf x.working[m] 32 n.val) = max (-2147483648) (min 2147483647 (total m n))) ∧
      (x.flags.sat = true ↔ q.flags.sat = true ∨ ∃ m n, total m n < -2147483648 ∨ 2147483647 < total m n)))

/-- R147, R285, R286, R293: in MODE 0 an MMA adds to each element of the working bank the exact sum of its 32 products, with one rounding to
nearest; a NaN, infinity times zero or infinities of both signs give the canonical NaN. OF, UF and NX of those roundings are sticky. -/
def Claim.MmaAddsExactSumsOfFloats : Prop := ∀ (c : Fin 64) (s : State) (f : Fin 4) (r : List MatrixOp),
  let q := s.clusters[c]
  q.busy = true → q.queue = .mma f :: r → q.mode = 0 → q.bMode = some 0 → ∃ x : Cluster,
    exec (.matrixInstructionComplete c) s = .next { s with
      clusters := s.clusters.set c { x with queue := r, busy := false, stray := none } } ∧
    x = { q with working := x.working, flags := { x.flags with sat := q.flags.sat } } ∧
    let term := fun (m n : Fin 256) (k : Nat) => (bf16.decode (aValue q m f.val k)).mul (bf16.decode (bElem q.bLatch 0 k n.val))
    let old := fun m n : Fin 256 => fp32.decode (elemOf q.working[m] 32 n.val)
    let new := fun m n : Fin 256 => elemOf x.working[m] 32 n.val
    let has := fun (m n : Fin 256) (v : Val) => old m n = v ∨ ∃ k, k < 32 ∧ term m n k = some v
    let finite := fun (m n : Fin 256) (p : Nat → Exact) (a : Exact) => old m n = .fin a ∧ ∀ k, k < 32 → term m n k = some (.fin (p k))
    let rounded := fun (p : Nat → Exact) (a : Exact) =>
      fp32.deliver .nearest (.fin ((List.range 32).foldl (fun t k => t.add .nearest (p k)) a))
    (∀ m n p a, finite m n p a → new m n = (rounded p a).1) ∧
    (∀ m n, (∃ e, has m n (.nan e)) ∨ (has m n (.inf false) ∧ has m n (.inf true)) ∨ (∃ k, k < 32 ∧ term m n k = none) →
      new m n = fp32.nanBits) ∧
    (∀ m n e, has m n (.inf e) → ¬ has m n (.inf (! e)) → (∀ i, ¬ has m n (.nan i)) → (∀ k, k < 32 → term m n k ≠ none) →
      new m n = fp32.withSign e fp32.infBits) ∧
    let sticky := fun flag : Raised → Bool => ∃ m n p a, finite m n p a ∧ flag (rounded p a).2 = true
    (x.flags.of = true ↔ q.flags.of = true ∨ sticky (·.of)) ∧ (x.flags.uf = true ↔ q.flags.uf = true ∨ sticky (·.uf)) ∧
    (x.flags.nx = true ↔ q.flags.nx = true ∨ sticky (·.nx)) ∧ (q.flags.nv = true → x.flags.nv = true)

/-- A byte of a granted scratchpad bank that is not switching; where it is read, its 32-byte word holds no error (R59, R440, R441). -/
def Claim.EngineByte (s : State) (g : GangId) (read : Bool) (a : Nat) (v : Byte) : Prop :=
  ∃ b off K, a = clusterBase + b * 0x40000 + off ∧ b < 48 ∧ off < 0x40000 ∧ s.bank? (some g) b = some K ∧ K.switching = none ∧
    K.mode = .scratch ∧ (read = true → K.bad.contains (off / 32) = false) ∧ K.bytes.get off = v

/-- R286, R291, R292: MGATHER fills the slices it names of each row of the A latch with the row its index entry selects, zeros for entry
0xFFFF and for rows past the count; MLDB fills the B latch from its source in the layout of the current MODE. -/
def Claim.LatchesAreFilledFromTheBanks : Prop := ∀ (c : Fin 64) (s : State) (r : List MatrixOp) (byte : Nat → Byte),
  let q := s.clusters[c]
  let g := gangOf (q.owner.getD s.hart.id)
  let done := fun x : Cluster => exec (.matrixInstructionComplete c) s = .next { s with
    clusters := s.clusters.set c { x with queue := r, busy := false, stray := none } }
  let reads := fun (a : Word) (n : Nat) => ∀ i, i < n → Claim.EngineByte s g true (a.toNat + i) (byte (a.toNat + i))
  q.busy = true →
  (∀ (base index count : Word) (n f : Fin 4), q.queue = .gather base index count n f :: r →
    let rows := min (count.extractLsb' 32 9).toNat 256
    let stride := (count.extractLsb' 0 32).toNat
    let entry := fun m : Nat => (byte (index + BitVec.ofNat 64 (2 * m)).toNat).toNat +
      256 * (byte ((index + BitVec.ofNat 64 (2 * m)).toNat + 1)).toNat
    let source := fun m : Nat => base + BitVec.ofNat 64 (entry m * stride)
    index.toNat % 2 = 0 → base.toNat % 4 = 0 → stride % 4 = 0 →
    (∀ m, m < rows → reads (index + BitVec.ofNat 64 (2 * m)) 2 ∧ (entry m ≠ 0xFFFF → reads (source m) (64 * (n.val + 1)))) →
    ∃ x : Cluster, done x ∧ x = { q with aLatch := x.aLatch } ∧ ∀ (m : Fin 256) (j : Fin 4) (k : Fin 64),
      x.aLatch[m].extractLsb' (8 * (64 * ((f.val + j.val) % 4) + k.val)) 8 =
        if n.val < j.val then q.aLatch[m].extractLsb' (8 * (64 * ((f.val + j.val) % 4) + k.val)) 8
        else if rows ≤ m.val ∨ entry m.val = 0xFFFF then 0
        else byte ((source m.val).toNat + 64 * j.val + k.val)) ∧
  (∀ a : Word, q.queue = .ldb a :: r → a.toNat % 128 = 0 →
    let mode := q.mode.toNat
    let depth := if mode = 0 then 32 else if mode ≤ 2 then 64 else if mode = 3 then 128 else 256
    let planes := if mode = 2 then 8 else if mode = 3 then 4 else 2
    let at_ := fun o : Nat => byte ((a + BitVec.ofNat 64 (o / 128 * 128)).toNat + o % 128)
    (∀ o, o < (if mode ≤ 1 then 128 else 2 * depth) →
      let line := a + BitVec.ofNat 64 (128 * o)
      (∀ i, i < 128 → ∃ v, Claim.EngineByte s g false (line.toNat + i) v) ∧ (mode ≤ 1 ∨ o % 8 < planes → reads line 128)) →
    ∃ x : Cluster, done x ∧ x = { q with bLatch := x.bLatch, bMode := some q.mode } ∧ ∀ k n : Nat, k < depth → n < 256 →
      bElem x.bLatch mode k n =
        if mode = 0 then (at_ (2 * (256 * k + n))).toNat + 256 * (at_ (2 * (256 * k + n) + 1)).toNat
        else if mode = 1 then (at_ (256 * k + n)).toNat
        else
          let i := 256 * (k % 4) + n
          ((List.range planes).map fun p => ((at_ (1024 * (k / 4) + 128 * p + i / 8)).getLsbD (i % 8)).toNat * 2 ^ (7 - p)).sum)

/-- R297: MDRAIN writes each element of the visible bank that lies in the tile, converted, at its place, and no other byte of a bank;
SAT is set where one saturates. -/
def Claim.DrainsWriteTheTile : Prop := ∀ (c : Fin 64) (s : State) (a stride : Word) (f : DrainFmt) (r : List MatrixOp),
  let q := s.clusters[c]
  let g := gangOf (q.owner.getD s.hart.id)
  let inTile := fun m n : Nat => m < 256 ∧ n < 256 ∧ 256 * q.brow.toNat + m ≤ q.trowsM1.toNat ∧ 256 * q.bcol.toNat + n ≤ q.tcolsM1.toNat
  let z := match f with | .native => 4 | .bf16 => 2 | _ => 1
  let place := fun m n i : Nat => (a + BitVec.ofNat 64 m * stride).toNat + n * z + i
  let value := fun m n : Nat =>
    let x := elemOf q.visible[Fin.ofNat 256 m] 32 n
    let i := sgn 32 x
    match f with
    | .native => (x, false)
    | .bf16 => ((bf16.deliver .nearest (fp32.decode x)).1, false)
    | .e4m3 => narrow .e4m3 (fp32.decode x) 0
    | .e5m2 => narrow .e5m2 (fp32.decode x) 0
    | .int8 => (wrap 8 (max (-128) (min 127 i)), decide (i < -128 ∨ 127 < i))
  q.busy = true → q.queue = .drain a stride f :: r → (f = .native ∨ (q.mode = 0 ∧ f ≠ .int8) ∨ (q.mode ≠ 0 ∧ f = .int8)) →
  a.toNat % z = 0 → stride.toNat % z = 0 →
  (∀ m n i, inTile m n → i < z → ∃ v, Claim.EngineByte s g false (place m n i) v) →
  (∀ m n i m' n' i', inTile m n → inTile m' n' → i < z → i' < z → place m n i = place m' n' i' → m = m') →
  (∀ b K, s.bank? (some g) b = some K → Memory.wf K.bytes) →
  ∃ (t : State) (x : Cluster), exec (.matrixInstructionComplete c) s = .next t ∧
    t = { s with gangs := t.gangs, clusters := s.clusters.set c { x with queue := r, busy := false, stray := none } } ∧
    x = { q with flags := { q.flags with sat := x.flags.sat } } ∧
    (x.flags.sat = true ↔ q.flags.sat = true ∨ ∃ m n, inTile m n ∧ (value m n).2 = true) ∧
    (∀ m n i, inTile m n → i < z → Claim.EngineByte t g false (place m n i) (BitVec.ofNat 8 ((value m n).1 / 256 ^ i))) ∧
    ∀ b K, s.bank? (some g) b = some K → ∃ K', t.bank? (some g) b = some K' ∧ K' = { K with bytes := K'.bytes, bad := K'.bad } ∧
      ∀ off, off < 0x40000 → (∀ m n i, inTile m n → i < z → place m n i ≠ clusterBase + b * 0x40000 + off) →
        K'.bytes.get off = K.bytes.get off

/-! ### Steps of strands and gangs (R29-R47, R93, R98, R116, R119, R268, R312, R315, R352, R362-R367, R410, R411, R434, R435, R445) -/

/-- The strand of id `i`, wherever it stands, becomes `f` of itself; no other strand, no program and nothing else differs. -/
def Claim.StrandBecomes (i : StrandId) (f : Hart → Hart) (s t : State) : Prop :=
  t = { s with hart := t.hart, harts := t.harts } ∧ t.strand? i = (s.strand? i).map f ∧
    (∀ j, j ≠ i → t.strand? j = s.strand? j) ∧ ∀ c, t.program? c = s.program? c

/-- Strand `i` is brought to issue and becomes `h`; its registers and those of every other hart stay as they are. -/
def Claim.ComesToIssue (h : Hart) (s t : State) : Prop :=
  t = { s with hart := h, harts := t.harts } ∧ ∀ k ∈ t.harts, k ∈ s.hart :: s.harts

/-- R41, R46, R436: a fetch that meets no page in transit changes no state; a core whose fetch meets one, at any word of its convoy,
waits at that convoy. -/
def Claim.FetchesHoldNoState : Prop := ∀ (g : GangId) (i : StrandId) (s : State),
  ((∀ h ∈ s.allHarts, s.transitAt h.ctx 4 h.pc = none) → exec (.aniseFetch g) s = .next s ∧ exec (.privateFetch i) s = .next s) ∧
  ∀ h a, s.strand? i = some h → h.saved = .resident → h.phase = .running → h.wait = none → s.transitAt h.ctx 4 h.pc = some a →
    let waits := fun h : Hart => { h with
      wait := some { kind := .fetch, pos := 0, elem := 0, addr := a, ir := 0, since := s.ticket, met := false, expired := none } }
    (h.st.att = false → ∃ t, exec (.privateFetch i) s = .next t ∧ Claim.StrandBecomes i waits s t) ∧
    (h.st.att = true → ∃ t, exec (.aniseFetch (gangOf i)) s = .next t ∧ t = { s with hart := t.hart, harts := t.harts } ∧
      t.strand? i = some (waits h))

/-- R362: a visit remembers its place in the order of the slots; one of a ready slot adds 8 beats for each unit of its queue's weight to its deficit, at most a quantum and 32 beats;
one of a slot
that is not ready zeroes the deficit. -/
def Claim.VisitsGrantBeats : Prop := ∀ (i : StrandId) (s : State) (h : Hart), s.strand? i = some h →
  let quantum : Int := 8 * ((s.queues[h.queue].cfg.toNat / 2 ^ 49 % 256 : Nat) : Int)
  let v : State := { s with seat := s.seatOf h }
  (s.ready h = true → ∃ t, exec (.issueVisit i) s = .next t ∧
    Claim.ComesToIssue { h with deficit := min (h.deficit + quantum) (quantum + 32), first := true } v t) ∧
  (s.ready h = false → ∃ t, exec (.issueVisit i) s = .next t ∧ Claim.StrandBecomes i (fun h => { h with deficit := 0 }) v t)

/-- R408, R410, R411: a report taken between convoys, at user privilege, enters the handler at STVEC with ASYNC set, LOST where a report was dropped,
the report's source, position, cause and value, and leaves the strand's registers as they are.
That the privilege must be user is the model's reading (log 74). -/
def Claim.ReportsEnterTheHandler : Prop := ∀ (i : StrandId) (s : State) (h : Hart) (r : Report) (l : List Report),
  s.strand? i = some h → h.phase = .running → h.saved = .resident → h.reports = r :: l → h.st.priv = false → h.wait = none →
  (∀ e, h.iss.flow ≠ .held e) → h.csr.stvec ≠ 0 → s.unfetchable { h.ctx with super := true } 4 h.csr.stvec = false →
  ∃ t, exec (.asyncReportTaken i) s = .next t ∧ t.mem = s.mem ∧ t.hart.id = i ∧ t.hart.pc = h.csr.stvec ∧ t.hart.x = h.x ∧
    t.hart.v = h.v ∧ t.hart.p = h.p ∧ t.hart.reports = l ∧ t.hart.reportLost = false ∧ t.hart.wait = none ∧
    t.hart.st = { h.st with spriv := false, priv := true, att := false } ∧
    t.hart.csr.sepc = h.pc ∧ t.hart.csr.stval = r.stval ∧ t.hart.csr.vstart = 0 ∧ t.hart.csr.vconv = 0 ∧
    let c := t.hart.csr.scause
    (r.cause < 256 → (c.extractLsb' 0 8).toNat = r.cause ∧ c.getLsbD 8 = false ∧ c.getLsbD 16 = true ∧
      c.getLsbD 17 = h.reportLost ∧ (c.extractLsb' 18 2).toNat = r.pos % 4 ∧ c.extractLsb' 22 2 = r.src ∧
      c.extractLsb' 32 10 = h.csr.vstart ∧ c.extractLsb' 42 2 = h.csr.vconv)

/-- R315, R316: a notification taken between convoys, from a wait or after a restore saves the pc and the stop, swaps x1 to x7 with the shadow bank,
sets UIH, detaches the core and goes to UIVEC; the oldest notification leaves the list, and the wait is kept for the return.
That the wait is kept for the return is the model's reading (log 47). -/
def Claim.NotificationsEnterTheUserHandler : Prop := ∀ (i : StrandId) (s : State) (h : Hart) (n : Word) (l : List Word),
  s.strand? i = some h → h.phase = .running → h.saved = .resident → h.engine = .strand → h.notifs = n :: l →
  (h.wait.isSome = true ∨ h.restored = true ∨ ∀ e, h.iss.flow ≠ .held e) → h.st.uie = true → h.st.uih = false → h.st.priv = false →
  ∃ t, exec (.userInterruptTaken i) s = .next t ∧ t.mem = s.mem ∧ t.hart.id = i ∧ t.hart.pc = h.csr.uivec ∧ t.hart.notifs = l ∧
    t.hart.wait = none ∧ t.hart.paused = h.wait.map (fun w => (h.pc, w)) ∧
    t.hart.v = h.v ∧ t.hart.p = h.p ∧ t.hart.csr.uiepc = h.pc ∧ t.hart.csr.vstart = 0 ∧ t.hart.csr.vconv = 0 ∧
    t.hart.st = { h.st with uih := true, att := false } ∧
    (∀ r : Fin 32, (r.val = 0 ∨ 7 < r.val) → t.hart.x[r] = h.x[r]) ∧
    (∀ k : Fin 7, t.hart.x[k.val + 1] = h.shadow[k] ∧ t.hart.shadow[k] = h.x[k.val + 1]) ∧
    (n.toNat % 2 ^ 32 / 2 ^ 8 % 2 ^ 17 = 0 → t.hart.csr.uicause.getLsbD 8 = h.notifLost ∧ t.hart.csr.uicause.extractLsb' 13 10 = h.csr.vstart ∧
      t.hart.csr.uicause.extractLsb' 23 2 = h.csr.vconv ∧ t.hart.csr.uicause.extractLsb' 32 32 = n.extractLsb' 32 32)

/-- R31, R163, R365: parking saves the vector registers whose VDIRTY bit is set and clears the bits; restoring gives each register
ever saved its newest saved contents and every other one zero. A strand that is not to be parked or restored stays as it is. Where
another agent has written its part of the save area it is on its core again, with registers that nothing tells (R366).
The registers are free where a store changed the saved area (log 86). -/
def Claim.SavedRegistersComeBack : Prop := ∀ (i : StrandId) (s : State) (h : Hart), s.strand? i = some h →
  (s.waiting h = true → h.saved = .resident → h.phase = .running → s.coreBusy h = true → h.pending = [] → h.vldbs = [] →
    ∃ t k, exec (.parking i) s = .next t ∧ t.strand? i = some k ∧ t = { s with hart := t.hart, harts := t.harts } ∧
      (∀ j, j ≠ i → t.strand? j = s.strand? j) ∧
      k.saved = .parked ∧ k.csr = { h.csr with vdirty := 0 } ∧ k.x = h.x ∧ k.p = h.p ∧ k.tags = h.tags ∧ k.pc = h.pc ∧ k.wait = h.wait ∧
      k.savedMask = h.savedMask ||| h.csr.vdirty ∧
      ∀ r : Reg, k.savedV[r] = if h.csr.vdirty.getLsbD r.val then h.v[r] else h.savedV[r]) ∧
  (s.waiting h = false → exec (.parking i) s = .next s) ∧
  ((s.clusterOf (gangOf i)).isSome = true → h.saved = .swapped ∨ (h.saved = .parked ∧ s.waiting h = false) →
    (s.areaCells i ≠ h.area → ∃ t k, exec (.strandRestore i) s = .next t ∧ t.strand? i = some k ∧ k.saved = .resident ∧
      (∀ j, j ≠ i → t.strand? j = s.strand? j) ∧ t = { s with hart := t.hart, harts := t.harts, draws := t.draws }) ∧
    (s.areaCells i = h.area → ∃ t k, exec (.strandRestore i) s = .next t ∧ t.strand? i = some k ∧ t = { s with hart := t.hart, harts := t.harts } ∧
      (∀ j, j ≠ i → t.strand? j = s.strand? j) ∧
      k = { h with saved := .resident, restored := ! h.reports.isEmpty || ! h.notifs.isEmpty, v := k.v } ∧
      ∀ r : Reg, k.v[r] = if h.savedMask.getLsbD r.val then h.savedV[r] else 0)) ∧
  (h.saved = .resident → exec (.strandRestore i) s = .next s)

/-- R32, R363, R364: a gang that gives up its slot is saved whole: swapped on its members' waits for a runnable gang, pre-empted
for a suspended queue, or after its time for a gang of the same level; memory stays, its slot is free, and its dirty lines are written
back (R69, R412). A pre-emption may first have its members stop at a position of their convoy, between two element groups (R38), which a free value tells. -/
def Claim.GangsGiveUpTheirSlots : Prop := ∀ (g : GangId) (s : State) (x : Gang), s.gang? g = some x → s.gangSavable x = true →
  let out := fun (i : Instr) (n : Nat) => ∃ t, exec i s = .next t ∧
    t = { s with
      hart := t.hart, harts := t.harts, gangs := t.gangs, badLines := t.badLines, draws := s.draws + n
      golium := { s.golium with unconsumed := s.golium.unconsumed + x.dirtyBad.length } } ∧
    (∀ n, n ∈ t.badLines ↔ n ∈ s.badLines ∨ ∃ b, (b, n) ∈ x.dirtyBad) ∧
    (∃ y, t.gang? g = some y ∧ y = { x with slot := none, runnable := y.runnable, home := y.home, area := y.area, dirtyBad := [] }) ∧
    (∀ j, gangOf j ≠ g → t.strand? j = s.strand? j) ∧
    ∀ j h, gangOf j = g → s.strand? j = some h → h.phase = .running → ∃ k, t.strand? j = some k ∧
      if h.saved = .resident then
        k.saved = .swapped ∧ k.x = h.x ∧ k.p = h.p ∧ k.pc = h.pc ∧ k.csr = { h.csr with vdirty := 0 } ∧ k.wait = h.wait ∧
        k.savedMask = h.savedMask ||| h.csr.vdirty ∧
        ∀ r : Reg, k.savedV[r] = if h.csr.vdirty.getLsbD r.val then h.v[r] else h.savedV[r]
      else k = { h with saved := .swapped }
  let rival := fun y : Gang => y.slot = none ∧ y.runnable.isSome = true ∧ y.ended = false ∧ y.part = x.part ∧ s.mayRun y.queue = true
  (s.members g ≠ [] → (∀ h ∈ s.members g, h.saved = .parked ∨ s.waiting h = true) → (∃ y ∈ s.gangs, rival y) → out (.swapOnWait g) 0) ∧
  (s.queues[x.queue].cfg.getLsbD 62 = true → Config.free s.draws % 2 = 0 ∨ (∃ h ∈ s.members g, h.cut.isSome = true) → out (.preEmption g) 1) ∧
  (s.queues[x.queue].cfg.getLsbD 62 = true → Config.free s.draws % 2 ≠ 0 → (∀ h ∈ s.members g, h.cut = none) → ∃ (t : State) (e : Fin 4 × Fin 64),
    exec (.preEmption g) s = .next t ∧ t = { s with hart := t.hart, harts := t.harts, draws := s.draws + 1 } ∧
    ∀ j h, s.strand? j = some h → t.strand? j = some (if gangOf j = g ∧ h.wait = none then { h with cut := some e } else h)) ∧
  ((∃ y ∈ s.gangs, rival y ∧ y.queue ≠ x.queue ∧ s.levelOf y = s.levelOf x) → out (.timeSharingExpiry g) 0) ∧
  ((∀ y ∈ s.gangs, ¬ rival y) → exec (.swapOnWait g) s = .next s ∧ exec (.timeSharingExpiry g) s = .next s)

/-- R26, R29, R352: the first runnable gang takes a free slot; the 16 strands of one that has not started start at ENTRY with the
stack, argument, trap and address-space registers of the launch, every other scalar, vector and predicate register zero and every tag
I32. None passes an earlier runnable gang of its partition, except to return to banks that stay in the cluster (log 76); banks whose saved
contents another agent has written are not told (log 86).
That launches break a tie of equal stage and gang is the model's choice (log 76). -/
def Claim.GangsStartTheirStrands : Prop := ∀ (g : GangId) (c : Fin 64) (k : Fin 4) (s : State) (x : Gang) (l : Launch),
  s.gang? g = some x → s.launches.find? (fun l => l.id == g.launch) = some l → x.slot = none → x.runnable.isSome = true →
  x.ended = false → s.mayRun x.queue = true → s.fits x c k = true →
  let place := fun (y : Gang) (n : Nat) => [n, y.id.stage.val, y.id.gang.val]
  let first := fun y z : Gang => ∀ n m, y.runnable = some n → z.runnable = some m → place y n < place z m
  ((∃ y ∈ s.gangs, first y x ∧ y.slot = none ∧ y.runnable.isSome = true ∧ y.ended = false ∧ y.part = x.part ∧ s.mayRun y.queue = true ∧
    (x.home ≠ some c ∨ s.bankWork x = false ∨ ∃ d n, s.fits y d n = true)) → exec (.gangResident g c k) s = .next s) ∧
  ((∀ y ∈ s.gangs, y ≠ x → first x y) → ∃ t, exec (.gangResident g c k) s = .next t ∧ t = { s with harts := t.harts, gangs := t.gangs, draws := t.draws } ∧
    (∃ y, t.gang? g = some y ∧ y = { x with slot := some (c, k), home := none, runnable := none, started := true, banks := y.banks } ∧
      (x.started = false ∨ x.home.isSome = true ∨ s.gangArea g = x.area → y.banks = x.banks ∧ t.draws = s.draws)) ∧
    (∀ j, j ≠ g → t.gang? j = s.gang? j) ∧ (x.started = true → t.harts = s.harts) ∧
    (x.started = false → t.harts.length = s.harts.length + 16 ∧ ∀ m : Fin 16, ∃ h ∈ t.harts,
      h.id = { launch := g.launch, stage := g.stage, vcid := ⟨g.gang.val * 16 + m.val, by omega⟩ } ∧ h.engine = .strand ∧ h.phase = .running ∧
      h.pc = l.entry ∧ h.st = { lact := false, uih := false, att := true, det := l.det, uie := false, spriv := false, priv := false } ∧
      h.csr.stvec = l.stvec ∧ h.csr.sscratch = l.sscratch ∧ h.csr.asid = l.asid ∧ h.csr.troot = l.troot ∧ h.csr.vl = 0 ∧ h.rank = l.rank ∧
      h.getX 2 = l.stackBase + BitVec.ofNat 64 ((g.stage.val * 1024 + g.gang.val * 16 + m.val + 1) * 2 ^ l.stackLog2) ∧
      h.getX 8 = l.arg0 ∧ h.getX 9 = l.arg1 ∧ (∀ r : Reg, r ≠ 2 → r ≠ 8 → r ≠ 9 → h.getX r = 0) ∧
      h.shadow = Vector.replicate 7 0 ∧ ∀ r : Reg, h.v[r] = 0 ∧ h.tag r = .i32 ∧ (r ≠ 0 → h.getP r = 0)))

/-- R47: an attached core that alone holds every other attached core of its gang leaves the attached set; any other stays in it. -/
def Claim.DriftEvictionDetaches : Prop := ∀ (i : StrandId) (s : State) (h : Hart), s.strand? i = some h →
  let others := (s.members (gangOf i)).filter fun m => m.st.att && m.id != i
  (h.st.att = true → others ≠ [] → (∀ m ∈ others, s.streamHeld m = true ∧ h.streamNo ≤ m.streamNo) →
    ∃ t, exec (.driftEviction i) s = .next t ∧
      Claim.StrandBecomes i (fun h => { h with st := { h.st with att := false } }.count 0x06 1) s t) ∧
  (h.st.att = true → others = [] ∨ (∃ m ∈ others, s.streamHeld m = false ∨ m.streamNo < h.streamNo) →
    exec (.driftEviction i) s = .next s) ∧
  (h.st.att = false → exec (.driftEviction i) s = .next s)

/-- R98: the stores of a strand, and those of its forked program, reach their event in issue order: the oldest leaves the list and,
where it is counted, the counter; memory stays as it is. That memory already holds the store is the model's choice (log 5). -/
def Claim.StoresReachTheirEventInOrder : Prop := ∀ (i : StrandId) (s : State) (h : Hart) (p : PendingStore) (l : List PendingStore),
  s.strand? i = some h →
  let performed := fun h : Hart => { h with
    pending := l, cnt := { h.cnt with stores := if p.counted then h.cnt.stores - 1 else h.cnt.stores } }
  (h.pending = p :: l → ∃ t, exec (.storePerformed i) s = .next t ∧ t = { s with hart := t.hart, harts := t.harts } ∧
    t.strand? i = some (performed h) ∧ (∀ j, j ≠ i → t.strand? j = s.strand? j) ∧ ∀ c, t.program? c = s.program? c) ∧
  ∀ c k, s.program? c = some k → k.id = i → h.pending = [] → k.pending = p :: l → ∃ t, exec (.storePerformed i) s = .next t ∧
    t = { s with hart := t.hart, harts := t.harts } ∧ t.program? c = some (performed k) ∧ ∀ j, t.strand? j = s.strand? j

/-- R268: the data of the oldest background load arrive: element by element in its destination, with the duplicate mask in its
predicate, and the loads counter falls by 1; no other register differs. -/
def Claim.BackgroundLoadsAreCompleted : Prop := ∀ (i : StrandId) (s : State) (h : Hart) (v : PendingVldb) (l : List PendingVldb) (raw : Nat → Nat),
  s.strand? i = some h → h.vldbs = v :: l → h.tag v.dest = v.tag → v.elems.length * tagWidth v.tag ≤ 8192 →
  (∀ e x, v.elems[e]? = some x → s.vldbRaw h.ctx v x = .ok (raw e)) →
  ∃ t k, exec (.vldbDataWrite i) s = .next t ∧ t = { s with hart := t.hart, harts := t.harts } ∧ t.strand? i = some k ∧
    (∀ j, j ≠ i → t.strand? j = s.strand? j) ∧ k.vldbs = l ∧ k.cnt = { h.cnt with loads := h.cnt.loads - 1 } ∧
    k.x = h.x ∧ k.pc = h.pc ∧ k.st = h.st ∧ k.badV = h.badV ∧ (∀ r, r ≠ v.dest → k.v[r] = h.v[r]) ∧ k.tags = h.tags ∧ (∀ r, r ≠ v.pred → k.getP r = h.getP r) ∧
    (∀ e x, v.elems[e]? = some x → k.elem v.dest e = widen v.fmt v.tag (raw e) x.scale % 2 ^ tagWidth v.tag ∧
      (v.pred ≠ 0 → (k.getP v.pred).getLsbD e = v.dup.getLsbD e)) ∧
    ∀ e, v.elems.length ≤ e → (k.getP v.pred).getLsbD e = (h.getP v.pred).getLsbD e

/-- R434, R436: on a retry the waits of a strand and of its forked program for a page in transit are tested again; no other wait is. -/
def Claim.TransitWaitsAreRetried : Prop := ∀ (i : StrandId) (s : State),
  let again := fun h : Hart =>
    { h with wait := h.wait.map fun w => if w.kind = .page ∨ w.kind = .fetch then { w with met := true } else w }
  ∃ t, exec (.transitWalkRetry i) s = .next t ∧ t = { s with hart := t.hart, harts := t.harts } ∧
    (∀ j, t.strand? j = (s.strand? j).map fun h => if j = i then again h else h) ∧
    ∀ c, t.program? c = (s.program? c).map fun h => if h.id = i then again h else h

/-- R414, R435, R436, R445: a strand's wait that reaches its limit ends in cause 0x1C for a version, 0x10 for a page, 0x0D for any other,
at the waiting convoy, with no register changed; while the strand is saved, and for a version, the cause is kept for the next issue
of that convoy. A wait for the first convoy of a trap's handler aborts the strand.
That the cause of a version's wait is kept for the next issue of the convoy is the model's reading (log 24). -/
def Obligations.WaitsThatReachTheirLimit : Prop := ∀ (i : StrandId) (s : State) (h : Hart) (w : Wait),
  s.strand? i = some h → h.wait = some w → w.met = false → h.phase = .running → h.iss.judging = false →
  let version : Prop := w.kind = .versionLoad ∨ w.kind = .versionRefused ∨ w.kind = .versionStore
  let page : Prop := w.kind = .page ∨ w.kind = .fetch
  let cause := if version then 0x1C else if page then 0x10 else 0x0D
  let event : Instr := if page then .transitTimeout (.strand i) else .watchdogTimeout (.strand i)
  (h.saved = .resident → w.kind = .fetch → ∀ k, h.delivery = some k → ∃ t, exec event s = .next t ∧ t.mem = s.mem ∧ t.hart.id = i ∧
    t.hart.phase = .aborting k h.csr.stvec ∧ t.hart.x = h.x ∧ t.hart.v = h.v ∧ t.hart.csr = h.csr ∧ t.hart.pc = h.pc) ∧
  (h.saved = .resident → ¬ version → (w.kind = .fetch → h.delivery = none) → h.csr.stvec ≠ 0 → s.unfetchable { h.ctx with super := true } 4 h.csr.stvec = false →
    ∃ t, exec event s = .next t ∧ t.mem = s.mem ∧ t.hart.id = i ∧ t.hart.pc = h.csr.stvec ∧ t.hart.wait = none ∧ t.hart.x = h.x ∧
      t.hart.v = h.v ∧ t.hart.p = h.p ∧ t.hart.csr.sepc = h.pc ∧ t.hart.st.priv = true ∧ t.hart.st.spriv = h.st.priv ∧
      (t.hart.csr.scause.extractLsb' 0 8).toNat = cause ∧ (t.hart.csr.scause.extractLsb' 18 2).toNat = w.pos % 4 ∧
      t.hart.csr.vstart = 0 ∧ t.hart.csr.stval = if page then (if w.kind = .fetch then h.pc else w.addr) else w.ir.zeroExtend 64) ∧
  (h.saved ≠ .resident ∨ version → ∃ t k, exec event s = .next t ∧ t.strand? i = some k ∧ t = { s with hart := t.hart, harts := t.harts } ∧
    (∃ e : Cause, e.code = cause ∧ k = { h with wait := some { w with expired := some e } })) ∧
  (page → exec (.watchdogTimeout (.strand i)) s = .next s) ∧
  (¬ page → (∀ k ∈ s.allHarts, k.isControl = true → k.id = i → k.wait = none) → exec (.transitTimeout (.strand i)) s = .next s)

/-- R93: an arrival registers once the accesses its mask names are performed, not before; the generation completes when the last
participant has registered: the phase rises by 1 modulo 256 and the registered arrivals are taken back. -/
def Claim.ArrivalsRegisterAndComplete : Prop := ∀ (i : StrandId) (id : Fin 36) (s : State) (h : Hart) (a : Arrival),
  let k := barrierKey i id
  let b := s.barrier k
  s.strand? i = some h → b.pending = [a] → a.strand = i → i ∉ b.registered → id.val < 32 →
  (h.arrivalReady a = false → exec (.barrierRegistration i id) s = .next s) ∧
  (h.arrivalReady a = true → ∃ t, exec (.barrierRegistration i id) s = .next t ∧
    t = { s with hart := t.hart, harts := t.harts, barriers := t.barriers } ∧ (∀ j, j ≠ k → t.barrier j = s.barrier j) ∧
    let all := (∀ m ∈ s.allHarts, participates k m = true → m.id = i ∨ m.id ∈ b.registered) ∧ ∀ g ∈ s.gangs, awaitsGang k g = false
    (¬ all → t.barrier k = { b with pending := [], registered := b.registered ++ [i] } ∧ t.hart = s.hart) ∧
    (all → (t.barrier k).phase = b.phase + 1 ∧ (t.barrier k).registered = [] ∧ (t.barrier k).pending = [] ∧
      ∀ j m w, s.strand? j = some m → participates k m = true → m.wait = some w → w.kind = .barrier →
        w.addr = BitVec.ofNat 64 (id.val * 256 + b.phase.toNat) → ∃ n, t.strand? j = some n ∧ n.wait = some { w with met := true }))

/-- R52, R154: the next queued program starts on its control core, at its entry point, with its argument in x3 and its strand's
vcid in x4; while a program runs there, or before the control cores' firmware is verified (R24), none starts.
The registers not named are the model's choice (log 36). -/
def Claim.ForkedProgramsStart : Prop := ∀ (c : Fin 64) (s : State) (f : Fork) (l : List Fork) (o : Hart),
  s.clusters[c].forks = f :: l → s.strand? f.owner = some o →
  ((s.program? c).isSome = true ∨ s.golium.verified[2] = false → exec (.forkedProgramStart c) s = .next s) ∧
  (s.program? c = none → s.golium.verified[2] = true → ∃ t h, exec (.forkedProgramStart c) s = .next t ∧ t.mem = s.mem ∧ t.clusters = s.clusters.set c { s.clusters[c] with forks := l } ∧
    t.program? c = some h ∧ h.id = f.owner ∧ h.pc = f.entry ∧ h.getX 3 = f.arg ∧ h.getX 4 = BitVec.ofNat 64 f.owner.vcid.val ∧
    (∀ r : Reg, r ≠ 3 → r ≠ 4 → h.getX r = 0) ∧ h.csr.asid = f.asid ∧ h.csr.troot = f.troot ∧ h.st.priv = f.super)

/-- R34, R109, R116, R119: of the versioned loads on a granule's list whose version has come, be they a strand's, a job's or another rank's,
the one that entered it first wakes; a load that was refused a place tests again, and no other wait does; a raised horizon takes effect at
a home slice and changes no data. -/
def Claim.VersionWaitsAreWoken : Prop := ∀ (r q : Nat) (i : StrandId) (s : State),
  let wakes := fun (p : Hart → Bool) (h : Hart) =>
    if p h then { h with wait := h.wait.map fun w => { w with met := true } } else h
  let came := fun e : Parked => s.waitsAt r (some q) e = true ∧ s.versionCame e = true
  ((∀ e ∈ s.allParked, ¬ came e) → exec (.versionWaitWake r q) s = .next s) ∧
  ((∃ e ∈ s.allParked, came e) → ∃ x ∈ s.allParked, came x ∧ (∀ e ∈ s.allParked, came e → x.since ≤ e.since) ∧
    let mine := fun h : Hart => decide (x.who = .hart h.engine h.id)
    exec (.versionWaitWake r q) s = .next { s with
      hart := wakes mine s.hart, harts := s.harts.map (wakes mine)
      jobs := s.jobs.map fun j => if x.who = .job j.item then { j with hold := j.hold.map fun w => { w with woken := true } } else j
      fabric := { s.fabric with waits := s.fabric.waits.map fun e => if x.who = .span e.since then { e with woken := true } else e } }) ∧
  (let mine := fun h : Hart => decide (h.id = i) && h.wait.any fun w => w.kind == .versionRefused
   exec (.waitListRetry i) s = .next { s with hart := wakes mine s.hart, harts := s.harts.map (wakes mine) }) ∧
  ∀ x, s.regions[r]? = some x → q < x.pages.length * 512 → ∃ t y, exec (.horizonPropagation r q) s = .next t ∧
    t = { s with regions := t.regions } ∧ t.regions[r]? = some y ∧ (∀ k, k ≠ r → t.regions[k]? = s.regions[k]?) ∧
    y = { x with ahead := y.ahead } ∧ y.horizonAt q = x.horizon ∧ ∀ k, k ≠ q → y.horizonAt k = x.horizonAt k

/-! ### Steps of jobs, queues and launches (R104-R106, R121, R304-R313, R348-R361) -/

/-- `n` bytes a job accesses at virtual address `va` lie at device address `pa`, outside every region, in good lines, and the host
does not refuse them (R59, R64, R382, R441). -/
def Claim.RowAt (s : State) (j : Job) (k : AccessKind) (va : Word) (pa n : Nat) : Prop :=
  ∀ b, b < n → s.resolve j.reach k (va + BitVec.ofNat 64 b) = .ok (.device (pa + b)) ∧ s.regionAt j.part (pa + b) = none ∧
    s.badLines.contains ((pa + b) / 128 * 128) = false ∧ inClusterWindow (va + BitVec.ofNat 64 b) = false ∧
    s.hostRefuses j.part (pa + b) = false ∧ (k = .load → s.dirtyBad j.gang ((pa + b) / 128 * 128) = false)

/-- Job `j` has not ended, it waits on the list of no granule that has not woken it (R116), and its engine may work on it: it has begun, or its edges are done and its queue is not suspended (R104,
R105, R357). -/
def Claim.JobMayRun (n : Nat) (j : Job) (s : State) : Prop :=
  s.job? n = some j ∧ j.result = none ∧ j.onList = false ∧ (j.begun = true ∨ (s.edgesDone j.asItem = true ∧
    ∀ q l a, j.ctx = .queue q l a → s.queues[q].cfg.getLsbD 62 = false))

/-- Such a job, whose card is sound, has not read its last byte; it is of kind `k`, and only a DIGEST keeps bytes (R304, R309, R311). -/
def Claim.JobStarts (n k : Nat) (j : Job) (s : State) : Prop :=
  Claim.JobMayRun n j s ∧ j.ending = none ∧ j.fields.rejected = none ∧ j.fields.kind = k ∧ (k ≠ 6 → j.kept = []) ∧ Memory.wf s.mem

/-- The job ends with STATUS 1 after delivering the rows of a list, of `size` bytes each, byte `b` of row `i` at device address
`dst i + b` holding `val i b`; no other byte of memory differs, and lines may become correct, in memory and in a gang's cache (R310,
R313, R442). -/
def Claim.Delivers (n : Nat) (j : Job) (rows : List Nat) (size : Nat) (dst : Nat → Nat) (val : Nat → Nat → Byte) (bdeliv : Nat)
    (s t : State) : Prop :=
  (∃ (r : JobResult) (p : Nat), r.status = 1 ∧ r.fault = 0 ∧ r.bdeliv = bdeliv ∧
    t = { s with
      mem := t.mem
      badLines := t.badLines
      gangs := t.gangs
      jobs := s.jobs.map fun x => if x.item = n then
        { j with begun := true, progress := p, hold := none, todo := [], kept := [], cures := [], ending := none, result := some r } else x }) ∧
    (∀ l, l ∈ t.badLines → l ∈ s.badLines) ∧ (∃ f : Gang → List (Nat × Nat), t.gangs = s.gangs.map fun x => { x with dirtyBad := f x }) ∧
    (∀ i b, i ∈ rows → b < size → t.mem.get (dst i + b) = val i b) ∧
    ∀ a, (∀ i, i ∈ rows → a < dst i ∨ dst i + size ≤ a) → t.mem.get a = s.mem.get a

/-- Rows that do not overlap. -/
def Claim.Apart (rows : List Nat) (size : Nat) (dst : Nat → Nat) : Prop :=
  ∀ i k, i ∈ rows → k ∈ rows → i < k → dst i + size ≤ dst k ∨ dst k + size ≤ dst i

/-- R305, R309, R310: COPY without versions moves LEN bytes from its source to its destination, FILL repeats its 8-byte value over
LEN bytes, and DIGEST writes the SHA-256 of its source as it was when the job started, between addresses that lead to device memory. -/
def Claim.CopyFillAndDigest : Prop := ∀ (n : Nat) (s : State) (j : Job) (src dst : Nat),
  let c := j.fields
  let len := c.get 831 768
  (Claim.JobStarts n 0 j s → c.vsrc = false → c.vdst = false → Claim.RowAt s j .load (c.addr 640) src len → Claim.RowAt s j .store (c.addr 704) dst len →
    ∃ t, exec (.copy n) s = .next t ∧ Claim.Delivers n j [0] len (fun _ => dst) (fun _ b => s.mem.get (src + b)) len s t) ∧
  (Claim.JobStarts n 5 j s → Claim.RowAt s j .store (c.addr 640) dst (c.get 767 704) →
    ∃ t, exec (.fill n) s = .next t ∧ Claim.Delivers n j [0] (c.get 767 704) (fun _ => dst)
      (fun _ b => BitVec.ofNat 8 (len / 2 ^ (8 * (b % 8)) % 256)) (c.get 767 704) s t) ∧
  ∀ old : Nat → Byte, Claim.JobStarts n 6 j s → Claim.RowAt s j .load (c.addr 640) src len → Claim.RowAt s j .store (c.addr 704) dst 32 →
    let at_ := fun i : Nat => c.addr 640 + BitVec.ofNat 64 i
    let keeps := fun (i : Nat) (l : List Byte) => j.begun = true ∧ (i, l) ∈ j.kept ∧ (i = 0 ∨ (at_ i).toNat % 32 = 0)
    (∀ i l, keeps i l → l = (List.range (min (len - i) (32 - (at_ i).toNat % 32))).map fun b => old (i + b)) →
    (∀ b, b < len → s.mem.get (src + b) = old b ∨ ∃ i l, keeps i l ∧ i ≤ b ∧ b < i + l.length) →
    ∃ t, exec (.digest n) s = .next t ∧
      Claim.Delivers n j [0] 32 (fun _ => dst) (fun _ b => (sha256 ((List.range len).map old)).getD b 0) 32 s t

/-- R306-R308, R310: TILE, GATHER, SCATTER and PAGEGATHER move each row between the addresses their card, their indices and their
block table give it, or its padding where there is none, in device memory and without versions. -/
def Claim.RowJobsMoveTheirRows : Prop := ∀ (n : Nat) (s : State) (j : Job) (src dst ix tab : Nat → Nat) (x p : Nat → Nat),
  let c := j.fields
  let pad := fun b : Nat => (BitVec.ofNat 8 (c.pad / 2 ^ (8 * (b % 4)) % 256) : Byte)
  let index := fun (lo i v pa : Nat) =>
    (c.addr lo + BitVec.ofNat 64 (4 * i)).toNat % 4 = 0 ∧ Claim.RowAt s j .load (c.addr lo + BitVec.ofNat 64 (4 * i)) pa 4 ∧ s.mem.getNat pa 4 = v
  (let (b0, b1, b2) := c.box
   let all := List.range (b0 * b1 * b2)
   Claim.JobStarts n 1 j s → Claim.Apart all c.esize dst →
    (∀ e, e < b0 * b1 * b2 → let d := c.addr 704 + BitVec.ofNat 64 (e * c.esize)
      d.toNat % c.esize = 0 ∧ Claim.RowAt s j .store d (dst e) c.esize ∧
      ∀ va, c.tileSource (e % b0) (e / b0 % b1) (e / b0 / b1) = some va → va.toNat % c.esize = 0 ∧ Claim.RowAt s j .load va (src e) c.esize) →
    ∃ t, exec (.tile n) s = .next t ∧ Claim.Delivers n j all c.esize dst (fun e b =>
      if (c.tileSource (e % b0) (e / b0 % b1) (e / b0 / b1)).isSome then s.mem.get (src e + b) else pad b) (b0 * b1 * b2 * c.esize) s t) ∧
  (let rows := c.get 895 864
   let size := c.get 863 832
   Claim.JobStarts n 2 j s → c.vsrc = false → Claim.Apart (List.range rows) size dst →
    (∀ i, i < rows → let d := c.addr 704 + BitVec.ofNat 64 (i * c.get 991 960)
      let a := c.addr 640 + BitVec.ofInt 64 (x i * c.signed 959 896)
      index 768 i (x i) (ix i) ∧ d.toNat % c.esize = 0 ∧ Claim.RowAt s j .store d (dst i) size ∧
      (x i ≠ 0xFFFFFFFF → a.toNat % c.esize = 0 ∧ Claim.RowAt s j .load a (src i) size)) →
    ∃ t, exec (.gather n) s = .next t ∧
      Claim.Delivers n j (List.range rows) size dst (fun i b => if x i = 0xFFFFFFFF then pad b else s.mem.get (src i + b)) (rows * size) s t) ∧
  (let rows := c.get 895 864
   let size := c.get 863 832
   let sent := (List.range rows).filter fun i => x i != 0xFFFFFFFF
   Claim.JobStarts n 3 j s → Claim.Apart sent size dst →
    (∀ i, i < rows → let a := c.addr 640 + BitVec.ofNat 64 (i * c.get 927 896)
      let d := c.addr 704 + BitVec.ofInt 64 (x i * c.signed 1023 960)
      index 768 i (x i) (ix i) ∧ (x i ≠ 0xFFFFFFFF → a.toNat % c.esize = 0 ∧ Claim.RowAt s j .load a (src i) size ∧
        d.toNat % c.esize = 0 ∧ Claim.RowAt s j .store d (dst i) size)) →
    ∃ t, exec (.scatter n) s = .next t ∧ Claim.Delivers n j sent size dst (fun i b => s.mem.get (src i + b)) (sent.length * size) s t) ∧
  (let rows := c.get 927 896
   let size := c.get 959 928
   Claim.JobStarts n 4 j s → c.vsrc = false → Claim.Apart (List.range rows) size dst →
    (∀ i, i < rows → index 640 i (p i) (ix i) ∧ p i < c.get 991 960 ∧ index 768 (p i) (x i) (tab i) ∧
      Claim.RowAt s j .store (c.addr 704 + BitVec.ofNat 64 (i * size)) (dst i) size ∧
      (x i ≠ 0xFFFFFFFF → Claim.RowAt s j .load (c.addr 832 + BitVec.ofNat 64 (x i * size)) (src i) size)) →
    ∃ t, exec (.pagegather n) s = .next t ∧
      Claim.Delivers n j (List.range rows) size dst (fun i b => if x i = 0xFFFFFFFF then pad b else s.mem.get (src i + b)) (rows * size) s t)

/-- R304: a card with a field its kind may not have completes with STATUS 3, naming the lowest offending byte, and moves nothing. -/
def Claim.UnsoundCardsAreRejected : Prop := ∀ (n : Nat) (s : State) (j : Job) (o : Nat),
  Claim.JobMayRun n j s → j.fields.rejected = some o →
  let event : Instr := match j.fields.kind with
    | 1 => .tile n | 2 => .gather n | 3 => .scatter n | 4 => .pagegather n | 5 => .fill n | 6 => .digest n | _ => .copy n
  ∃ r : JobResult, r.status = 3 ∧ r.foffset = o ∧ r.bdeliv = 0 ∧ exec event s = .next { s with
    jobs := s.jobs.map fun x => if x.item = n then { j with result := some r } else x }

/-- R98, R312, R313, R315, R410: a job whose result stands writes its record to its ring, is complete, lowers its counter at its strand
and, where its card asks, leaves a notification, of which a strand keeps 16; where the record could not be written, the strand has a
report of SRC 2 too; while the ring is awaited, the job is not complete. -/
def Claim.JobsComplete : Prop := ∀ (n : Nat) (s u : State) (j : Job) (r : JobResult) (i : StrandId) (h : Hart),
  s.job? n = some j → j.result = some r → j.complete = false → j.ctx = .strand i →
  s.strand? i = some h → u.hart = s.hart → u.harts = s.harts →
  let told := fun h : Hart => { h with
    cnt := if j.fields.tiles then { h.cnt with tiles := h.cnt.tiles - 1 } else { h.cnt with copies := h.cnt.copies - 1 }
    notifs := if j.fields.notify ∧ h.notifs.length < 16 then
      h.notifs ++ [BitVec.ofNat 64 ((if r.status = 1 then 1 else 2) + j.id.toNat * 2 ^ 32)] else h.notifs
    notifLost := h.notifLost || (j.fields.notify && decide (16 ≤ h.notifs.length)) }
  let completes := fun f : Hart → Hart => ∃ t, exec (.jobCompletion n) s = .next t ∧
    t = { u with hart := t.hart, harts := t.harts, jobs := t.jobs, clusters := t.clusters } ∧
    (r.fault ≠ 0x31 → r.fault ≠ 0x32 → t.clusters = u.clusters) ∧
    (∀ c, r.fault = 0x31 → (j.gang.bind u.gang?).bind (·.slot.map (·.1)) = some c → t.clusters[c].bankFaults = u.clusters[c].bankFaults + 1) ∧
    t.jobs = (u.jobs.map fun x => if x.item = n then { j with complete := true, replies := [], hold := none } else x) ∧
    t.strand? i = some (f h) ∧ ∀ m, m ≠ i → t.strand? m = s.strand? m
  (s.ringWrite j r = .done () u → completes told) ∧
  (∀ c va, s.ringWrite j r = .fault c va u → completes fun h => { told h with
    reports := if h.reports.length < 16 then h.reports ++ [{ src := 2, pos := 0, cause := c.code, stval := va }] else h.reports
    reportLost := h.reportLost || decide (16 ≤ h.reports.length) }) ∧
  (s.ringWrite j r = .later u → exec (.jobCompletion n) s = .next u)

/-- R312: in device memory a record takes the slot its ring's tail counter names, modulo the ring's size, and the counter rises by 1. -/
def Claim.RecordsTakeTheNextRingSlot : Prop := ∀ (s : State) (j : Job) (r : JobResult) (pr ps : Nat),
  let c := j.fields
  let ring := BitVec.ofNat 64 c.ring
  let tail := s.mem.getNat pr 8
  let slot := ring + BitVec.ofNat 64 (64 + 32 * (tail % 2 ^ c.ringLog2))
  Memory.wf s.mem → s.badLines = [] → j.slot = none → s.hostRefuses j.part pr = false → s.hostRefuses j.part ps = false →
  s.dirtyBad j.gang (pr / 128 * 128) = false →
  s.resolve j.reach .atomic ring = .ok (.device pr) → s.regionAt j.part pr = none →
  ({ s with mem := s.mem.setBytes pr (leBytes 8 ((tail + 1) % 2 ^ 64)) } : State).resolve j.reach .store slot = .ok (.device ps) → s.regionAt j.part ps = none → pr + 8 ≤ ps ∨ ps + 32 ≤ pr →
  ∃ t, s.ringWrite j r = .done () t ∧ t = { s with
      mem := t.mem, jobs := s.jobs.map fun x => if x.item = j.item then { j with slot := some tail, hold := none } else x } ∧ t.mem.getNat pr 8 = (tail + 1) % 2 ^ 64 ∧
    t.mem.getBytes ps 32 = r.record j ∧ ∀ a, (a < pr ∨ pr + 8 ≤ a) → (a < ps ∨ ps + 32 ≤ a) → t.mem.get a = s.mem.get a

/-- R355, R357: a doorbell's tail is taken where it lies between the head and a ring above it, else discarded, and so is one of a
function that the queue's partition does not belong to (R380), or before the module is ready (R393); a taken entry moves the head and the
sequence number on; a record found good becomes a queued launch, a bad one is an item of KIND 1 that is done.
How an unreadable entry is judged is the model's reading (log 43). -/
def Claim.RingEntriesAreTaken : Prop := ∀ (q : Fin 64) (s : State),
  let k := s.queues[q]
  let on := k.cfg.getLsbD 63 = true
  let done := fun t : State => Host.Outcome.next (t.unitDone (unitOf q))
  (∀ (f : Caller) (tail : Word), exec (.doorbell { by_ := f, queue := q } tail) s = .next (if
    s.golium.stage = 7 ∧ (f.function = 0 ∨ f.function = s.parts[k.part].vf) ∧ on ∧ k.head.toNat ≤ tail.toNat ∧ tail.toNat ≤ k.head.toNat + 2 ^ (k.cfg.toNat / 2 ^ 44 % 32)
    then { s with queues := s.queues.set q { k with tail := tail } } else s)) ∧
  (¬ on ∨ k.cfg.getLsbD 62 = true ∨ k.tail.toNat ≤ k.head.toNat ∨ s.golium.verified[1] = false → k.lists = [] → k.owed = false →
    exec (.ringEntryTake q) s = .next s) ∧
  (on → k.cfg.getLsbD 62 = false → s.golium.verified[1] = true → s.accepts k.part = true → k.head.toNat < k.tail.toNat →
    let u := { s with queues := s.queues.set q { k with head := k.head + 1, nextSeq := k.nextSeq + 1 } }
    ∀ (a w : Nat) (v : State), s.queueWords q 2 k.entryAddr = .ok [a, w] v → w % 16 = 0 → a < 2 ^ 64 →
      (∀ ws, a % 128 = 0 → u.queueWords q 16 (BitVec.ofNat 64 a) = .ok ws u → checkHeader (ofWords ws) true = none →
        ∃ l : Launch, exec (.ringEntryTake q) s = done { u with launches := s.launches ++ [l], items := s.items + 1 } ∧
          l.queue = q ∧ l.seq = k.nextSeq ∧ l.state = .queued ∧ l.record = BitVec.ofNat 64 a ∧ l.parent = none ∧
          l.entry = BitVec.ofNat 64 (ofWords ws / 2 ^ 64 % 2 ^ 64)) ∧
      (a % 128 ≠ 0 → k.status = 0 → exec (.ringEntryTake q) s = done { u with queues := u.queues.set q { u.queues[q] with
        kind := 1, fcode := 0, faddr := BitVec.ofNat 64 a, fseq := k.nextSeq, done := k.done + 1, owed := false } }))

/-- R26, R106, R163, R349-R355: the first ready launch starts: its tail's banks, its shape expressions and its save area being good, it
runs with that shape, the queue's trap registers and the rank the partition has now, the 64 gangs of each of its stages become runnable together, and the barrier arrivals of other ranks
that were kept for it are taken (log 56).
That the trap registers, the root and the rank are those of the moment the launch starts is the model's reading (log 44). -/
def Claim.LaunchesStartTheirGangs : Prop := ∀ (n : Nat) (s : State) (l : Launch) (ws : List Nat) (sv : Vector Word 32),
  let u := (s.unitDone (unitOf l.queue)).onQueue l.queue fun k => k.start l.seq
  s.launches.find? (fun l => l.item == n) = some l → s.itemReady l = true →
  (∀ m ∈ s.launches, m.item ≠ n → m.die = l.die → s.itemReady m = true → s.startsBefore m l = false) →
  s.queueWords l.queue (32 + l.nbanks + 5 * l.nexpr) l.tables = .ok ws s →
  ((ws.drop 32).take l.nbanks).any badBankWord = false →
  shapeAll (tailEntries (ws.drop (32 + l.nbanks)) l.nexpr) 0 (u.initialShape l ws) = .ok sv →
  ∀ area, u.saveArea (u.queueCtx l.queue) l.savePages l.ctxBase = .ok area u →
  let mine := fun a : SpanArrival => a.part = l.part ∧ a.req.offset = l.spanTag.toNat
  ∃ (t : State) (x : Launch) (gs : List Gang), exec (.itemStart n) s = .next t ∧ t = { u with
      launches := t.launches, gangs := u.gangs ++ gs, fabric := t.fabric, barriers := t.barriers, outputs := t.outputs
      hart := t.hart, harts := t.harts } ∧
    t.fabric.arrivals = u.fabric.arrivals.filter (fun a => ! decide (mine a)) ∧
    ((∀ a ∈ u.fabric.arrivals, ¬ mine a) → t.fabric = u.fabric ∧ t.barriers = u.barriers ∧ t.outputs = u.outputs ∧
      t.hart = u.hart ∧ t.harts = u.harts) ∧
    t.launches = (u.launches.map fun y => if y.id = l.id then x else y) ∧
    x = { l with
      state := .running, sv := sv, stvec := u.queues[l.queue].stvec, sscratch := u.queues[l.queue].sscratch
      troot := u.rootOf l.part l.asid.toNat, rank := Fin.ofNat 4096 u.parts[l.part].jobSelf.toNat
      area := area, began := x.began } ∧
    (∀ m ∈ s.launches, m.began < x.began) ∧
    gs.length = 64 * min 8 l.stages ∧
    ∀ g ∈ gs, g.id.launch = l.id ∧ g.started = false ∧ g.slot = none ∧ g.banks.length = l.nbanks ∧ g.runnable = some u.nextRunnable

/-- R358: at each tick a queue gains its weight in credits and loses one for each slot its gangs hold, within ±65,536. -/
def Claim.CreditsFollowTheWeights : Prop := ∀ s : State, (∀ q : Fin 64, s.queues[q].lists = [] ∧ s.queues[q].owed = false) →
  ∃ t, exec .queueCreditTick s = .next t ∧ t = { s with queues := t.queues } ∧ ∀ q : Fin 64,
    t.queues[q] = { s.queues[q] with credits := max (-65536) (min 65536 (s.queues[q].credits + (s.queues[q].cfg.toNat / 2 ^ 49 % 256 : Nat) -
      ((s.gangs.filter fun g => g.slot.isSome && g.queue == q).length : Nat))) }

/-- R106, R355: a running launch all of whose strands have ended and whose jobs are complete is complete and counts as done; while
one has not ended, it stays. -/
def Claim.LaunchesComplete : Prop := ∀ (n : Nat) (s : State) (l : Launch), s.launches.find? (fun l => l.id == n) = some l →
  (l.state = .running → s.launchOver l = true → l.node = none → ∃ t, exec (.launchComplete n) s = .next t ∧
    t.launches = (s.launches.map fun x => if x.id = n then { x with state := .complete } else x) ∧ t.gangs = s.gangs ∧
    t.hart = s.hart ∧ t.harts = s.harts ∧ t.queues[l.queue] = { s.queues[l.queue] with
      done := s.queues[l.queue].done + 1, owed := t.queues[l.queue].owed }) ∧
  (s.launchOver l = false ∨ l.state ≠ .running → exec (.launchComplete n) s = .next s)

/-- R361: a version-wait node completes once every granule of its range, from that of OBJ to that of its last byte, has reached its
version, not before; a conditional node sends run on the edge its predicate names. A cause met by either is recorded with KIND 2, and the node
sends skip on both edges (log 51). -/
def Claim.VersionWaitNodesComplete : Prop := ∀ (id : Nat) (a : Word) (s : State) (q : Fin 64) (l : LaunchList) (n : ListNode) (yes : Bool),
  (List.finRange 64).find? (fun q => (s.queues[q].list? id).isSome) = some q → s.queues[q].list? id = some l → l.node? a = some n →
  n.kind = 2 → n.state = .running → 
  (s.rangeReached (unitOf q) (s.queueCtx q) n.version n.granules (n.obj &&& ~~~ 127) = .ok yes s →
  (yes = false → exec (.versionWaitNodeComplete id a) s = .next (s.unitDone (unitOf q))) ∧
  (yes = true → n.next0 = 0 → n.next1 = 0 → ∃ t k m, exec (.versionWaitNodeComplete id a) s = .next t ∧ t.launches = s.launches ∧
    t.jobs = s.jobs ∧ t.queues[q].list? id = some k ∧ k.node? a = some m ∧ m = { n with state := .complete })) ∧
  ∀ c : Cause,
    (s.rangeReached (unitOf q) (s.queueCtx q) n.version n.granules (n.obj &&& ~~~ 127) = .fault c → n.next0 = 0 → n.next1 = 0 →
      ∃ t k m, exec (.versionWaitNodeComplete id a) s = .next t ∧ t.launches = s.launches ∧ t.jobs = s.jobs ∧
        t.queues[q].kind = 2 ∧ t.queues[q].fcode = c.code ∧ t.queues[q].faddr = a ∧ t.queues[q].fseq = l.seq ∧
        t.queues[q].list? id = some k ∧ k.node? a = some m ∧ m = { n with state := .complete }) ∧
    ∀ m : ListNode, m.kind = 3 →
      (∀ d, s.unitRead (unitOf q) (s.queueCtx q) 15 m.obj 4 = .ok d s →
        (s.runNode q l m).1 = [(m.next0, leNat d != 0), (m.next1, leNat d == 0)]) ∧
      (s.unitRead (unitOf q) (s.queueCtx q) 15 m.obj 4 = .fault c →
        (s.runNode q l m).1 = [(m.next0, false), (m.next1, false)] ∧ (s.runNode q l m).2.queues[q].kind = 2 ∧
          (s.runNode q l m).2.queues[q].fcode = c.code ∧ (s.runNode q l m).2.queues[q].faddr = m.addr)

/-! ### Steps of the fabric and its ports (R371-R378, R450-R455) -/

/-- A message comes through at once at a port whose link runs (R376, R377, R388). -/
def Claim.Arrives (f : FlitIn) (s : State) : Prop := s.linked f.port = true ∧ f.fails = 0

/-- R371, R374, R376, R378: a request whose turn it is is performed once its flits have come through, and answered under its tag and
incarnation: one of another job or of a rank outside the table gets error 0x12, a load gets its bytes; its turn is over, by as many numbers
as it has flits, and the answer takes the next numbers of its class. One that must wait here holds its turn. Where a flit never comes through
the port locks, and at a link that does not run nothing arrives.
That a waiting request holds its turn is the model's reading (log 56). -/
def Claim.RequestsOfOtherRanksAreServed : Prop := ∀ (p : Fin 8) (f : FlitIn) (r : SpanReq) (s : State),
  let n := flitsOf r.op
  let v := (s.receiveFlit f n).2
  let answers := fun a : Answer => ∃ t, exec (.spanRequest p f r) s = .next t ∧
    t = { v with fabric := t.fabric, outputs := .fabricReply r.src r.tag r.inc a :: s.outputs } ∧
    t.fabric.expected r.src r.cls = r.seq + Fin.ofNat 65536 n ∧ t.fabric.early = [] ∧ t.fabric.waits = [] ∧
    t.fabric.requests = s.fabric.requests ∧
    t.fabric.seqOf r.src r.cls = s.fabric.seqOf r.src r.cls + Fin.ofNat 65536 (bodyFlits (.reply a))
  let inTurn := s.fabric.early = [] ∧ s.fabric.passed = [] ∧ s.fabric.waits = [] ∧ r.seq = s.fabric.expected r.src r.cls
  (Claim.Arrives f s → inTurn → isAnswered r.op = true →
    (s.parts[p].rankOf r.src = none ∨ s.parts[p].jobTag.toNat % 65536 ≠ r.job.toNat → answers (.error 0x12)) ∧
    (∀ q n ts l, s.parts[p].rankOf r.src = some q → s.parts[p].jobTag.toNat % 65536 = r.job.toNat → r.op = .load n →
      v.windowTargets p .load (windowPieces r.offset n) = .ok ts v → v.readPiecesAt (v.spanCtx p) ts = .ok l v → answers (.data l)) ∧
    ∀ k, v.serve { part := p, port := f.port, req := r } = .wait k → ∃ t w, exec (.spanRequest p f r) s = .next t ∧
      t = { v with fabric := { v.fabric with waits := [w] } } ∧ w.arrival = { part := p, port := f.port, req := r } ∧ w.woken = false) ∧
  (s.linked f.port = true → f.fails = 2 → s.fabric.waits = [] → ∃ t, exec (.spanRequest p f r) s = .next t ∧
    t = { s with fabric := { s.fabric with ports := t.fabric.ports, wire := t.fabric.wire, atSource := t.fabric.atSource } } ∧
    t.fabric.ports[f.port].state = .locked ∧ t.fabric.ports[f.port].replay = []) ∧
  (s.linked f.port = false → s.fabric.waits = [] → exec (.spanRequest p f r) s = .next s)

/-- R374, R378: a reply frees its request's tag and reaches the instruction that waits for it, and its own turn is passed; one that no
request of its tag and incarnation waits for is counted as late; one that has come before does nothing. -/
def Claim.RepliesReachTheirRequest : Prop := ∀ (h : Heading) (tag : Fin 4096) (inc : Fin 16) (a : Answer) (s : State), Claim.Arrives h.flit s →
  let ahead := (h.seq - s.fabric.expected h.src h.cls).val
  let passes := fun t : State => t.fabric.early = [] ∧
    (ahead = 0 → t.fabric.expected h.src h.cls = h.seq + Fin.ofNat 65536 (bodyFlits (.reply a)))
  (32768 ≤ ahead → exec (.fabricReply h tag inc a) s = .next (s.receiveFlit h.flit (bodyFlits (.reply a))).2) ∧
  (ahead < 32768 → s.fabric.early = [] → s.fabric.passed = [] →
    (s.fabric.requests.find? (fun r => r.req.tag == tag && r.req.inc == inc) = none → ∃ t, exec (.fabricReply h tag inc a) s = .next t ∧
      t = { s with fabric := { s.fabric with ports := t.fabric.ports, passed := t.fabric.passed, served := t.fabric.served } } ∧ passes t ∧
      t.fabric.ports[h.flit.port].late.toNat = min 65535 (s.fabric.ports[h.flit.port].late.toNat + 1)) ∧
    ∀ r pos e, s.fabric.requests.find? (fun r => r.req.tag == tag && r.req.inc == inc) = some r →
      r.by_ = .hart s.hart.engine s.hart.id pos e → ∃ t, exec (.fabricReply h tag inc a) s = .next t ∧ passes t ∧
        t.hart = { s.hart with replies := s.hart.replies ++ [{ pos := pos, elem := e, answer := a }] } ∧ t.mem = s.mem ∧
        t.fabric.requests = s.fabric.requests.filter fun x => x.req.tag != tag)

/-- R374, R376, R455: a cancelled request that has not been performed never is: it leaves the requests kept here, and the turns of all its
flits are passed over; one already performed is left as it is. The cancel's own turn is passed too.
How many numbers a cancel covers is the model's choice (log 79). -/
def Claim.CancelledRequestsAreNeverPerformed : Prop := ∀ (h : Heading) (run : FlitRun) (s : State),
  let seq := run.first
  let next := s.fabric.expected h.src h.cls
  let same := fun r : SpanReq => r.src == h.src && r.cls == h.cls && r.seq == seq
  let v := (s.receiveFlit h.flit 1).2
  let own := (h.src, h.cls, h.seq, 1)
  let waits := s.fabric.waits.filter fun e => ! same e.arrival.req
  let early := s.fabric.early.filter fun e => ! same e.req
  (s.linked h.flit.port = false → exec (.cancel h run.first run.count) s = .next s) ∧
  (Claim.Arrives h.flit s → s.fabric.passed = [] → 0 < (h.seq - next).val → (h.seq - next).val < 32768 → seq ≠ h.seq →
    (∀ e ∈ s.fabric.early, ¬ (e.req.src = h.src ∧ e.req.cls = h.cls ∧ e.req.seq = next)) →
    (32768 ≤ (seq - next).val → exec (.cancel h run.first run.count) s = .next { v with fabric := { v.fabric with passed := [own] } }) ∧
    (0 < (seq - next).val → (seq - next).val < 32768 → exec (.cancel h run.first run.count) s = .next { v with
      fabric := { v.fabric with waits := waits, early := early, passed := [(h.src, h.cls, seq, run.count.val), own] } }) ∧
    (seq = next → s.fabric.early = [] → ∃ t, exec (.cancel h run.first run.count) s = .next t ∧
      t = { v with fabric := { v.fabric with waits := waits, passed := t.fabric.passed, served := t.fabric.served } } ∧
      let after := next + Fin.ofNat 65536 run.count.val
      t.fabric.expected h.src h.cls = if after = h.seq then h.seq + 1 else after))

/-- R374, R454, R455: a request that times out is cancelled at its destination by a flit with a number of its own, its tag is held under
the next incarnation and its instruction gets cause 0x28; one that waits at its source since every route passes a locked port gets cause 0x29
and never leaves; a tag's hold ends. That one held by locked ports is cancelled as well is the model's reading (log 56). -/
def Claim.UnansweredRequestsEnd : Prop := ∀ (tag : Fin 4096) (s : State),
  exec (.tagHoldExpiry tag) s = .next { s with fabric := { s.fabric with held := s.fabric.held.filter (· != tag) } } ∧
  (s.fabric.requests.find? (fun r => r.req.tag == tag) = none →
    exec (.fabricRequestTimeout tag) s = .next s ∧ exec (.lockedRouteTimeout tag) s = .next s) ∧
  ∀ r pos e, s.fabric.requests.find? (fun r => r.req.tag == tag) = some r → r.by_ = .hart s.hart.engine s.hart.id pos e →
    let cancel := Output.cancel r.dest r.req.cls r.req.seq (Fin.ofNat 17 (flitsOf r.req.op))
    let ends := fun (i : Instr) (code : Byte) (incs : List (Fin 4096 × Fin 16)) (held : List (Fin 4096)) => ∃ t, exec i s = .next t ∧
      t = { s with hart := t.hart, harts := t.harts, fabric := t.fabric, outputs := cancel :: s.outputs } ∧
      t.hart = { s.hart with replies := s.hart.replies ++ [{ pos := pos, elem := e, answer := .error code }] } ∧
      t.fabric.requests = (s.fabric.requests.filter fun x => x.req.tag != tag) ∧ t.fabric.incs = incs ∧ t.fabric.held = held ∧
      t.fabric.seqOf r.dest r.req.cls = s.fabric.seqOf r.dest r.req.cls + 1 ∧
      (code = 0x29 → ∀ m ∈ t.fabric.atSource, m.asks tag = true → ∃ i : Fin 8, m ∈ s.fabric.ports[i].replay)
    let waits := s.fabric.atSource.any (·.asks tag)
    ends (.fabricRequestTimeout tag) 0x28
      ((tag, s.fabric.incOf tag + 1) :: s.fabric.incs.filter (fun x => x.1 != tag)) (tag :: s.fabric.held) ∧
    (waits = true → s.fabric.cutOff r.dest = false → ends (.lockedRouteTimeout tag) 0x29 s.fabric.incs s.fabric.held) ∧
    (waits = false ∨ s.fabric.cutOff r.dest = true → exec (.lockedRouteTimeout tag) s = .next s)

/-- R376, R377, R388, R389, R393, R452, R453: once the link controllers' firmware is verified, training opens a port at the highest common
version under a new key, and so does a renewed attestation; a failure leaves it down, its key discarded, where only a reset helps; a lost lane
halves it, or takes it down at version 1; a key update keeps its state and needs the session of the two partners. Of the other ports only
what messages do that leave by them differs. That a port that is down stays so until reset is the model's reading (log 50). -/
def Claim.PortsChangeState : Prop := ∀ (i : Fin 8) (v : Fin 4) (s : State),
  let p := s.fabric.ports[i]
  let runs := s.golium.verified[3] = true
  let linked := runs ∧ p.up = true
  let seen := fun q : Port => { q with judged := q.retrain }
  let turns := fun (e : Instr) (quiet : Prop) (any good : Port → Prop) => ∃ t, exec e s = .next t ∧ t.mem = s.mem ∧ any t.fabric.ports[i] ∧
    (quiet → good t.fabric.ports[i] ∧ ∀ k : Fin 8, k ≠ i → t.fabric.ports[k] = seen s.fabric.ports[k])
  let opens := fun (e : Instr) (n : Nat) => turns e (s.fabric.atSource = [])
    (fun q => q.ver = min 3 v ∧ (q.state = .full ∨ q.state = .locked))
    fun q => q = seen { p with
      state := .full, ver := min 3 v, keyEpoch := p.keyEpoch + 1, flits := 0, sent := 0
      spdm := { p.spdm with
        version := true, capabilities := true, algorithms := true, handshake := false, session := true, keys := p.spdm.keys + 1 }
      retrain := BitVec.ofNat 8 (min 255 (p.retrain.toNat + n)) }
  let closes := fun e : Instr => turns e (p.replay = [])
    (fun q => q = seen { p with state := .down, spdm := { p.spdm with session := false }, replay := [] }) fun _ => True
  (runs → p.state ≠ .down → v ≠ 0 → opens (.linkTraining i v true) (if p.keyEpoch = 0 then 0 else 1)) ∧
  (runs → p.state ≠ .down → closes (.linkTraining i v false) ∧ closes (.linkTraining i 0 true)) ∧
  (p.state = .down ∨ ¬ runs → exec (.linkTraining i v true) s = .next s ∧ exec (.linkTraining i v false) s = .next s) ∧
  (runs → p.state = .locked → v ≠ 0 → opens (.portUnlock i v) 1) ∧
  (runs → p.state = .locked → closes (.portUnlock i 0)) ∧ (p.state ≠ .locked ∨ ¬ runs → exec (.portUnlock i v) s = .next s) ∧
  closes (.portDown i) ∧
  (linked → 2 ≤ p.ver.val → turns (.laneFailure i) True (fun _ => True) fun q => q = seen { p with state := .half }) ∧
  (linked → p.ver.val < 2 → closes (.laneFailure i)) ∧ (¬ linked → exec (.laneFailure i) s = .next s) ∧
  (linked → p.ver = 3 → p.spdm.session = true → exec (.linkKeyUpdate i) s = .next { s with fabric := { s.fabric with
    ports := s.fabric.ports.set i { p with
      keyEpoch := p.keyEpoch + 1, flits := 0, sent := 0, spdm := { p.spdm with keys := p.spdm.keys + 1 } } } }) ∧
  (¬ linked ∨ p.ver ≠ 3 ∨ p.spdm.session = false → exec (.linkKeyUpdate i) s = .next s)

/-- R454: a rank whose module has stopped is unreachable for every job until its table is written again: a job's requests to it get cause
0x2A, and later ones are not sent. -/
def Claim.StoppedRanksAreUnreachable : Prop := ∀ (rank : Fin 4096) (s : State),
  ∃ t, exec (.peerModuleStopped rank) s = .next t ∧ t.mem = s.mem ∧ (∀ p : Fin 8, (p, rank) ∈ t.fabric.stopped) ∧
    (∀ p q, s.parts[p].ranks[q]? = some (some rank) → t.fabricRank p q = none) ∧
    (rank ≠ s.fabric.self →
      let lost := fun r : FabricRequest => r.dest = rank ∧ ∃ p : Fin 8, r.req.job = BitVec.ofNat 16 s.parts[p].jobTag.toNat
      (∀ r ∈ t.fabric.requests, ¬ lost r) ∧
      ∀ r ∈ s.fabric.requests, ∀ pos e, lost r → r.by_ = .hart s.hart.engine s.hart.id pos e →
        { pos := pos, elem := e, answer := .error 0x2A : FabricReply } ∈ t.hart.replies)

/-! ### Registers of partitions, queues and the module; interface states (R357, R370, R371, R380-R387, R456) -/

/-- The module is ready, and a request may write a register of partition `p`: its owner is unlocked, and the owner or the physical
function writes; or the owner runs and writes with the TEE bit, on a stream that has its keys (R380 to R382, R389, R393;
log 101). -/
def Claim.MayWrite (f : Caller) (p : Fin 8) (s : State) : Prop :=
  let v := s.parts[p].vf
  s.golium.stage = 7 ∧ (((f.function = 0 ∨ f.function = v) ∧ (v = 0 ∨ s.golium.vfs[v] = .configUnlocked)) ∨
    (f.function = v ∧ v ≠ 0 ∧ f.tee = true ∧ s.golium.vfSpdm[v].secure = true ∧ s.golium.vfs[v] = .run))

/-- Only partition `p` differs, as `g` says. -/
def Claim.PartBecomes (p : Fin 8) (g : Partition → Partition) (s t : State) : Prop := t = { s with parts := s.parts.set p (g s.parts[p]) }

/-- R380, R381, R384, R393, R456: a write by a function that neither owns the partition nor is the physical one does nothing, nor does
one before the module is ready; a write of the physical function to a register that the owner's state locks only sets PSTAT to 4, and the
owner's own without the TEE bit puts its interface in ERROR.
The stage from which registers are written is the model's choice (log 80). -/
def Claim.LockedAndForeignWritesHaveNoEffect : Prop := ∀ (f : Caller) (q : Fin 64) (p : Fin 8) (k : Fin 16) (v : Word) (s : State),
  let early := [Instr.pcfgWrite f p v, .pmemWrite f p k v, .prootWrite f p v]
  let late := [Instr.pinvalWrite f p v, .pjobnWrite f p v, .pexpnWrite f p v, .pdeadwordWrite f p v]
  let refuses := fun i : Instr => ∃ t, exec i s = .next t ∧ Claim.PartBecomes p (fun x => { x with pstat := 4 }) s t
  let w := s.parts[p].vf
  let ready := s.golium.stage = 7
  (f.function ≠ 0 → f.function ≠ w → ∀ i ∈ early ++ late, exec i s = .next s) ∧
  (¬ ready → ∀ i ∈ early ++ late, exec i s = .next s) ∧
  (ready → f.function = 0 → w ≠ 0 → s.golium.vfs[w] = .configLocked → ∀ i ∈ early, refuses i) ∧
  (ready → f.function = 0 → w ≠ 0 → s.golium.vfs[w] = .run → ∀ i ∈ early ++ late, refuses i) ∧
  (ready → f.function = 0 → s.queues[q].part = p → w ≠ 0 → s.golium.vfs[w] = .run → refuses (.qcfgWrite f q v)) ∧
  (ready → f.function = w → w ≠ 0 → f.tee = false ∨ s.golium.vfSpdm[w].secure = false → s.golium.vfs[w] = .run → ∀ i ∈ early ++ late,
    ∃ t, exec i s = .next t ∧ t.mem = s.mem ∧ t.hart = s.hart ∧ t.golium.vfs = s.golium.vfs.set w .error)

/-- R383-R385: a configuration that Golium accepts is stored without its reserved bits, its EN once the grant is zeroed; one it
refuses only sets PSTAT to the lowest code that applies. A grant is stored the same way.
Where codes 1, 2 and 5 apply is the model's reading (log 55). -/
def Claim.PartitionConfigurationIsChecked : Prop := ∀ (f : Caller) (p : Fin 8) (k : Fin 16) (v : Word) (s : State), Claim.MayWrite f p s →
  let x := s.parts[p]
  let code := s.judgeCfg p v
  let on := x.cfg.getLsbD 63 = true ∨ x.enabling = true
  (code ≠ 0 → exec (.pcfgWrite f p v) s = .next { s with parts := s.parts.set p { x with pstat := code } }) ∧
  (code = 0 → ∃ t, exec (.pcfgWrite f p v) s = .next t ∧ t.mem = s.mem ∧ (∀ q : Fin 8, q ≠ p → t.parts[q] = s.parts[q]) ∧
    let y := t.parts[p]
    y.pstat = 0 ∧ y.pmem = x.pmem ∧ y.proot = x.proot ∧ (∀ i, i < 63 → y.cfg.getLsbD i = (v.getLsbD i && cfgMask.getLsbD i)) ∧
    y.cfg.getLsbD 63 = (v.getLsbD 63 && x.cfg.getLsbD 63) ∧ (v.getLsbD 63 = true → ¬ on → y.enabling = true ∧ y.keyGen = x.keyGen + 1) ∧
    (v.getLsbD 63 = false → y.enabling = false ∧ (on → y.nonce = none ∧ y.policy = false))) ∧
  (let w := v &&& 0x80FFFFFFFFC00000
   let new := x.pmem.set k w
   (w ≠ x.pmem[k] → s.inUse p = true → exec (.pmemWrite f p k v) s = .next { s with parts := s.parts.set p { x with pstat := 3 } }) ∧
   (s.inUse p = false → s.badGrants p new = true → exec (.pmemWrite f p k v) s = .next { s with parts := s.parts.set p { x with pstat := 5 } }) ∧
   (s.inUse p = false → s.badGrants p new = false → ¬ on →
     exec (.pmemWrite f p k v) s = .next { s with parts := s.parts.set p { x with pmem := new, pstat := 0 } }))

/-- R385, R387: when the enabling of a partition completes, EN reads 1, every byte of its grants reads 0 and no expert is dead;
no other byte of memory changes. -/
def Claim.EnablingZeroesTheGrant : Prop := ∀ (p : Fin 8) (s : State),
  (s.parts[p].enabling = false → exec (.partitionEnableComplete p) s = .next s) ∧
  (s.parts[p].enabling = true → ∃ t, exec (.partitionEnableComplete p) s = .next t ∧
    t = { s with mem := t.mem, badLines := t.badLines, rewritten := t.rewritten, parts := s.parts.set p { s.parts[p] with
      enabling := false, cfg := s.parts[p].cfg ||| 0x8000000000000000, dead := [] } } ∧
    ∀ a, t.mem.get a = if (grantsOf s.parts[p].pmem).any (fun r => decide (r.1 ≤ a ∧ a < r.1 + r.2)) then 0 else s.mem.get a)

/-- R370, R371, R381, R384, R386, R387, R434: the root, the invalidation, the rank table, the export map and the dead-expert bitmap take
what is written or read from memory, an invalidation waking the waits for a page; a virtual function writes a root or an invalidation
within its partition's grant only; an export map that is not well-formed leaves the one in force and sets PSTAT to 6.
That an export count above 64 is code 6 is the model's reading (log 55). -/
def Claim.TablesOfAPartitionAreTaken : Prop := ∀ (f : Caller) (p : Fin 8) (v : Word) (s : State), Claim.MayWrite f p s →
  let x := s.parts[p]
  let raw := (List.range (min v.toNat 64)).map fun i => s.mem.getNat (x.expAddr.toNat + 32 * i) 32
  let es := (raw.filter fun e => e.testBit 0).map exportEntry
  let apart := es.Pairwise fun a b => overlap (a.offset, a.len) (b.offset, b.len) = false
  let good := v.toNat ≤ 64 ∧ (∀ e ∈ es, e.ok = true) ∧ apart
  let granted := fun a : Nat => f.function = 0 ∨ x.grants a = true
  let root : Word := v &&& 0xFFFFFFFFF0000
  let page := v.toNat / 2 ^ 12 % 2 ^ 40 * 4096
  let again := fun h : Hart => if h.part = p then
    { h with wait := h.wait.map fun w => if w.kind = .page ∨ w.kind = .fetch then { w with met := true } else w } else h
  (granted root.toNat → ∃ t, exec (.prootWrite f p v) s = .next t ∧ Claim.PartBecomes p (fun x => { x with proot := root }) s t) ∧
  (¬ granted root.toNat → exec (.prootWrite f p v) s = .next s) ∧
  (v.getLsbD 62 = true ∨ granted page → exec (.pinvalWrite f p v) s = .next { s with
    hart := again s.hart, harts := s.harts.map again, parts := s.parts.set p { x with inval := v &&& 0x400FFFFFFFFFF000 } }) ∧
  (v.getLsbD 62 = false → ¬ granted page → exec (.pinvalWrite f p v) s = .next s) ∧
  (∃ t, exec (.pjobnWrite f p v) s = .next t ∧ t = { s with
      parts := t.parts, fabric := { s.fabric with stopped := s.fabric.stopped.filter fun e => e.1 != p } } ∧
    t.parts = s.parts.set p { x with jobN := v, ranks := t.parts[p].ranks } ∧ t.parts[p].ranks.length = min v.toNat 4096 ∧
    ∀ q, q < min v.toNat 4096 → let e := s.mem.getNat (x.jobRt.toNat + 2 * q) 2
      t.parts[p].ranks[q]? = some (if e.testBit 15 then some (Fin.ofNat 4096 e) else none)) ∧
  (good → ∃ t, exec (.pexpnWrite f p v) s = .next t ∧ Claim.PartBecomes p (fun x => { x with expN := v, exports := es, pstat := 0 }) s t) ∧
  (¬ good → ∃ t, exec (.pexpnWrite f p v) s = .next t ∧ Claim.PartBecomes p (fun x => { x with pstat := 6 }) s t) ∧
  ∃ t, exec (.pdeadwordWrite f p v) s = .next t ∧ Claim.PartBecomes p (fun x => { x with deadWord := v, dead := t.parts[p].dead }) s t ∧
    ∀ w, ((t.parts[p].dead.find? fun e => e.1 == w).map (·.2)).getD 0 =
      if w = x.deadSel.toNat % 1024 then v else ((x.dead.find? fun e => e.1 == w).map (·.2)).getD 0

/-- R357: QCFG stores its fields, a weight of 0 keeping the old one; enabling a queue sets its head and its tail to 0.
When a virtual function may write is the model's reading (log 60). -/
def Claim.QueueConfigurationIsStored : Prop := ∀ (f : Caller) (q : Fin 64) (v : Word) (s : State), Claim.MayWrite f s.queues[q].part s →
  let k := s.queues[q]
  let starts := v.getLsbD 63 = true ∧ k.cfg.getLsbD 63 = false
  let field : Word := 0x01FE000000000000
  let weight := if v &&& field = 0 then k.cfg &&& field else v &&& field
  exec (.qcfgWrite f q v) s = .next { s with queues := s.queues.set q { k with
    cfg := (v &&& 0xFE01F000000003FF) ||| weight
    head := if starts then 0 else k.head
    tail := if starts then 0 else k.tail } }

/-- R7, R357, R380, R384, R387, R395: a plain register takes what is written, PCAP within its bounds, a queue's STVEC without its two low
bits, a root of an ASID without the bits translation does not use; a write to a register that is only read changes nothing.
When a virtual function may write is the model's reading (log 60). The register that holds the root of an ASID is the model's choice (log 12). -/
def Claim.PlainRegistersTakeTheirValue : Prop := ∀ (f : Caller) (q : Fin 64) (p i : Fin 8) (n : Fin 1024) (v : Word) (s : State),
  (∀ r ∈ [PlainReg.clmask, .health, .portstat i, .pstat p], exec (.registerWrite f r v) s = .next s) ∧
  (1200 ≤ v.toNat % 4096 → v.toNat % 4096 ≤ 3300 → f.function = 0 → exec (.registerWrite f .pcap v) s = .next { s with
    golium := { s.golium with pcap := BitVec.ofNat 12 v.toNat } }) ∧
  (Claim.MayWrite f p s →
    let puts := fun (r : PlainReg) (g : Partition → Partition) => ∃ t, exec (.registerWrite f r v) s = .next t ∧ Claim.PartBecomes p g s t
    puts (.pjobtag p) (fun x => { x with jobTag := v }) ∧ puts (.pjobrt p) (fun x => { x with jobRt := v }) ∧
    puts (.pjobself p) (fun x => { x with jobSelf := v }) ∧ puts (.pexp p) (fun x => { x with expAddr := v }) ∧
    puts (.pdeadsel p) (fun x => { x with deadSel := v &&& 0x3FF }) ∧
    puts (.asidRoot p n) (fun x => { x with roots := (n.val, v &&& 0xFFFFFFFFF0000) :: x.roots.filter fun e => e.1 != n.val })) ∧
  (Claim.MayWrite f s.queues[q].part s →
    let puts := fun (r : PlainReg) (k : Queue) => exec (.registerWrite f r v) s = .next { s with queues := s.queues.set q k }
    puts (.qring q) { s.queues[q] with ring := v } ∧ puts (.qstatus q) { s.queues[q] with status := v } ∧
    puts (.qstvec q) { s.queues[q] with stvec := v &&& ~~~ 3 } ∧ puts (.qsscratch q) { s.queues[q] with sscratch := v })

/-- R381, R385, R393, R456: once the host link is trained the interface of a VF goes from unlocked to locked, where its configuration is measured, to running; stopping
it ends everything its partitions have in flight and disables them; an integrity failure or lost heartbeats put it in ERROR. -/
def Obligations.InterfacesChangeState : Prop := ∀ (v : Fin 64) (s : State), v ≠ 0 →
  let st := s.golium.vfs[v]
  let heard := s.golium.enumerable = true
  let turns := fun (i : Instr) (x : VfState) (good : State → Prop) => ∃ t, exec i s = .next t ∧ t.mem = s.mem ∧
    t.golium.vfs = s.golium.vfs.set v x ∧ good t
  (¬ heard → ∀ i ∈ [Instr.lockInterface v, .startInterface v, .stopInterface v], exec i s = .next s) ∧
  (heard → st = .configUnlocked → turns (.lockInterface v) .configLocked fun t => t.parts = s.parts ∧ ∃ l, t.golium.log = s.golium.log ++ l ∧
    ∀ p : Fin 8, s.parts[p].vf = v → ∃ d, (16 + p.val, d) ∈ l) ∧
  (st ≠ .configUnlocked → exec (.lockInterface v) s = .next s) ∧
  (heard → st = .configLocked → turns (.startInterface v) .run fun t => t.parts = s.parts) ∧
  (st ≠ .configLocked → exec (.startInterface v) s = .next s) ∧
  (heard → st ≠ .configUnlocked → turns (.stopInterface v) .configUnlocked fun t => ∀ p : Fin 8, s.parts[p].vf = v →
    t.parts[p].cfg.getLsbD 63 = false ∧ t.parts[p].nonce = none ∧ t.parts[p].policy = false ∧
    (∀ h ∈ t.harts, h.part ≠ p) ∧ (∀ l ∈ t.launches, l.part ≠ p) ∧ (∀ j ∈ t.jobs, j.part ≠ p) ∧ (∀ x ∈ t.sessions, x.part ≠ p) ∧
    ∀ r ∈ t.regions, r.part ≠ p) ∧
  (st = .run ∨ st = .configLocked → ∀ i ∈ [Instr.vfError v, .heartbeatTimeout v], turns i .error fun t =>
    t.harts = s.harts ∧ ∀ p : Fin 8, s.parts[p].vf = v → t.parts[p].policy = false)

/-! ### Golium: SPDM, debug policies, health, power (R388-R396, R443, R457-R459); accesses of the host (R82, R380) -/

/-- R389, R393, R456: once Golium hears a link, a request in its order changes its link's session as the protocol says and is answered with its own code; every
other link, the log, the registers and the memory stay. A malformed request, and one out of order, get ERROR and change no session.
The request codes are PRESUMED (log 63). -/
def Claim.SpdmRequestsAreAnsweredInOrder : Prop := ∀ (l : SpdmLink) (s : State),
  let x := s.link l
  let m : SpdmMsg := { link := l, malformed := false }
  let all := fun m : SpdmMsg => [Instr.getVersion m, .getCapabilities m, .negotiateAlgorithms m, .getDigests m, .getCertificate m, .challenge m,
    .getMeasurements m, .keyExchange m, .finish m, .keyUpdate m, .heartbeat m, .endSession m]
  let answers := fun (i : Instr) (y : Spdm) (code : Nat) => ∃ t body, exec i s = .next t ∧ t.link l = y ∧ (∀ k, k ≠ l → t.link k = s.link k) ∧
    t.outputs = .spdm l code body :: s.outputs ∧ t.golium.log = s.golium.log ∧ t.mem = s.mem ∧ t.hart = s.hart ∧ t.parts = s.parts
  let error := fun (i : Instr) (e : Nat) => ∃ t, exec i s = .next t ∧ t = { s with draws := t.draws, outputs := .spdm l 0x7F [e] :: s.outputs }
  let refused := fun i : Instr => error i 4
  (s.hears l = false → ∀ b, ∀ i ∈ all { link := l, malformed := b }, ∃ t, exec i s = .next t ∧ t = { s with draws := t.draws }) ∧
  (s.hears l = true → ∀ i ∈ all { link := l, malformed := true }, error i 1) ∧
  (s.hears l = true →
  answers (.getVersion m) { x with version := true, capabilities := false, algorithms := false } 0x04 ∧
  (if x.version then answers (.getCapabilities m) { x with capabilities := true } 0x61 else refused (.getCapabilities m)) ∧
  (if x.capabilities then answers (.negotiateAlgorithms m) { x with algorithms := true } 0x63 else refused (.negotiateAlgorithms m)) ∧
  (if x.algorithms then answers (.getDigests m) x 0x01 ∧ answers (.getCertificate m) x 0x02 ∧ answers (.challenge m) x 0x03 ∧
      answers (.getMeasurements m) x 0x60
    else ∀ i ∈ [Instr.getDigests m, .getCertificate m, .challenge m, .getMeasurements m], refused i) ∧
  (if x.algorithms = true ∧ x.session = false then answers (.keyExchange m) { x with handshake := true } 0x64 else refused (.keyExchange m)) ∧
  (if x.handshake then answers (.finish m) { x with handshake := false, session := true, keyUpdates := 0, keys := x.keys + 1 } 0x65 else refused (.finish m)) ∧
  (if x.session then answers (.keyUpdate m) { x with keyUpdates := x.keyUpdates + 1, keys := x.keys + 1 } 0x69 ∧ answers (.heartbeat m) x 0x68
    else refused (.keyUpdate m) ∧ refused (.heartbeat m)) ∧
  ((∀ v, l ≠ .vf v) → if x.session then answers (.endSession m) { x with session := false, handshake := false } 0x6C else refused (.endSession m)))

/-- R390, R393, R456: the log is read whole, once Golium's firmware runs, and stays; the end of a tenant's session puts its VF in ERROR. -/
def Claim.TheLogIsReadWhole : Prop := ∀ (s : State) (v : Fin 64),
  exec .measurementLogRead s = .next (if s.golium.stage = 0 then s else { s with outputs := .logRead s.golium.log :: s.outputs }) ∧
  (s.golium.enumerable = true → v ≠ 0 → s.golium.vfSpdm[v].session = true → s.golium.vfs[v] = .run →
    ∃ t, exec (.endSession { link := .vf v, malformed := false }) s = .next t ∧
    t.golium.vfs = s.golium.vfs.set v .error ∧ t.golium.vfSpdm[v].session = false)

/-- R391, R392, R457: over the secured session of its VF alone, a partition whose VF runs gets a nonce; a policy submitted gets the lowest status that applies, its nonce is
consumed, the old policy ends, and the new grant is in force only with status 0.
The order of the checks and the verification are the model's (log 62, 30). -/
def Claim.DebugPoliciesAreJudged : Prop := ∀ (p : Fin 8) (d : DebugPolicy) (s : State),
  let x := s.parts[p]
  let runs := x.vf ≠ 0 ∧ s.golium.vfs[x.vf] = .run
  let signed := Config.slhDsaVerify (Config.tenantDebugKey p.val)
    (leBytes 2 d.format ++ leBytes 48 d.digest.toNat ++ leBytes 32 d.nonce.toNat ++ leBytes 2 d.grant.toNat) d.signature = true
  let status := if ¬ runs then 6 else if d.format ≠ 1 then 1 else if ¬ signed then 2
    else if s.digest? (16 + p.val) ≠ some d.digest then 3 else if x.nonce ≠ some d.nonce then 4
    else if d.grant.extractLsb' 5 11 ≠ 0 then 5 else 0
  let open_ := s.golium.vfSpdm[x.vf].session = true
  (¬ open_ → ∀ i ∈ [Instr.getDebugNonce p, .debugPolicySubmit p d], exec i s = .next { s with outputs := .spdm (.vf x.vf) 0x7F [4] :: s.outputs }) ∧
  (open_ → runs → ∃ t n, exec (.getDebugNonce p) s = .next t ∧ t.parts = s.parts.set p { x with nonce := some n } ∧ t.mem = s.mem ∧
    t.golium = s.golium ∧ t.outputs = .spdm (.vf x.vf) 0x7E [n.toNat] :: s.outputs) ∧
  (open_ → ¬ runs → exec (.getDebugNonce p) s = .next { s with outputs := .status 6 :: s.outputs }) ∧
  (open_ → ∃ t, exec (.debugPolicySubmit p d) s = .next t ∧ t.mem = s.mem ∧ t.outputs = .status status :: s.outputs ∧
    t.parts = s.parts.set p { x with nonce := none, policy := decide (status = 0), grant := if status = 0 then d.grant else 0 } ∧
    ∃ g, t.golium.log = s.golium.log ++ [(32 + p.val, g)])

/-- R388, R393: a verified image's higher security version raises its fuse minimum; a bring-up stage that completes shows its number,
one that fails 0x80 plus it; at 0x07 there is none above it. -/
def Claim.BringUpGoesStageByStage : Prop := ∀ (im : Image) (s : State),
  let i := imageIndex im
  let n := s.golium.stage.toNat + 1
  exec (.fuseMinimumRaise im) s = .next (if s.golium.verified[i] then { s with golium := { s.golium with
    fuses := s.golium.fuses.set i (max s.golium.fuses[i] (Config.imageVersion i.val)) } } else s) ∧
  (n ≤ 7 → s.golium.imagesOk n = true → ∃ t, exec (.bringUpStage true) s = .next t ∧ t.golium.stage.toNat = n ∧ t.mem = s.mem ∧
    t.parts = s.parts ∧ t.queues = s.queues) ∧
  (n ≤ 7 → s.golium.imagesOk n = false → exec (.bringUpStage true) s = exec (.bringUpStage false) s) ∧
  (n ≤ 7 → exec (.bringUpStage false) s = .next { s with golium := { s.golium with stage := BitVec.ofNat 8 (0x80 + n) } }) ∧
  (7 < n → exec (.bringUpStage true) s = .next s ∧ exec (.bringUpStage false) s = .next s)

/-- R394, R396: at 115 degrees all issue stops and THOLD shows, each change with its MSI-X and MCTP events, and nothing else changes;
below 100 degrees it goes on. -/
def Claim.HeatStopsIssueOnly : Prop := ∀ s : State,
  let turned := fun b : Bool => { s with golium := { s.golium with thold := b }, outputs := .mctpEvent 1 :: .msix 0 :: s.outputs }
  exec .thermalHold s = .next (if s.golium.thold then s else turned true) ∧
  exec .thermalResume s = .next (if s.golium.thold then turned false else s)

/-- R21, R24, R160, R284, R356, R357, R383, R390, R394, R396: a module reset, a loss of power and a thermal trip leave no strand, no
launch and no enabled partition or queue, and clear the matrix state and the log; the counts and fuses kept by Golium stay, and a trip
is counted; without power nothing issues. That device memory is lost is the model's reading (log 54). -/
def Claim.ResetAndPowerLossKeepGoliumsCounts : Prop := ∀ (s : State) (i : Instr), i ∈ [Instr.moduleReset, .powerLoss, .powerOn, .thermalTrip] →
  ∃ t, exec i s = .next t ∧ t.harts = [] ∧ t.hart.phase = .absent ∧ t.launches = [] ∧ t.jobs = [] ∧ t.regions = [] ∧ t.sessions = [] ∧
    t.cycle = 0 ∧ (∀ p : Fin 8, t.parts[p].cfg.getLsbD 63 = false ∧ t.parts[p].policy = false) ∧ (∀ q : Fin 64, t.queues[q].cfg.getLsbD 63 = false) ∧
    (∀ c : Fin 64, t.clusters[c].enabled = s.clusters[c].enabled ∧ t.clusters[c].mode = 0 ∧ t.clusters[c].queue = [] ∧
      t.clusters[c].working = Vector.replicate 256 0 ∧ t.clusters[c].visible = Vector.replicate 256 0 ∧ t.clusters[c].bLatch = 0) ∧
    (∀ v : Fin 64, t.golium.vfs[v] = .configUnlocked) ∧ t.golium.log = [] ∧ t.golium.radv = false ∧ t.golium.fuses = s.golium.fuses ∧
    t.golium.fencedCount = s.golium.fencedCount ∧ t.golium.sparedCount = s.golium.sparedCount ∧ t.golium.retiredCount = s.golium.retiredCount ∧
    t.golium.trips = (if i = .thermalTrip then s.golium.trips + 1 else s.golium.trips) ∧
    t.golium.powered = (if i = .powerLoss ∨ i = .thermalTrip then false else if i = .moduleReset then s.golium.powered else true)

/-- R21, R443, R458, R459: a cluster drains after a cause 0x32 in it, and not before a third cause 0x31 without one. One that drains is fenced and leaves CLMASK
once it holds nothing; a row with grounds is spared, and a page with a rewritten line retired, and counted, unless it holds an uncorrectable line; a limit reached
sets RADV, which then stays. Which row, and whether it had sixteen corrected errors, are free values (logs 45, 89). -/
def Claim.FencingSparingAndRetiring : Prop := ∀ (c : Fin 64) (page : Nat) (s : State),
  let g := s.golium
  let x := s.clusters[c]
  (x.enabled = true → x.parityFound = true →
    exec (.clusterDrain c) s = .next { s with clusters := s.clusters.set c { x with draining := true } }) ∧
  (x.enabled = false ∨ (x.parityFound = false ∧ x.bankFaults < 3) → exec (.clusterDrain c) s = .next s) ∧
  (x.enabled = true → x.parityFound = false → 3 ≤ x.bankFaults → ∃ t, exec (.clusterDrain c) s = .next t ∧
    t = { s with draws := t.draws, clusters := s.clusters.set c { x with draining := t.clusters[c].draining } } ∧
    (x.draining = true → t.clusters[c].draining = true)) ∧
  (∀ k : Cause, (s.blame (some c) k.code).clusters[c] =
    { x with parityFound := x.parityFound || k == .parity, bankFaults := if k = .bankError then x.bankFaults + 1 else x.bankFaults }) ∧
  (s.drained c = false → exec (.clusterFence c) s = .next s) ∧
  (s.drained c = true → ∃ t, exec (.clusterFence c) s = .next t ∧ t.mem = s.mem ∧ t.clusters[c].enabled = false ∧
    t.clmask.getLsbD c.val = false ∧ (∀ d : Fin 64, d ≠ c → t.clusters[d] = s.clusters[d]) ∧ t.golium.fencedCount = g.fencedCount + 1 ∧
    (4 ≤ g.fencedCount + 1 → t.golium.radv = true) ∧ (g.radv = true → t.golium.radv = true)) ∧
  let row := Config.sparedRow (Config.free s.draws)
  (Config.free (s.draws + 1) % 2 = 0 ∨ (∃ l ∈ s.badLines, l ∈ row) → exec .rowSpare s = .next { s with draws := s.draws + 2 }) ∧
  (Config.free (s.draws + 1) % 2 = 1 → (∀ l ∈ s.badLines, l ∉ row) → ∃ t, exec .rowSpare s = .next t ∧ t.mem = s.mem ∧
    t.golium.sparedCount = g.sparedCount + 1 ∧ (200 ≤ g.sparedCount + 1 → t.golium.radv = true) ∧ (g.radv = true → t.golium.radv = true)) ∧
  ((∃ l ∈ s.badLines, l / 65536 = page) ∨ (∀ l ∈ s.rewritten, l / 65536 ≠ page) → exec (.pageRetire page) s = .next s) ∧
  ((∀ l ∈ s.badLines, l / 65536 ≠ page) → (∃ l ∈ s.rewritten, l / 65536 = page) → ∃ t, exec (.pageRetire page) s = .next t ∧ t.mem = s.mem ∧
    t.golium.retiredCount = g.retiredCount + 1 ∧ t.rewritten = s.rewritten.filter (fun l => l / 65536 != page) ∧
    (1024 ≤ g.retiredCount + 1 → t.golium.radv = true))

/-- R65, R82, R380, R381, R389, R456: the host reads and writes device memory no enabled partition grants, the one its owner's state leaves
open, and a running partition's own on its trusted stream; every other access to a locked partition aborts, and one that is not trusted puts the
owner's interface in ERROR. That the TEE bit counts only on a stream with keys is the model's reading (log 101).
That the TEE rule already holds in CONFIG_LOCKED is the model's reading too (log 57). -/
def Claim.HostAccessesAreJudged : Prop := ∀ (a : HostAcc) (s : State), isHostMemory a.addr = false → isDeviceMemory a.addr = true →
  s.golium.enumerable = true → a.op ≠ .barRead → (∀ v, a.op ≠ .barWrite v) → (∀ l r, a.op ≠ .linkRead l r) →
  let aborted := exec (.hostAccess a) s = .next { s with outputs := .hostAbort :: s.outputs }
  let open_ := (s.grantee a.addr = none ∧ a.function = 0) ∨
    ∃ p, s.grantee a.addr = some p ∧ ((s.ownerState p = .configUnlocked ∧ (a.function = 0 ∨ a.function = s.parts[p].vf)) ∨
      (s.ownerState p = .run ∧ s.trusts a.function a.tee = true ∧ a.function = s.parts[p].vf))
  (open_ → s.regions = [] → (∀ n, s.unreadable a.addr n = false) → s.badLines = [] → Memory.wf s.mem →
    (∀ n, a.op = .load n → exec (.hostAccess a) s = .next { s with outputs := .hostData (s.mem.getBytes a.addr n) :: s.outputs }) ∧
    ∀ d, a.op = .store d → ∃ t, exec (.hostAccess a) s = .next t ∧ t = { s with mem := t.mem } ∧
      t.mem.getBytes a.addr d.length = d ∧ MemoryKept a.addr d.length s t) ∧
  (s.grantee a.addr = none → a.function ≠ 0 → aborted) ∧
  ∀ p, s.grantee a.addr = some p →
    (s.ownerState p = .configUnlocked → a.function ≠ 0 → a.function ≠ s.parts[p].vf → aborted) ∧
    (s.ownerState p ≠ .configUnlocked → s.trusts a.function a.tee = true → a.function ≠ s.parts[p].vf → aborted) ∧
    (s.parts[p].vf ≠ 0 → s.golium.vfs[s.parts[p].vf] = .run → s.trusts a.function a.tee = false →
      ∃ t, exec (.hostAccess a) s = .next t ∧ t.mem = s.mem ∧ t.golium.vfs = s.golium.vfs.set s.parts[p].vf .error ∧
        t.outputs = .hostAbort :: s.outputs)

/-- R380, R381, R383, R393, R395, R456: once the host link is trained, a register of BAR 0 is read and written at its offset: the physical function's
read of a partition's PCFG shows LOCK while the owner is locked, its write there is a write of PCFG, a virtual function reads a queue of another
partition as 0, and one of its own locked registers without a trusted TEE bit not at all: its interface goes to ERROR. Before that, no access of the host
has an effect. The management link, and a vendor-defined message to the PF, read CLMASK, HEALTH and PCAP.
The offsets of the module registers are the model's choice (log 80). -/
def Claim.RegistersAreReachedInTheBar : Prop := ∀ (p : Fin 8) (q f : Fin 64) (v : Word) (tee : Bool) (s : State),
  let reads := fun (g : Fin 64) (o : Nat) => Instr.hostAccess { function := g, tee := tee, addr := o, op := .barRead }
  let shows := fun (g : Fin 64) (o : Nat) (w : Word) => exec (reads g o) s = .next { s with outputs := .hostData (leBytes 8 w.toNat) :: s.outputs }
  let locked := s.parts[p].vf ≠ 0 ∧ s.golium.vfs[s.parts[p].vf] ≠ .configUnlocked
  let k := s.queues[q]
  let own := f ≠ 0 ∧ f = s.parts[k.part].vf
  let linked := fun (l : SpdmLink) (r : PlainReg) => Instr.hostAccess { function := f, tee := tee, addr := 0, op := .linkRead l r }
  (s.golium.enumerable = false → ∀ a, (∀ l r, a.op ≠ .linkRead l r) → exec (.hostAccess a) s = .next s) ∧
  (s.golium.enumerable = true →
    shows 0 (0x10000 + p.val * 0x1000) (s.parts[p].cfg ||| if locked then 0x4000000000000000 else 0) ∧
    shows 0 (0x10000 + p.val * 0x1000 + 8) (BitVec.ofNat 64 s.parts[p].pstat.val) ∧ shows 0 (0x20000 + q.val * 0x40) k.cfg ∧
    (f ≠ 0 → f ≠ s.parts[k.part].vf → shows f (0x1000 + q.val * 0x40) 0) ∧
    (own → s.golium.vfs[f] = .configUnlocked ∨ s.trusts f tee = true → shows f (0x1000 + q.val * 0x40) k.cfg) ∧
    (own → s.golium.vfs[f] = .run → s.trusts f tee = false → ∃ t, exec (reads f (0x1000 + q.val * 0x40)) s = .next t ∧ t.mem = s.mem ∧
      t.golium.vfs = s.golium.vfs.set f .error ∧ t.outputs = .hostAbort :: s.outputs) ∧
    (∃ t, exec (reads 0 8) s = .next t ∧ t.outputs.head? = some (.hostData (leBytes 8 t.health.toNat)) ∧ t.mem = s.mem) ∧
    exec (.hostAccess { function := 0, tee := tee, addr := 0x10000 + p.val * 0x1000, op := .barWrite v }) s =
      exec (.pcfgWrite { function := 0, tee := tee } p v) s) ∧
  ∀ l, (l = .management ∧ s.golium.stage ≠ 0) ∨ (l = .vdm ∧ s.golium.enumerable = true) →
    exec (linked l .clmask) s = .next { s with outputs := .linkData l (leBytes 8 s.clmask.toNat) :: s.outputs } ∧
    exec (linked l .pcap) s = .next { s with outputs := .linkData l (leBytes 8 s.golium.pcap.toNat) :: s.outputs } ∧
    ∃ t, exec (linked l .health) s = .next t ∧ t.outputs.head? = some (.linkData l (leBytes 8 t.health.toNat)) ∧ t.mem = s.mem

/-! ### The machine as a whole -/

/-- R35, R165-R170: words the spec writes out for instructions of each family decode to those instructions; the C bit of one is set. -/
def Obligations.SomeWordsOfEachFamily : Prop :=
  decode 0x02531C00 = .ok (.add 5 6 7) ∧ decode 0x0484A803 = .ok (.div 8 9 10) ∧ decode 0x0852FFFF = .ok (.addi 5 5 (-1)) ∧
  decode 0x14638083 = .ok (.srai 6 7 3) ∧ decode 0x1C530602 = .ok (.ld 5 6 0 .d 2) ∧ decode 0x20601005 = .ok (.bne 6 0 5) ∧
  decode 0x221FFFF8 = .ok (.jal 1 (-8)) ∧ decode 0x2C532101 = .ok (.barArrive 5 6 16 .package) ∧
  decode 0x2E502080 = .ok (.csrr 5 .vcid) ∧ decode 0x2E530024 = .ok (.setvl 5 6 .w32) ∧ decode 0x30532400 = .ok (.ldv 5 6 9 0) ∧
  decode 0x34530000 = .ok (.job 5 6) ∧ decode 0x35202441 = .ok (.stream 2 9 .w) ∧ decode 0x36530000 = .ok (.sxopen 5 6 0) ∧
  decode 0x38110062 = .ok (.sxrecv 1 2 0 3) ∧ decode 0x3A031C00 = .ok (.amoadd 0 6 7 0) ∧ decode 0x3DE1FE00 = .ok (.waitc 15 0 15 15) ∧
  decode 0x40108800 = .ok (.vadd 1 1 2 0) ∧ decode 0x4A508801 = .ok (.vfms 5 1 2 0) ∧ decode 0x4E221801 = .ok (.vcmpne 2 4 6 0) ∧
  decode 0x54941C00 = .ok (.vredsum 9 8 7 0) ∧ decode 0x59482404 = .ok (.vtopk 20 16 9 0) ∧ decode 0xE0100020 = .ok (.vld 1 0 0 .e4m3 0) ∧
  decode 0x64322000 = .ok (.vldx 3 1 2 0 .native 0) ∧ decode 0x74422000 = .ok (.vamoxAdd 4 1 2 0 0) ∧ decode 0x78531C00 = .ok (.mgather 5 6 7 0 0) ∧
  decode 0x7A000020 = .ok (.mma 1) ∧ decode 0x7C900001 = .ok (.mstat 9 false)

/-- R165-R170, R420, R423: decoding the word of a well-formed instruction gives that instruction back, with its C bit clear or set. -/
def Obligations.DecodingAnEncodedInstructionGivesItBack : Prop := ∀ (i : Instr) (w : Nat), i.wf = true → encode i = some w →
  w < 2 ^ 31 ∧ decode w = .ok i ∧ decode (w + 2 ^ 31) = .ok i

/-- R165, R420: a word with C clear that decodes is the encoding of the instruction it decodes to: no two words mean the same. -/
def Obligations.EveryWordHasOneMeaning : Prop := ∀ (w : Nat) (i : Instr), w < 2 ^ 31 → decode w = .ok i → encode i = some w ∧ i.wf = true

/-- What must hold for the hart in front to come to the one-word convoy `w` at its pc: power, no step to come, its turn, no trap or
notification before it, and the word ends its convoy (R35, R362, R411, R422). -/
def Claim.AtConvoy (w : BitVec 32) (s : State) : Prop :=
  s.golium.powered = true ∧ s.agenda = [] ∧ s.mayIssue = true ∧ s.hart.phase = .running ∧
    (∀ x, s.hart.wait = some x → x.expired = none) ∧ s.hart.reportDue = false ∧ s.hart.notifyDue = false ∧
    s.fetch s.hart.ctx s.hart.pc = .word w ∧ w.getLsbD 31 = false ∧ s.midConvoy = false

/-- What must hold for the hart in front to issue the one-word convoy `w`: it comes to it, and no breakpoint or parity error stops it
(R409, R417). -/
def Claim.Issues (w : BitVec 32) (s : State) : Prop :=
  Claim.AtConvoy w s ∧ s.parityUse [w] = none ∧ s.breakHits = 0 ∧ s.plain [w] = true

/-- The state in which the instruction of word `w` has its effect: background loads it may name are written, its beats are charged,
and it stands in issue (R224, R225, R362). -/
noncomputable def Claim.issued (w : BitVec 32) (s : State) : State := ((s.settle w (instrOf w)).charged (s.beatsOf [w])).begin w 0 0 none 0

/-- R35, R39, R407: where the word at the pc decodes to `i`, a step is `i`'s effect and then the end of its convoy: after a fall-through
the pc is 4 further on, after a jump at its target, VCONV and VSTART are 0, and INSTRET counts it; a trap's entry stands. A word that
decodes to nothing takes cause 0x01.
That a step runs what stands first on the agenda, and that INSTRET does not count a convoy that traps, SYSCALL and BRK included, are the model's choices (logs 2, 84). -/
def Obligations.AStepRunsTheDecodedInstruction : Prop := ∀ (s : State) (w : BitVec 32), Claim.Issues w s →
  (∀ i t, decode w.toNat = .ok i → (Claim.issued w s).badUse i = none → exec i (Claim.issued w s) = .next t →
    step s = .next ((s.finish t (keepsStop i) (i == .eret) 1 (isRandom i).toNat).noteRunnable) ∧
    (t.hart.iss.flow = .seq ∨ (∃ a, t.hart.iss.flow = .jump a) → t.hart.st.lact = false → s.parts[s.hart.part].policy = false →
      t.parts = s.parts → t.hart.part = s.hart.part → keepsStop i = false → ∃ u, step s = .next u ∧
        u.hart.pc = (match t.hart.iss.flow with | .jump a => a | _ => s.hart.pc + 4) ∧
        u.mem = t.mem ∧ u.hart.x = t.hart.x ∧ u.hart.v = t.hart.v ∧ u.hart.p = t.hart.p ∧ u.hart.csr = { t.hart.csr with
          vconv := 0
          vstart := 0
          instret := t.hart.csr.instret + 1
          rngctr := t.hart.csr.rngctr + BitVec.ofNat 32 (isRandom i).toNat }) ∧
    ∀ b p e c v, t.hart.iss.flow = .trapped b p e c v → ∃ u, step s = .next u ∧ u.mem = t.mem ∧ u.hart.pc = t.hart.pc ∧ u.hart.x = t.hart.x ∧
      u.hart.csr = t.hart.csr ∧ u.hart.st = t.hart.st) ∧
  ((∀ i, decode w.toNat ≠ .ok i) → s.hart.engine = .strand → (Claim.issued w s).vectorDead = false → ∃ u, step s = .next u ∧ u.mem = s.mem ∧
    u.hart.pc = s.hart.csr.stvec ∧ (u.hart.csr.scause.extractLsb' 0 8).toNat = 0x01 ∧ u.hart.csr.stval = w.zeroExtend 64 ∧ u.hart.csr.sepc = s.hart.pc)

/-! ### The debug block (R164, R391, R417, R418) -/

/-- R164, R391: without a verified policy no register of the debug block reads or takes a value. With one, a strand reads and writes what the grant allows
at its privilege; a write reaches the fields the table gives, number 0x307 takes none, and nothing but the block changes. -/
def Claim.DebugRegistersFollowTheGrants : Prop := ∀ (a : Reg) (i : Fin 4) (s : State), OnStrand s →
  let v := s.hart.getX a
  let d := s.hart.dbg
  let sup := s.hart.st.priv
  let may := fun g : Nat => s.parts[s.hart.part].policy && s.parts[s.hart.part].grant.getLsbD (if sup then 0 else g)
  let takes := fun (c : Csr) (post : Word → Debug → Prop) =>
    let old := if s.debugReadable c then s.hart.csrValue c else 0
    let one := fun (k : Instr) (w : Word) => ∃ t, exec k s = .next t ∧ t = { s with hart := { s.hart with dbg := t.hart.dbg } } ∧ post w t.hart.dbg
    one (.csrw 0 a c) v ∧ (a ≠ 0 → one (.csrs 0 a c) (old ||| v) ∧ one (.csrc 0 a c) (old &&& ~~~ v))
  (∀ c, isDebug c = true → (s.debugReadable c = true ↔
    may 1 = true ∧ (sup = true ∨ c = .dbgstat ∨ c = .perfsel ∨ ∃ k, c = .perfcnt k))) ∧
  takes .dbgctl (fun w x => x = { d with ctl := x.ctl } ∧ x.ctl.getLsbD 0 = (if may 3 then w else d.ctl.zeroExtend 64).getLsbD 0 ∧
    x.ctl.getLsbD 1 = (if may 2 then w else d.ctl.zeroExtend 64).getLsbD 1 ∧ x.ctl.getLsbD 2 = (if may 4 then w else d.ctl.zeroExtend 64).getLsbD 2) ∧
  takes .dbgstat (fun w x => x = if sup ∧ may 0 then { d with hit := w.truncate 4 } else d) ∧
  takes (.bkaddr i) (fun w x => x = if may 3 then { d with bkaddr := d.bkaddr.set i (w &&& ~~~ 2) } else d) ∧
  takes .perfsel (fun w x => x = if may 2 then { d with perfsel := w.truncate 32 } else d) ∧
  takes .dbgReserved (fun _ x => x = d) ∧
  (timingEvent (s.hart.eventOf i) = false →
    takes (.perfcnt i) (fun w x => x = if may 2 then { d with perfcnt := d.perfcnt.set i w } else d))

/-- R164, R417: with BKEN set, an enabled comparator that matches the pc of a user strand traps with 0x0B before the convoy issues, HIT naming the
comparators that match; after an ERET the convoy at SEPC is not matched. -/
def Claim.BreakpointsStopBeforeTheConvoy : Prop := ∀ (s : State) (w : BitVec 32), OnStrand s →
  let h := s.hart
  let armed := h.st.priv = false ∧ h.skipBreak ≠ some h.pc ∧ s.parts[h.part].policy = true ∧ h.dbg.ctl.getLsbD 0 = true
  (∀ i : Fin 4, s.breakHits.getLsbD i.val = true ↔ armed ∧ h.dbg.bkaddr[i].getLsbD 0 = true ∧ h.dbg.bkaddr[i] &&& ~~~ 3 = h.pc) ∧
  (Claim.AtConvoy w s → s.breakHits ≠ 0 → s.vectorDead = false → ∃ t, step s = .next t ∧ t.mem = s.mem ∧ t.hart.x = h.x ∧ t.hart.v = h.v ∧ t.hart.p = h.p ∧
    t.hart.dbg.hit = s.breakHits ∧ t.hart.pc = h.csr.stvec ∧ t.hart.st.priv = true ∧ t.hart.csr.sepc = h.pc ∧ t.hart.csr.stval = h.pc ∧
    t.hart.csr.scause.extractLsb' 0 9 = 0x0B ∧ t.hart.csr.instret = h.csr.instret) ∧
  ∀ t, exec .eret s = .next t → Supervisor s → t.hart.skipBreak = some t.hart.pc

/-- R417: with SSTEP set, a convoy that retires at user privilege is followed by a trap with 0x0B, HIT 0 and SEPC naming the next convoy. -/
def Claim.SingleStepFollowsEachConvoy : Prop := ∀ (s t : State) (w : BitVec 32) (i : Instr), Claim.Issues w s → OnStrand s → s.hart.st.priv = false →
  decode w.toNat = .ok i → (Claim.issued w s).badUse i = none → exec i (Claim.issued w s) = .next t →
  t.hart.engine = .strand → t.hart.st.lact = false → t.hart.part = s.hart.part → t.parts = s.parts →
  t.hart.iss.flow = .seq ∨ (∃ a, t.hart.iss.flow = .jump a) → s.parts[s.hart.part].policy = true →
  (t.hart.dbg.ctl.getLsbD 2 = true → t.vectorDead = false → ∃ u, step s = .next u ∧ u.mem = t.mem ∧ u.hart.x = t.hart.x ∧ u.hart.pc = t.hart.csr.stvec ∧
    u.hart.csr.sepc = (match t.hart.iss.flow with | .jump a => a | _ => s.hart.pc + 4) ∧ u.hart.csr.stval = s.hart.pc ∧
    (u.hart.csr.scause.extractLsb' 0 8).toNat = 0x0B ∧ u.hart.dbg.hit = 0 ∧ u.hart.st.priv = true ∧ u.hart.csr.instret = t.hart.csr.instret + 1) ∧
  (t.hart.dbg.ctl.getLsbD 2 = false → ∃ u, step s = .next u ∧ u.hart.st.priv = t.hart.st.priv ∧
    u.hart.pc = (match t.hart.iss.flow with | .jump a => a | _ => s.hart.pc + 4))

/-- R418: with PERFEN set, a counter whose event is 0x01 or 0x02 counts a convoy of one instruction that retires, one whose event is 0x09 a trap taken,
at either privilege; without it none counts. -/
def Claim.CountersCountTheirEvents : Prop := ∀ (s t : State) (w : BitVec 32) (i : Instr) (n : Fin 4),
  let counts := fun (h k : Hart) (codes : List Nat) => k.dbg.perfcnt[n] = h.dbg.perfcnt[n] +
    if h.dbg.ctl.getLsbD 1 = true ∧ (h.dbg.perfsel.extractLsb' (8 * n.val) 8).toNat ∈ codes then 1 else 0
  (Claim.Issues w s → decode w.toNat = .ok i → (Claim.issued w s).badUse i = none → exec i (Claim.issued w s) = .next t →
    t.hart.dbg.ctl.getLsbD 2 = false → t.hart.iss.flow = .seq ∨ (∃ a, t.hart.iss.flow = .jump a) →
    ∃ u, step s = .next u ∧ counts t.hart u.hart [0x01, 0x02]) ∧
  ∀ (k : Cause) (v : Word), OnStrand s → Issuing s → s.vectorDead = false → counts s.hart (s.trap true 0 k v).hart [0x09]

/-- R407, R408: every instruction answers with a next state, its traps included; a step stops only where power is off and no event is
to come. -/
def Obligations.OnlyLossOfPowerStops : Prop :=
  (∀ (i : Instr) (s : State), ∃ t, exec i s = .next t) ∧
  ∀ s : State, (s.golium.powered = true ∨ s.agenda ≠ [] → ∃ t, step s = .next t) ∧
    (s.golium.powered = false → s.agenda = [] → step s = .fault .noPower)

/-- R65, R70, log 3: every step keeps the memories of the module in their canonical form. -/
def Obligations.EveryStepKeepsTheMemoriesCanonical : Prop := ∀ s t : State, MemoriesCanonical s → step s = .next t → MemoriesCanonical t

/-- R21, R152, R160, R284, R355, R356, R357, R381, R383, R390, R453: after module reset every cluster is in service and its matrix
state clear, no launch, job, session or region exists, every queue and partition is disabled, CYCLE is 0; the memories are canonical.
Values the spec does not give are the model's (log 1). -/
def Obligations.ResetLeavesTheModuleIdle : Prop :=
  let s := State.reset
  MemoriesCanonical s ∧ s.launches = [] ∧ s.jobs = [] ∧ s.sessions = [] ∧ s.regions = [] ∧ s.gangs = [] ∧ s.harts = [] ∧ s.cycle = 0 ∧
  (∀ c : Fin 64, s.clusters[c].enabled = true ∧ s.clusters[c].mode = 0 ∧ s.clusters[c].queue = [] ∧
    s.clusters[c].trowsM1 = 255 ∧ s.clusters[c].tcolsM1 = 255) ∧
  (∀ q : Fin 64, s.queues[q].cfg.getLsbD 63 = false ∧ s.queues[q].nextSeq = 1) ∧ (∀ p : Fin 8, s.parts[p].cfg.getLsbD 63 = false ∧ s.parts[p].policy = false) ∧
  (∀ i : Fin 8, s.fabric.ports[i].status = 0) ∧ (∀ v : Fin 64, s.golium.vfs[v] = .configUnlocked) ∧ s.golium.log = [] ∧ s.golium.radv = false

/-! ### The statements that take several claims together -/

/-- R152, R178, R180 to R185: every scalar arithmetic instruction completes, writes its result to its destination, and changes nothing else. -/
def Obligations.ScalarArithmeticWritesItsResult : Prop :=
  Claim.RegisterOperationsWriteTheirResult ∧ Claim.MultiplyAndDivideNeverTrap ∧ Claim.BitCountsAndExtensions ∧ Claim.ImmediateOperationsWriteTheirResult

/-- R98, R114, R186, R187, R190, R198, R212, R217, R220, R273, R287, R301: scalar loads write what memory holds, stores their bytes and no other, and both trap on a misaligned address. -/
def Obligations.ScalarLoadsAndStores : Prop :=
  Claim.LoadsWriteWhatMemoryHolds ∧ Claim.StoresWriteTheirBytesAndNoOther ∧ Claim.MisalignedScalarAccessesTrap

/-- R98, R217 to R220, R339, R340: scalar atomics read, apply their operation and write back in one step, writing the old value. -/
def Obligations.ScalarAtomicsReplaceInOneStep : Prop :=
  Claim.AtomicsApplyTheirOperationInOneStep ∧ Claim.TopkInsertReplacesItsRecord ∧ Claim.TopkInsertKeepsToItsTargets

/-- R55, R78, R189 to R192, R422: branches, jumps, STRIP and LOOP name the convoy that follows. -/
def Obligations.ControlTransfersNameTheNextConvoy : Prop :=
  Claim.BranchesAndJumpsNameTheNextConvoy ∧ Claim.StripBumpsThenCountsThenBranches ∧ Claim.LoopsStartWhileNoneIsActive

/-- R48, R50, R52, R195 to R197, R362, R430: DETACH, YIELD, JOIN and EXIT. -/
def Obligations.GangInstructionsAndEnds : Prop :=
  Claim.DetachAndYieldTouchNothingElse ∧ Claim.JoinReattachesTheWaitingMembers ∧ Claim.ExitEndsTheStrandOrProgram

/-- R52, R53, R198, R199, R204, R205, R289, R298, R315: FORK, RENDEZVOUS, UIMASK and UIRET. -/
def Obligations.ForkRendezvousAndUserInterrupts : Prop :=
  Claim.ForkQueuesAProgram ∧ Claim.RendezvousMeetsItsPartner ∧ Claim.UserInterruptInstructions

/-- R92 to R94, R98, R99, R200 to R203, R206, R207: fences and counter waits change no state of their own; barriers count arrivals and judge tokens. -/
def Obligations.FencesBarriersAndCounterWaits : Prop :=
  Claim.FenceAndCounterWaitsChangeNothing ∧ Claim.BarrierArrivalsAndInitialisation ∧ Claim.BarrierWaitJudgesItsToken

/-- R87, R154, R160 to R164, R193, R208, R421: CSR instructions read before they write, reach only the fields a CSR has, and trap where they are forbidden. -/
def Obligations.CsrAccessesReadWriteAndTrap : Prop :=
  Claim.CsrReadsWriteTheirDestination ∧ Claim.CsrWritesReachTheirFieldsOnly ∧ Claim.RestrictedCsrFieldsKeepTheirValue ∧ Claim.ForbiddenCsrAccessesTrap

/-- R157, R209 to R211: SETVL grants the vector length, VTAG sets tags, SVSET and SVGET reach the launch's shape variables. -/
def Obligations.VectorLengthTagsAndShapeVariables : Prop :=
  Claim.VectorLengthAndTags ∧ Claim.ShapeVariables

/-- R407 to R409, R414: taking a trap saves pc, status, cause and stop and goes to the handler; a strand without a handler is aborted. -/
def Obligations.TrapEntryAndAbort : Prop :=
  Claim.TrapEntrySavesAndRedirects ∧ Claim.AbortOfAStrandWithoutHandler

/-- R171, R213 to R215, R409, R424: SYSCALL and BRK enter the supervisor, ERET returns, INVAS completes there; elsewhere causes 0x03 and 0x08. -/
def Obligations.PrivilegedInstructionsAndReturns : Prop :=
  Claim.SystemCallAndBreakpointEnterTheSupervisor ∧ Claim.SupervisorReturnsAndInvalidates ∧ Claim.PrivilegeAndEngineTraps

/-- R38, R159, R221, R222, R226, R227: element-wise arithmetic, merges, moves and broadcasts write active elements only, under the sources' tag. -/
def Obligations.VectorArithmeticAndMoves : Prop :=
  Claim.CommonVectorArithmetic ∧ Claim.MergesMovesAndBroadcasts

/-- R129, R221, R222, R228 to R232: vector integer arithmetic, saturation, carry chains. -/
def Obligations.VectorIntegerArithmeticSaturationAndCarries : Prop :=
  Claim.VectorIntegerArithmetic ∧ Claim.SaturatingArithmeticClampsAndSetsSatf ∧ Claim.CarryChainsReadAndWriteThePredicate

/-- R125, R138, R221, R222, R233 to R236: vector floating point, and the compares that write a predicate. -/
def Obligations.VectorFloatingPointAndCompares : Prop :=
  Claim.VectorFloatingPoint ∧ Claim.VectorComparesWriteAPredicate

/-- R152, R237 to R240: predicate operations and moves; p0 stays all ones. -/
def Obligations.PredicatesAreWrittenWhole : Prop :=
  Claim.PredicateOperations ∧ Claim.PredicateMovesToScalars

/-- R136, R223, R241 to R245, R251 to R253: permutes, block scales, VIOTA and scalar moves write whole elements. -/
def Obligations.PermutesScalesAndScalarMoves : Prop :=
  Claim.PermutesMoveWholeElements ∧ Claim.BlockScalesAreWrittenFourToAWord ∧ Claim.IotaAndScalarMoves

/-- R145, R146, R149, R246, R247: reductions and scans; an unordered sum is free outside deterministic mode and traps in it. -/
def Obligations.ReductionsAndScans : Prop :=
  Claim.OrderedReductionsAndScans ∧ Claim.UnorderedReductionsCompleteOutsideDeterministicMode

/-- R130, R133, R258, R260, R263 to R267: vector loads write their active elements, each widened from its memory field. -/
def Obligations.VectorLoadsWidenTheirElements : Prop :=
  Claim.VectorLoadsWriteTheirActiveElements ∧ Claim.MemoryFieldsWidenToTheRegister

/-- R98, R102, R258, R260, R263 to R268: vector stores write their active elements; VLDB leaves its data to be written later. -/
def Obligations.VectorStoresAndBackgroundLoads : Prop :=
  Claim.VectorStoresWriteTheirActiveElements ∧ Claim.BackgroundLoadsAreWrittenLater

/-- R74, R98, R269, R270, R272: indexed atomics apply their operation element by element; VPUSH and VPOP move entries of FIFO banks. -/
def Obligations.IndexedAtomicsAndFifoBanks : Prop :=
  Claim.IndexedAtomicsApplyTheirOperation ∧ Claim.FifoBanksPushAndPopEntries

/-- R112, R114, R118, R273 to R275: versioned loads read the greatest version at or below theirs, versioned stores create one version. -/
def Obligations.VersionedAccesses : Prop :=
  Claim.VersionedLoadsReadTheGreatestVersionBelow ∧ Claim.VersionedStoresCreateOneVersion ∧ Claim.VectorVersionedAccesses

/-- R113, R117, R276 to R281: VPUB, VRETIRE, VRQRY, VRDECL and VRFREE. -/
def Obligations.VersionsAreManaged : Prop :=
  Claim.PublishRetireAndQuery ∧ Claim.RegionsAreDeclaredAndFreed

/-- R319, R320, R327, R330 to R334, R338, R448: SXOPEN, SXSPLIT, SXRESPLIT, SXROUND, SXCLOSE, SXCLOSE.ABORT and SXSTAT. -/
def Obligations.SessionInstructions : Prop :=
  Claim.SessionsOpenAndAreJoined ∧ Claim.SplitterRequestsAreStaged ∧ Claim.RoundsCloseAndAreCounted ∧ Claim.SessionsAreLeftAndAborted ∧ Claim.SessionStatusIsRead

/-- R317, R318, R335 to R337: SXSEND, SXSEND.NEW and SXRECV. -/
def Obligations.RecordsAreSentAndReceived : Prop :=
  Claim.RecordsAreSentInRuns ∧ Claim.RecordsAreReceivedInOrder

/-- R327, R328, R330, R338, R449: a round completes for all participants together; delivered records land or are dropped. -/
def Obligations.ExchangeRoundsAndDelivery : Prop :=
  Claim.RoundsCompleteTogether ∧ Claim.RecordsLandOrAreDropped

/-- R71 to R73, R78, R106, R212, R216, R282, R301, R350, R355: JOB, LAUNCH, STREAM, STREAMOFF, BANKCFG and the two steps of a bank switch. -/
def Obligations.ItemsStreamsAndBankModes : Prop :=
  Claim.JobsAreQueuedOrRefused ∧ Claim.LaunchesAreQueuedOrRefused ∧ Claim.StreamsAreBoundAndReleased ∧ Claim.BankSwitchesAreQueued ∧ Claim.BankSwitchesBeginAndEnd

/-- R287, R289 to R297, R299, R300: matrix instructions are queued with their operands; MWAIT and MSTAT; VACCRD and VACCWR. -/
def Obligations.MatrixInstructionsAreQueuedAndRead : Prop :=
  Claim.MatrixInstructionsAreQueued ∧ Claim.MatrixWaitsAndStatus ∧ Claim.AccumulatorRowsMoveToAndFromVectors

/-- R147, R285 to R287, R290 to R295, R297: a queued matrix instruction has its effect when it is the oldest. -/
def Obligations.MatrixInstructionsHaveTheirEffect : Prop :=
  Claim.MatrixInstructionsHaveTheirEffect ∧ Claim.LatchesAreFilledFromTheBanks ∧ Claim.MmaAddsExactSumsOfFloats ∧ Claim.DrainsWriteTheTile

/-- R26, R29, R41, R46, R47, R352, R362, R434: fetches, visits of the core arbiter, drift eviction, placement of gangs. -/
def Obligations.FetchVisitsAndPlacement : Prop :=
  Claim.FetchesHoldNoState ∧ Claim.VisitsGrantBeats ∧ Claim.DriftEvictionDetaches ∧ Claim.GangsStartTheirStrands

/-- R314, R315, R408, R410, R411: asynchronous reports and notifications are taken between convoys. -/
def Obligations.ReportsAndNotificationsAreTaken : Prop :=
  Claim.ReportsEnterTheHandler ∧ Claim.NotificationsEnterTheUserHandler

/-- R31, R32, R163, R363 to R365: parking, restoring, swapping and pre-emption keep what a strand holds. -/
def Obligations.StrandsAndGangsAreSavedWhole : Prop :=
  Claim.SavedRegistersComeBack ∧ Claim.GangsGiveUpTheirSlots

/-- R98, R116, R119, R268, R434: stores reach their event in order, background loads are written, waits are tried again. -/
def Obligations.OutstandingWorkEnds : Prop :=
  Claim.StoresReachTheirEventInOrder ∧ Claim.BackgroundLoadsAreCompleted ∧ Claim.TransitWaitsAreRetried ∧ Claim.VersionWaitsAreWoken

/-- R52, R93, R94, R154: barrier arrivals register and complete; forked programs start. -/
def Obligations.ArrivalsAndForkedProgramsBegin : Prop :=
  Claim.ArrivalsRegisterAndComplete ∧ Claim.ForkedProgramsStart

/-- R304 to R310: each kind of job delivers, in device memory, exactly the bytes its card asks for. -/
def Obligations.JobsMoveTheirBytes : Prop :=
  Claim.CopyFillAndDigest ∧ Claim.RowJobsMoveTheirRows

/-- R98, R304, R312 to R315: unsound cards are rejected; a job writes its record, lowers its counter and notifies. -/
def Obligations.JobsAreJudgedAndComplete : Prop :=
  Claim.UnsoundCardsAreRejected ∧ Claim.JobsComplete ∧ Claim.RecordsTakeTheNextRingSlot

/-- R106, R349 to R355, R357, R358, R361: doorbells, ring entries, the start and the end of launches, credits, version-wait nodes. -/
def Obligations.QueuesAndLaunches : Prop :=
  Claim.RingEntriesAreTaken ∧ Claim.LaunchesStartTheirGangs ∧ Claim.CreditsFollowTheWeights ∧ Claim.LaunchesComplete ∧ Claim.VersionWaitNodesComplete

/-- R371, R374, R376, R378, R452, R454, R455: requests of other ranks, replies, cancels and timeouts. -/
def Obligations.FabricRequestsAndReplies : Prop :=
  Claim.RequestsOfOtherRanksAreServed ∧ Claim.RepliesReachTheirRequest ∧ Claim.CancelledRequestsAreNeverPerformed ∧ Claim.UnansweredRequestsEnd

/-- R376, R377, R450, R452 to R454: the states of ports, and ranks that have stopped. -/
def Obligations.PortsAndRoutes : Prop :=
  Claim.PortsChangeState ∧ Claim.StoppedRanksAreUnreachable

/-- R357, R370, R371, R380, R381, R383 to R387, R395: writes to the registers of partitions and queues are judged and stored. -/
def Obligations.RegistersOfPartitionsAndQueues : Prop :=
  Claim.LockedAndForeignWritesHaveNoEffect ∧ Claim.PartitionConfigurationIsChecked ∧ Claim.EnablingZeroesTheGrant ∧ Claim.TablesOfAPartitionAreTaken ∧ Claim.QueueConfigurationIsStored ∧ Claim.PlainRegistersTakeTheirValue

/-- R389 to R392, R456, R457: SPDM requests, the measurement log and debug policies. -/
def Obligations.GoliumAnswersAndJudges : Prop :=
  Claim.SpdmRequestsAreAnsweredInOrder ∧ Claim.TheLogIsReadWhole ∧ Claim.DebugPoliciesAreJudged

/-- R21, R284, R356, R383, R388, R390, R393, R394, R396, R443, R458, R459: bring-up, heat, reset and loss of power, parts taken out of service. -/
def Obligations.HealthPowerAndReset : Prop :=
  Claim.BringUpGoesStageByStage ∧ Claim.HeatStopsIssueOnly ∧ Claim.ResetAndPowerLossKeepGoliumsCounts ∧ Claim.FencingSparingAndRetiring

/-- R65, R82, R380, R381, R383, R393, R456: accesses of the host and of functions, and the registers that lie in the BAR. -/
def Obligations.HostAccessesAreJudged : Prop :=
  Claim.HostAccessesAreJudged ∧ Claim.RegistersAreReachedInTheBar

/-- R164, R391, R417, R418: the registers of the debug block, breakpoints, single step and event counters. -/
def Obligations.DebugBlockFollowsItsGrants : Prop :=
  Claim.DebugRegistersFollowTheGrants ∧ Claim.BreakpointsStopBeforeTheConvoy ∧ Claim.SingleStepFollowsEachConvoy ∧ Claim.CountersCountTheirEvents
end

