-- ==== Sys2Proof/Laws/Memory.lean ====
section
/-! SUPPORT. Laws of the byte memory: read after write, frames, and that every operation keeps the canonical form. -/

namespace Sys2Proof.Machine

@[simp] theorem Memory.get_nil (a : Nat) : Memory.get [] a = Memory.unlisted := rfl

/-- An address below every listed one reads as unlisted. -/
theorem Memory.get_below {m : Memory} {a : Nat} (h : ∀ c ∈ m, a < c.1) : m.get a = Memory.unlisted := by
  induction m with
  | nil => rfl
  | cons c m ih =>
    obtain ⟨k, b⟩ := c
    have hk := h (k, b) (by simp)
    simp only [Memory.get]
    rw [if_neg (by simp at hk; omega)]
    exact ih fun d hd => h d (by simp [hd])

/-- A byte reads back as written, where the addresses rise. -/
theorem Memory.get_set_same {m : Memory} (h : Memory.wf m) (a : Nat) (b : Byte) : (m.set a b).get a = b := by
  induction m with
  | nil => by_cases hb : b = Memory.unlisted <;> simp [Memory.set, Memory.get, hb]
  | cons c m ih =>
    obtain ⟨k, d⟩ := c
    have hp := h.1
    rw [List.pairwise_cons] at hp
    have hm : Memory.wf m := ⟨hp.2, fun c hc => h.2 c (by simp [hc])⟩
    simp only [Memory.set]
    split
    · split
      · rename_i hlt hb
        rw [hb]
        exact Memory.get_below fun c hc => by
          rcases List.mem_cons.1 hc with rfl | hc
          · exact hlt
          · exact lt_trans hlt (hp.1 c hc)
      · simp [Memory.get]
    · split
      · split
        · rename_i heq hb
          rw [hb, heq]
          exact Memory.get_below fun c hc => hp.1 c hc
        · simp [Memory.get]
      · rename_i h1 h2
        simp only [Memory.get]
        rw [if_neg (by omega)]
        exact ih hm

/-- A write leaves every other address alone. -/
theorem Memory.get_set_ne {m : Memory} {a x : Nat} (b : Byte) (hx : x ≠ a) : (m.set a b).get x = m.get x := by
  induction m with
  | nil =>
    by_cases hb : b = Memory.unlisted
    · simp [Memory.set, hb]
    · simp [Memory.set, Memory.get, hb, Ne.symm hx]
  | cons c m ih =>
    obtain ⟨k, d⟩ := c
    simp only [Memory.set]
    split
    · split
      · rfl
      · simp [Memory.get, Ne.symm hx]
    · split
      · rename_i heq
        split
        · simp [Memory.get, ← heq, Ne.symm hx]
        · simp [Memory.get, ← heq, Ne.symm hx]
      · simp only [Memory.get, ih]

/-- Entries of a memory after a write. -/
theorem Memory.mem_set {m : Memory} {a : Nat} {b : Byte} {c : Host.Cell} (h : c ∈ m.set a b) : c ∈ m ∨ (c = (a, b) ∧ b ≠ Memory.unlisted) := by
  induction m with
  | nil =>
    by_cases hb : b = Memory.unlisted <;> simp [Memory.set, hb] at h
    exact .inr ⟨h, hb⟩
  | cons d m ih =>
    obtain ⟨k, e⟩ := d
    simp only [Memory.set] at h
    split at h
    · split at h
      · exact .inl h
      · rename_i hb
        rcases List.mem_cons.1 h with rfl | h
        · exact .inr ⟨rfl, hb⟩
        · exact .inl h
    · split at h
      · split at h
        · exact .inl (List.mem_cons_of_mem _ h)
        · rename_i hb
          rcases List.mem_cons.1 h with rfl | h
          · exact .inr ⟨rfl, hb⟩
          · exact .inl (List.mem_cons_of_mem _ h)
      · rcases List.mem_cons.1 h with rfl | h
        · exact .inl (by simp)
        · rcases ih h with h | h
          · exact .inl (List.mem_cons_of_mem _ h)
          · exact .inr h

/-- A write keeps the canonical form. -/
theorem Memory.wf_set {m : Memory} (h : Memory.wf m) (a : Nat) (b : Byte) : Memory.wf (m.set a b) := by
  refine ⟨?_, fun c hc => ?_⟩
  · induction m with
    | nil => by_cases hb : b = Memory.unlisted <;> simp [Memory.set, hb]
    | cons c m ih =>
      obtain ⟨k, d⟩ := c
      have hp := h.1
      rw [List.pairwise_cons] at hp
      have hm : Memory.wf m := ⟨hp.2, fun c hc => h.2 c (by simp [hc])⟩
      simp only [Memory.set]
      split
      · split
        · exact h.1
        · rename_i hlt _
          refine List.pairwise_cons.2 ⟨fun c hc => ?_, h.1⟩
          rcases List.mem_cons.1 hc with rfl | hc
          · exact hlt
          · exact lt_trans hlt (hp.1 c hc)
      · split
        · rename_i heq
          split
          · exact hp.2
          · exact List.pairwise_cons.2 ⟨fun c hc => by rw [heq]; exact hp.1 c hc, hp.2⟩
        · rename_i h1 h2
          refine List.pairwise_cons.2 ⟨fun c hc => ?_, ih hm⟩
          rcases Memory.mem_set hc with hc | ⟨rfl, _⟩
          · exact hp.1 c hc
          · exact lt_of_le_of_ne (not_lt.1 h1) (Ne.symm h2)
  · rcases Memory.mem_set hc with hc | ⟨rfl, hb⟩
    · exact h.2 c hc
    · exact hb

/-- Writes of several bytes keep the canonical form. -/
theorem Memory.wf_setBytes {m : Memory} (h : Memory.wf m) (a : Nat) (l : List Byte) : Memory.wf (m.setBytes a l) := by
  induction l generalizing m a with
  | nil => exact h
  | cons b l ih => exact ih (Memory.wf_set h a b) (a + 1)

/-- Leaving entries out keeps the canonical form. -/
theorem Memory.wf_filter {m : Memory} (h : Memory.wf m) (f : Host.Cell → Bool) : Memory.wf (m.filter f) :=
  ⟨h.1.sublist List.filter_sublist, fun c hc => h.2 c (List.mem_of_mem_filter hc)⟩

theorem Memory.wf_clear {m : Memory} (h : Memory.wf m) (a n : Nat) : Memory.wf (m.clear a n) := Memory.wf_filter h _

theorem Memory.wf_nil : Memory.wf [] := ⟨List.Pairwise.nil, by simp⟩

/-- Bytes outside a write of several read as before. -/
theorem Memory.get_setBytes_out {m : Memory} {a x : Nat} (l : List Byte) (h : x < a ∨ a + l.length ≤ x) :
    (m.setBytes a l).get x = m.get x := by
  induction l generalizing m a with
  | nil => rfl
  | cons b l ih =>
    simp only [List.length_cons] at h
    rw [Memory.setBytes, ih (by omega), Memory.get_set_ne b (by omega)]

/-- Byte number `i` of a write of several. -/
theorem Memory.get_setBytes_in {m : Memory} (h : Memory.wf m) (a : Nat) (l : List Byte) (i : Nat) (hi : i < l.length) :
    (m.setBytes a l).get (a + i) = l[i] := by
  induction l generalizing m a i with
  | nil => simp at hi
  | cons b l ih =>
    cases i with
    | zero =>
      rw [Memory.setBytes, Memory.get_setBytes_out l (by omega)]
      exact Memory.get_set_same h a b
    | succ i =>
      have := ih (Memory.wf_set h a b) (a + 1) i (by simpa using hi)
      rw [Memory.setBytes, show a + (i + 1) = a + 1 + i by omega, this]
      rfl

@[simp] theorem Memory.length_getBytes (m : Memory) (a n : Nat) : (m.getBytes a n).length = n := by
  induction n generalizing a with
  | zero => rfl
  | succ n ih => simp [Memory.getBytes, ih]

/-- What was written reads back. -/
theorem Memory.getBytes_setBytes {m : Memory} (h : Memory.wf m) (a : Nat) (l : List Byte) :
    (m.setBytes a l).getBytes a l.length = l := by
  induction l generalizing m a with
  | nil => rfl
  | cons b l ih =>
    simp only [Memory.setBytes, List.length_cons, Memory.getBytes]
    rw [Memory.get_setBytes_out l (by omega), ih (Memory.wf_set h a b), Memory.get_set_same h]

@[simp] theorem length_leBytes (n v : Nat) : (leBytes n v).length = n := by
  induction n generalizing v with
  | zero => rfl
  | succ n ih => simp [leBytes, ih]

/-- Little-endian bytes read back as the number they were made of. -/
theorem leNat_leBytes (n v : Nat) (h : v < 256 ^ n) : leNat (leBytes n v) = v := by
  induction n generalizing v with
  | zero => simp at h; simp [leBytes, leNat, h]
  | succ n ih =>
    have hv : v / 256 < 256 ^ n := by
      rw [Nat.pow_succ] at h
      exact Nat.div_lt_of_lt_mul (by omega)
    simp only [leBytes, leNat, ih _ hv, BitVec.toNat_ofNat]
    omega

end Sys2Proof.Machine
end

