-- ==== Sys2Proof/Laws/State.lean ====
section
/-! SUPPORT. Field laws: what each named update leaves alone, and what reads after writes give. -/

namespace Sys2Proof.Machine

/-! ### Updates of a hart -/

@[simp] theorem Hart.setX_id (h : Hart) (r : Reg) (w : Word) : (h.setX r w).id = h.id := by unfold Hart.setX; split <;> rfl
@[simp] theorem Hart.setX_engine (h : Hart) (r : Reg) (w : Word) : (h.setX r w).engine = h.engine := by unfold Hart.setX; split <;> rfl
@[simp] theorem Hart.setX_phase (h : Hart) (r : Reg) (w : Word) : (h.setX r w).phase = h.phase := by unfold Hart.setX; split <;> rfl
@[simp] theorem Hart.setX_saved (h : Hart) (r : Reg) (w : Word) : (h.setX r w).saved = h.saved := by unfold Hart.setX; split <;> rfl
@[simp] theorem Hart.setX_part (h : Hart) (r : Reg) (w : Word) : (h.setX r w).part = h.part := by unfold Hart.setX; split <;> rfl
@[simp] theorem Hart.setX_queue (h : Hart) (r : Reg) (w : Word) : (h.setX r w).queue = h.queue := by unfold Hart.setX; split <;> rfl
@[simp] theorem Hart.setX_rank (h : Hart) (r : Reg) (w : Word) : (h.setX r w).rank = h.rank := by unfold Hart.setX; split <;> rfl
@[simp] theorem Hart.setX_shadow (h : Hart) (r : Reg) (w : Word) : (h.setX r w).shadow = h.shadow := by unfold Hart.setX; split <;> rfl
@[simp] theorem Hart.setX_pc (h : Hart) (r : Reg) (w : Word) : (h.setX r w).pc = h.pc := by unfold Hart.setX; split <;> rfl
@[simp] theorem Hart.setX_v (h : Hart) (r : Reg) (w : Word) : (h.setX r w).v = h.v := by unfold Hart.setX; split <;> rfl
@[simp] theorem Hart.setX_p (h : Hart) (r : Reg) (w : Word) : (h.setX r w).p = h.p := by unfold Hart.setX; split <;> rfl
@[simp] theorem Hart.setX_tags (h : Hart) (r : Reg) (w : Word) : (h.setX r w).tags = h.tags := by unfold Hart.setX; split <;> rfl
@[simp] theorem Hart.setX_csr (h : Hart) (r : Reg) (w : Word) : (h.setX r w).csr = h.csr := by unfold Hart.setX; split <;> rfl
@[simp] theorem Hart.setX_st (h : Hart) (r : Reg) (w : Word) : (h.setX r w).st = h.st := by unfold Hart.setX; split <;> rfl
@[simp] theorem Hart.setX_dbg (h : Hart) (r : Reg) (w : Word) : (h.setX r w).dbg = h.dbg := by unfold Hart.setX; split <;> rfl
@[simp] theorem Hart.setX_cnt (h : Hart) (r : Reg) (w : Word) : (h.setX r w).cnt = h.cnt := by unfold Hart.setX; split <;> rfl
@[simp] theorem Hart.setX_pending (h : Hart) (r : Reg) (w : Word) : (h.setX r w).pending = h.pending := by unfold Hart.setX; split <;> rfl
@[simp] theorem Hart.setX_storesIssued (h : Hart) (r : Reg) (w : Word) : (h.setX r w).storesIssued = h.storesIssued := by unfold Hart.setX; split <;> rfl
@[simp] theorem Hart.setX_vldbs (h : Hart) (r : Reg) (w : Word) : (h.setX r w).vldbs = h.vldbs := by unfold Hart.setX; split <;> rfl
@[simp] theorem Hart.setX_badV (h : Hart) (r : Reg) (w : Word) : (h.setX r w).badV = h.badV := by unfold Hart.setX; split <;> rfl
@[simp] theorem Hart.setX_nextJob (h : Hart) (r : Reg) (w : Word) : (h.setX r w).nextJob = h.nextJob := by unfold Hart.setX; split <;> rfl
@[simp] theorem Hart.setX_notifs (h : Hart) (r : Reg) (w : Word) : (h.setX r w).notifs = h.notifs := by unfold Hart.setX; split <;> rfl
@[simp] theorem Hart.setX_notifLost (h : Hart) (r : Reg) (w : Word) : (h.setX r w).notifLost = h.notifLost := by unfold Hart.setX; split <;> rfl
@[simp] theorem Hart.setX_reports (h : Hart) (r : Reg) (w : Word) : (h.setX r w).reports = h.reports := by unfold Hart.setX; split <;> rfl
@[simp] theorem Hart.setX_reportLost (h : Hart) (r : Reg) (w : Word) : (h.setX r w).reportLost = h.reportLost := by unfold Hart.setX; split <;> rfl
@[simp] theorem Hart.setX_streams (h : Hart) (r : Reg) (w : Word) : (h.setX r w).streams = h.streams := by unfold Hart.setX; split <;> rfl
@[simp] theorem Hart.setX_wait (h : Hart) (r : Reg) (w : Word) : (h.setX r w).wait = h.wait := by unfold Hart.setX; split <;> rfl
@[simp] theorem Hart.setX_turn (h : Hart) (r : Reg) (w : Word) : (h.setX r w).turn = h.turn := by unfold Hart.setX; split <;> rfl
@[simp] theorem Hart.setX_paused (h : Hart) (r : Reg) (w : Word) : (h.setX r w).paused = h.paused := by unfold Hart.setX; split <;> rfl
@[simp] theorem Hart.setX_abandoned (h : Hart) (r : Reg) (w : Word) : (h.setX r w).abandoned = h.abandoned := by unfold Hart.setX; split <;> rfl
@[simp] theorem Hart.setX_streamNo (h : Hart) (r : Reg) (w : Word) : (h.setX r w).streamNo = h.streamNo := by unfold Hart.setX; split <;> rfl
@[simp] theorem Hart.setX_savedV (h : Hart) (r : Reg) (w : Word) : (h.setX r w).savedV = h.savedV := by unfold Hart.setX; split <;> rfl
@[simp] theorem Hart.setX_savedMask (h : Hart) (r : Reg) (w : Word) : (h.setX r w).savedMask = h.savedMask := by unfold Hart.setX; split <;> rfl
@[simp] theorem Hart.setX_area (h : Hart) (r : Reg) (w : Word) : (h.setX r w).area = h.area := by unfold Hart.setX; split <;> rfl
@[simp] theorem Hart.setX_deficit (h : Hart) (r : Reg) (w : Word) : (h.setX r w).deficit = h.deficit := by unfold Hart.setX; split <;> rfl
@[simp] theorem Hart.setX_first (h : Hart) (r : Reg) (w : Word) : (h.setX r w).first = h.first := by unfold Hart.setX; split <;> rfl
@[simp] theorem Hart.setX_skipBreak (h : Hart) (r : Reg) (w : Word) : (h.setX r w).skipBreak = h.skipBreak := by unfold Hart.setX; split <;> rfl
@[simp] theorem Hart.setX_arrived (h : Hart) (r : Reg) (w : Word) : (h.setX r w).arrived = h.arrived := by unfold Hart.setX; split <;> rfl
@[simp] theorem Hart.setX_parityAt (h : Hart) (r : Reg) (w : Word) : (h.setX r w).parityAt = h.parityAt := by unfold Hart.setX; split <;> rfl
@[simp] theorem Hart.setX_replies (h : Hart) (r : Reg) (w : Word) : (h.setX r w).replies = h.replies := by unfold Hart.setX; split <;> rfl
@[simp] theorem Hart.setX_delivery (h : Hart) (r : Reg) (w : Word) : (h.setX r w).delivery = h.delivery := by unfold Hart.setX; split <;> rfl
@[simp] theorem Hart.setX_due (h : Hart) (r : Reg) (w : Word) : (h.setX r w).due = h.due := by unfold Hart.setX; split <;> rfl
@[simp] theorem Hart.setX_restored (h : Hart) (r : Reg) (w : Word) : (h.setX r w).restored = h.restored := by unfold Hart.setX; split <;> rfl
@[simp] theorem Hart.setX_cut (h : Hart) (r : Reg) (w : Word) : (h.setX r w).cut = h.cut := by unfold Hart.setX; split <;> rfl
@[simp] theorem Hart.setX_iss (h : Hart) (r : Reg) (w : Word) : (h.setX r w).iss = h.iss := by unfold Hart.setX; split <;> rfl

@[simp] theorem Hart.setP_id (h : Hart) (r : Reg) (w : PredBits) : (h.setP r w).id = h.id := by unfold Hart.setP; split <;> rfl
@[simp] theorem Hart.setP_engine (h : Hart) (r : Reg) (w : PredBits) : (h.setP r w).engine = h.engine := by unfold Hart.setP; split <;> rfl
@[simp] theorem Hart.setP_phase (h : Hart) (r : Reg) (w : PredBits) : (h.setP r w).phase = h.phase := by unfold Hart.setP; split <;> rfl
@[simp] theorem Hart.setP_saved (h : Hart) (r : Reg) (w : PredBits) : (h.setP r w).saved = h.saved := by unfold Hart.setP; split <;> rfl
@[simp] theorem Hart.setP_part (h : Hart) (r : Reg) (w : PredBits) : (h.setP r w).part = h.part := by unfold Hart.setP; split <;> rfl
@[simp] theorem Hart.setP_queue (h : Hart) (r : Reg) (w : PredBits) : (h.setP r w).queue = h.queue := by unfold Hart.setP; split <;> rfl
@[simp] theorem Hart.setP_rank (h : Hart) (r : Reg) (w : PredBits) : (h.setP r w).rank = h.rank := by unfold Hart.setP; split <;> rfl
@[simp] theorem Hart.setP_x (h : Hart) (r : Reg) (w : PredBits) : (h.setP r w).x = h.x := by unfold Hart.setP; split <;> rfl
@[simp] theorem Hart.setP_shadow (h : Hart) (r : Reg) (w : PredBits) : (h.setP r w).shadow = h.shadow := by unfold Hart.setP; split <;> rfl
@[simp] theorem Hart.setP_pc (h : Hart) (r : Reg) (w : PredBits) : (h.setP r w).pc = h.pc := by unfold Hart.setP; split <;> rfl
@[simp] theorem Hart.setP_v (h : Hart) (r : Reg) (w : PredBits) : (h.setP r w).v = h.v := by unfold Hart.setP; split <;> rfl
@[simp] theorem Hart.setP_tags (h : Hart) (r : Reg) (w : PredBits) : (h.setP r w).tags = h.tags := by unfold Hart.setP; split <;> rfl
@[simp] theorem Hart.setP_csr (h : Hart) (r : Reg) (w : PredBits) : (h.setP r w).csr = h.csr := by unfold Hart.setP; split <;> rfl
@[simp] theorem Hart.setP_st (h : Hart) (r : Reg) (w : PredBits) : (h.setP r w).st = h.st := by unfold Hart.setP; split <;> rfl
@[simp] theorem Hart.setP_dbg (h : Hart) (r : Reg) (w : PredBits) : (h.setP r w).dbg = h.dbg := by unfold Hart.setP; split <;> rfl
@[simp] theorem Hart.setP_cnt (h : Hart) (r : Reg) (w : PredBits) : (h.setP r w).cnt = h.cnt := by unfold Hart.setP; split <;> rfl
@[simp] theorem Hart.setP_pending (h : Hart) (r : Reg) (w : PredBits) : (h.setP r w).pending = h.pending := by unfold Hart.setP; split <;> rfl
@[simp] theorem Hart.setP_storesIssued (h : Hart) (r : Reg) (w : PredBits) : (h.setP r w).storesIssued = h.storesIssued := by unfold Hart.setP; split <;> rfl
@[simp] theorem Hart.setP_vldbs (h : Hart) (r : Reg) (w : PredBits) : (h.setP r w).vldbs = h.vldbs := by unfold Hart.setP; split <;> rfl
@[simp] theorem Hart.setP_badV (h : Hart) (r : Reg) (w : PredBits) : (h.setP r w).badV = h.badV := by unfold Hart.setP; split <;> rfl
@[simp] theorem Hart.setP_nextJob (h : Hart) (r : Reg) (w : PredBits) : (h.setP r w).nextJob = h.nextJob := by unfold Hart.setP; split <;> rfl
@[simp] theorem Hart.setP_notifs (h : Hart) (r : Reg) (w : PredBits) : (h.setP r w).notifs = h.notifs := by unfold Hart.setP; split <;> rfl
@[simp] theorem Hart.setP_notifLost (h : Hart) (r : Reg) (w : PredBits) : (h.setP r w).notifLost = h.notifLost := by unfold Hart.setP; split <;> rfl
@[simp] theorem Hart.setP_reports (h : Hart) (r : Reg) (w : PredBits) : (h.setP r w).reports = h.reports := by unfold Hart.setP; split <;> rfl
@[simp] theorem Hart.setP_reportLost (h : Hart) (r : Reg) (w : PredBits) : (h.setP r w).reportLost = h.reportLost := by unfold Hart.setP; split <;> rfl
@[simp] theorem Hart.setP_streams (h : Hart) (r : Reg) (w : PredBits) : (h.setP r w).streams = h.streams := by unfold Hart.setP; split <;> rfl
@[simp] theorem Hart.setP_wait (h : Hart) (r : Reg) (w : PredBits) : (h.setP r w).wait = h.wait := by unfold Hart.setP; split <;> rfl
@[simp] theorem Hart.setP_turn (h : Hart) (r : Reg) (w : PredBits) : (h.setP r w).turn = h.turn := by unfold Hart.setP; split <;> rfl
@[simp] theorem Hart.setP_paused (h : Hart) (r : Reg) (w : PredBits) : (h.setP r w).paused = h.paused := by unfold Hart.setP; split <;> rfl
@[simp] theorem Hart.setP_abandoned (h : Hart) (r : Reg) (w : PredBits) : (h.setP r w).abandoned = h.abandoned := by unfold Hart.setP; split <;> rfl
@[simp] theorem Hart.setP_streamNo (h : Hart) (r : Reg) (w : PredBits) : (h.setP r w).streamNo = h.streamNo := by unfold Hart.setP; split <;> rfl
@[simp] theorem Hart.setP_savedV (h : Hart) (r : Reg) (w : PredBits) : (h.setP r w).savedV = h.savedV := by unfold Hart.setP; split <;> rfl
@[simp] theorem Hart.setP_savedMask (h : Hart) (r : Reg) (w : PredBits) : (h.setP r w).savedMask = h.savedMask := by unfold Hart.setP; split <;> rfl
@[simp] theorem Hart.setP_area (h : Hart) (r : Reg) (w : PredBits) : (h.setP r w).area = h.area := by unfold Hart.setP; split <;> rfl
@[simp] theorem Hart.setP_deficit (h : Hart) (r : Reg) (w : PredBits) : (h.setP r w).deficit = h.deficit := by unfold Hart.setP; split <;> rfl
@[simp] theorem Hart.setP_first (h : Hart) (r : Reg) (w : PredBits) : (h.setP r w).first = h.first := by unfold Hart.setP; split <;> rfl
@[simp] theorem Hart.setP_skipBreak (h : Hart) (r : Reg) (w : PredBits) : (h.setP r w).skipBreak = h.skipBreak := by unfold Hart.setP; split <;> rfl
@[simp] theorem Hart.setP_arrived (h : Hart) (r : Reg) (w : PredBits) : (h.setP r w).arrived = h.arrived := by unfold Hart.setP; split <;> rfl
@[simp] theorem Hart.setP_parityAt (h : Hart) (r : Reg) (w : PredBits) : (h.setP r w).parityAt = h.parityAt := by unfold Hart.setP; split <;> rfl
@[simp] theorem Hart.setP_replies (h : Hart) (r : Reg) (w : PredBits) : (h.setP r w).replies = h.replies := by unfold Hart.setP; split <;> rfl
@[simp] theorem Hart.setP_delivery (h : Hart) (r : Reg) (w : PredBits) : (h.setP r w).delivery = h.delivery := by unfold Hart.setP; split <;> rfl
@[simp] theorem Hart.setP_due (h : Hart) (r : Reg) (w : PredBits) : (h.setP r w).due = h.due := by unfold Hart.setP; split <;> rfl
@[simp] theorem Hart.setP_restored (h : Hart) (r : Reg) (w : PredBits) : (h.setP r w).restored = h.restored := by unfold Hart.setP; split <;> rfl
@[simp] theorem Hart.setP_cut (h : Hart) (r : Reg) (w : PredBits) : (h.setP r w).cut = h.cut := by unfold Hart.setP; split <;> rfl
@[simp] theorem Hart.setP_iss (h : Hart) (r : Reg) (w : PredBits) : (h.setP r w).iss = h.iss := by unfold Hart.setP; split <;> rfl

@[simp] theorem Hart.setV_id (h : Hart) (r : Reg) (t : Tag) (w : VecBits) : (h.setV r t w).id = h.id := rfl
@[simp] theorem Hart.setV_engine (h : Hart) (r : Reg) (t : Tag) (w : VecBits) : (h.setV r t w).engine = h.engine := rfl
@[simp] theorem Hart.setV_phase (h : Hart) (r : Reg) (t : Tag) (w : VecBits) : (h.setV r t w).phase = h.phase := rfl
@[simp] theorem Hart.setV_saved (h : Hart) (r : Reg) (t : Tag) (w : VecBits) : (h.setV r t w).saved = h.saved := rfl
@[simp] theorem Hart.setV_part (h : Hart) (r : Reg) (t : Tag) (w : VecBits) : (h.setV r t w).part = h.part := rfl
@[simp] theorem Hart.setV_queue (h : Hart) (r : Reg) (t : Tag) (w : VecBits) : (h.setV r t w).queue = h.queue := rfl
@[simp] theorem Hart.setV_rank (h : Hart) (r : Reg) (t : Tag) (w : VecBits) : (h.setV r t w).rank = h.rank := rfl
@[simp] theorem Hart.setV_x (h : Hart) (r : Reg) (t : Tag) (w : VecBits) : (h.setV r t w).x = h.x := rfl
@[simp] theorem Hart.setV_shadow (h : Hart) (r : Reg) (t : Tag) (w : VecBits) : (h.setV r t w).shadow = h.shadow := rfl
@[simp] theorem Hart.setV_pc (h : Hart) (r : Reg) (t : Tag) (w : VecBits) : (h.setV r t w).pc = h.pc := rfl
@[simp] theorem Hart.setV_p (h : Hart) (r : Reg) (t : Tag) (w : VecBits) : (h.setV r t w).p = h.p := rfl
@[simp] theorem Hart.setV_st (h : Hart) (r : Reg) (t : Tag) (w : VecBits) : (h.setV r t w).st = h.st := rfl
@[simp] theorem Hart.setV_dbg (h : Hart) (r : Reg) (t : Tag) (w : VecBits) : (h.setV r t w).dbg = h.dbg := rfl
@[simp] theorem Hart.setV_cnt (h : Hart) (r : Reg) (t : Tag) (w : VecBits) : (h.setV r t w).cnt = h.cnt := rfl
@[simp] theorem Hart.setV_pending (h : Hart) (r : Reg) (t : Tag) (w : VecBits) : (h.setV r t w).pending = h.pending := rfl
@[simp] theorem Hart.setV_storesIssued (h : Hart) (r : Reg) (t : Tag) (w : VecBits) : (h.setV r t w).storesIssued = h.storesIssued := rfl
@[simp] theorem Hart.setV_vldbs (h : Hart) (r : Reg) (t : Tag) (w : VecBits) : (h.setV r t w).vldbs = h.vldbs := rfl
@[simp] theorem Hart.setV_badV (h : Hart) (r : Reg) (t : Tag) (w : VecBits) : (h.setV r t w).badV = h.badV := rfl
@[simp] theorem Hart.setV_nextJob (h : Hart) (r : Reg) (t : Tag) (w : VecBits) : (h.setV r t w).nextJob = h.nextJob := rfl
@[simp] theorem Hart.setV_notifs (h : Hart) (r : Reg) (t : Tag) (w : VecBits) : (h.setV r t w).notifs = h.notifs := rfl
@[simp] theorem Hart.setV_notifLost (h : Hart) (r : Reg) (t : Tag) (w : VecBits) : (h.setV r t w).notifLost = h.notifLost := rfl
@[simp] theorem Hart.setV_reports (h : Hart) (r : Reg) (t : Tag) (w : VecBits) : (h.setV r t w).reports = h.reports := rfl
@[simp] theorem Hart.setV_reportLost (h : Hart) (r : Reg) (t : Tag) (w : VecBits) : (h.setV r t w).reportLost = h.reportLost := rfl
@[simp] theorem Hart.setV_streams (h : Hart) (r : Reg) (t : Tag) (w : VecBits) : (h.setV r t w).streams = h.streams := rfl
@[simp] theorem Hart.setV_wait (h : Hart) (r : Reg) (t : Tag) (w : VecBits) : (h.setV r t w).wait = h.wait := rfl
@[simp] theorem Hart.setV_turn (h : Hart) (r : Reg) (t : Tag) (w : VecBits) : (h.setV r t w).turn = h.turn := rfl
@[simp] theorem Hart.setV_paused (h : Hart) (r : Reg) (t : Tag) (w : VecBits) : (h.setV r t w).paused = h.paused := rfl
@[simp] theorem Hart.setV_abandoned (h : Hart) (r : Reg) (t : Tag) (w : VecBits) : (h.setV r t w).abandoned = h.abandoned := rfl
@[simp] theorem Hart.setV_streamNo (h : Hart) (r : Reg) (t : Tag) (w : VecBits) : (h.setV r t w).streamNo = h.streamNo := rfl
@[simp] theorem Hart.setV_savedV (h : Hart) (r : Reg) (t : Tag) (w : VecBits) : (h.setV r t w).savedV = h.savedV := rfl
@[simp] theorem Hart.setV_savedMask (h : Hart) (r : Reg) (t : Tag) (w : VecBits) : (h.setV r t w).savedMask = h.savedMask := rfl
@[simp] theorem Hart.setV_area (h : Hart) (r : Reg) (t : Tag) (w : VecBits) : (h.setV r t w).area = h.area := rfl
@[simp] theorem Hart.setV_deficit (h : Hart) (r : Reg) (t : Tag) (w : VecBits) : (h.setV r t w).deficit = h.deficit := rfl
@[simp] theorem Hart.setV_first (h : Hart) (r : Reg) (t : Tag) (w : VecBits) : (h.setV r t w).first = h.first := rfl
@[simp] theorem Hart.setV_skipBreak (h : Hart) (r : Reg) (t : Tag) (w : VecBits) : (h.setV r t w).skipBreak = h.skipBreak := rfl
@[simp] theorem Hart.setV_arrived (h : Hart) (r : Reg) (t : Tag) (w : VecBits) : (h.setV r t w).arrived = h.arrived := rfl
@[simp] theorem Hart.setV_parityAt (h : Hart) (r : Reg) (t : Tag) (w : VecBits) : (h.setV r t w).parityAt = h.parityAt := rfl
@[simp] theorem Hart.setV_replies (h : Hart) (r : Reg) (t : Tag) (w : VecBits) : (h.setV r t w).replies = h.replies := rfl
@[simp] theorem Hart.setV_delivery (h : Hart) (r : Reg) (t : Tag) (w : VecBits) : (h.setV r t w).delivery = h.delivery := rfl
@[simp] theorem Hart.setV_due (h : Hart) (r : Reg) (t : Tag) (w : VecBits) : (h.setV r t w).due = h.due := rfl
@[simp] theorem Hart.setV_restored (h : Hart) (r : Reg) (t : Tag) (w : VecBits) : (h.setV r t w).restored = h.restored := rfl
@[simp] theorem Hart.setV_cut (h : Hart) (r : Reg) (t : Tag) (w : VecBits) : (h.setV r t w).cut = h.cut := rfl
@[simp] theorem Hart.setV_iss (h : Hart) (r : Reg) (t : Tag) (w : VecBits) : (h.setV r t w).iss = h.iss := rfl

@[simp] theorem Hart.setFlow_id (h : Hart) (f : Flow) : (h.setFlow f).id = h.id := rfl
@[simp] theorem Hart.setFlow_engine (h : Hart) (f : Flow) : (h.setFlow f).engine = h.engine := rfl
@[simp] theorem Hart.setFlow_phase (h : Hart) (f : Flow) : (h.setFlow f).phase = h.phase := rfl
@[simp] theorem Hart.setFlow_saved (h : Hart) (f : Flow) : (h.setFlow f).saved = h.saved := rfl
@[simp] theorem Hart.setFlow_part (h : Hart) (f : Flow) : (h.setFlow f).part = h.part := rfl
@[simp] theorem Hart.setFlow_queue (h : Hart) (f : Flow) : (h.setFlow f).queue = h.queue := rfl
@[simp] theorem Hart.setFlow_rank (h : Hart) (f : Flow) : (h.setFlow f).rank = h.rank := rfl
@[simp] theorem Hart.setFlow_x (h : Hart) (f : Flow) : (h.setFlow f).x = h.x := rfl
@[simp] theorem Hart.setFlow_shadow (h : Hart) (f : Flow) : (h.setFlow f).shadow = h.shadow := rfl
@[simp] theorem Hart.setFlow_pc (h : Hart) (f : Flow) : (h.setFlow f).pc = h.pc := rfl
@[simp] theorem Hart.setFlow_v (h : Hart) (f : Flow) : (h.setFlow f).v = h.v := rfl
@[simp] theorem Hart.setFlow_p (h : Hart) (f : Flow) : (h.setFlow f).p = h.p := rfl
@[simp] theorem Hart.setFlow_tags (h : Hart) (f : Flow) : (h.setFlow f).tags = h.tags := rfl
@[simp] theorem Hart.setFlow_csr (h : Hart) (f : Flow) : (h.setFlow f).csr = h.csr := rfl
@[simp] theorem Hart.setFlow_st (h : Hart) (f : Flow) : (h.setFlow f).st = h.st := rfl
@[simp] theorem Hart.setFlow_dbg (h : Hart) (f : Flow) : (h.setFlow f).dbg = h.dbg := rfl
@[simp] theorem Hart.setFlow_cnt (h : Hart) (f : Flow) : (h.setFlow f).cnt = h.cnt := rfl
@[simp] theorem Hart.setFlow_pending (h : Hart) (f : Flow) : (h.setFlow f).pending = h.pending := rfl
@[simp] theorem Hart.setFlow_storesIssued (h : Hart) (f : Flow) : (h.setFlow f).storesIssued = h.storesIssued := rfl
@[simp] theorem Hart.setFlow_vldbs (h : Hart) (f : Flow) : (h.setFlow f).vldbs = h.vldbs := rfl
@[simp] theorem Hart.setFlow_badV (h : Hart) (f : Flow) : (h.setFlow f).badV = h.badV := rfl
@[simp] theorem Hart.setFlow_nextJob (h : Hart) (f : Flow) : (h.setFlow f).nextJob = h.nextJob := rfl
@[simp] theorem Hart.setFlow_notifs (h : Hart) (f : Flow) : (h.setFlow f).notifs = h.notifs := rfl
@[simp] theorem Hart.setFlow_notifLost (h : Hart) (f : Flow) : (h.setFlow f).notifLost = h.notifLost := rfl
@[simp] theorem Hart.setFlow_reports (h : Hart) (f : Flow) : (h.setFlow f).reports = h.reports := rfl
@[simp] theorem Hart.setFlow_reportLost (h : Hart) (f : Flow) : (h.setFlow f).reportLost = h.reportLost := rfl
@[simp] theorem Hart.setFlow_streams (h : Hart) (f : Flow) : (h.setFlow f).streams = h.streams := rfl
@[simp] theorem Hart.setFlow_wait (h : Hart) (f : Flow) : (h.setFlow f).wait = h.wait := rfl
@[simp] theorem Hart.setFlow_turn (h : Hart) (f : Flow) : (h.setFlow f).turn = h.turn := rfl
@[simp] theorem Hart.setFlow_paused (h : Hart) (f : Flow) : (h.setFlow f).paused = h.paused := rfl
@[simp] theorem Hart.setFlow_abandoned (h : Hart) (f : Flow) : (h.setFlow f).abandoned = h.abandoned := rfl
@[simp] theorem Hart.setFlow_streamNo (h : Hart) (f : Flow) : (h.setFlow f).streamNo = h.streamNo := rfl
@[simp] theorem Hart.setFlow_savedV (h : Hart) (f : Flow) : (h.setFlow f).savedV = h.savedV := rfl
@[simp] theorem Hart.setFlow_savedMask (h : Hart) (f : Flow) : (h.setFlow f).savedMask = h.savedMask := rfl
@[simp] theorem Hart.setFlow_area (h : Hart) (f : Flow) : (h.setFlow f).area = h.area := rfl
@[simp] theorem Hart.setFlow_deficit (h : Hart) (f : Flow) : (h.setFlow f).deficit = h.deficit := rfl
@[simp] theorem Hart.setFlow_first (h : Hart) (f : Flow) : (h.setFlow f).first = h.first := rfl
@[simp] theorem Hart.setFlow_skipBreak (h : Hart) (f : Flow) : (h.setFlow f).skipBreak = h.skipBreak := rfl
@[simp] theorem Hart.setFlow_arrived (h : Hart) (f : Flow) : (h.setFlow f).arrived = h.arrived := rfl
@[simp] theorem Hart.setFlow_parityAt (h : Hart) (f : Flow) : (h.setFlow f).parityAt = h.parityAt := rfl
@[simp] theorem Hart.setFlow_replies (h : Hart) (f : Flow) : (h.setFlow f).replies = h.replies := rfl
@[simp] theorem Hart.setFlow_delivery (h : Hart) (f : Flow) : (h.setFlow f).delivery = h.delivery := rfl
@[simp] theorem Hart.setFlow_due (h : Hart) (f : Flow) : (h.setFlow f).due = h.due := rfl
@[simp] theorem Hart.setFlow_restored (h : Hart) (f : Flow) : (h.setFlow f).restored = h.restored := rfl
@[simp] theorem Hart.setFlow_cut (h : Hart) (f : Flow) : (h.setFlow f).cut = h.cut := rfl

@[simp] theorem Hart.raise_id (h : Hart) (r : Raised) : (h.raise r).id = h.id := rfl
@[simp] theorem Hart.raise_engine (h : Hart) (r : Raised) : (h.raise r).engine = h.engine := rfl
@[simp] theorem Hart.raise_phase (h : Hart) (r : Raised) : (h.raise r).phase = h.phase := rfl
@[simp] theorem Hart.raise_saved (h : Hart) (r : Raised) : (h.raise r).saved = h.saved := rfl
@[simp] theorem Hart.raise_part (h : Hart) (r : Raised) : (h.raise r).part = h.part := rfl
@[simp] theorem Hart.raise_queue (h : Hart) (r : Raised) : (h.raise r).queue = h.queue := rfl
@[simp] theorem Hart.raise_rank (h : Hart) (r : Raised) : (h.raise r).rank = h.rank := rfl
@[simp] theorem Hart.raise_x (h : Hart) (r : Raised) : (h.raise r).x = h.x := rfl
@[simp] theorem Hart.raise_shadow (h : Hart) (r : Raised) : (h.raise r).shadow = h.shadow := rfl
@[simp] theorem Hart.raise_pc (h : Hart) (r : Raised) : (h.raise r).pc = h.pc := rfl
@[simp] theorem Hart.raise_v (h : Hart) (r : Raised) : (h.raise r).v = h.v := rfl
@[simp] theorem Hart.raise_p (h : Hart) (r : Raised) : (h.raise r).p = h.p := rfl
@[simp] theorem Hart.raise_tags (h : Hart) (r : Raised) : (h.raise r).tags = h.tags := rfl
@[simp] theorem Hart.raise_st (h : Hart) (r : Raised) : (h.raise r).st = h.st := rfl
@[simp] theorem Hart.raise_dbg (h : Hart) (r : Raised) : (h.raise r).dbg = h.dbg := rfl
@[simp] theorem Hart.raise_cnt (h : Hart) (r : Raised) : (h.raise r).cnt = h.cnt := rfl
@[simp] theorem Hart.raise_pending (h : Hart) (r : Raised) : (h.raise r).pending = h.pending := rfl
@[simp] theorem Hart.raise_storesIssued (h : Hart) (r : Raised) : (h.raise r).storesIssued = h.storesIssued := rfl
@[simp] theorem Hart.raise_vldbs (h : Hart) (r : Raised) : (h.raise r).vldbs = h.vldbs := rfl
@[simp] theorem Hart.raise_badV (h : Hart) (r : Raised) : (h.raise r).badV = h.badV := rfl
@[simp] theorem Hart.raise_nextJob (h : Hart) (r : Raised) : (h.raise r).nextJob = h.nextJob := rfl
@[simp] theorem Hart.raise_notifs (h : Hart) (r : Raised) : (h.raise r).notifs = h.notifs := rfl
@[simp] theorem Hart.raise_notifLost (h : Hart) (r : Raised) : (h.raise r).notifLost = h.notifLost := rfl
@[simp] theorem Hart.raise_reports (h : Hart) (r : Raised) : (h.raise r).reports = h.reports := rfl
@[simp] theorem Hart.raise_reportLost (h : Hart) (r : Raised) : (h.raise r).reportLost = h.reportLost := rfl
@[simp] theorem Hart.raise_streams (h : Hart) (r : Raised) : (h.raise r).streams = h.streams := rfl
@[simp] theorem Hart.raise_wait (h : Hart) (r : Raised) : (h.raise r).wait = h.wait := rfl
@[simp] theorem Hart.raise_turn (h : Hart) (r : Raised) : (h.raise r).turn = h.turn := rfl
@[simp] theorem Hart.raise_paused (h : Hart) (r : Raised) : (h.raise r).paused = h.paused := rfl
@[simp] theorem Hart.raise_abandoned (h : Hart) (r : Raised) : (h.raise r).abandoned = h.abandoned := rfl
@[simp] theorem Hart.raise_streamNo (h : Hart) (r : Raised) : (h.raise r).streamNo = h.streamNo := rfl
@[simp] theorem Hart.raise_savedV (h : Hart) (r : Raised) : (h.raise r).savedV = h.savedV := rfl
@[simp] theorem Hart.raise_savedMask (h : Hart) (r : Raised) : (h.raise r).savedMask = h.savedMask := rfl
@[simp] theorem Hart.raise_area (h : Hart) (r : Raised) : (h.raise r).area = h.area := rfl
@[simp] theorem Hart.raise_deficit (h : Hart) (r : Raised) : (h.raise r).deficit = h.deficit := rfl
@[simp] theorem Hart.raise_first (h : Hart) (r : Raised) : (h.raise r).first = h.first := rfl
@[simp] theorem Hart.raise_skipBreak (h : Hart) (r : Raised) : (h.raise r).skipBreak = h.skipBreak := rfl
@[simp] theorem Hart.raise_arrived (h : Hart) (r : Raised) : (h.raise r).arrived = h.arrived := rfl
@[simp] theorem Hart.raise_parityAt (h : Hart) (r : Raised) : (h.raise r).parityAt = h.parityAt := rfl
@[simp] theorem Hart.raise_replies (h : Hart) (r : Raised) : (h.raise r).replies = h.replies := rfl
@[simp] theorem Hart.raise_delivery (h : Hart) (r : Raised) : (h.raise r).delivery = h.delivery := rfl
@[simp] theorem Hart.raise_due (h : Hart) (r : Raised) : (h.raise r).due = h.due := rfl
@[simp] theorem Hart.raise_restored (h : Hart) (r : Raised) : (h.raise r).restored = h.restored := rfl
@[simp] theorem Hart.raise_cut (h : Hart) (r : Raised) : (h.raise r).cut = h.cut := rfl
@[simp] theorem Hart.raise_iss (h : Hart) (r : Raised) : (h.raise r).iss = h.iss := rfl

@[simp] theorem Hart.addPending_id (h : Hart) (k : Fin 16) : (h.addPending k).id = h.id := rfl
@[simp] theorem Hart.addPending_engine (h : Hart) (k : Fin 16) : (h.addPending k).engine = h.engine := rfl
@[simp] theorem Hart.addPending_phase (h : Hart) (k : Fin 16) : (h.addPending k).phase = h.phase := rfl
@[simp] theorem Hart.addPending_saved (h : Hart) (k : Fin 16) : (h.addPending k).saved = h.saved := rfl
@[simp] theorem Hart.addPending_part (h : Hart) (k : Fin 16) : (h.addPending k).part = h.part := rfl
@[simp] theorem Hart.addPending_queue (h : Hart) (k : Fin 16) : (h.addPending k).queue = h.queue := rfl
@[simp] theorem Hart.addPending_rank (h : Hart) (k : Fin 16) : (h.addPending k).rank = h.rank := rfl
@[simp] theorem Hart.addPending_x (h : Hart) (k : Fin 16) : (h.addPending k).x = h.x := rfl
@[simp] theorem Hart.addPending_shadow (h : Hart) (k : Fin 16) : (h.addPending k).shadow = h.shadow := rfl
@[simp] theorem Hart.addPending_pc (h : Hart) (k : Fin 16) : (h.addPending k).pc = h.pc := rfl
@[simp] theorem Hart.addPending_v (h : Hart) (k : Fin 16) : (h.addPending k).v = h.v := rfl
@[simp] theorem Hart.addPending_p (h : Hart) (k : Fin 16) : (h.addPending k).p = h.p := rfl
@[simp] theorem Hart.addPending_tags (h : Hart) (k : Fin 16) : (h.addPending k).tags = h.tags := rfl
@[simp] theorem Hart.addPending_csr (h : Hart) (k : Fin 16) : (h.addPending k).csr = h.csr := rfl
@[simp] theorem Hart.addPending_st (h : Hart) (k : Fin 16) : (h.addPending k).st = h.st := rfl
@[simp] theorem Hart.addPending_dbg (h : Hart) (k : Fin 16) : (h.addPending k).dbg = h.dbg := rfl
@[simp] theorem Hart.addPending_vldbs (h : Hart) (k : Fin 16) : (h.addPending k).vldbs = h.vldbs := rfl
@[simp] theorem Hart.addPending_badV (h : Hart) (k : Fin 16) : (h.addPending k).badV = h.badV := rfl
@[simp] theorem Hart.addPending_nextJob (h : Hart) (k : Fin 16) : (h.addPending k).nextJob = h.nextJob := rfl
@[simp] theorem Hart.addPending_notifs (h : Hart) (k : Fin 16) : (h.addPending k).notifs = h.notifs := rfl
@[simp] theorem Hart.addPending_notifLost (h : Hart) (k : Fin 16) : (h.addPending k).notifLost = h.notifLost := rfl
@[simp] theorem Hart.addPending_reports (h : Hart) (k : Fin 16) : (h.addPending k).reports = h.reports := rfl
@[simp] theorem Hart.addPending_reportLost (h : Hart) (k : Fin 16) : (h.addPending k).reportLost = h.reportLost := rfl
@[simp] theorem Hart.addPending_streams (h : Hart) (k : Fin 16) : (h.addPending k).streams = h.streams := rfl
@[simp] theorem Hart.addPending_wait (h : Hart) (k : Fin 16) : (h.addPending k).wait = h.wait := rfl
@[simp] theorem Hart.addPending_turn (h : Hart) (k : Fin 16) : (h.addPending k).turn = h.turn := rfl
@[simp] theorem Hart.addPending_paused (h : Hart) (k : Fin 16) : (h.addPending k).paused = h.paused := rfl
@[simp] theorem Hart.addPending_abandoned (h : Hart) (k : Fin 16) : (h.addPending k).abandoned = h.abandoned := rfl
@[simp] theorem Hart.addPending_streamNo (h : Hart) (k : Fin 16) : (h.addPending k).streamNo = h.streamNo := rfl
@[simp] theorem Hart.addPending_savedV (h : Hart) (k : Fin 16) : (h.addPending k).savedV = h.savedV := rfl
@[simp] theorem Hart.addPending_savedMask (h : Hart) (k : Fin 16) : (h.addPending k).savedMask = h.savedMask := rfl
@[simp] theorem Hart.addPending_area (h : Hart) (k : Fin 16) : (h.addPending k).area = h.area := rfl
@[simp] theorem Hart.addPending_deficit (h : Hart) (k : Fin 16) : (h.addPending k).deficit = h.deficit := rfl
@[simp] theorem Hart.addPending_first (h : Hart) (k : Fin 16) : (h.addPending k).first = h.first := rfl
@[simp] theorem Hart.addPending_skipBreak (h : Hart) (k : Fin 16) : (h.addPending k).skipBreak = h.skipBreak := rfl
@[simp] theorem Hart.addPending_arrived (h : Hart) (k : Fin 16) : (h.addPending k).arrived = h.arrived := rfl
@[simp] theorem Hart.addPending_parityAt (h : Hart) (k : Fin 16) : (h.addPending k).parityAt = h.parityAt := rfl
@[simp] theorem Hart.addPending_replies (h : Hart) (k : Fin 16) : (h.addPending k).replies = h.replies := rfl
@[simp] theorem Hart.addPending_delivery (h : Hart) (k : Fin 16) : (h.addPending k).delivery = h.delivery := rfl
@[simp] theorem Hart.addPending_due (h : Hart) (k : Fin 16) : (h.addPending k).due = h.due := rfl
@[simp] theorem Hart.addPending_restored (h : Hart) (k : Fin 16) : (h.addPending k).restored = h.restored := rfl
@[simp] theorem Hart.addPending_cut (h : Hart) (k : Fin 16) : (h.addPending k).cut = h.cut := rfl
@[simp] theorem Hart.addPending_iss (h : Hart) (k : Fin 16) : (h.addPending k).iss = h.iss := rfl

@[simp] theorem Hart.addReport_id (h : Hart) (r : Report) : (h.addReport r).id = h.id := by unfold Hart.addReport; split <;> rfl
@[simp] theorem Hart.addReport_engine (h : Hart) (r : Report) : (h.addReport r).engine = h.engine := by unfold Hart.addReport; split <;> rfl
@[simp] theorem Hart.addReport_phase (h : Hart) (r : Report) : (h.addReport r).phase = h.phase := by unfold Hart.addReport; split <;> rfl
@[simp] theorem Hart.addReport_saved (h : Hart) (r : Report) : (h.addReport r).saved = h.saved := by unfold Hart.addReport; split <;> rfl
@[simp] theorem Hart.addReport_part (h : Hart) (r : Report) : (h.addReport r).part = h.part := by unfold Hart.addReport; split <;> rfl
@[simp] theorem Hart.addReport_queue (h : Hart) (r : Report) : (h.addReport r).queue = h.queue := by unfold Hart.addReport; split <;> rfl
@[simp] theorem Hart.addReport_rank (h : Hart) (r : Report) : (h.addReport r).rank = h.rank := by unfold Hart.addReport; split <;> rfl
@[simp] theorem Hart.addReport_x (h : Hart) (r : Report) : (h.addReport r).x = h.x := by unfold Hart.addReport; split <;> rfl
@[simp] theorem Hart.addReport_shadow (h : Hart) (r : Report) : (h.addReport r).shadow = h.shadow := by unfold Hart.addReport; split <;> rfl
@[simp] theorem Hart.addReport_pc (h : Hart) (r : Report) : (h.addReport r).pc = h.pc := by unfold Hart.addReport; split <;> rfl
@[simp] theorem Hart.addReport_v (h : Hart) (r : Report) : (h.addReport r).v = h.v := by unfold Hart.addReport; split <;> rfl
@[simp] theorem Hart.addReport_p (h : Hart) (r : Report) : (h.addReport r).p = h.p := by unfold Hart.addReport; split <;> rfl
@[simp] theorem Hart.addReport_tags (h : Hart) (r : Report) : (h.addReport r).tags = h.tags := by unfold Hart.addReport; split <;> rfl
@[simp] theorem Hart.addReport_csr (h : Hart) (r : Report) : (h.addReport r).csr = h.csr := by unfold Hart.addReport; split <;> rfl
@[simp] theorem Hart.addReport_st (h : Hart) (r : Report) : (h.addReport r).st = h.st := by unfold Hart.addReport; split <;> rfl
@[simp] theorem Hart.addReport_dbg (h : Hart) (r : Report) : (h.addReport r).dbg = h.dbg := by unfold Hart.addReport; split <;> rfl
@[simp] theorem Hart.addReport_cnt (h : Hart) (r : Report) : (h.addReport r).cnt = h.cnt := by unfold Hart.addReport; split <;> rfl
@[simp] theorem Hart.addReport_pending (h : Hart) (r : Report) : (h.addReport r).pending = h.pending := by unfold Hart.addReport; split <;> rfl
@[simp] theorem Hart.addReport_storesIssued (h : Hart) (r : Report) : (h.addReport r).storesIssued = h.storesIssued := by unfold Hart.addReport; split <;> rfl
@[simp] theorem Hart.addReport_vldbs (h : Hart) (r : Report) : (h.addReport r).vldbs = h.vldbs := by unfold Hart.addReport; split <;> rfl
@[simp] theorem Hart.addReport_badV (h : Hart) (r : Report) : (h.addReport r).badV = h.badV := by unfold Hart.addReport; split <;> rfl
@[simp] theorem Hart.addReport_nextJob (h : Hart) (r : Report) : (h.addReport r).nextJob = h.nextJob := by unfold Hart.addReport; split <;> rfl
@[simp] theorem Hart.addReport_notifs (h : Hart) (r : Report) : (h.addReport r).notifs = h.notifs := by unfold Hart.addReport; split <;> rfl
@[simp] theorem Hart.addReport_notifLost (h : Hart) (r : Report) : (h.addReport r).notifLost = h.notifLost := by unfold Hart.addReport; split <;> rfl
@[simp] theorem Hart.addReport_streams (h : Hart) (r : Report) : (h.addReport r).streams = h.streams := by unfold Hart.addReport; split <;> rfl
@[simp] theorem Hart.addReport_wait (h : Hart) (r : Report) : (h.addReport r).wait = h.wait := by unfold Hart.addReport; split <;> rfl
@[simp] theorem Hart.addReport_turn (h : Hart) (r : Report) : (h.addReport r).turn = h.turn := by unfold Hart.addReport; split <;> rfl
@[simp] theorem Hart.addReport_paused (h : Hart) (r : Report) : (h.addReport r).paused = h.paused := by unfold Hart.addReport; split <;> rfl
@[simp] theorem Hart.addReport_abandoned (h : Hart) (r : Report) : (h.addReport r).abandoned = h.abandoned := by unfold Hart.addReport; split <;> rfl
@[simp] theorem Hart.addReport_streamNo (h : Hart) (r : Report) : (h.addReport r).streamNo = h.streamNo := by unfold Hart.addReport; split <;> rfl
@[simp] theorem Hart.addReport_savedV (h : Hart) (r : Report) : (h.addReport r).savedV = h.savedV := by unfold Hart.addReport; split <;> rfl
@[simp] theorem Hart.addReport_savedMask (h : Hart) (r : Report) : (h.addReport r).savedMask = h.savedMask := by unfold Hart.addReport; split <;> rfl
@[simp] theorem Hart.addReport_area (h : Hart) (r : Report) : (h.addReport r).area = h.area := by unfold Hart.addReport; split <;> rfl
@[simp] theorem Hart.addReport_deficit (h : Hart) (r : Report) : (h.addReport r).deficit = h.deficit := by unfold Hart.addReport; split <;> rfl
@[simp] theorem Hart.addReport_first (h : Hart) (r : Report) : (h.addReport r).first = h.first := by unfold Hart.addReport; split <;> rfl
@[simp] theorem Hart.addReport_skipBreak (h : Hart) (r : Report) : (h.addReport r).skipBreak = h.skipBreak := by unfold Hart.addReport; split <;> rfl
@[simp] theorem Hart.addReport_arrived (h : Hart) (r : Report) : (h.addReport r).arrived = h.arrived := by unfold Hart.addReport; split <;> rfl
@[simp] theorem Hart.addReport_parityAt (h : Hart) (r : Report) : (h.addReport r).parityAt = h.parityAt := by unfold Hart.addReport; split <;> rfl
@[simp] theorem Hart.addReport_replies (h : Hart) (r : Report) : (h.addReport r).replies = h.replies := by unfold Hart.addReport; split <;> rfl
@[simp] theorem Hart.addReport_delivery (h : Hart) (r : Report) : (h.addReport r).delivery = h.delivery := by unfold Hart.addReport; split <;> rfl
@[simp] theorem Hart.addReport_due (h : Hart) (r : Report) : (h.addReport r).due = h.due := by unfold Hart.addReport; split <;> rfl
@[simp] theorem Hart.addReport_restored (h : Hart) (r : Report) : (h.addReport r).restored = h.restored := by unfold Hart.addReport; split <;> rfl
@[simp] theorem Hart.addReport_cut (h : Hart) (r : Report) : (h.addReport r).cut = h.cut := by unfold Hart.addReport; split <;> rfl
@[simp] theorem Hart.addReport_iss (h : Hart) (r : Report) : (h.addReport r).iss = h.iss := by unfold Hart.addReport; split <;> rfl

@[simp] theorem Hart.count_id (h : Hart) (c n : Nat) : (h.count c n).id = h.id := by unfold Hart.count; split <;> rfl
@[simp] theorem Hart.count_engine (h : Hart) (c n : Nat) : (h.count c n).engine = h.engine := by unfold Hart.count; split <;> rfl
@[simp] theorem Hart.count_phase (h : Hart) (c n : Nat) : (h.count c n).phase = h.phase := by unfold Hart.count; split <;> rfl
@[simp] theorem Hart.count_saved (h : Hart) (c n : Nat) : (h.count c n).saved = h.saved := by unfold Hart.count; split <;> rfl
@[simp] theorem Hart.count_part (h : Hart) (c n : Nat) : (h.count c n).part = h.part := by unfold Hart.count; split <;> rfl
@[simp] theorem Hart.count_queue (h : Hart) (c n : Nat) : (h.count c n).queue = h.queue := by unfold Hart.count; split <;> rfl
@[simp] theorem Hart.count_rank (h : Hart) (c n : Nat) : (h.count c n).rank = h.rank := by unfold Hart.count; split <;> rfl
@[simp] theorem Hart.count_x (h : Hart) (c n : Nat) : (h.count c n).x = h.x := by unfold Hart.count; split <;> rfl
@[simp] theorem Hart.count_shadow (h : Hart) (c n : Nat) : (h.count c n).shadow = h.shadow := by unfold Hart.count; split <;> rfl
@[simp] theorem Hart.count_pc (h : Hart) (c n : Nat) : (h.count c n).pc = h.pc := by unfold Hart.count; split <;> rfl
@[simp] theorem Hart.count_v (h : Hart) (c n : Nat) : (h.count c n).v = h.v := by unfold Hart.count; split <;> rfl
@[simp] theorem Hart.count_p (h : Hart) (c n : Nat) : (h.count c n).p = h.p := by unfold Hart.count; split <;> rfl
@[simp] theorem Hart.count_tags (h : Hart) (c n : Nat) : (h.count c n).tags = h.tags := by unfold Hart.count; split <;> rfl
@[simp] theorem Hart.count_csr (h : Hart) (c n : Nat) : (h.count c n).csr = h.csr := by unfold Hart.count; split <;> rfl
@[simp] theorem Hart.count_st (h : Hart) (c n : Nat) : (h.count c n).st = h.st := by unfold Hart.count; split <;> rfl
@[simp] theorem Hart.count_cnt (h : Hart) (c n : Nat) : (h.count c n).cnt = h.cnt := by unfold Hart.count; split <;> rfl
@[simp] theorem Hart.count_pending (h : Hart) (c n : Nat) : (h.count c n).pending = h.pending := by unfold Hart.count; split <;> rfl
@[simp] theorem Hart.count_storesIssued (h : Hart) (c n : Nat) : (h.count c n).storesIssued = h.storesIssued := by unfold Hart.count; split <;> rfl
@[simp] theorem Hart.count_vldbs (h : Hart) (c n : Nat) : (h.count c n).vldbs = h.vldbs := by unfold Hart.count; split <;> rfl
@[simp] theorem Hart.count_badV (h : Hart) (c n : Nat) : (h.count c n).badV = h.badV := by unfold Hart.count; split <;> rfl
@[simp] theorem Hart.count_nextJob (h : Hart) (c n : Nat) : (h.count c n).nextJob = h.nextJob := by unfold Hart.count; split <;> rfl
@[simp] theorem Hart.count_notifs (h : Hart) (c n : Nat) : (h.count c n).notifs = h.notifs := by unfold Hart.count; split <;> rfl
@[simp] theorem Hart.count_notifLost (h : Hart) (c n : Nat) : (h.count c n).notifLost = h.notifLost := by unfold Hart.count; split <;> rfl
@[simp] theorem Hart.count_reports (h : Hart) (c n : Nat) : (h.count c n).reports = h.reports := by unfold Hart.count; split <;> rfl
@[simp] theorem Hart.count_reportLost (h : Hart) (c n : Nat) : (h.count c n).reportLost = h.reportLost := by unfold Hart.count; split <;> rfl
@[simp] theorem Hart.count_streams (h : Hart) (c n : Nat) : (h.count c n).streams = h.streams := by unfold Hart.count; split <;> rfl
@[simp] theorem Hart.count_wait (h : Hart) (c n : Nat) : (h.count c n).wait = h.wait := by unfold Hart.count; split <;> rfl
@[simp] theorem Hart.count_turn (h : Hart) (c n : Nat) : (h.count c n).turn = h.turn := by unfold Hart.count; split <;> rfl
@[simp] theorem Hart.count_paused (h : Hart) (c n : Nat) : (h.count c n).paused = h.paused := by unfold Hart.count; split <;> rfl
@[simp] theorem Hart.count_abandoned (h : Hart) (c n : Nat) : (h.count c n).abandoned = h.abandoned := by unfold Hart.count; split <;> rfl
@[simp] theorem Hart.count_streamNo (h : Hart) (c n : Nat) : (h.count c n).streamNo = h.streamNo := by unfold Hart.count; split <;> rfl
@[simp] theorem Hart.count_savedV (h : Hart) (c n : Nat) : (h.count c n).savedV = h.savedV := by unfold Hart.count; split <;> rfl
@[simp] theorem Hart.count_savedMask (h : Hart) (c n : Nat) : (h.count c n).savedMask = h.savedMask := by unfold Hart.count; split <;> rfl
@[simp] theorem Hart.count_area (h : Hart) (c n : Nat) : (h.count c n).area = h.area := by unfold Hart.count; split <;> rfl
@[simp] theorem Hart.count_deficit (h : Hart) (c n : Nat) : (h.count c n).deficit = h.deficit := by unfold Hart.count; split <;> rfl
@[simp] theorem Hart.count_first (h : Hart) (c n : Nat) : (h.count c n).first = h.first := by unfold Hart.count; split <;> rfl
@[simp] theorem Hart.count_skipBreak (h : Hart) (c n : Nat) : (h.count c n).skipBreak = h.skipBreak := by unfold Hart.count; split <;> rfl
@[simp] theorem Hart.count_arrived (h : Hart) (c n : Nat) : (h.count c n).arrived = h.arrived := by unfold Hart.count; split <;> rfl
@[simp] theorem Hart.count_parityAt (h : Hart) (c n : Nat) : (h.count c n).parityAt = h.parityAt := by unfold Hart.count; split <;> rfl
@[simp] theorem Hart.count_replies (h : Hart) (c n : Nat) : (h.count c n).replies = h.replies := by unfold Hart.count; split <;> rfl
@[simp] theorem Hart.count_delivery (h : Hart) (c n : Nat) : (h.count c n).delivery = h.delivery := by unfold Hart.count; split <;> rfl
@[simp] theorem Hart.count_due (h : Hart) (c n : Nat) : (h.count c n).due = h.due := by unfold Hart.count; split <;> rfl
@[simp] theorem Hart.count_restored (h : Hart) (c n : Nat) : (h.count c n).restored = h.restored := by unfold Hart.count; split <;> rfl
@[simp] theorem Hart.count_cut (h : Hart) (c n : Nat) : (h.count c n).cut = h.cut := by unfold Hart.count; split <;> rfl
@[simp] theorem Hart.count_iss (h : Hart) (c n : Nat) : (h.count c n).iss = h.iss := by unfold Hart.count; split <;> rfl
@[simp] theorem Hart.getX_zero (h : Hart) : h.getX 0 = 0 := rfl

theorem Hart.getX_setX_same (h : Hart) (d : Reg) (v : Word) : (h.setX d v).getX d = if d = 0 then 0 else v := by
  unfold Hart.getX Hart.setX
  by_cases h0 : d = 0 <;> simp [h0]

theorem Hart.getX_setX_ne (h : Hart) {d r : Reg} (v : Word) (hr : r ≠ d) : (h.setX d v).getX r = h.getX r := by
  unfold Hart.getX Hart.setX
  by_cases h0 : d = 0
  · simp [h0]
  · by_cases h1 : r = 0
    · simp [h1]
    · have : d.val ≠ r.val := fun e => hr (Fin.ext e.symm)
      simp [h0, h1, this]

/-- A scalar write changes the register file alone. -/
theorem Hart.setX_eq (h : Hart) (d : Reg) (v : Word) : h.setX d v = { h with x := (h.setX d v).x } := by
  unfold Hart.setX
  split <;> rfl

@[simp] theorem Hart.getP_zero (h : Hart) : h.getP 0 = BitVec.allOnes 512 := rfl

theorem Hart.getP_setP_same (h : Hart) (d : Reg) (v : PredBits) : (h.setP d v).getP d = if d = 0 then BitVec.allOnes 512 else v := by
  unfold Hart.getP Hart.setP
  by_cases h0 : d = 0 <;> simp [h0]

theorem Hart.getP_setP_ne (h : Hart) {d r : Reg} (v : PredBits) (hr : r ≠ d) : (h.setP d v).getP r = h.getP r := by
  unfold Hart.getP Hart.setP
  by_cases h0 : d = 0
  · simp [h0]
  · by_cases h1 : r = 0
    · simp [h1]
    · have : d.val ≠ r.val := fun e => hr (Fin.ext e.symm)
      simp [h0, h1, this]

theorem Hart.setP_eq (h : Hart) (d : Reg) (v : PredBits) : h.setP d v = { h with p := (h.setP d v).p } := by
  unfold Hart.setP
  split <;> rfl

@[simp] theorem Hart.tag_setV_same (h : Hart) (d : Reg) (t : Tag) (v : VecBits) : (h.setV d t v).tag d = t := by
  simp [Hart.tag, Hart.setV]

theorem Hart.tag_setV_ne (h : Hart) {d r : Reg} (t : Tag) (v : VecBits) (hr : r ≠ d) : (h.setV d t v).tag r = h.tag r := by
  have : d.val ≠ r.val := fun e => hr (Fin.ext e.symm)
  simp [Hart.tag, Hart.setV, this]

@[simp] theorem Hart.v_setV_same (h : Hart) (d : Reg) (t : Tag) (v : VecBits) : (h.setV d t v).v[d] = v := by
  simp [Hart.setV]

theorem Hart.v_setV_ne (h : Hart) {d r : Reg} (t : Tag) (v : VecBits) (hr : r ≠ d) : (h.setV d t v).v[r] = h.v[r] := by
  have : d.val ≠ r.val := fun e => hr (Fin.ext e.symm)
  simp [Hart.setV, this]

/-! ### Updates of the machine -/

@[simp] theorem State.onHart_harts (s : State) (f : Hart → Hart) : (s.onHart f).harts = s.harts := rfl
@[simp] theorem State.onHart_seat (s : State) (f : Hart → Hart) : (s.onHart f).seat = s.seat := rfl
@[simp] theorem State.onHart_gangs (s : State) (f : Hart → Hart) : (s.onHart f).gangs = s.gangs := rfl
@[simp] theorem State.onHart_launches (s : State) (f : Hart → Hart) : (s.onHart f).launches = s.launches := rfl
@[simp] theorem State.onHart_barriers (s : State) (f : Hart → Hart) : (s.onHart f).barriers = s.barriers := rfl
@[simp] theorem State.onHart_clusters (s : State) (f : Hart → Hart) : (s.onHart f).clusters = s.clusters := rfl
@[simp] theorem State.onHart_mem (s : State) (f : Hart → Hart) : (s.onHart f).mem = s.mem := rfl
@[simp] theorem State.onHart_unkeyed (s : State) (f : Hart → Hart) : (s.onHart f).unkeyed = s.unkeyed := rfl
@[simp] theorem State.onHart_badLines (s : State) (f : Hart → Hart) : (s.onHart f).badLines = s.badLines := rfl
@[simp] theorem State.onHart_rewritten (s : State) (f : Hart → Hart) : (s.onHart f).rewritten = s.rewritten := rfl
@[simp] theorem State.onHart_hostGaps (s : State) (f : Hart → Hart) : (s.onHart f).hostGaps = s.hostGaps := rfl
@[simp] theorem State.onHart_regions (s : State) (f : Hart → Hart) : (s.onHart f).regions = s.regions := rfl
@[simp] theorem State.onHart_sessions (s : State) (f : Hart → Hart) : (s.onHart f).sessions = s.sessions := rfl
@[simp] theorem State.onHart_jobs (s : State) (f : Hart → Hart) : (s.onHart f).jobs = s.jobs := rfl
@[simp] theorem State.onHart_items (s : State) (f : Hart → Hart) : (s.onHart f).items = s.items := rfl
@[simp] theorem State.onHart_queues (s : State) (f : Hart → Hart) : (s.onHart f).queues = s.queues := rfl
@[simp] theorem State.onHart_parts (s : State) (f : Hart → Hart) : (s.onHart f).parts = s.parts := rfl
@[simp] theorem State.onHart_fabric (s : State) (f : Hart → Hart) : (s.onHart f).fabric = s.fabric := rfl
@[simp] theorem State.onHart_golium (s : State) (f : Hart → Hart) : (s.onHart f).golium = s.golium := rfl
@[simp] theorem State.onHart_cycle (s : State) (f : Hart → Hart) : (s.onHart f).cycle = s.cycle := rfl
@[simp] theorem State.onHart_outputs (s : State) (f : Hart → Hart) : (s.onHart f).outputs = s.outputs := rfl
@[simp] theorem State.onHart_agenda (s : State) (f : Hart → Hart) : (s.onHart f).agenda = s.agenda := rfl
@[simp] theorem State.onHart_draws (s : State) (f : Hart → Hart) : (s.onHart f).draws = s.draws := rfl
@[simp] theorem State.onHart_hart (s : State) (f : Hart → Hart) : (s.onHart f).hart = f s.hart := rfl

@[simp] theorem State.draw_hart (s : State) : s.draw.2.hart = s.hart := rfl
@[simp] theorem State.draw_harts (s : State) : s.draw.2.harts = s.harts := rfl
@[simp] theorem State.draw_seat (s : State) : s.draw.2.seat = s.seat := rfl
@[simp] theorem State.draw_gangs (s : State) : s.draw.2.gangs = s.gangs := rfl
@[simp] theorem State.draw_launches (s : State) : s.draw.2.launches = s.launches := rfl
@[simp] theorem State.draw_barriers (s : State) : s.draw.2.barriers = s.barriers := rfl
@[simp] theorem State.draw_clusters (s : State) : s.draw.2.clusters = s.clusters := rfl
@[simp] theorem State.draw_mem (s : State) : s.draw.2.mem = s.mem := rfl
@[simp] theorem State.draw_unkeyed (s : State) : s.draw.2.unkeyed = s.unkeyed := rfl
@[simp] theorem State.draw_badLines (s : State) : s.draw.2.badLines = s.badLines := rfl
@[simp] theorem State.draw_rewritten (s : State) : s.draw.2.rewritten = s.rewritten := rfl
@[simp] theorem State.draw_hostGaps (s : State) : s.draw.2.hostGaps = s.hostGaps := rfl
@[simp] theorem State.draw_regions (s : State) : s.draw.2.regions = s.regions := rfl
@[simp] theorem State.draw_sessions (s : State) : s.draw.2.sessions = s.sessions := rfl
@[simp] theorem State.draw_jobs (s : State) : s.draw.2.jobs = s.jobs := rfl
@[simp] theorem State.draw_items (s : State) : s.draw.2.items = s.items := rfl
@[simp] theorem State.draw_queues (s : State) : s.draw.2.queues = s.queues := rfl
@[simp] theorem State.draw_parts (s : State) : s.draw.2.parts = s.parts := rfl
@[simp] theorem State.draw_fabric (s : State) : s.draw.2.fabric = s.fabric := rfl
@[simp] theorem State.draw_golium (s : State) : s.draw.2.golium = s.golium := rfl
@[simp] theorem State.draw_cycle (s : State) : s.draw.2.cycle = s.cycle := rfl
@[simp] theorem State.draw_outputs (s : State) : s.draw.2.outputs = s.outputs := rfl
@[simp] theorem State.draw_agenda (s : State) : s.draw.2.agenda = s.agenda := rfl

end Sys2Proof.Machine
end

