-- ==== Sys2Proof/Laws/Vector.lean ====
section
/-! SUPPORT. Laws of vector elements and predicate bits: read after write, frames, and what the element-wise skeleton can do. -/

namespace Sys2Proof.Machine

/-- An element below the width of the register. -/
theorem getLsbD_putElem (v : VecBits) (w e x i : Nat) (h : i < 8192) :
    (putElem v w e x).getLsbD i = if w * e ≤ i ∧ i < w * e + w then (BitVec.ofNat w x).getLsbD (i - w * e) else v.getLsbD i := by
  unfold putElem
  by_cases h1 : w * e ≤ i
  · by_cases h2 : i < w * e + w
    · have h3 : i - w * e < w := by omega
      have h4 : ¬ i < w * e := by omega
      have h5 : i - w * e < 8192 := by omega
      simp only [BitVec.getLsbD_or, BitVec.getLsbD_and, BitVec.getLsbD_not, BitVec.getLsbD_shiftLeft, BitVec.getLsbD_setWidth,
        BitVec.getLsbD_allOnes, h, h1, h2, h3, h4, h5, decide_true, decide_false, and_self, if_true, Bool.not_false, Bool.not_true,
        Bool.true_and, Bool.and_true, Bool.and_false, Bool.false_or]
    · have h3 : ¬ i - w * e < w := by omega
      have h6 : (BitVec.ofNat w x).getLsbD (i - w * e) = false := BitVec.getLsbD_of_ge _ _ (by omega)
      simp only [BitVec.getLsbD_or, BitVec.getLsbD_and, BitVec.getLsbD_not, BitVec.getLsbD_shiftLeft, BitVec.getLsbD_setWidth,
        BitVec.getLsbD_allOnes, h, h2, h3, h6, decide_true, decide_false, and_false, if_false, Bool.not_false,
        Bool.true_and, Bool.and_true, Bool.and_false, Bool.or_false]
  · have h4 : i < w * e := by omega
    simp only [BitVec.getLsbD_or, BitVec.getLsbD_and, BitVec.getLsbD_not, BitVec.getLsbD_shiftLeft, h, h1, h4, decide_true,
      false_and, if_false, Bool.not_true, Bool.not_false, Bool.and_true, Bool.and_false, Bool.false_and, Bool.or_false]

/-- An element reads back as written. -/
theorem elemOf_putElem_same (v : VecBits) (w e x : Nat) (h : w * e + w ≤ 8192) : elemOf (putElem v w e x) w e = x % 2 ^ w := by
  unfold elemOf
  rw [← BitVec.toNat_ofNat]
  congr 1
  apply BitVec.eq_of_getLsbD_eq
  intro i hi
  rw [BitVec.getLsbD_extractLsb', getLsbD_putElem _ _ _ _ _ (by omega)]
  simp [hi]

/-- A write of one element leaves every other alone. -/
theorem elemOf_putElem_ne (v : VecBits) (w e f x : Nat) (hf : w * f + w ≤ 8192) (hne : f ≠ e) :
    elemOf (putElem v w e x) w f = elemOf v w f := by
  unfold elemOf
  congr 1
  apply BitVec.eq_of_getLsbD_eq
  intro i hi
  rw [BitVec.getLsbD_extractLsb', BitVec.getLsbD_extractLsb', getLsbD_putElem _ _ _ _ _ (by omega)]
  simp only [hi, decide_true, Bool.true_and]
  rw [if_neg]
  rintro ⟨h1, h2⟩
  rcases Nat.lt_or_gt_of_ne hne with h | h
  · have : w * f + w ≤ w * e := by
      calc w * f + w = w * (f + 1) := by ring
        _ ≤ w * e := Nat.mul_le_mul_left w h
    omega
  · have : w * e + w ≤ w * f := by
      calc w * e + w = w * (e + 1) := by ring
        _ ≤ w * f := Nat.mul_le_mul_left w h
    omega

/-- An element that none of several writes names stays. -/
theorem elemOf_putElems_out (v : VecBits) (w f : Nat) (l : List (Nat × Nat)) (hf : w * f + w ≤ 8192) (h : ∀ x ∈ l, x.1 ≠ f) :
    elemOf (putElems v w l) w f = elemOf v w f := by
  induction l generalizing v with
  | nil => rfl
  | cons y l ih =>
    rw [putElems, ih _ fun x hx => h x (by simp [hx])]
    exact elemOf_putElem_ne v w y.1 f y.2 hf (Ne.symm (h y (by simp)))

/-- An element that one of several writes names once. -/
theorem elemOf_putElems_in (v : VecBits) (w f a : Nat) (l : List (Nat × Nat)) (hf : w * f + w ≤ 8192)
    (hn : (l.map (·.1)).Nodup) (h : (f, a) ∈ l) : elemOf (putElems v w l) w f = a % 2 ^ w := by
  induction l generalizing v with
  | nil => simp at h
  | cons y l ih =>
    rw [List.map_cons, List.nodup_cons] at hn
    rw [putElems]
    rcases List.mem_cons.1 h with rfl | h
    · rw [elemOf_putElems_out _ _ _ _ hf, elemOf_putElem_same _ _ _ _ hf]
      intro x hx e
      exact hn.1 (List.mem_map.2 ⟨x, hx, e⟩)
    · exact ih _ hn.2 h

theorem getLsbD_putBit (p : PredBits) (e : Nat) (b : Bool) (i : Nat) (h : i < 512) :
    (putBit p e b).getLsbD i = if i = e then b else p.getLsbD i := by
  unfold putBit
  by_cases h1 : i = e
  · subst h1
    simp [h]
  · by_cases h2 : i < e
    · simp [h, h1, h2]
    · have h3 : i - e ≠ 0 := by omega
      simp [h, h1, h2, h3]

theorem getLsbD_putBits_out (p : PredBits) (l : List (Nat × Bool)) (i : Nat) (h : i < 512) (hl : ∀ x ∈ l, x.1 ≠ i) :
    (putBits p l).getLsbD i = p.getLsbD i := by
  induction l generalizing p with
  | nil => rfl
  | cons y l ih =>
    rw [putBits, ih _ fun x hx => hl x (by simp [hx]), getLsbD_putBit _ _ _ _ h, if_neg (Ne.symm (hl y (by simp)))]

theorem getLsbD_putBits_in (p : PredBits) (l : List (Nat × Bool)) (i : Nat) (b : Bool) (h : i < 512)
    (hn : (l.map (·.1)).Nodup) (hl : (i, b) ∈ l) : (putBits p l).getLsbD i = b := by
  induction l generalizing p with
  | nil => simp at hl
  | cons y l ih =>
    rw [List.map_cons, List.nodup_cons] at hn
    rw [putBits]
    rcases List.mem_cons.1 hl with rfl | hl
    · rw [getLsbD_putBits_out _ _ _ h, getLsbD_putBit _ _ _ _ h, if_pos rfl]
      intro x hx e
      exact hn.1 (List.mem_map.2 ⟨x, hx, e⟩)
    · exact ih _ hn.2 hl

/-- The active elements are distinct, at or above the first and below the end. -/
theorem Hart.mem_active {h : Hart} {m : Reg} {e : Nat} :
    e ∈ h.active m ↔ e < h.endElem ∧ h.firstElem ≤ e ∧ (h.getP m).getLsbD e = true := by
  simp [Hart.active, Hart.range]
  tauto

theorem Hart.nodup_active (h : Hart) (m : Reg) : (h.active m).Nodup :=
  (List.nodup_range.filter _).filter _

theorem Hart.mem_wholeActive {h : Hart} {m : Reg} {e : Nat} :
    e ∈ h.wholeActive m ↔ e < h.vlen ∧ (h.getP m).getLsbD e = true := by
  simp [Hart.wholeActive]

theorem Hart.nodup_wholeActive (h : Hart) (m : Reg) : (h.wholeActive m).Nodup := List.nodup_range.filter _

/-- Everything a write of elements can do to its hart: the register, its tag, its dirty bit, the sticky flags. -/
theorem Hart.commit_eq (h : Hart) (d : Reg) (t : Tag) (l : List (Nat × (Nat × Raised))) :
    h.commit d t l = { h with
      v := (h.commit d t l).v
      tags := (h.commit d t l).tags
      csr := { h.csr with
        vdirty := (h.commit d t l).csr.vdirty
        fflags := (h.commit d t l).csr.fflags
        satf := (h.commit d t l).csr.satf } } := by
  unfold Hart.commit
  split <;> rfl

/-- Everything a vector instruction judged well can do on a strand: its effect, which vl = 0 leaves out. -/
theorem State.vector_next (s : State) (k : State → State) (h : s.hart.engine = .strand) (hv : s.hart.vlen ≠ 0) :
    s.vector none k = .next (k s) := by
  have : s.hart.isControl = false := by simp [Hart.isControl, h]
  simp [State.vector, State.strandOnly, this, hv]

theorem State.vector_empty (s : State) (k : State → State) (h : s.hart.engine = .strand) (hv : s.hart.vlen = 0) :
    s.vector none k = .next s := by
  have : s.hart.isControl = false := by simp [Hart.isControl, h]
  simp [State.vector, State.strandOnly, this, hv]

/-- A vector instruction judged ill takes the trap of the cause, changing nothing first. -/
theorem State.vector_trap (s : State) (c : Cause) (k : State → State) (h : s.hart.engine = .strand) :
    s.vector (some c) k = .next (s.trapWord c) := by
  have : s.hart.isControl = false := by simp [Hart.isControl, h]
  simp [State.vector, State.strandOnly, this]

/-- A control core takes cause 0x08 for every instruction of the strands. -/
theorem State.strandOnly_control (s : State) (k : State → State) (c : Fin 64) (h : s.hart.engine = .control c) :
    s.strandOnly k = .next (s.trapWord .engine) := by
  have : s.hart.isControl = true := by simp [Hart.isControl, h]
  simp [State.strandOnly, this]

theorem State.strandOnly_strand (s : State) (k : State → State) (h : s.hart.engine = .strand) : s.strandOnly k = .next (k s) := by
  have : s.hart.isControl = false := by simp [Hart.isControl, h]
  simp [State.strandOnly, this]

theorem State.controlOnly_control (s : State) (k : Fin 64 → State → State) (c : Fin 64) (h : s.hart.engine = .control c) :
    s.controlOnly k = .next (k c s) := by
  simp [State.controlOnly, h]

theorem State.supervisorOnly_super (s : State) (k : State → State) (h : s.hart.engine = .strand) (hp : s.hart.st.priv = true) :
    s.supervisorOnly k = .next (k s) := by
  rw [State.supervisorOnly, State.strandOnly_strand _ _ h]
  simp [hp]

theorem State.supervisorOnly_user (s : State) (k : State → State) (h : s.hart.engine = .strand) (hp : s.hart.st.priv = false) :
    s.supervisorOnly k = .next (s.trapWord .privilege) := by
  rw [State.supervisorOnly, State.strandOnly_strand _ _ h]
  simp [hp]

end Sys2Proof.Machine
end

