-- ==== Sys2Proof/Laws/Frames.lean ====
section
/-! SUPPORT. For each shared operation, everything it can do, in the terms of Safety.lean. -/

namespace Sys2Proof.Machine

open Sys2Proof.Safety

/-! ### Scalar results -/

/-- A scalar write of the hart in front. -/
theorem writesX_setX (s : State) (d : Reg) (v : Hart → Word) : WritesX d v s (s.onHart fun h => h.setX d (v h)) :=
  ⟨by rw [State.onHart, Hart.setX_eq], Hart.getX_setX_same _ _ _, fun _ hr => Hart.getX_setX_ne _ _ hr⟩

theorem State.alu2_writes (s : State) (d a b : Reg) (f : Word → Word → Word) :
    ∃ t, s.alu2 d a b f = .next t ∧ WritesX d (fun h => f (h.getX a) (h.getX b)) s t :=
  ⟨_, rfl, writesX_setX s d _⟩

theorem State.alu1_writes (s : State) (d a : Reg) (f : Word → Word) :
    ∃ t, s.alu1 d a f = .next t ∧ WritesX d (fun h => f (h.getX a)) s t :=
  ⟨_, rfl, writesX_setX s d _⟩

/-! ### Exceptions of a list of results -/

theorem Raised.bits_or (a b : Raised) : (a.or b).bits = a.bits ||| b.bits := by
  obtain ⟨a1, a2, a3, a4, a5, a6⟩ := a
  obtain ⟨b1, b2, b3, b4, b5, b6⟩ := b
  revert a1 a2 a3 a4 a5 b1 b2 b3 b4 b5
  decide +revert

theorem foldl_or (l : List (Nat × (Nat × Raised))) (r : Raised) :
    (∀ k, (l.foldl (fun r x => r.or x.2.2) r).bits.getLsbD k = (r.bits.getLsbD k || l.any fun x => x.2.2.bits.getLsbD k)) ∧
    (l.foldl (fun r x => r.or x.2.2) r).sat = (r.sat || l.any fun x => x.2.2.sat) := by
  induction l generalizing r with
  | nil => simp
  | cons y l ih =>
    refine ⟨fun k => ?_, ?_⟩
    · rw [List.foldl_cons, (ih _).1, Raised.bits_or, BitVec.getLsbD_or, List.any_cons, Bool.or_assoc]
    · rw [List.foldl_cons, (ih _).2, List.any_cons, ← Bool.or_assoc]
      rfl

/-! ### Vector results -/

/-- A write of a vector register with exceptions raised: elements named once each. -/
theorem writesV_put (s : State) (d : Reg) (t : Tag) (act : List Nat) (f : Nat → Nat × Raised) (hn : act.Nodup) :
    WritesV d t act f s (s.onHart fun h =>
      (h.setV d t (putElems h.v[d] (tagWidth t) (act.map fun e => (e, (f e).1)))).raise (raisedOf (act.map fun e => (e, f e)))) := by
  obtain ⟨h1, h2⟩ := foldl_or (act.map fun e => (e, f e)) .none
  refine ⟨rfl, by simp [Hart.tag, Hart.setV], fun r hr => ⟨?_, ?_⟩, fun e he => ?_, fun k => ?_, ?_⟩
  · simp only [State.onHart_hart, Hart.raise_v]
    exact Hart.v_setV_ne s.hart t _ hr
  · exact Hart.tag_setV_ne s.hart t (putElems s.hart.v[d] (tagWidth t) (act.map fun e => (e, (f e).1))) hr
  · simp only [State.onHart_hart, Hart.raise_v, Hart.v_setV_same]
    split
    · rename_i hm
      refine elemOf_putElems_in _ _ _ _ _ he ?_ (List.mem_map.2 ⟨e, hm, rfl⟩)
      simpa [List.map_map, Function.comp_def] using hn
    · rename_i hm
      refine elemOf_putElems_out _ _ _ _ he fun x hx => ?_
      obtain ⟨y, hy, rfl⟩ := List.mem_map.1 hx
      exact fun e' => hm (e' ▸ hy)
  · have h3 : Raised.none.bits = 0 := rfl
    simp only [State.onHart_hart, Hart.raise, raisedOf, Hart.setV, BitVec.getLsbD_or, h1 k, h3, List.any_map]
    simp [Function.comp_def]
  · simp only [State.onHart_hart, Hart.raise, raisedOf, Hart.setV, h2, List.any_map]
    simp [Function.comp_def, Raised.none]

/-- The element-wise skeleton. -/
theorem elementWise_writes (s : State) (d m : Reg) (t : Tag) (f : Hart → Nat → Nat × Raised) :
    ElementWise d m (fun _ => t) f s (s.onHart fun h => h.elementWise d m t (f h)) := by
  unfold ElementWise
  split
  · rename_i hr
    simp [State.onHart, Hart.elementWise, Hart.commit, hr]
  · rename_i hr
    have := writesV_put s d t (s.hart.active m) (f s.hart) (Hart.nodup_active _ _)
    simpa [State.onHart, Hart.elementWise, Hart.commit, hr, Function.comp_def] using this

/-- A judged vector instruction. -/
theorem judged_of {i : Instr} {ok : Hart → Bool} {most : Hart → Nat} {k : State → State → State} {post : State → State → Prop}
    (h : ∀ s, exec i s = s.vector (s.hart.judge (ok s.hart) false (most s.hart)) (k s)) (hp : ∀ s, post s (k s s)) :
    Judged i ok most post := by
  refine ⟨fun s hs ho => ?_, fun s hs ho hm => ?_, fun s hs ho hm hv => ?_, fun s ⟨hs, ho, hm, hv⟩ => ⟨_, ?_, hp s⟩⟩ <;> rw [h]
  · rw [show s.hart.judge (ok s.hart) false (most s.hart) = some .tag by simp [Hart.judge, ho]]
    exact State.vector_trap _ _ _ hs
  · rw [show s.hart.judge (ok s.hart) false (most s.hart) = some .vectorLength by simp [Hart.judge, ho, hm]]
    exact State.vector_trap _ _ _ hs
  · rw [show s.hart.judge (ok s.hart) false (most s.hart) = none by simp [Hart.judge, ho]; omega]
    exact State.vector_empty _ _ hs hv
  · rw [show s.hart.judge (ok s.hart) false (most s.hart) = none by simp [Hart.judge, ho]; omega]
    exact State.vector_next _ _ hs hv

/-- The two-operand skeleton. -/
theorem elementOp_of {i : Instr} {d a m : Reg} {o : Src2} {accepts : Tag → Bool} {f : Hart → Tag → Nat → Nat → Nat × Raised}
    (h : ∀ s, exec i s = s.vec2 d a o m accepts (f s.hart)) : ElementOp i d a o m accepts f := by
  refine judged_of (k := fun s u => u.onHart fun h => h.elementWise d m (s.hart.tag a) fun e =>
    f s.hart (s.hart.tag a) (h.elem a e) (h.src2 (s.hart.tag a) o e)) (fun s => ?_) fun s => ?_
  · rw [h]
    rfl
  · exact elementWise_writes s d m (s.hart.tag a) fun h e => f s.hart (s.hart.tag a) (h.elem a e) (h.src2 (s.hart.tag a) o e)

/-! ### Predicate results -/

/-- A write of predicate bits named once each. -/
theorem writesP_put (s : State) (p : Reg) (act : List Nat) (f : Nat → Bool) (hn : act.Nodup) :
    WritesP p act (fun e => (f e, .none)) s (s.onHart fun h => h.setP p (putBits (h.getP p) (act.map fun e => (e, f e)))) := by
  refine ⟨?_, fun r hr => Hart.getP_setP_ne _ _ hr, fun e he => ?_, fun k => by simp [Raised.none, Raised.bits], by simp [Raised.none]⟩
  · rw [State.onHart, Hart.setP_eq]
  · rw [State.onHart_hart, Hart.getP_setP_same]
    split
    · exact BitVec.getLsbD_allOnes.trans (by simp [he])
    · split
      · rename_i hm
        refine getLsbD_putBits_in _ _ _ _ he ?_ (List.mem_map.2 ⟨e, hm, rfl⟩)
        simpa [List.map_map, Function.comp_def] using hn
      · rename_i hm
        refine getLsbD_putBits_out _ _ _ he fun x hx => ?_
        obtain ⟨y, hy, rfl⟩ := List.mem_map.1 hx
        exact fun e' => hm (e' ▸ hy)

end Sys2Proof.Machine
end

