-- ==== Sys2Proof/Laws/PerInstr.lean ====
section
/-! SUPPORT. Per instruction: its word, where it has one, leaves bit 31, the C bit, to the convoy (R35, R165). -/

namespace Sys2Proof.Laws.EndsConvoy

/-- The word of `i` has bit 31 clear. -/
def Statement (i : Instr) : Prop := ∀ w, encode i = some w → w < 2 ^ 31

theorem size_code (x : Size) : x.code < 4 := by cases x <;> decide
theorem fmt_code (x : MemFmt) : x.code < 8 := by cases x <;> decide
theorem drain_code (x : DrainFmt) : x.code < 8 := by cases x <;> decide
theorem qfmt_code (x : QFmt) : x.code < 8 := by cases x <;> decide
theorem scope_code (x : Scope) : x.code < 8 := by cases x <;> decide
theorem tag_code (x : Tag) : x.code < 8 := by cases x <;> decide
theorem width_code (x : VWidth) : x.code < 4 := by cases x <;> decide
theorem csr_code (x : Csr) : x.code < 1024 := by cases x <;> first | decide | (simp only [Csr.code]; omega)

theorem add (d : Reg) (a : Reg) (b : Reg) : Statement (.add d a b) := by intro _ h; cases h; omega
theorem sub (d : Reg) (a : Reg) (b : Reg) : Statement (.sub d a b) := by intro _ h; cases h; omega
theorem and (d : Reg) (a : Reg) (b : Reg) : Statement (.and d a b) := by intro _ h; cases h; omega
theorem or (d : Reg) (a : Reg) (b : Reg) : Statement (.or d a b) := by intro _ h; cases h; omega
theorem xor (d : Reg) (a : Reg) (b : Reg) : Statement (.xor d a b) := by intro _ h; cases h; omega
theorem sll (d : Reg) (a : Reg) (b : Reg) : Statement (.sll d a b) := by intro _ h; cases h; omega
theorem srl (d : Reg) (a : Reg) (b : Reg) : Statement (.srl d a b) := by intro _ h; cases h; omega
theorem sra (d : Reg) (a : Reg) (b : Reg) : Statement (.sra d a b) := by intro _ h; cases h; omega
theorem slt (d : Reg) (a : Reg) (b : Reg) : Statement (.slt d a b) := by intro _ h; cases h; omega
theorem sltu (d : Reg) (a : Reg) (b : Reg) : Statement (.sltu d a b) := by intro _ h; cases h; omega
theorem min (d : Reg) (a : Reg) (b : Reg) : Statement (.min d a b) := by intro _ h; cases h; omega
theorem max (d : Reg) (a : Reg) (b : Reg) : Statement (.max d a b) := by intro _ h; cases h; omega
theorem minu (d : Reg) (a : Reg) (b : Reg) : Statement (.minu d a b) := by intro _ h; cases h; omega
theorem maxu (d : Reg) (a : Reg) (b : Reg) : Statement (.maxu d a b) := by intro _ h; cases h; omega
theorem addw (d : Reg) (a : Reg) (b : Reg) : Statement (.addw d a b) := by intro _ h; cases h; omega
theorem subw (d : Reg) (a : Reg) (b : Reg) : Statement (.subw d a b) := by intro _ h; cases h; omega
theorem mul (d : Reg) (a : Reg) (b : Reg) : Statement (.mul d a b) := by intro _ h; cases h; omega
theorem mulh (d : Reg) (a : Reg) (b : Reg) : Statement (.mulh d a b) := by intro _ h; cases h; omega
theorem mulhu (d : Reg) (a : Reg) (b : Reg) : Statement (.mulhu d a b) := by intro _ h; cases h; omega
theorem div (d : Reg) (a : Reg) (b : Reg) : Statement (.div d a b) := by intro _ h; cases h; omega
theorem divu (d : Reg) (a : Reg) (b : Reg) : Statement (.divu d a b) := by intro _ h; cases h; omega
theorem rem (d : Reg) (a : Reg) (b : Reg) : Statement (.rem d a b) := by intro _ h; cases h; omega
theorem remu (d : Reg) (a : Reg) (b : Reg) : Statement (.remu d a b) := by intro _ h; cases h; omega
theorem clz (d : Reg) (a : Reg) : Statement (.clz d a) := by intro _ h; cases h; omega
theorem ctz (d : Reg) (a : Reg) : Statement (.ctz d a) := by intro _ h; cases h; omega
theorem popc (d : Reg) (a : Reg) : Statement (.popc d a) := by intro _ h; cases h; omega
theorem sextb (d : Reg) (a : Reg) : Statement (.sextb d a) := by intro _ h; cases h; omega
theorem sexth (d : Reg) (a : Reg) : Statement (.sexth d a) := by intro _ h; cases h; omega
theorem sextw (d : Reg) (a : Reg) : Statement (.sextw d a) := by intro _ h; cases h; omega
theorem zextw (d : Reg) (a : Reg) : Statement (.zextw d a) := by intro _ h; cases h; omega
theorem bswap (d : Reg) (a : Reg) : Statement (.bswap d a) := by intro _ h; cases h; omega
theorem addi (d : Reg) (a : Reg) (i : BitVec 15) : Statement (.addi d a i) := by intro _ h; cases h; omega
theorem andi (d : Reg) (a : Reg) (i : BitVec 15) : Statement (.andi d a i) := by intro _ h; cases h; omega
theorem ori (d : Reg) (a : Reg) (i : BitVec 15) : Statement (.ori d a i) := by intro _ h; cases h; omega
theorem xori (d : Reg) (a : Reg) (i : BitVec 15) : Statement (.xori d a i) := by intro _ h; cases h; omega
theorem slti (d : Reg) (a : Reg) (i : BitVec 15) : Statement (.slti d a i) := by intro _ h; cases h; omega
theorem sltiu (d : Reg) (a : Reg) (i : BitVec 15) : Statement (.sltiu d a i) := by intro _ h; cases h; omega
theorem slli (d : Reg) (a : Reg) (s : Fin 64) : Statement (.slli d a s) := by intro _ h; cases h; omega
theorem srli (d : Reg) (a : Reg) (s : Fin 64) : Statement (.srli d a s) := by intro _ h; cases h; omega
theorem srai (d : Reg) (a : Reg) (s : Fin 64) : Statement (.srai d a s) := by intro _ h; cases h; omega
theorem li (d : Reg) (i : BitVec 20) : Statement (.li d i) := by intro _ h; cases h; omega
theorem lis (d : Reg) (i : BitVec 20) : Statement (.lis d i) := by intro _ h; cases h; omega
theorem addpc (d : Reg) (i : BitVec 20) : Statement (.addpc d i) := by intro _ h; cases h; omega
theorem ld (d : Reg) (a : Reg) (cls : Fin 16) (sz : Size) (o : BitVec 8) : Statement (.ld d a cls sz o) := by intro _ h; cases h; have := size_code sz; omega
theorem ldu (d : Reg) (a : Reg) (cls : Fin 16) (sz : Size) (o : BitVec 8) : Statement (.ldu d a cls sz o) := by intro _ h; cases h; have := size_code sz; omega
theorem st (s : Reg) (a : Reg) (cls : Fin 16) (sz : Size) (o : BitVec 8) : Statement (.st s a cls sz o) := by intro _ h; cases h; have := size_code sz; omega
theorem beq (a : Reg) (b : Reg) (o : BitVec 12) : Statement (.beq a b o) := by intro _ h; cases h; omega
theorem bne (a : Reg) (b : Reg) (o : BitVec 12) : Statement (.bne a b o) := by intro _ h; cases h; omega
theorem blt (a : Reg) (b : Reg) (o : BitVec 12) : Statement (.blt a b o) := by intro _ h; cases h; omega
theorem bge (a : Reg) (b : Reg) (o : BitVec 12) : Statement (.bge a b o) := by intro _ h; cases h; omega
theorem bltu (a : Reg) (b : Reg) (o : BitVec 12) : Statement (.bltu a b o) := by intro _ h; cases h; omega
theorem bgeu (a : Reg) (b : Reg) (o : BitVec 12) : Statement (.bgeu a b o) := by intro _ h; cases h; omega
theorem jal (d : Reg) (o : BitVec 20) : Statement (.jal d o) := by intro _ h; cases h; omega
theorem jalr (d : Reg) (a : Reg) (i : BitVec 15) : Statement (.jalr d a i) := by intro _ h; cases h; omega
theorem strip (n : Reg) (mask : BitVec 8) (o : BitVec 12) : Statement (.strip n mask o) := by intro _ h; cases h; omega
theorem loop (n : Reg) (off : Fin 524288) : Statement (.loop n off) := by intro _ h; cases h; omega
theorem loopi (n : Reg) (off : Fin 524288) : Statement (.loopi n off) := by intro _ h; cases h; omega
theorem joinW : Statement (.joinW) := by intro _ h; cases h; omega
theorem joinN : Statement (.joinN) := by intro _ h; cases h; omega
theorem detach : Statement (.detach) := by intro _ h; cases h; omega
theorem exit : Statement (.exit) := by intro _ h; cases h; omega
theorem yield : Statement (.yield) := by intro _ h; cases h; omega
theorem fork (a : Reg) (b : Reg) : Statement (.fork a b) := by intro _ h; cases h; omega
theorem rendezvous (id : Fin 16) : Statement (.rendezvous id) := by intro _ h; cases h; omega
theorem fence (mask : BitVec 16) (sc : Scope) : Statement (.fence mask sc) := by intro _ h; cases h; have := scope_code sc; omega
theorem barArrive (d : Reg) (b : Reg) (id : Fin 36) (sc : Scope) : Statement (.barArrive d b id sc) := by intro _ h; cases h; have := scope_code sc; omega
theorem barWait (d : Reg) (a : Reg) (id : Fin 36) : Statement (.barWait d a id) := by intro _ h; cases h; omega
theorem barInit (a : Reg) (id : Fin 36) : Statement (.barInit a id) := by intro _ h; cases h; omega
theorem uiret : Statement (.uiret) := by intro _ h; cases h; omega
theorem uimask (d : Reg) (a : Reg) : Statement (.uimask d a) := by intro _ h; cases h; omega
theorem csrr (d : Reg) (csr : Csr) : Statement (.csrr d csr) := by intro _ h; cases h; have := csr_code csr; omega
theorem csrw (d : Reg) (a : Reg) (csr : Csr) : Statement (.csrw d a csr) := by intro _ h; cases h; have := csr_code csr; omega
theorem csrs (d : Reg) (a : Reg) (csr : Csr) : Statement (.csrs d a csr) := by intro _ h; cases h; have := csr_code csr; omega
theorem csrc (d : Reg) (a : Reg) (csr : Csr) : Statement (.csrc d a csr) := by intro _ h; cases h; have := csr_code csr; omega
theorem setvl (d : Reg) (a : Reg) (w : VWidth) : Statement (.setvl d a w) := by intro _ h; cases h; have := width_code w; omega
theorem vtag (v : Reg) (n : Reg) (t : Tag) : Statement (.vtag v n t) := by intro _ h; cases h; have := tag_code t; omega
theorem svset (a : Reg) (k : Fin 32) : Statement (.svset a k) := by intro _ h; cases h; omega
theorem svget (d : Reg) (k : Fin 32) : Statement (.svget d k) := by intro _ h; cases h; omega
theorem launch (d : Reg) (a : Reg) : Statement (.launch d a) := by intro _ h; cases h; omega
theorem syscall : Statement (.syscall) := by intro _ h; cases h; omega
theorem eret : Statement (.eret) := by intro _ h; cases h; omega
theorem invas (a : Reg) (b : Reg) (allAddr : Bool) (allAsid : Bool) : Statement (.invas a b allAddr allAsid) := by intro _ h; cases h; have := allAddr.toNat_lt; have := allAsid.toNat_lt; omega
theorem bankcfg (d : Reg) (a : Reg) (b : Reg) : Statement (.bankcfg d a b) := by intro _ h; cases h; omega
theorem brk : Statement (.brk) := by intro _ h; cases h; omega
theorem ldv (d : Reg) (a : Reg) (b : Reg) (cls : Fin 16) : Statement (.ldv d a b cls) := by intro _ h; cases h; omega
theorem vrqry (d : Reg) (a : Reg) (w : Fin 5) : Statement (.vrqry d a w) := by intro _ h; cases h; omega
theorem vpub (v : Reg) (a : Reg) (b : Reg) (cls : Fin 16) : Statement (.vpub v a b cls) := by intro _ h; cases h; omega
theorem vretire (a : Reg) (b : Reg) (slot : Fin 16) : Statement (.vretire a b slot) := by intro _ h; cases h; omega
theorem vrdecl (d : Reg) (a : Reg) : Statement (.vrdecl d a) := by intro _ h; cases h; omega
theorem vrfree (d : Reg) (a : Reg) : Statement (.vrfree d a) := by intro _ h; cases h; omega
theorem job (d : Reg) (a : Reg) : Statement (.job d a) := by intro _ h; cases h; omega
theorem stream (n : Fin 8) (b : Reg) (sz : Size) : Statement (.stream n b sz) := by intro _ h; cases h; have := size_code sz; omega
theorem streamoff (n : Fin 8) : Statement (.streamoff n) := by intro _ h; cases h; omega
theorem sxopen (d : Reg) (a : Reg) (sid : Fin 16) : Statement (.sxopen d a sid) := by intro _ h; cases h; omega
theorem sxsplit (d : Reg) (a : Reg) (sid : Fin 16) : Statement (.sxsplit d a sid) := by intro _ h; cases h; omega
theorem sxround (d : Reg) (sid : Fin 16) : Statement (.sxround d sid) := by intro _ h; cases h; omega
theorem sxresplit (d : Reg) (sid : Fin 16) : Statement (.sxresplit d sid) := by intro _ h; cases h; omega
theorem sxclose (d : Reg) (sid : Fin 16) : Statement (.sxclose d sid) := by intro _ h; cases h; omega
theorem sxcloseAbort (d : Reg) (sid : Fin 16) : Statement (.sxcloseAbort d sid) := by intro _ h; cases h; omega
theorem sxsend (k : Reg) (p : Reg) (sid : Fin 16) (m : Reg) : Statement (.sxsend k p sid m) := by intro _ h; cases h; omega
theorem sxsendNew (k : Reg) (p : Reg) (sid : Fin 16) (m : Reg) : Statement (.sxsendNew k p sid m) := by intro _ h; cases h; omega
theorem sxrecv (k : Reg) (p : Reg) (sid : Fin 16) (f : Reg) : Statement (.sxrecv k p sid f) := by intro _ h; cases h; omega
theorem sxstat (d : Reg) (sid : Fin 16) : Statement (.sxstat d sid) := by intro _ h; cases h; omega
theorem amoadd (d : Reg) (a : Reg) (b : Reg) (cls : Fin 16) : Statement (.amoadd d a b cls) := by intro _ h; cases h; omega
theorem amomin (d : Reg) (a : Reg) (b : Reg) (cls : Fin 16) : Statement (.amomin d a b cls) := by intro _ h; cases h; omega
theorem amomax (d : Reg) (a : Reg) (b : Reg) (cls : Fin 16) : Statement (.amomax d a b cls) := by intro _ h; cases h; omega
theorem amominu (d : Reg) (a : Reg) (b : Reg) (cls : Fin 16) : Statement (.amominu d a b cls) := by intro _ h; cases h; omega
theorem amomaxu (d : Reg) (a : Reg) (b : Reg) (cls : Fin 16) : Statement (.amomaxu d a b cls) := by intro _ h; cases h; omega
theorem amoand (d : Reg) (a : Reg) (b : Reg) (cls : Fin 16) : Statement (.amoand d a b cls) := by intro _ h; cases h; omega
theorem amoor (d : Reg) (a : Reg) (b : Reg) (cls : Fin 16) : Statement (.amoor d a b cls) := by intro _ h; cases h; omega
theorem amoxor (d : Reg) (a : Reg) (b : Reg) (cls : Fin 16) : Statement (.amoxor d a b cls) := by intro _ h; cases h; omega
theorem amoswap (d : Reg) (a : Reg) (b : Reg) (cls : Fin 16) : Statement (.amoswap d a b cls) := by intro _ h; cases h; omega
theorem amocas (d : Reg) (a : Reg) (b : Reg) (cls : Fin 16) : Statement (.amocas d a b cls) := by intro _ h; cases h; omega
theorem amoaddW (d : Reg) (a : Reg) (b : Reg) (cls : Fin 16) : Statement (.amoaddW d a b cls) := by intro _ h; cases h; omega
theorem amominW (d : Reg) (a : Reg) (b : Reg) (cls : Fin 16) : Statement (.amominW d a b cls) := by intro _ h; cases h; omega
theorem amomaxW (d : Reg) (a : Reg) (b : Reg) (cls : Fin 16) : Statement (.amomaxW d a b cls) := by intro _ h; cases h; omega
theorem amominuW (d : Reg) (a : Reg) (b : Reg) (cls : Fin 16) : Statement (.amominuW d a b cls) := by intro _ h; cases h; omega
theorem amomaxuW (d : Reg) (a : Reg) (b : Reg) (cls : Fin 16) : Statement (.amomaxuW d a b cls) := by intro _ h; cases h; omega
theorem amoandW (d : Reg) (a : Reg) (b : Reg) (cls : Fin 16) : Statement (.amoandW d a b cls) := by intro _ h; cases h; omega
theorem amoorW (d : Reg) (a : Reg) (b : Reg) (cls : Fin 16) : Statement (.amoorW d a b cls) := by intro _ h; cases h; omega
theorem amoxorW (d : Reg) (a : Reg) (b : Reg) (cls : Fin 16) : Statement (.amoxorW d a b cls) := by intro _ h; cases h; omega
theorem amoswapW (d : Reg) (a : Reg) (b : Reg) (cls : Fin 16) : Statement (.amoswapW d a b cls) := by intro _ h; cases h; omega
theorem amocasW (d : Reg) (a : Reg) (b : Reg) (cls : Fin 16) : Statement (.amocasW d a b cls) := by intro _ h; cases h; omega
theorem topkins (a : Reg) (b : Reg) (cls : Fin 16) : Statement (.topkins a b cls) := by intro _ h; cases h; omega
theorem waitc (l : Fin 16) (s : Fin 16) (p : Fin 16) (t : Fin 16) : Statement (.waitc l s p t) := by intro _ h; cases h; omega
theorem vadd (d : Reg) (a : Reg) (b : Reg) (m : Reg) : Statement (.vadd d a b m) := by intro _ h; cases h; omega
theorem vsub (d : Reg) (a : Reg) (b : Reg) (m : Reg) : Statement (.vsub d a b m) := by intro _ h; cases h; omega
theorem vmul (d : Reg) (a : Reg) (b : Reg) (m : Reg) : Statement (.vmul d a b m) := by intro _ h; cases h; omega
theorem vmin (d : Reg) (a : Reg) (b : Reg) (m : Reg) : Statement (.vmin d a b m) := by intro _ h; cases h; omega
theorem vmax (d : Reg) (a : Reg) (b : Reg) (m : Reg) : Statement (.vmax d a b m) := by intro _ h; cases h; omega
theorem vabs (d : Reg) (a : Reg) (m : Reg) : Statement (.vabs d a m) := by intro _ h; cases h; omega
theorem vneg (d : Reg) (a : Reg) (m : Reg) : Statement (.vneg d a m) := by intro _ h; cases h; omega
theorem vmerge (d : Reg) (a : Reg) (b : Reg) (m : Reg) : Statement (.vmerge d a b m) := by intro _ h; cases h; omega
theorem vmv (d : Reg) (a : Reg) (m : Reg) : Statement (.vmv d a m) := by intro _ h; cases h; omega
theorem vbcast (d : Reg) (a : Reg) (m : Reg) : Statement (.vbcast d a m) := by intro _ h; cases h; omega
theorem vaddVx (d : Reg) (a : Reg) (x : Reg) (m : Reg) : Statement (.vaddVx d a x m) := by intro _ h; cases h; omega
theorem vsubVx (d : Reg) (a : Reg) (x : Reg) (m : Reg) : Statement (.vsubVx d a x m) := by intro _ h; cases h; omega
theorem vmulVx (d : Reg) (a : Reg) (x : Reg) (m : Reg) : Statement (.vmulVx d a x m) := by intro _ h; cases h; omega
theorem vminVx (d : Reg) (a : Reg) (x : Reg) (m : Reg) : Statement (.vminVx d a x m) := by intro _ h; cases h; omega
theorem vmaxVx (d : Reg) (a : Reg) (x : Reg) (m : Reg) : Statement (.vmaxVx d a x m) := by intro _ h; cases h; omega
theorem vmergeVx (d : Reg) (a : Reg) (x : Reg) (m : Reg) : Statement (.vmergeVx d a x m) := by intro _ h; cases h; omega
theorem vbcastVx (d : Reg) (x : Reg) (m : Reg) : Statement (.vbcastVx d x m) := by intro _ h; cases h; omega
theorem vand (d : Reg) (a : Reg) (b : Reg) (m : Reg) : Statement (.vand d a b m) := by intro _ h; cases h; omega
theorem vor (d : Reg) (a : Reg) (b : Reg) (m : Reg) : Statement (.vor d a b m) := by intro _ h; cases h; omega
theorem vxor (d : Reg) (a : Reg) (b : Reg) (m : Reg) : Statement (.vxor d a b m) := by intro _ h; cases h; omega
theorem vsll (d : Reg) (a : Reg) (b : Reg) (m : Reg) : Statement (.vsll d a b m) := by intro _ h; cases h; omega
theorem vsrl (d : Reg) (a : Reg) (b : Reg) (m : Reg) : Statement (.vsrl d a b m) := by intro _ h; cases h; omega
theorem vsra (d : Reg) (a : Reg) (b : Reg) (m : Reg) : Statement (.vsra d a b m) := by intro _ h; cases h; omega
theorem vminu (d : Reg) (a : Reg) (b : Reg) (m : Reg) : Statement (.vminu d a b m) := by intro _ h; cases h; omega
theorem vmaxu (d : Reg) (a : Reg) (b : Reg) (m : Reg) : Statement (.vmaxu d a b m) := by intro _ h; cases h; omega
theorem vmulh (d : Reg) (a : Reg) (b : Reg) (m : Reg) : Statement (.vmulh d a b m) := by intro _ h; cases h; omega
theorem vmulhu (d : Reg) (a : Reg) (b : Reg) (m : Reg) : Statement (.vmulhu d a b m) := by intro _ h; cases h; omega
theorem vadc (d : Reg) (a : Reg) (b : Reg) (p : Reg) : Statement (.vadc d a b p) := by intro _ h; cases h; omega
theorem vsbc (d : Reg) (a : Reg) (b : Reg) (p : Reg) : Statement (.vsbc d a b p) := by intro _ h; cases h; omega
theorem vadds (d : Reg) (a : Reg) (b : Reg) (m : Reg) : Statement (.vadds d a b m) := by intro _ h; cases h; omega
theorem vsubs (d : Reg) (a : Reg) (b : Reg) (m : Reg) : Statement (.vsubs d a b m) := by intro _ h; cases h; omega
theorem vaddsu (d : Reg) (a : Reg) (b : Reg) (m : Reg) : Statement (.vaddsu d a b m) := by intro _ h; cases h; omega
theorem vsubsu (d : Reg) (a : Reg) (b : Reg) (m : Reg) : Statement (.vsubsu d a b m) := by intro _ h; cases h; omega
theorem vsrar (d : Reg) (a : Reg) (b : Reg) (m : Reg) : Statement (.vsrar d a b m) := by intro _ h; cases h; omega
theorem vsrlr (d : Reg) (a : Reg) (b : Reg) (m : Reg) : Statement (.vsrlr d a b m) := by intro _ h; cases h; omega
theorem vdot2 (d : Reg) (a : Reg) (b : Reg) (m : Reg) : Statement (.vdot2 d a b m) := by intro _ h; cases h; omega
theorem vabsd (d : Reg) (a : Reg) (b : Reg) (m : Reg) : Statement (.vabsd d a b m) := by intro _ h; cases h; omega
theorem vclz (d : Reg) (a : Reg) (m : Reg) : Statement (.vclz d a m) := by intro _ h; cases h; omega
theorem vpopc (d : Reg) (a : Reg) (m : Reg) : Statement (.vpopc d a m) := by intro _ h; cases h; omega
theorem vandVx (d : Reg) (a : Reg) (x : Reg) (m : Reg) : Statement (.vandVx d a x m) := by intro _ h; cases h; omega
theorem vorVx (d : Reg) (a : Reg) (x : Reg) (m : Reg) : Statement (.vorVx d a x m) := by intro _ h; cases h; omega
theorem vxorVx (d : Reg) (a : Reg) (x : Reg) (m : Reg) : Statement (.vxorVx d a x m) := by intro _ h; cases h; omega
theorem vsllVx (d : Reg) (a : Reg) (x : Reg) (m : Reg) : Statement (.vsllVx d a x m) := by intro _ h; cases h; omega
theorem vsrlVx (d : Reg) (a : Reg) (x : Reg) (m : Reg) : Statement (.vsrlVx d a x m) := by intro _ h; cases h; omega
theorem vsraVx (d : Reg) (a : Reg) (x : Reg) (m : Reg) : Statement (.vsraVx d a x m) := by intro _ h; cases h; omega
theorem vminuVx (d : Reg) (a : Reg) (x : Reg) (m : Reg) : Statement (.vminuVx d a x m) := by intro _ h; cases h; omega
theorem vmaxuVx (d : Reg) (a : Reg) (x : Reg) (m : Reg) : Statement (.vmaxuVx d a x m) := by intro _ h; cases h; omega
theorem vmulhVx (d : Reg) (a : Reg) (x : Reg) (m : Reg) : Statement (.vmulhVx d a x m) := by intro _ h; cases h; omega
theorem vmulhuVx (d : Reg) (a : Reg) (x : Reg) (m : Reg) : Statement (.vmulhuVx d a x m) := by intro _ h; cases h; omega
theorem vaddsVx (d : Reg) (a : Reg) (x : Reg) (m : Reg) : Statement (.vaddsVx d a x m) := by intro _ h; cases h; omega
theorem vsubsVx (d : Reg) (a : Reg) (x : Reg) (m : Reg) : Statement (.vsubsVx d a x m) := by intro _ h; cases h; omega
theorem vaddsuVx (d : Reg) (a : Reg) (x : Reg) (m : Reg) : Statement (.vaddsuVx d a x m) := by intro _ h; cases h; omega
theorem vsubsuVx (d : Reg) (a : Reg) (x : Reg) (m : Reg) : Statement (.vsubsuVx d a x m) := by intro _ h; cases h; omega
theorem vsrarVx (d : Reg) (a : Reg) (x : Reg) (m : Reg) : Statement (.vsrarVx d a x m) := by intro _ h; cases h; omega
theorem vsrlrVx (d : Reg) (a : Reg) (x : Reg) (m : Reg) : Statement (.vsrlrVx d a x m) := by intro _ h; cases h; omega
theorem vabsdVx (d : Reg) (a : Reg) (x : Reg) (m : Reg) : Statement (.vabsdVx d a x m) := by intro _ h; cases h; omega
theorem vandVi (d : Reg) (a : Reg) (i : BitVec 5) (m : Reg) : Statement (.vandVi d a i m) := by intro _ h; cases h; omega
theorem vorVi (d : Reg) (a : Reg) (i : BitVec 5) (m : Reg) : Statement (.vorVi d a i m) := by intro _ h; cases h; omega
theorem vxorVi (d : Reg) (a : Reg) (i : BitVec 5) (m : Reg) : Statement (.vxorVi d a i m) := by intro _ h; cases h; omega
theorem vsllVi (d : Reg) (a : Reg) (i : BitVec 5) (m : Reg) : Statement (.vsllVi d a i m) := by intro _ h; cases h; omega
theorem vsrlVi (d : Reg) (a : Reg) (i : BitVec 5) (m : Reg) : Statement (.vsrlVi d a i m) := by intro _ h; cases h; omega
theorem vsraVi (d : Reg) (a : Reg) (i : BitVec 5) (m : Reg) : Statement (.vsraVi d a i m) := by intro _ h; cases h; omega
theorem vminuVi (d : Reg) (a : Reg) (i : BitVec 5) (m : Reg) : Statement (.vminuVi d a i m) := by intro _ h; cases h; omega
theorem vmaxuVi (d : Reg) (a : Reg) (i : BitVec 5) (m : Reg) : Statement (.vmaxuVi d a i m) := by intro _ h; cases h; omega
theorem vaddsVi (d : Reg) (a : Reg) (i : BitVec 5) (m : Reg) : Statement (.vaddsVi d a i m) := by intro _ h; cases h; omega
theorem vsubsVi (d : Reg) (a : Reg) (i : BitVec 5) (m : Reg) : Statement (.vsubsVi d a i m) := by intro _ h; cases h; omega
theorem vaddsuVi (d : Reg) (a : Reg) (i : BitVec 5) (m : Reg) : Statement (.vaddsuVi d a i m) := by intro _ h; cases h; omega
theorem vsubsuVi (d : Reg) (a : Reg) (i : BitVec 5) (m : Reg) : Statement (.vsubsuVi d a i m) := by intro _ h; cases h; omega
theorem vsrarVi (d : Reg) (a : Reg) (i : BitVec 5) (m : Reg) : Statement (.vsrarVi d a i m) := by intro _ h; cases h; omega
theorem vsrlrVi (d : Reg) (a : Reg) (i : BitVec 5) (m : Reg) : Statement (.vsrlrVi d a i m) := by intro _ h; cases h; omega
theorem vfma (d : Reg) (a : Reg) (b : Reg) (m : Reg) : Statement (.vfma d a b m) := by intro _ h; cases h; omega
theorem vfms (d : Reg) (a : Reg) (b : Reg) (m : Reg) : Statement (.vfms d a b m) := by intro _ h; cases h; omega
theorem vfnma (d : Reg) (a : Reg) (b : Reg) (m : Reg) : Statement (.vfnma d a b m) := by intro _ h; cases h; omega
theorem vdiv (d : Reg) (a : Reg) (b : Reg) (m : Reg) : Statement (.vdiv d a b m) := by intro _ h; cases h; omega
theorem vsqrt (d : Reg) (a : Reg) (m : Reg) : Statement (.vsqrt d a m) := by intro _ h; cases h; omega
theorem vrcp (d : Reg) (a : Reg) (m : Reg) : Statement (.vrcp d a m) := by intro _ h; cases h; omega
theorem vrsq (d : Reg) (a : Reg) (m : Reg) : Statement (.vrsq d a m) := by intro _ h; cases h; omega
theorem vexp2 (d : Reg) (a : Reg) (m : Reg) : Statement (.vexp2 d a m) := by intro _ h; cases h; omega
theorem vlog2 (d : Reg) (a : Reg) (m : Reg) : Statement (.vlog2 d a m) := by intro _ h; cases h; omega
theorem vtanh (d : Reg) (a : Reg) (m : Reg) : Statement (.vtanh d a m) := by intro _ h; cases h; omega
theorem vclass (d : Reg) (a : Reg) (m : Reg) : Statement (.vclass d a m) := by intro _ h; cases h; omega
theorem vfmaVx (d : Reg) (a : Reg) (x : Reg) (m : Reg) : Statement (.vfmaVx d a x m) := by intro _ h; cases h; omega
theorem vfmsVx (d : Reg) (a : Reg) (x : Reg) (m : Reg) : Statement (.vfmsVx d a x m) := by intro _ h; cases h; omega
theorem vfnmaVx (d : Reg) (a : Reg) (x : Reg) (m : Reg) : Statement (.vfnmaVx d a x m) := by intro _ h; cases h; omega
theorem vdivVx (d : Reg) (a : Reg) (x : Reg) (m : Reg) : Statement (.vdivVx d a x m) := by intro _ h; cases h; omega
theorem vcmpeq (p : Reg) (a : Reg) (b : Reg) (m : Reg) : Statement (.vcmpeq p a b m) := by intro _ h; cases h; omega
theorem vcmpne (p : Reg) (a : Reg) (b : Reg) (m : Reg) : Statement (.vcmpne p a b m) := by intro _ h; cases h; omega
theorem vcmplt (p : Reg) (a : Reg) (b : Reg) (m : Reg) : Statement (.vcmplt p a b m) := by intro _ h; cases h; omega
theorem vcmple (p : Reg) (a : Reg) (b : Reg) (m : Reg) : Statement (.vcmple p a b m) := by intro _ h; cases h; omega
theorem vcmpltu (p : Reg) (a : Reg) (b : Reg) (m : Reg) : Statement (.vcmpltu p a b m) := by intro _ h; cases h; omega
theorem vcmpleu (p : Reg) (a : Reg) (b : Reg) (m : Reg) : Statement (.vcmpleu p a b m) := by intro _ h; cases h; omega
theorem vcmpun (p : Reg) (a : Reg) (b : Reg) (m : Reg) : Statement (.vcmpun p a b m) := by intro _ h; cases h; omega
theorem vcmpeqVx (p : Reg) (a : Reg) (x : Reg) (m : Reg) : Statement (.vcmpeqVx p a x m) := by intro _ h; cases h; omega
theorem vcmpneVx (p : Reg) (a : Reg) (x : Reg) (m : Reg) : Statement (.vcmpneVx p a x m) := by intro _ h; cases h; omega
theorem vcmpltVx (p : Reg) (a : Reg) (x : Reg) (m : Reg) : Statement (.vcmpltVx p a x m) := by intro _ h; cases h; omega
theorem vcmpleVx (p : Reg) (a : Reg) (x : Reg) (m : Reg) : Statement (.vcmpleVx p a x m) := by intro _ h; cases h; omega
theorem vcmpltuVx (p : Reg) (a : Reg) (x : Reg) (m : Reg) : Statement (.vcmpltuVx p a x m) := by intro _ h; cases h; omega
theorem vcmpleuVx (p : Reg) (a : Reg) (x : Reg) (m : Reg) : Statement (.vcmpleuVx p a x m) := by intro _ h; cases h; omega
theorem vcmpunVx (p : Reg) (a : Reg) (x : Reg) (m : Reg) : Statement (.vcmpunVx p a x m) := by intro _ h; cases h; omega
theorem pand (d : Reg) (a : Reg) (b : Reg) : Statement (.pand d a b) := by intro _ h; cases h; omega
theorem por (d : Reg) (a : Reg) (b : Reg) : Statement (.por d a b) := by intro _ h; cases h; omega
theorem pxor (d : Reg) (a : Reg) (b : Reg) : Statement (.pxor d a b) := by intro _ h; cases h; omega
theorem pandn (d : Reg) (a : Reg) (b : Reg) : Statement (.pandn d a b) := by intro _ h; cases h; omega
theorem pnot (d : Reg) (a : Reg) : Statement (.pnot d a) := by intro _ h; cases h; omega
theorem pshl (d : Reg) (a : Reg) (x : Reg) : Statement (.pshl d a x) := by intro _ h; cases h; omega
theorem pshr (d : Reg) (a : Reg) (x : Reg) : Statement (.pshr d a x) := by intro _ h; cases h; omega
theorem pmv (d : Reg) (a : Reg) : Statement (.pmv d a) := by intro _ h; cases h; omega
theorem pset (d : Reg) (t : Fin 4) : Statement (.pset d t) := by intro _ h; cases h; omega
theorem pcnt (d : Reg) (a : Reg) : Statement (.pcnt d a) := by intro _ h; cases h; omega
theorem pfirst (d : Reg) (a : Reg) : Statement (.pfirst d a) := by intro _ h; cases h; omega
theorem plast (d : Reg) (a : Reg) : Statement (.plast d a) := by intro _ h; cases h; omega
theorem pmovx (d : Reg) (a : Reg) (j : Fin 8) : Statement (.pmovx d a j) := by intro _ h; cases h; omega
theorem pfromx (d : Reg) (a : Reg) (j : Fin 8) : Statement (.pfromx d a j) := by intro _ h; cases h; omega
theorem vslide1up (d : Reg) (a : Reg) (x : Reg) (m : Reg) : Statement (.vslide1up d a x m) := by intro _ h; cases h; omega
theorem vslide1dn (d : Reg) (a : Reg) (x : Reg) (m : Reg) : Statement (.vslide1dn d a x m) := by intro _ h; cases h; omega
theorem vslideup (d : Reg) (a : Reg) (x : Reg) (m : Reg) : Statement (.vslideup d a x m) := by intro _ h; cases h; omega
theorem vslidedn (d : Reg) (a : Reg) (x : Reg) (m : Reg) : Statement (.vslidedn d a x m) := by intro _ h; cases h; omega
theorem vgather (d : Reg) (a : Reg) (b : Reg) (m : Reg) : Statement (.vgather d a b m) := by intro _ h; cases h; omega
theorem vcompress (d : Reg) (a : Reg) (m : Reg) : Statement (.vcompress d a m) := by intro _ h; cases h; omega
theorem vexpand (d : Reg) (a : Reg) (m : Reg) : Statement (.vexpand d a m) := by intro _ h; cases h; omega
theorem vrev (d : Reg) (a : Reg) (m : Reg) : Statement (.vrev d a m) := by intro _ h; cases h; omega
theorem vhad (d : Reg) (a : Reg) (k : Fin 9) (m : Reg) : Statement (.vhad d a k m) := by intro _ h; cases h; omega
theorem vzip (d : Reg) (a : Reg) (b : Reg) (m : Reg) : Statement (.vzip d a b m) := by intro _ h; cases h; omega
theorem vunzip (d : Reg) (a : Reg) (b : Reg) (m : Reg) : Statement (.vunzip d a b m) := by intro _ h; cases h; omega
theorem vredsum (d : Reg) (a : Reg) (b : Reg) (m : Reg) : Statement (.vredsum d a b m) := by intro _ h; cases h; omega
theorem vredsumu (d : Reg) (a : Reg) (b : Reg) (m : Reg) : Statement (.vredsumu d a b m) := by intro _ h; cases h; omega
theorem vredmax (d : Reg) (a : Reg) (b : Reg) (m : Reg) : Statement (.vredmax d a b m) := by intro _ h; cases h; omega
theorem vredmin (d : Reg) (a : Reg) (b : Reg) (m : Reg) : Statement (.vredmin d a b m) := by intro _ h; cases h; omega
theorem vscan (d : Reg) (a : Reg) (b : Reg) (m : Reg) : Statement (.vscan d a b m) := by intro _ h; cases h; omega
theorem vscanf (d : Reg) (a : Reg) (b : Reg) (m : Reg) : Statement (.vscanf d a b m) := by intro _ h; cases h; omega
theorem vcvt (d : Reg) (a : Reg) (q : Fin 4) (t : Tag) (m : Reg) : Statement (.vcvt d a q t m) := by intro _ h; cases h; have := tag_code t; omega
theorem vcvts (d : Reg) (a : Reg) (q : Fin 2) (m : Reg) : Statement (.vcvts d a q m) := by intro _ h; cases h; omega
theorem vrand (d : Reg) (m : Reg) : Statement (.vrand d m) := by intro _ h; cases h; omega
theorem vqscale (d : Reg) (a : Reg) (f : QFmt) (m : Reg) : Statement (.vqscale d a f m) := by intro _ h; cases h; have := qfmt_code f; omega
theorem viota (d : Reg) (m : Reg) : Statement (.viota d m) := by intro _ h; cases h; omega
theorem vmvxs (d : Reg) (a : Reg) (i : Reg) (m : Reg) : Statement (.vmvxs d a i m) := by intro _ h; cases h; omega
theorem vmvsx (d : Reg) (x : Reg) (m : Reg) : Statement (.vmvsx d x m) := by intro _ h; cases h; omega
theorem vsort (d : Reg) (a : Reg) (m : Reg) : Statement (.vsort d a m) := by intro _ h; cases h; omega
theorem vsortd (d : Reg) (a : Reg) (m : Reg) : Statement (.vsortd d a m) := by intro _ h; cases h; omega
theorem vmergek (d : Reg) (a : Reg) (b : Reg) : Statement (.vmergek d a b) := by intro _ h; cases h; omega
theorem vseghead (p : Reg) (a : Reg) (m : Reg) : Statement (.vseghead p a m) := by intro _ h; cases h; omega
theorem vtopk (d : Reg) (a : Reg) (x : Reg) (m : Reg) : Statement (.vtopk d a x m) := by intro _ h; cases h; omega
theorem vaccrd (d : Reg) (x : Reg) (m : Reg) : Statement (.vaccrd d x m) := by intro _ h; cases h; omega
theorem vaccwr (s : Reg) (x : Reg) (m : Reg) : Statement (.vaccwr s x m) := by intro _ h; cases h; omega
theorem vld (d : Reg) (n : Fin 8) (cls : Fin 16) (f : MemFmt) (m : Reg) : Statement (.vld d n cls f m) := by intro _ h; cases h; have := fmt_code f; omega
theorem vlds (d : Reg) (n : Fin 8) (s : Reg) (cls : Fin 16) (f : MemFmt) (m : Reg) : Statement (.vlds d n s cls f m) := by intro _ h; cases h; have := fmt_code f; omega
theorem vldx (d : Reg) (n : Fin 8) (i : Reg) (cls : Fin 16) (f : MemFmt) (m : Reg) : Statement (.vldx d n i cls f m) := by intro _ h; cases h; have := fmt_code f; omega
theorem vldseg (d : Reg) (n : Fin 8) (e : Reg) (cls : Fin 16) (f : MemFmt) (m : Reg) : Statement (.vldseg d n e cls f m) := by intro _ h; cases h; have := fmt_code f; omega
theorem vldb (d : Reg) (n : Fin 8) (i : Reg) (cls : Fin 16) (f : MemFmt) (p : Reg) : Statement (.vldb d n i cls f p) := by intro _ h; cases h; have := fmt_code f; omega
theorem vst (s : Reg) (n : Fin 8) (cls : Fin 16) (f : MemFmt) (m : Reg) : Statement (.vst s n cls f m) := by intro _ h; cases h; have := fmt_code f; omega
theorem vsts (s : Reg) (n : Fin 8) (x : Reg) (cls : Fin 16) (f : MemFmt) (m : Reg) : Statement (.vsts s n x cls f m) := by intro _ h; cases h; have := fmt_code f; omega
theorem vstx (s : Reg) (n : Fin 8) (i : Reg) (cls : Fin 16) (f : MemFmt) (m : Reg) : Statement (.vstx s n i cls f m) := by intro _ h; cases h; have := fmt_code f; omega
theorem vstxu (s : Reg) (n : Fin 8) (i : Reg) (cls : Fin 16) (f : MemFmt) (m : Reg) : Statement (.vstxu s n i cls f m) := by intro _ h; cases h; have := fmt_code f; omega
theorem vstseg (s : Reg) (n : Fin 8) (e : Reg) (cls : Fin 16) (f : MemFmt) (m : Reg) : Statement (.vstseg s n e cls f m) := by intro _ h; cases h; have := fmt_code f; omega
theorem vamoxAdd (s : Reg) (n : Fin 8) (i : Reg) (cls : Fin 16) (m : Reg) : Statement (.vamoxAdd s n i cls m) := by intro _ h; cases h; omega
theorem vamoxAddu (s : Reg) (n : Fin 8) (i : Reg) (cls : Fin 16) (m : Reg) : Statement (.vamoxAddu s n i cls m) := by intro _ h; cases h; omega
theorem vamoxMin (s : Reg) (n : Fin 8) (i : Reg) (cls : Fin 16) (m : Reg) : Statement (.vamoxMin s n i cls m) := by intro _ h; cases h; omega
theorem vamoxMax (s : Reg) (n : Fin 8) (i : Reg) (cls : Fin 16) (m : Reg) : Statement (.vamoxMax s n i cls m) := by intro _ h; cases h; omega
theorem vamoxAnd (s : Reg) (n : Fin 8) (i : Reg) (cls : Fin 16) (m : Reg) : Statement (.vamoxAnd s n i cls m) := by intro _ h; cases h; omega
theorem vamoxOr (s : Reg) (n : Fin 8) (i : Reg) (cls : Fin 16) (m : Reg) : Statement (.vamoxOr s n i cls m) := by intro _ h; cases h; omega
theorem vamoxXor (s : Reg) (n : Fin 8) (i : Reg) (cls : Fin 16) (m : Reg) : Statement (.vamoxXor s n i cls m) := by intro _ h; cases h; omega
theorem vamoxSwap (s : Reg) (n : Fin 8) (i : Reg) (cls : Fin 16) (m : Reg) : Statement (.vamoxSwap s n i cls m) := by intro _ h; cases h; omega
theorem vldv (d : Reg) (n : Fin 8) (v : Reg) (cls : Fin 16) (m : Reg) : Statement (.vldv d n v cls m) := by intro _ h; cases h; omega
theorem vstv (s : Reg) (n : Fin 8) (v : Reg) (cls : Fin 16) : Statement (.vstv s n v cls) := by intro _ h; cases h; omega
theorem vpush (s : Reg) (n : Fin 8) (cls : Fin 16) (m : Reg) : Statement (.vpush s n cls m) := by intro _ h; cases h; omega
theorem vpop (d : Reg) (n : Fin 8) (cls : Fin 16) (m : Reg) : Statement (.vpop d n cls m) := by intro _ h; cases h; omega
theorem mgather (a : Reg) (b : Reg) (g : Reg) (n : Fin 4) (s : Fin 4) : Statement (.mgather a b g n s) := by intro _ h; cases h; omega
theorem mldb (a : Reg) : Statement (.mldb a) := by intro _ h; cases h; omega
theorem mcfg (a : Reg) : Statement (.mcfg a) := by intro _ h; cases h; omega
theorem mma (s : Fin 4) : Statement (.mma s) := by intro _ h; cases h; omega
theorem mzero : Statement (.mzero) := by intro _ h; cases h; omega
theorem mswap : Statement (.mswap) := by intro _ h; cases h; omega
theorem mwait (w : Reg) : Statement (.mwait w) := by intro _ h; cases h; omega
theorem mdrain (a : Reg) (b : Reg) (f : DrainFmt) : Statement (.mdrain a b f) := by intro _ h; cases h; have := drain_code f; omega
theorem mstat (d : Reg) (clear : Bool) : Statement (.mstat d clear) := by intro _ h; cases h; have := clear.toNat_lt; omega
theorem aniseFetch (g : GangId) : Statement (.aniseFetch g) := by intro _ h; cases h
theorem privateFetch (h : StrandId) : Statement (.privateFetch h) := by intro _ h; cases h
theorem driftEviction (h : StrandId) : Statement (.driftEviction h) := by intro _ h; cases h
theorem issueVisit (h : StrandId) : Statement (.issueVisit h) := by intro _ h; cases h
theorem asyncReportTaken (h : StrandId) : Statement (.asyncReportTaken h) := by intro _ h; cases h
theorem userInterruptTaken (h : StrandId) : Statement (.userInterruptTaken h) := by intro _ h; cases h
theorem parking (h : StrandId) : Statement (.parking h) := by intro _ h; cases h
theorem swapOnWait (g : GangId) : Statement (.swapOnWait g) := by intro _ h; cases h
theorem preEmption (g : GangId) : Statement (.preEmption g) := by intro _ h; cases h
theorem timeSharingExpiry (g : GangId) : Statement (.timeSharingExpiry g) := by intro _ h; cases h
theorem strandRestore (h : StrandId) : Statement (.strandRestore h) := by intro _ h; cases h
theorem gangResident (g : GangId) (c : Fin 64) (k : Fin 4) : Statement (.gangResident g c k) := by intro _ h; cases h
theorem bankSwitchBegin (g : GangId) (b : Fin 44) : Statement (.bankSwitchBegin g b) := by intro _ h; cases h
theorem bankSwitchEnd (g : GangId) (b : Fin 44) : Statement (.bankSwitchEnd g b) := by intro _ h; cases h
theorem storePerformed (h : StrandId) : Statement (.storePerformed h) := by intro _ h; cases h
theorem vldbDataWrite (h : StrandId) : Statement (.vldbDataWrite h) := by intro _ h; cases h
theorem transitWalkRetry (h : StrandId) : Statement (.transitWalkRetry h) := by intro _ h; cases h
theorem transitTimeout (w : Waiter) : Statement (.transitTimeout w) := by intro _ h; cases h
theorem versionedStoreStep (r : Nat) (q : Nat) (n : BitVec 32) (data : BitVec 1024) : Statement (.versionedStoreStep r q n data) := by intro _ h; cases h
theorem versionWaitWake (r : Nat) (q : Nat) : Statement (.versionWaitWake r q) := by intro _ h; cases h
theorem waitListRetry (h : StrandId) : Statement (.waitListRetry h) := by intro _ h; cases h
theorem horizonPropagation (r : Nat) (q : Nat) : Statement (.horizonPropagation r q) := by intro _ h; cases h
theorem barrierRegistration (h : StrandId) (id : Fin 36) : Statement (.barrierRegistration h id) := by intro _ h; cases h
theorem watchdogTimeout (w : Waiter) : Statement (.watchdogTimeout w) := by intro _ h; cases h
theorem forkedProgramStart (c : Fin 64) : Statement (.forkedProgramStart c) := by intro _ h; cases h
theorem matrixInstructionBegin (c : Fin 64) : Statement (.matrixInstructionBegin c) := by intro _ h; cases h
theorem matrixInstructionComplete (c : Fin 64) : Statement (.matrixInstructionComplete c) := by intro _ h; cases h
theorem copy (j : Nat) : Statement (.copy j) := by intro _ h; cases h
theorem tile (j : Nat) : Statement (.tile j) := by intro _ h; cases h
theorem gather (j : Nat) : Statement (.gather j) := by intro _ h; cases h
theorem scatter (j : Nat) : Statement (.scatter j) := by intro _ h; cases h
theorem pagegather (j : Nat) : Statement (.pagegather j) := by intro _ h; cases h
theorem fill (j : Nat) : Statement (.fill j) := by intro _ h; cases h
theorem digest (j : Nat) : Statement (.digest j) := by intro _ h; cases h
theorem jobCompletion (j : Nat) : Statement (.jobCompletion j) := by intro _ h; cases h
theorem doorbell (bell : Bell) (tail : Word) : Statement (.doorbell bell tail) := by intro _ h; cases h
theorem ringEntryTake (q : Fin 64) : Statement (.ringEntryTake q) := by intro _ h; cases h
theorem itemStart (n : Nat) : Statement (.itemStart n) := by intro _ h; cases h
theorem queueCreditTick : Statement (.queueCreditTick) := by intro _ h; cases h
theorem launchComplete (l : Nat) : Statement (.launchComplete l) := by intro _ h; cases h
theorem versionWaitNodeComplete (l : Nat) (node : Word) : Statement (.versionWaitNodeComplete l node) := by intro _ h; cases h
theorem sxRoundComplete (p : Fin 8) (sid : Fin 16) : Statement (.sxRoundComplete p sid) := by intro _ h; cases h
theorem sxRecordDelivery (p : Fin 8) (sid : Fin 16) (rx : Nat) : Statement (.sxRecordDelivery p sid rx) := by intro _ h; cases h
theorem spanRequest (p : Fin 8) (f : FlitIn) (r : SpanReq) : Statement (.spanRequest p f r) := by intro _ h; cases h
theorem fabricReply (h : Heading) (tag : Fin 4096) (inc : Fin 16) (a : Answer) : Statement (.fabricReply h tag inc a) := by intro _ h; cases h
theorem cancel (h : Heading) (first : Fin 65536) (count : Fin 17) : Statement (.cancel h first count) := by intro _ h; cases h
theorem fabricRequestTimeout (tag : Fin 4096) : Statement (.fabricRequestTimeout tag) := by intro _ h; cases h
theorem lockedRouteTimeout (tag : Fin 4096) : Statement (.lockedRouteTimeout tag) := by intro _ h; cases h
theorem portUnlock (port : Fin 8) (partner : Fin 4) : Statement (.portUnlock port partner) := by intro _ h; cases h
theorem portDown (port : Fin 8) : Statement (.portDown port) := by intro _ h; cases h
theorem linkTraining (port : Fin 8) (partner : Fin 4) (ok : Bool) : Statement (.linkTraining port partner ok) := by intro _ h; cases h
theorem linkKeyUpdate (port : Fin 8) : Statement (.linkKeyUpdate port) := by intro _ h; cases h
theorem pcfgWrite (f : Caller) (p : Fin 8) (v : Word) : Statement (.pcfgWrite f p v) := by intro _ h; cases h
theorem pmemWrite (f : Caller) (p : Fin 8) (i : Fin 16) (v : Word) : Statement (.pmemWrite f p i v) := by intro _ h; cases h
theorem partitionEnableComplete (p : Fin 8) : Statement (.partitionEnableComplete p) := by intro _ h; cases h
theorem prootWrite (f : Caller) (p : Fin 8) (v : Word) : Statement (.prootWrite f p v) := by intro _ h; cases h
theorem pinvalWrite (f : Caller) (p : Fin 8) (v : Word) : Statement (.pinvalWrite f p v) := by intro _ h; cases h
theorem pjobnWrite (f : Caller) (p : Fin 8) (v : Word) : Statement (.pjobnWrite f p v) := by intro _ h; cases h
theorem pexpnWrite (f : Caller) (p : Fin 8) (v : Word) : Statement (.pexpnWrite f p v) := by intro _ h; cases h
theorem pdeadwordWrite (f : Caller) (p : Fin 8) (v : Word) : Statement (.pdeadwordWrite f p v) := by intro _ h; cases h
theorem qcfgWrite (f : Caller) (q : Fin 64) (v : Word) : Statement (.qcfgWrite f q v) := by intro _ h; cases h
theorem registerWrite (f : Caller) (r : PlainReg) (v : Word) : Statement (.registerWrite f r v) := by intro _ h; cases h
theorem lockInterface (vf : Fin 64) : Statement (.lockInterface vf) := by intro _ h; cases h
theorem startInterface (vf : Fin 64) : Statement (.startInterface vf) := by intro _ h; cases h
theorem stopInterface (vf : Fin 64) : Statement (.stopInterface vf) := by intro _ h; cases h
theorem vfError (vf : Fin 64) : Statement (.vfError vf) := by intro _ h; cases h
theorem heartbeatTimeout (vf : Fin 64) : Statement (.heartbeatTimeout vf) := by intro _ h; cases h
theorem getVersion (m : SpdmMsg) : Statement (.getVersion m) := by intro _ h; cases h
theorem getCapabilities (m : SpdmMsg) : Statement (.getCapabilities m) := by intro _ h; cases h
theorem negotiateAlgorithms (m : SpdmMsg) : Statement (.negotiateAlgorithms m) := by intro _ h; cases h
theorem getDigests (m : SpdmMsg) : Statement (.getDigests m) := by intro _ h; cases h
theorem getCertificate (m : SpdmMsg) : Statement (.getCertificate m) := by intro _ h; cases h
theorem challenge (m : SpdmMsg) : Statement (.challenge m) := by intro _ h; cases h
theorem getMeasurements (m : SpdmMsg) : Statement (.getMeasurements m) := by intro _ h; cases h
theorem keyExchange (m : SpdmMsg) : Statement (.keyExchange m) := by intro _ h; cases h
theorem finish (m : SpdmMsg) : Statement (.finish m) := by intro _ h; cases h
theorem keyUpdate (m : SpdmMsg) : Statement (.keyUpdate m) := by intro _ h; cases h
theorem heartbeat (m : SpdmMsg) : Statement (.heartbeat m) := by intro _ h; cases h
theorem endSession (m : SpdmMsg) : Statement (.endSession m) := by intro _ h; cases h
theorem getDebugNonce (p : Fin 8) : Statement (.getDebugNonce p) := by intro _ h; cases h
theorem debugPolicySubmit (p : Fin 8) (d : DebugPolicy) : Statement (.debugPolicySubmit p d) := by intro _ h; cases h
theorem measurementLogRead : Statement (.measurementLogRead) := by intro _ h; cases h
theorem fuseMinimumRaise (im : Image) : Statement (.fuseMinimumRaise im) := by intro _ h; cases h
theorem powerOn : Statement (.powerOn) := by intro _ h; cases h
theorem bringUpStage (ok : Bool) : Statement (.bringUpStage ok) := by intro _ h; cases h
theorem thermalHold : Statement (.thermalHold) := by intro _ h; cases h
theorem thermalResume : Statement (.thermalResume) := by intro _ h; cases h
theorem thermalTrip : Statement (.thermalTrip) := by intro _ h; cases h
theorem clusterDrain (c : Fin 64) : Statement (.clusterDrain c) := by intro _ h; cases h
theorem clusterFence (c : Fin 64) : Statement (.clusterFence c) := by intro _ h; cases h
theorem rowSpare : Statement (.rowSpare) := by intro _ h; cases h
theorem pageRetire (page : Nat) : Statement (.pageRetire page) := by intro _ h; cases h
theorem moduleReset : Statement (.moduleReset) := by intro _ h; cases h
theorem powerLoss : Statement (.powerLoss) := by intro _ h; cases h
theorem laneFailure (port : Fin 8) : Statement (.laneFailure port) := by intro _ h; cases h
theorem peerModuleStopped (rank : Fin 4096) : Statement (.peerModuleStopped rank) := by intro _ h; cases h
theorem tagHoldExpiry (tag : Fin 4096) : Statement (.tagHoldExpiry tag) := by intro _ h; cases h
theorem hostAccess (a : HostAcc) : Statement (.hostAccess a) := by intro _ h; cases h

end Sys2Proof.Laws.EndsConvoy
end

