-- ==== Sys2Proof/Laws/Reads.lean ====
section
/-! SUPPORT. Laws of reads: one that reaches no other rank leaves the state as it is. -/

namespace Sys2Proof.Machine

/-- Whether an address leads to another rank. -/
def Resolve.isRemote : Resolve → Bool
  | .ok (.remote _ _) => true
  | _ => false

/-- A read of a target changes nothing. -/
theorem readTarget_same {s t : State} {c : Ctx} {d : Bool} {g : Target} {n : Nat} {l : List Byte}
    (h : s.readTarget c d g n = .ok l t) : t = s := by
  unfold State.readTarget at h
  repeat' split at h
  all_goals first | (cases h; rfl) | cases h

/-- A load of the hart that stays in the package changes nothing. -/
theorem loadBytes_same {s t : State} {va : Word} {n e : Nat} {cls : Fin 16} {l : List Byte}
    (h : s.loadBytes va n cls e = .ok l t) (hr : (s.resolve s.hart.ctx .load va).isRemote = false) : t = s := by
  unfold State.loadBytes at h
  split at h
  · cases h
  · cases h
  · rename_i q o he; rw [he] at hr; cases hr
  · exact readTarget_same h

/-- Its words: `n` of them from `va` on. -/
theorem readEntries_same {s t : State} {key : Nat} : ∀ {n : Nat} {va : Word} {l : List Nat}, s.readEntries key n va = .ok l t →
    (∀ k, k < n → (s.resolve s.hart.ctx .load (va + 8 * BitVec.ofNat 64 k)).isRemote = false) → t = s
  | 0, va, l, h, _ => by cases h; rfl
  | n + 1, va, l, h, hr => by
    unfold State.readEntries at h
    have h0 := hr 0 (by omega)
    simp only [BitVec.ofNat_eq_ofNat, BitVec.mul_zero, BitVec.add_zero] at h0
    cases hb : s.loadBytes va 8 0 (key + n + 1) with
    | ok b u =>
      have hu := loadBytes_same hb h0
      subst hu
      simp only [hb, gotAt, Got.bind] at h
      cases he : u.readEntries key n (va + 8) with
      | ok ls w =>
        have hw := readEntries_same he fun k hk => by
          have := hr (k + 1) (by omega)
          have e : va + 8 + 8 * BitVec.ofNat 64 k = va + 8 * BitVec.ofNat 64 (k + 1) := by
            rw [show BitVec.ofNat 64 (k + 1) = BitVec.ofNat 64 k + 1 from by simp [BitVec.ofNat_add]]
            rw [BitVec.mul_add, BitVec.add_assoc, BitVec.add_comm 8]; rfl
          rw [e]; exact this
        subst hw
        simp only [he] at h
        cases h; rfl
      | fault c a => simp only [he] at h; cases h
      | wait c a => simp only [he] at h; cases h
      | stall c => simp only [he] at h; cases h
    | fault c => simp only [hb, gotAt, Got.bind] at h; cases h
    | wait c => simp only [hb, gotAt, Got.bind] at h; cases h
    | stall c => simp only [hb, gotAt, Got.bind] at h; cases h

/-- A block of `n` bytes read as the hart's loads. -/
theorem readBlock_same {s t : State} {n v : Nat} {va : Word} (h : s.readBlock va n = .ok v t)
    (hr : ∀ k, k < n / 8 → (s.resolve s.hart.ctx .load (va + 8 * BitVec.ofNat 64 k)).isRemote = false) : t = s := by
  unfold State.readBlock at h
  cases he : s.readEntries 0 (n / 8) va with
  | ok l u =>
    have hu := readEntries_same he hr
    simp only [he, Got.bind] at h
    cases h; exact hu
  | fault c a => simp only [he, Got.bind] at h; cases h
  | wait c a => simp only [he, Got.bind] at h; cases h
  | stall c => simp only [he, Got.bind] at h; cases h

/-- A unit's read that stays in the package changes nothing. -/
theorem unitRead_same {s t : State} {key : Nat} {c : Ctx} {cls : Fin 16} {va : Word} {n : Nat} {l : List Byte} (h : s.unitRead key c cls va n = .ok l t)
    (hr : (s.resolve c .load va).isRemote = false) : t = s := by
  unfold State.unitRead at h
  split at h
  · cases h
  · cases h
  · rename_i q o he; rw [he] at hr; cases hr
  · exact readTarget_same h

/-- Its words. -/
theorem unitWords_same {s t : State} {key : Nat} {x : Ctx} {cls : Fin 16} :
    ∀ {n : Nat} {va : Word} {l : List Nat}, s.unitWords key x cls n va = .ok l t →
    (∀ k, k < n → (s.resolve x .load (va + 8 * BitVec.ofNat 64 k)).isRemote = false) → t = s
  | 0, va, l, h, _ => by cases h; rfl
  | n + 1, va, l, h, hr => by
    unfold State.unitWords at h
    have h0 := hr 0 (by omega)
    simp only [BitVec.ofNat_eq_ofNat, BitVec.mul_zero, BitVec.add_zero] at h0
    cases hb : s.unitRead key x cls va 8 with
    | ok b u =>
      have hu := unitRead_same hb h0
      subst hu
      simp only [hb] at h
      cases he : u.unitWords key x cls n (va + 8) with
      | ok ls w =>
        have hw := unitWords_same he fun k hk => by
          have := hr (k + 1) (by omega)
          have e : va + 8 + 8 * BitVec.ofNat 64 k = va + 8 * BitVec.ofNat 64 (k + 1) := by
            rw [show BitVec.ofNat 64 (k + 1) = BitVec.ofNat 64 k + 1 from by simp [BitVec.ofNat_add]]
            rw [BitVec.mul_add, BitVec.add_assoc, BitVec.add_comm 8]; rfl
          rw [e]; exact this
        subst hw
        simp only [he] at h
        cases h; rfl
      | fault c => simp only [he] at h; cases h
      | wait c => simp only [he] at h; cases h
      | stall c => simp only [he] at h; cases h
    | fault c => simp only [hb] at h; cases h
    | wait c => simp only [hb] at h; cases h
    | stall c =>
      simp only [hb] at h
      cases he : c.unitWords key x cls n (va + 8) <;> simp only [he] at h <;> cases h

end Sys2Proof.Machine
end

