-- ==== Sys2Proof/Tests/Slice0.lean ====
section
/-! SUPPORT. Tests of the model, expected results taken from spec/, and states that meet the hypotheses of the statements. -/

namespace Sys2Proof.Tests

set_option Elab.async false

open Sys2Proof Sys2Proof.Machine Sys2Proof.Safety

/-! ### Well-formed terms -/

/-- R166, R167, R170, R186, R192, R210, R423, R58, R65: a term for each reserved operand; `wf` refuses it. -/
theorem test_wf_refuses : ([.ldu 1 2 0 .d 0, .strip 1 0x1F 0, .loop 1 0, .loopi 0 4, .loopi 3 0, .vtag 20 12 .i32, .vcvt 1 2 0 .i16p 0,
    .vsort 31 1 0, .vsortd 31 1 0, .vmergek 31 1 2, .vtopk 31 1 2 0, .vldseg 30 0 3 0 .native 0, .vldseg 1 0 1 0 .native 0,
    .vldseg 1 0 9 0 .native 0, .vstseg 30 0 3 0 .native 0, .vstseg 1 0 1 0 .native 0, .vstseg 1 0 9 0 .native 0,
    .spanRequest 0 { port := 0, fails := 0 } { src := 1, tag := 0, inc := 0, cls := 0, seq := 0, job := 0, offset := 2 ^ 40 - 7, op := .load 8 },
    .hostAccess { function := 0, tee := false, addr := 2 ^ 51 - 7, op := .load 8 }] : List Instr).map Instr.wf = List.replicate 19 false := rfl

/-- Their greatest neighbours within the ranges are accepted. -/
theorem test_wf_accepts : ([.ldu 1 2 0 .w 0, .strip 1 0xF0 0, .loop 1 1, .loopi 1 1, .vtag 20 11 .i32, .vcvt 1 2 0 .bf16 0,
    .vsort 30 1 0, .vldseg 30 0 2 0 .native 0, .vldseg 24 0 8 0 .native 0, .vstseg 30 0 2 0 .native 0] : List Instr).map Instr.wf = List.replicate 10 true := rfl

/-! ### Decoding: for every encoded row of the opcode table a word written out from its fields (R165-R170) -/

theorem test_decode_majors_01_to_01 : [0x82897000, 0x83D3C401, 0x832E1802, 0x8278EC03, 0x83C34004, 0x831D9405, 0x82686806,
  0x83B2BC07, 0x830D1008, 0x8257E409, 0x83A2380A, 0x82FC8C0B, 0x8247600C, 0x8391B40D, 0x82EC080E, 0x8236DC0F].map decode = [
  .add 8 18 28, .sub 29 7 17, .and 18 28 6, .or 7 17 27, .xor 28 6 16, .sll 17 27 5, .srl 6 16 26, .sra 27 5 15, .slt 16 26 4,
  .sltu 5 15 25, .min 26 4 14, .max 15 25 3, .minu 4 14 24, .maxu 25 3 13, .addw 14 24 2, .subw 3 13 23].map .ok := rfl
theorem test_decode_majors_02_to_03 : [0x85813000, 0x84DB8401, 0x84265802, 0x8570AC03, 0x84CB2404, 0x8415D405, 0x8564A806,
  0x06BA8000, 0x07918001, 0x86788002, 0x075B0003, 0x06368004, 0x871D8005, 0x07648006, 0x06DB8007].map decode = [
  .mul 24 2 12, .mulh 13 23 1, .mulhu 2 12 22, .div 23 1 11, .divu 12 22 9, .rem 1 11 21, .remu 22 9 10, .clz 11 21, .ctz 25 3,
  .popc 7 17, .sextb 21 22, .sexth 3 13, .sextw 17 27, .zextw 22 9, .bswap 13 23].map .ok := rfl
theorem test_decode_majors_04_to_0b : [0x09B2826F, 0x0B0D0284, 0x0C578299, 0x0FA202AE, 0x10FC82C3, 0x124702D8, 0x1591802D,
  0x14EC0042, 0x14368097, 0x97800322].map decode = [
  .addi 27 5 623, .andi 16 26 644, .ori 5 15 665, .xori 26 4 686, .slti 15 25 707, .sltiu 4 14 728, .slli 25 3 45,
  .srli 14 24 2, .srai 3 13 23, .li 24 802].map .ok := rfl
theorem test_decode_majors_0c_to_10 : [0x18600330, 0x1B40033E, 0x9C26306A, 0x1C57CB8D, 0x1E8964B0, 0x20BA83BF, 0x209513D4,
  0x215B23E9, 0x20AA33FE, 0x2164C413, 0x214F5428].map decode = [
  .lis 6 816, .addpc 20 830, .ld 2 12 6 .b 106, .ldu 5 15 9 .h 141, .st 8 18 12 .w 176, .beq 11 21 959, .bne 9 10 980,
  .blt 21 22 1001, .bge 10 20 1022, .bltu 22 9 1043, .bgeu 20 30 1064].map .ok := rfl
theorem test_decode_majors_11_to_15 : [0xA2900433, 0xA570844B, 0xA6CA6460, 0x2810046B, 0x28F80479, 0x2A000000, 0x2A000001,
  0x2A000002, 0x2A000003, 0x2A000004, 0xAA0E9C05, 0x2A000166].map decode = [
  .jal 9 1075, .jalr 23 1 1099, .strip 12 166 1120, .loop 1 1131, .loopi 15 1145, .joinW, .joinN, .detach, .exit, .yield,
  .fork 29 7, .rendezvous 11].map .ok := rfl
theorem test_decode_majors_16_to_17 : [0xAC092500, 0x2C952181, 0x2DC32002, 0xAC08B603, 0xAC000004, 0x2D648005, 0x2ED00240,
  0x2FB2E061, 0x2F0D2082, 0x2E578003, 0x2FA20044, 0x2E411005, 0xAE0201C6, 0x2F200387, 0x2E950008, 0x2E000009, 0x2E00000A,
  0x2E0AA82B, 0x2F5B240C, 0x2E00000D].map decode = [
  .fence 1170 .package, .barArrive 9 10 16 .system, .barWait 28 6 16, .barInit 17 27, .uiret, .uimask 22 9, .csrr 13 (.bump 2),
  .csrw 27 5 (.bkaddr 1), .csrs 16 26 .vcid, .csrc 5 15 .fflags, .setvl 26 4 .w64, .vtag 4 2 .fp32, .svset 4 14, .svget 18 28,
  .launch 9 10, .syscall, .eret, .invas 21 10 true false, .bankcfg 21 22 9, .brk].map .ok := rfl
theorem test_decode_majors_18_to_1b : [0xB0AA7900, 0xB0680021, 0x33B2BD20, 0x320B8561, 0xB2CB0002, 0x33A20003, 0x34890000,
  0x35602441, 0x35300002, 0x372E00C0, 0x36788161, 0x37C000C2, 0xB6A00083, 0x37800044, 0x36600204].map decode = [
  .ldv 10 20 30 8, .vrqry 6 16 1, .vpub 27 5 15 9, .vretire 23 1 11, .vrdecl 12 22, .vrfree 26 4, .job 8 18, .stream 6 9 .w,
  .streamoff 3, .sxopen 18 28 6, .sxsplit 7 17 11, .sxround 28 6, .sxresplit 10 4, .sxclose 24 2,
  .sxcloseAbort 6 0].map .ok := rfl
theorem test_decode_majors_1c_to_1d : [0x394F2240, 0xB90D11C1, 0x38CB0142, 0xB8800803, 0x3B64A900, 0x3B2E1801, 0xBAEC0B02,
  0x3AAA7A03, 0x3A686904, 0xBA265805, 0x3BE44B06, 0x3BA23A07, 0xBB64A908, 0x3B2E1809, 0x3AEC0B10, 0xBAAA7A11, 0x3A686912,
  0x3A265813, 0xBBE44B14, 0x3BA23A15, 0x3B64A916, 0xBB2E1817, 0x3AEC0B18, 0x3AAA7A19, 0x3A0342A0].map decode = [
  .sxsend 20 30 8 18, .sxsendNew 16 26 4 14, .sxrecv 12 22 0 10, .sxstat 8 2, .amoadd 22 9 10 4, .amomin 18 28 6 0,
  .amomax 14 24 2 12, .amominu 10 20 30 8, .amomaxu 6 16 26 4, .amoand 2 12 22 0, .amoor 30 8 18 12, .amoxor 26 4 14 8,
  .amoswap 22 9 10 4, .amocas 18 28 6 0, .amoaddW 14 24 2 12, .amominW 10 20 30 8, .amomaxW 6 16 26 4, .amominuW 2 12 22 0,
  .amomaxuW 30 8 18 12, .amoandW 26 4 14 8, .amoorW 22 9 10 4, .amoxorW 18 28 6 0, .amoswapW 14 24 2 12, .amocasW 10 20 30 8,
  .topkins 6 16 10].map .ok := rfl
theorem test_decode_majors_1e_to_20 : [0xBD6BF200, 0x4170AEA0, 0x413E9E21, 0xC0FC8DA2, 0x40BAD923, 0x4078ECA4, 0x403682E5,
  0x41810186, 0xC0DB8567, 0xC09983A8, 0xC1E40249].map decode = [
  .waitc 11 5 15 9, .vadd 23 1 11 21, .vsub 19 29 7 17, .vmul 15 25 3 13, .vmin 11 21 22 9, .vmax 7 17 27 5, .vabs 3 13 23,
  .vneg 24 2 12, .vmerge 13 23 1 11, .vmv 9 19 29, .vbcast 30 8 18].map .ok := rfl
theorem test_decode_majors_21_to_22 : [0x433E9E20, 0x42FC8DA1, 0xC2BAD922, 0x4278ECA3, 0x4236DC24, 0xC364CFA7, 0xC3B015E9,
  0x450D11C0, 0x44CB2541, 0xC48970C2, 0x44476043, 0x449553C4, 0xC5C34345, 0x458132C6, 0x454F2247, 0xC50D11C8, 0x44CB2549,
  0x448970CA, 0xC447604B, 0x449553CC, 0x45C3434D, 0xC58132CE, 0x454F224F, 0x450D11D0, 0xC4CB2551, 0x448970D2, 0x44476053,
  0x44950294, 0x455B0135].map decode = [
  .vaddVx 19 29 7 17, .vsubVx 15 25 3 13, .vmulVx 11 21 22 9, .vminVx 7 17 27 5, .vmaxVx 3 13 23 1, .vmergeVx 22 9 19 29,
  .vbcastVx 27 5 15, .vand 16 26 4 14, .vor 12 22 9 10, .vxor 8 18 28 6, .vsll 4 14 24 2, .vsrl 9 10 20 30, .vsra 28 6 16 26,
  .vminu 24 2 12 22, .vmaxu 20 30 8 18, .vmulh 16 26 4 14, .vmulhu 12 22 9 10, .vadc 8 18 28 6, .vsbc 4 14 24 2,
  .vadds 9 10 20 30, .vsubs 28 6 16 26, .vaddsu 24 2 12 22, .vsubsu 20 30 8 18, .vsrar 16 26 4 14, .vsrlr 12 22 9 10,
  .vdot2 8 18 28 6, .vabsd 4 14 24 2, .vclz 9 10 20, .vpopc 21 22 9].map .ok := rfl
theorem test_decode_majors_23_to_23 : [0xC6AA7900, 0x46686881, 0x46265922, 0xC7E44B83, 0x47A23B04, 0x4764AA85, 0xC72E1A06,
  0x46EC0987, 0x46AA7908, 0xC6686889, 0x4626592C, 0x47E44B8D, 0xC7A23B0E, 0x4764AA8F, 0x472E1A10, 0xC6EC0991,
  0x46AA7913].map decode = [
  .vandVx 10 20 30 8, .vorVx 6 16 26 4, .vxorVx 2 12 22 9, .vsllVx 30 8 18 28, .vsrlVx 26 4 14 24, .vsraVx 22 9 10 20,
  .vminuVx 18 28 6 16, .vmaxuVx 14 24 2 12, .vmulhVx 10 20 30 8, .vmulhuVx 6 16 26 4, .vaddsVx 2 12 22 9, .vsubsVx 30 8 18 28,
  .vaddsuVx 26 4 14 24, .vsubsuVx 22 9 10 20, .vsrarVx 18 28 6 16, .vsrlrVx 14 24 2 12, .vabsdVx 10 20 30 8].map .ok := rfl
theorem test_decode_majors_24_to_24 : [0x48686880, 0xC8265921, 0x49E44B82, 0x49A23B03, 0xC964AA84, 0x492E1A05, 0x48EC0986,
  0xC8AA7907, 0x4868688C, 0x4826592D, 0xC9E44B8E, 0x49A23B0F, 0x4964AA90, 0xC92E1A11].map decode = [
  .vandVi 6 16 26 4, .vorVi 2 12 22 9, .vxorVi 30 8 18 28, .vsllVi 26 4 14 24, .vsrlVi 22 9 10 20, .vsraVi 18 28 6 16,
  .vminuVi 14 24 2 12, .vmaxuVi 10 20 30 8, .vaddsVi 6 16 26 4, .vsubsVi 2 12 22 9, .vaddsuVi 30 8 18 28, .vsubsuVi 26 4 14 24,
  .vsrarVi 22 9 10 20, .vsrlrVi 18 28 6 16].map .ok := rfl
theorem test_decode_majors_25_to_25 : [0x4AEC0980, 0x4AAA7901, 0xCA686882, 0x4A265923, 0x4BE40244, 0x4B3E80E5, 0x4A890386,
  0x4BD38227, 0x4B2E00C8, 0x4A788369, 0x4BC3020A].map decode = [
  .vfma 14 24 2 12, .vfms 10 20 30 8, .vfnma 6 16 26 4, .vdiv 2 12 22 9, .vsqrt 30 8 18, .vrcp 19 29 7, .vrsq 8 18 28,
  .vexp2 29 7 17, .vlog2 18 28 6, .vtanh 7 17 27, .vclass 28 6 16].map .ok := rfl
theorem test_decode_majors_26_to_27 : [0x4D1D95E0, 0xCCDB8561, 0x4C99F4E2, 0x4C57E463, 0xCE15D6C0, 0x4FD3C761, 0x4F91B6E2,
  0xCF5B2663, 0x4F1D95E4, 0x4EDB8565, 0xCE99F4E6, 0x4E57E470, 0x4E15D6D1, 0xCFD3C772, 0x4F91B6F3, 0x4F5B2674, 0xCF1D95F5,
  0x4EDB8576].map decode = [
  .vfmaVx 17 27 5 15, .vfmsVx 13 23 1 11, .vfnmaVx 9 19 29 7, .vdivVx 5 15 25 3, .vcmpeq 1 11 21 22, .vcmpne 29 7 17 27,
  .vcmplt 25 3 13 23, .vcmple 21 22 9 19, .vcmpltu 17 27 5 15, .vcmpleu 13 23 1 11, .vcmpun 9 19 29 7, .vcmpeqVx 5 15 25 3,
  .vcmpneVx 1 11 21 22, .vcmpltVx 29 7 17 27, .vcmpleVx 25 3 13 23, .vcmpltuVx 21 22 9 19, .vcmpleuVx 17 27 5 15,
  .vcmpunVx 13 23 1 11].map .ok := rfl
theorem test_decode_majors_28_to_28 : [0x5099F400, 0x51E44801, 0x513E9C02, 0x50897003, 0xD1D38004, 0xD0BAD805, 0xD0955006,
  0x515B0007, 0x50300408, 0xD11D8009, 0x5164800A, 0x50DB800B, 0x51B29C0C, 0x510D100D].map decode = [
  .pand 9 19 29, .por 30 8 18, .pxor 19 29 7, .pandn 8 18 28, .pnot 29 7, .pshl 11 21 22, .pshr 9 10 20, .pmv 21 22, .pset 3 1,
  .pcnt 17 27, .pfirst 22 9, .plast 13 23, .pmovx 27 5 7, .pfromx 16 26 4].map .ok := rfl
theorem test_decode_majors_29_to_29 : [0x5257E460, 0xD215D6C1, 0x53D3C762, 0x5391B6E3, 0xD35B2664, 0xD31D80A5, 0xD2680346,
  0xD3B281E7, 0x530D11C8, 0x52CB2549, 0xD28970CA].map decode = [
  .vslide1up 5 15 25 3, .vslide1dn 1 11 21 22, .vslideup 29 7 17 27, .vslidedn 25 3 13 23, .vgather 21 22 9 19,
  .vcompress 17 27 5, .vexpand 6 16 26, .vrev 27 5 15, .vhad 16 26 4 14, .vzip 12 22 9 10, .vunzip 8 18 28 6].map .ok := rfl
theorem test_decode_majors_2a_to_2b : [0x54476040, 0x549553C1, 0xD5C34342, 0x558132C3, 0x554F2244, 0xD50D11C5, 0x56CB0A80,
  0xD6FCA1A1, 0x56B002A2, 0xD7918AE3, 0x575002C4, 0xD636DC25, 0xD7602666].map decode = [
  .vredsum 4 14 24 2, .vredsumu 9 10 20 30, .vredmax 28 6 16 26, .vredmin 24 2 12 22, .vscan 20 30 8 18, .vscanf 16 26 4 14,
  .vcvt 12 22 0 .i16 20, .vcvts 15 25 1 13, .vrand 11 21, .vqscale 25 3 .e5m2 23, .viota 21 22, .vmvxs 3 13 23 1,
  .vmvsx 22 9 19].map .ok := rfl
theorem test_decode_majors_2c_to_32 : [0xD94F0100, 0xD89983A1, 0xD9E44802, 0xD93E80E3, 0x588970C4, 0x5A403B00, 0x5B900DA1,
  0xE0E00296, 0xE3165F23, 0xE5BAF96D].map decode = [
  .vsort 20 30 8, .vsortd 9 19 29, .vmergek 30 8 18, .vseghead 19 29 7, .vtopk 8 18 28 6, .vaccrd 4 14 24, .vaccwr 25 3 13,
  .vld 14 0 2 .int8 22, .vlds 17 3 5 15 .e4m3 3, .vldx 27 5 15 9 .e2m1 13].map .ok := rfl
theorem test_decode_majors_33_to_3a : [0xE65E63B7, 0xE8F23DE1, 0x6B960DE1, 0x6DCD0A8E, 0x6E61A4D8, 0x71044E02, 0x7268284C,
  0x744D820C, 0xF473B52F, 0x74A9E852, 0x74DE1B75, 0xF5044E98, 0x753A71BB, 0x7560A4DE, 0xF596D7E1].map decode = [
  .vldseg 5 7 6 3 .int4 23, .vldb 15 1 3 13 .bf16 1, .vst 25 3 13 .bf16 1, .vsts 28 6 16 10 .int8 14,
  .vstx 6 0 26 4 .nested 24, .vstxu 16 2 4 14 .native 2, .vstseg 6 4 2 8 .e5m2 12, .vamoxAdd 4 6 24 2 12,
  .vamoxAddu 7 1 27 5 15, .vamoxMin 10 4 30 8 18, .vamoxMax 13 7 1 11 21, .vamoxAnd 16 2 4 14 24, .vamoxOr 19 5 7 1 27,
  .vamoxXor 22 0 10 4 30, .vamoxSwap 25 3 13 7 1].map .ok := rfl
theorem test_decode_majors_3b_to_3d : [0x77CD0A04, 0xF7633D20, 0x77BA0F59, 0x77720B75, 0x793E9CE0, 0x79600001, 0xF9D00002,
  0x7A000000, 0x7A000001, 0x7A000002, 0x7A000163].map decode = [
  .vldv 28 6 16 10 4, .vstv 22 1 19 13, .vpush 27 5 15 25, .vpop 23 1 11 21, .mgather 19 29 7 1 3, .mldb 22, .mcfg 29, .mma 0,
  .mzero, .mswap, .mwait 11].map .ok := rfl
theorem test_decode_majors_3e_to_3e : [0x7D2E0040, 0x7C700021].map decode = [
  .mdrain 18 28 .e5m2, .mstat 7 true].map .ok := rfl

/-- R165, R169, R420, R423: an unassigned major, function code, field that must be 0, and reserved operands are no instruction. -/
theorem test_decode_rejects : [0x00000000, 0x3E000000, 0x02000010, 0x06000400, 0x2C0001C0, 0x2E000084, 0x2F460005, 0x28080001,
    0x60001000, 0x00531C00].map (fun w => (decode w).toOption) = List.replicate 10 none := rfl

/-- R165: bit 31, the C bit, is no part of the instruction. -/
theorem test_decode_c_bit : decode 0x82531C00 = decode 0x02531C00 := rfl

/-- R5, R165: the bytes of a word lie lowest first. -/
theorem test_decode_bytes : decodeBytes [0x00, 0x1C, 0x53, 0x02, 0xAA] = .ok (.add 5 6 7, [0xAA]) := rfl

/-- R183, R189, R190: signed offsets encode by two's complement. -/
theorem test_encode : encode (.addi 5 5 (-1)) = some 0x0852FFFF ∧ encode (.jal 1 (-8)) = some 0x221FFFF8 ∧
    encode (.bne 6 0 5) = some 0x20601005 := by decide

/-! ### States of the witnesses -/

/-- A strand at its start, with the first GiB mapped to itself; its word is ADD x5, x6, x7. -/
def S : State := State.reset.withFetchWord 32 0x02531C00

/-- `s` with scalar registers of the hart in front set. -/
def regs (l : List (Reg × Word)) (s : State) : State := { s with hart := l.foldl (fun h e => h.setX e.1 e.2) s.hart }

/-- `s` with the hart in front changed. -/
def on (f : Hart → Hart) (s : State) : State := { s with hart := f s.hart }

def bank0 (m : BankMode) : Bank :=
  { mode := m, switching := none, queued := [], bytes := [], entries := [], receive := false, bad := [] }

def gang0 (l : List Bank) : Gang :=
  { id := { launch := 0, stage := 0, gang := 0 }, part := 0, queue := 0, slot := some (0, 0), started := true, home := none, bound := none,
    runnable := none, banks := l, ring := [], joinAt := none, area := [], dirtyBad := [], ended := false }

/-- The strand of `S` in a resident gang with one bank of mode `m`. -/
def inGang (m : BankMode) (s : State) : State := { s with gangs := [gang0 [bank0 m]] }

def region0 : Region :=
  { part := 0, base := 0x40000, pages := [0x40000], pool := [], depth := 2, cursors := [some 0], scope := 4, fill := .zero,
    granules := [], ahead := [], seen := 0 }

/-- With a live versioned region of one page at 0x40000. -/
def inRegion (s : State) : State := { s with regions := [region0] }

/-- The second GiB of addresses leads to host memory, through the tables of `S`. -/
def hostMapped (s : State) : State :=
  let m := (s.mem.setBytes 0x11008 (leBytes 8 (2 ^ 51 + 0x3F))).setBytes 0x18000 (leBytes 8 0x12001)
  { s with mem := m.setBytes 0x12000 (leBytes 8 (2 ^ 51 + 0x3F)) }

def super (s : State) : State := on (fun h => { h with st := { h.st with priv := true } }) s
def handled (s : State) : State := on (fun h => { h with csr := { h.csr with stvec := 0x20000 } }) s
/-- A wait at the first word of a convoy. -/
def waits (k : WaitKind) (a : Word) : Wait := { kind := k, pos := 0, elem := 0, addr := a, ir := 0, since := 0, met := false, expired := none }
def onControl (s : State) : State := on (fun h => { h with engine := .control 0 }) s

/-! ### Steps (R35, R39) -/

theorem test_step_runs_add : (nextOf (step (regs [(6, 5), (7, 8)] S))).map (fun t => (t.hart.pc, t.hart.getX 5, t.hart.csr.instret)) =
    some (0x20004, 13, 1) := by decide +kernel
theorem test_step_falls_through : (nextOf (step (State.reset.withFetchWord 32 0x20601005))).map (fun t => t.hart.pc) = some 0x20004 := by
  decide +kernel
theorem test_step_traps_illegal : (nextOf (step (handled (State.reset.withFetchWord 32 0x3E000000)))).map
    (fun t => (t.hart.pc, t.hart.csr.sepc, t.hart.csr.scause.extractLsb' 0 8, t.hart.csr.stval)) =
      some (0x20000, 0x20000, 1, 0x3E000000) := by decide +kernel

/-! ### Meanings, by the worked values of the spec -/

/-- The scalar register 5 after an instruction. -/
def x5 (i : Instr) (s : State) : Option Word := (nextOf (exec i s)).map (·.hart.getX 5)

theorem test_div_by_zero : x5 (.div 5 6 0) (regs [(6, 7)] S) = some (-1) := by decide +kernel
theorem test_div_overflow : x5 (.div 5 6 7) (regs [(6, 0x8000000000000000), (7, -1)] S) = some 0x8000000000000000 := by decide +kernel
theorem test_rem_sign : x5 (.rem 5 6 7) (regs [(6, -7), (7, 2)] S) = some (-1) := by decide +kernel
theorem test_mulh : x5 (.mulh 5 6 7) (regs [(6, -1), (7, 2)] S) = some (-1) := by decide +kernel
theorem test_clz_zero : x5 (.clz 5 6) S = some 64 := by decide +kernel
theorem test_bswap : x5 (.bswap 5 6) (regs [(6, 0x0102030405060708)] S) = some 0x0807060504030201 := by decide +kernel
theorem test_sltiu_minus_one : x5 (.sltiu 5 6 (-1)) (regs [(6, -2)] S) = some 1 := by decide +kernel
theorem test_lis : x5 (.lis 5 0xFFFFF) (regs [(5, 1)] S) = some 0x1FFFFF := by decide +kernel
theorem test_load_sign : x5 (.ld 5 6 0 .b 0) (regs [(6, 0x30000)] { S with mem := S.mem.setBytes 0x30000 [0x80] }) = some (-128) := by
  decide +kernel
theorem test_store_then_load : ((nextOf (exec (.st 7 6 0 .h 1) (regs [(6, 0x30000), (7, 0x12345)] S))).bind fun t => x5 (.ldu 5 6 0 .h 1) t) =
    some 0x2345 := by decide +kernel
theorem test_amoadd_w_wraps : ((nextOf (exec (.amoaddW 5 6 7 0) (regs [(6, 0x30000), (7, 1)] { S with
    mem := S.mem.setBytes 0x30000 [0xFF, 0xFF, 0xFF, 0xFF] }))).map fun t => (t.hart.getX 5, t.mem.getNat 0x30000 4)) = some (-1, 0) := by
  decide +kernel
theorem test_jalr_links_after_reading : ((nextOf (exec (.jalr 1 1 0) (regs [(1, 0x400)] S))).map fun t => (t.hart.getX 1, t.hart.iss.flow)) =
    some (0x20004, .jump 0x400) := by decide +kernel

/-- R193: the first STRIP of the worked loop: 344 elements left, both address registers a stride further, taken. -/
theorem test_strip : ((nextOf (exec (.strip 9 3 (-4)) (on (fun h => { h with csr := { h.csr with vl := 256, bump := Vector.replicate 8 1024 } })
    (regs [(9, 600), (16, 0), (17, 4096)] S)))).map fun t => (t.hart.getX 9, t.hart.getX 16, t.hart.getX 17, t.hart.iss.flow)) =
      some (344, 1024, 5120, .jump 0x1FFF0) := by decide +kernel

theorem test_setvl_grants : ((nextOf (exec (.setvl 5 6 .w64) (regs [(6, -1)] S))).map fun t => (t.hart.getX 5, t.hart.csr.vl, t.hart.csr.width)) =
    some (128, 128, 2) := by decide +kernel

/-- With vl 2 and vector registers 1 and 2 holding two I32 elements each. -/
def vectors (a b : Nat) (t : Tag) : State := on (fun h => { h with
  csr := { h.csr with vl := 2 }
  v := (h.v.set 1 (BitVec.ofNat 8192 a)).set 2 (BitVec.ofNat 8192 b), tags := (h.tags.set 1 t).set 2 t }) S

/-- Elements 0 and 1 of vector register 3 after an instruction, with FFLAGS and SATF. -/
def v3 (i : Instr) (s : State) : Option (Nat × Nat × BitVec 5 × Bool) :=
  (nextOf (exec i s)).map fun t => (t.hart.elem 3 0, t.hart.elem 3 1, t.hart.csr.fflags, t.hart.csr.satf)

theorem test_vadd_wraps : v3 (.vadd 3 1 2 0) (vectors 0x00000001FFFFFFFF 0x0000000200000001 .i32) = some (0, 3, 0, false) := by decide +kernel
theorem test_vadds_saturates : v3 (.vadds 3 1 2 0) (vectors 0x7FFFFFFF 0x1 .i32) = some (0x7FFFFFFF, 0, 0, true) := by decide +kernel
/-- R126, R127: infinity minus infinity is the canonical NaN and raises NV. -/
theorem test_vsub_invalid : v3 (.vsub 3 1 2 0) (vectors 0x3F8000007F800000 0x3F8000007F800000 .fp32) = some (0x7FC00000, 0, 16, false) := by
  decide +kernel
theorem test_vrev : v3 (.vrev 3 1 0) (vectors 0x0000000500000004 0 .i32) = some (5, 4, 0, false) := by decide +kernel
theorem test_vsort : v3 (.vsort 3 1 0) (vectors 0x0000000400000005 0 .i32) = some (4, 5, 0, false) := by decide +kernel
theorem test_vcmplt : (nextOf (exec (.vcmplt 4 1 2 0) (vectors 0x0000000500000004 0x0000000400000005 .i32))).map
    (fun t => (t.hart.getP 4).extractLsb' 0 3) = some 1 := by decide +kernel

/-! ### Traps (R213, R407-R409) -/

theorem test_syscall : (nextOf (exec .syscall (handled S))).map (fun t => (t.hart.csr.sepc, t.hart.csr.scause.extractLsb' 0 9, t.hart.st.priv, t.hart.st.att)) =
    some (0x20004, 0x0C, true, false) := by decide +kernel
theorem test_no_handler_aborts : (nextOf (exec .syscall S)).map (fun t => (t.hart.phase, t.hart.csr.scause)) = some (.aborting 0x0C 0, 0) := by
  decide +kernel
theorem test_eret : (nextOf (exec .eret (super (on (fun h => { h with csr := { h.csr with sepc := 0x400, scause := 0x80500000000 } }) S)))).map
    (fun t => (t.hart.pc, t.hart.st.priv, t.hart.csr.vconv, t.hart.csr.vstart)) = some (0x400, false, 2, 5) := by decide +kernel

/-! ### States that meet the hypotheses of the statements: scalar instructions -/

theorem witness_on_strand : OnStrand S ∧ Supervisor (super S) ∧ OnControl 0 (onControl S) := by
  unfold Supervisor OnStrand OnControl; decide +kernel

theorem witness_LoadsWriteWhatMemoryHolds : (0x30000 : Word).toNat % 8 = 0 ∧ S.behindMatrix = false ∧
    LeadsToDevice .load S 0x30000 0x30000 ∧ Readable S 0x30000 ∧
    LeadsToBank .load (inGang .scratch S) 0x20000000000000 0 0 (bank0 .scratch) ∧ (bank0 .scratch).bad.contains 0 = false ∧
    (inRegion S).resolve S.hart.ctx .load 0x40008 = .ok (.device 0x40008) ∧ (inRegion S).regionAt 0 0x40008 = some (0, region0, 0) ∧
    (inRegion S).hart.st.det = false ∧ (inRegion S).badLines = [] := by
  unfold LeadsToDevice LeadsToBank Readable; decide +kernel

theorem witness_StoresWriteTheirBytesAndNoOther : S.hart.storesFull = false ∧ LeadsToDevice .store S 0x30000 0x30000 ∧
    LeadsToBank .store (inGang .scratch S) 0x20000000000000 0 0 (bank0 .scratch) := by
  unfold LeadsToDevice LeadsToBank; decide +kernel

theorem witness_AtomicsApplyTheirOperationInOneStep : LeadsToDevice .atomic S 0x30000 0x30000 ∧ isHostMemory 0x30000 = false ∧
    LeadsToBank .atomic (inGang .scratch S) 0x20000000000000 0 0 (bank0 .scratch) ∧
    LeadsToDevice .atomic (hostMapped S) 0x40000000 0x8000000000000 ∧ isHostMemory 0x8000000000000 = true ∧
    ((inRegion S).regionAt 0 0x40008).isSome = true ∧ S.hart.st.det = false ∧
    (on (fun h => { h with st := { h.st with det := true } }) S).hart.st.det = true := by
  unfold LeadsToDevice LeadsToBank; decide +kernel

theorem witness_TopkInsert : (0x30000 : Word).toNat % 32 = 0 ∧ LeadsToDevice .atomic S 0x30000 0x30000 ∧
    (inGang .cache S).resolve S.hart.ctx .atomic 0x20000000000000 = .ok (.bank 0 0) ∧
    (inGang .cache S).bank? (some (gangOf S.hart.id)) 0 = some (bank0 .cache) ∧ 0xFFFE ≤ 0xFFFF % 65536 := by
  unfold LeadsToDevice; decide +kernel

theorem witness_MisalignedScalarAccessesTrap : (0x30001 : Word).toNat % 4 ≠ 0 ∧ (0x30004 : Word).toNat % 8 ≠ 0 ∧
    (0x30010 : Word).toNat % 32 ≠ 0 ∧ (0x30040 : Word).toNat % 128 ≠ 0 ∧ OnStrand S ∧ S.hart.st.det = false := by
  unfold OnStrand; decide +kernel

theorem witness_LoopsStartWhileNoneIsActive : S.hart.st.lact = false ∧ S.hart.getX 6 = 0 ∧ (regs [(6, 1)] S).hart.getX 6 ≠ 0 ∧
    S.fetch S.hart.ctx (S.hart.pc + 4 * BitVec.ofNat 64 1) = .word 0 ∧ (0 : BitVec 32).getLsbD 31 = false := by decide +kernel

def inLoop : State := on (fun h => { h with st := { h.st with lact := true }, csr := { h.csr with lcount := 2 } }) S
theorem witness_LeavingALoopByLcount : inLoop.hart.st.lact = true ∧ inLoop.hart.getX 6 = 0 := by decide +kernel

theorem witness_JoinReattachesTheWaitingMembers : let s := inGang .scratch S
    OnStrand s ∧ s.hart.wait = none ∧ s.hart.st.priv = false ∧ s.hart.st.uih = false ∧ s.hart.st.att = true ∧
    s.streamKnown (gangOf s.hart.id) s.hart.streamNo = false ∧ (s.pilot? (gangOf s.hart.id)).map (·.id) = some s.hart.id ∧
    (∀ h ∈ s.members (gangOf s.hart.id), h.st.att = true ∨ h.joinWait = some s.hart.pc) ∧ (super s).hart.st.priv = true := by
  unfold OnStrand; decide +kernel

theorem witness_ExitEndsTheStrandOrProgram : S.hart.cnt.loads = 0 ∧ S.hart.cnt.stores = 0 ∧ (onControl S).clusters[0].queue = [] ∧
    (onControl S).hart.pending = [] ∧ (on (fun h => { h with cnt := { h.cnt with loads := 1 } }) S).hart.cnt.loads ≠ 0 := by decide +kernel

theorem witness_ForkQueuesAProgram : (inGang .scratch S).clusterOf (gangOf S.hart.id) = some 0 ∧ (0x30000 : Word).toNat % 4 = 0 ∧
    (inGang .scratch S).clusters[0].forks.length < 4 ∧ S.hart.cnt.tiles ≠ 0xFFFF := by decide +kernel

/-- The program of cluster 0 that the strand of `S` forked, waiting at RENDEZVOUS 3. -/
def partner : Hart := { S.hart with
  engine := .control 0
  wait := some (waits .rendezvous 3) }
theorem witness_RendezvousMeetsItsPartner : S.hart.wait = none ∧ OnStrand S ∧ (onControl S).clusters[0].queue = [] ∧
    partner.id = S.hart.id ∧ partner.phase = .running ∧ partner.isControl ≠ S.hart.isControl ∧
    partner.wait.map (fun w => (w.kind, w.met, w.addr)) = some (.rendezvous, false, BitVec.ofNat 64 3) ∧ S.harts = [] ∧
    ({ partner with wait := none, paused := some (0x400, waits .rendezvous 3) } : Hart).paused.map (fun p => (p.2.kind, p.2.met, p.2.addr)) =
      some (.rendezvous, false, BitVec.ofNat 64 3) := by
  unfold OnStrand; decide +kernel

theorem witness_FenceAndCounterWaitsChangeNothing : S.hart.vldbs = [] ∧ S.hart.cnt.loads.toNat ≤ (0 : Fin 16).val ∧
    (let v : PendingVldb := { cls := 3, dest := 1, pred := 2, tag := .i32, fmt := .native, planes := 8, elems := [], dup := 0 }
     let s := on (fun h => { h with cnt := { h.cnt with loads := 1 }, vldbs := [v] }) S
     (∃ x ∈ s.hart.vldbs, (8 : BitVec 16).getLsbD x.cls.val = true) ∧ ¬ s.hart.cnt.loads.toNat ≤ (0 : Fin 16).val) := by
  decide +kernel

theorem witness_BarrierArrivalsAndInitialisation : let b := S.barrier (barrierKey S.hart.id 0)
    S.hart.id ∉ b.registered ∧ (∀ e ∈ b.pending, e.strand ≠ S.hart.id) ∧ Supervisor (super S) ∧ S.hart.st.priv = false := by
  unfold Supervisor OnStrand; decide +kernel

/-- Its distances 1, 127, 128 and 0: tokens 255, 129, 128 and 0 at phase 0. -/
theorem witness_BarrierWaitJudgesItsToken : [255, 129, 128, 0].map (fun t : BitVec 8 =>
    ((S.barrier (barrierKey S.hart.id 0)).phase - t).toNat) = [1, 127, 128, 0] ∧ S.hart.wait = none ∧
    (on (fun h => { h with wait := some { waits .barrier 0 with met := true } }) S).hart.wait.map
      (fun w => (w.kind, w.met)) = some (.barrier, true) := by decide +kernel

theorem witness_UserInterruptInstructions : S.hart.st.uih = false ∧
    (on (fun h => { h with st := { h.st with uih := true } }) S).hart.st.uih = true := by decide +kernel

/-- A partition with a debug policy that grants all of the block. -/
def debugged (s : State) : State := { s with parts := s.parts.set 0 { s.parts[0] with policy := true, grant := 0x1F } }
theorem witness_CsrReadsWriteTheirDestination : S.hart.csrRefused .fflags false = none ∧ S.hart.csrRefused .cycle false = none ∧
    isDebug .perfsel = true ∧ S.hart.csrRefused .perfsel false = none ∧ S.debugReadable .perfsel = false ∧
    (debugged S).debugReadable .perfsel = true := by decide +kernel

theorem witness_CsrWritesReachTheirFieldsOnly : S.hart.csrRefused .fflags true = none ∧ S.hart.csrRefused .lcount true = none ∧
    (super S).hart.csrRefused .stvec true = none ∧ (5 : Reg) ≠ 0 := by decide +kernel

theorem witness_RestrictedCsrFieldsKeepTheirValue : OnStrand (super S) ∧ (super S).hart.st.priv = true := by unfold OnStrand; decide +kernel

theorem witness_ForbiddenCsrAccessesTrap : OnStrand S ∧ S.hart.st.priv = false ∧ (super S).hart.st.priv = true ∧
    inLoop.hart.st.lact = true ∧ (onControl S).hart.engine ≠ .strand := by unfold OnStrand; decide +kernel

def launch0 : Launch :=
  { id := 0, item := 1, die := 0, queue := 0, part := 0, asid := 0, seq := 1, record := 0x30000, node := none, stages := 1, det := false,
    entry := 0x20000, arg0 := 8, arg1 := 9, stackBase := 0x50000, stackLog2 := 12, ctxBase := 0x60000, spanTag := 0, tables := 0x30080,
    nexpr := 0, nbanks := 1, svMask := 0, parent := none, foot := { reads := [], writes := [] }, sv := Vector.replicate 32 7,
    stvec := 0x20000, sscratch := 0, troot := 0x10000, rank := 0, area := [], began := 0, byStrand := false, aborted := false, state := .running }
theorem witness_ShapeVariables : S.hart.storesFull = false ∧
    ({ S with launches := [launch0] } : State).launches.find? (·.id == S.hart.id.launch) = some launch0 := by decide +kernel

theorem witness_TrapEntry : (handled S).vectorDead = false ∧ (handled S).hart.iss.runPos < 4 ∧ Supervisor (super (handled S)) ∧
    (super (handled S)).vectorDead = false ∧ S.hart.csr.stvec = 0 ∧ (handled S).hart.iss.judging = false := by unfold Supervisor OnStrand; decide +kernel

/-- STVEC 0, and STVEC at an address that no entry maps (R414). -/
theorem witness_Abort : OnStrand S ∧ S.vectorDead = true ∧ S.hart.iss.judging = false ∧
    (on (fun h => { h with csr := { h.csr with stvec := 0x4000000000 } }) S).vectorDead = true := by unfold OnStrand; decide +kernel

theorem witness_SystemCallAndBreakpoint : OnStrand (handled S) ∧ (handled S).vectorDead = false ∧ (handled S).hart.iss.judging = false := by unfold OnStrand; decide +kernel

theorem witness_PrivilegeAndEngineTraps : OnStrand S ∧ S.hart.st.priv = false := by unfold OnStrand; decide +kernel

/-- R175: the words that the spec prints for `li x5, 0x1234_5678_9ABC_DEF0`, and NOP. -/
theorem test_li_expands : (pseudoLi 5 0x123456789ABCDEF0).map encode =
    [some 0x16500001, some 0x18523456, some 0x185789AB, some 0x185CDEF0] ∧ encode pseudoNop = some 0x08000000 ∧
    (pseudoLi 5 0xFFFFFFFFFFF80000).length = 1 ∧ (pseudoLi 5 0x80000).length = 2 := by decide +kernel

/-! ### Vector instructions -/

/-- `vectors` with register 3 of tag `t` too. -/
def three (t : Tag) : State := on (fun h => { h with tags := h.tags.set 3 t }) (vectors 0x0000000500000004 0x0000000400000005 t)

/-- The four clauses of `Judged` for two I32 sources: another tag, vl above the maximum, vl 0, and the effect. -/
theorem witness_Judged : let ok := fun s : State => decide (s.hart.tag 1 ≠ .i16p) && s.hart.sameTag (s.hart.tag 1) (.v 2)
    ok (on (fun h => { h with tags := h.tags.set 1 .i64 }) S) = false ∧
    (ok S = true ∧ tagMvl (S.hart.tag 1) < (on (fun h => { h with csr := { h.csr with vl := 257 } }) S).hart.vlen) ∧
    (ok S = true ∧ S.hart.vlen = 0) ∧
    (ok (three .i32) = true ∧ (three .i32).hart.vlen ≤ tagMvl .i32 ∧ (three .i32).hart.vlen ≠ 0 ∧ (three .i32).hart.range ≠ []) := by
  decide +kernel

theorem witness_integer_and_carry : isIntTag ((three .i32).hart.tag 1) = true ∧ (three .i32).hart.tag 2 = (three .i32).hart.tag 1 := by
  decide +kernel

theorem witness_VDOT2 : let h := (on (fun h => { h with tags := h.tags.set 3 .i32 }) (vectors 1 1 .i16p)).hart
    h.tag 1 = .i16p ∧ h.tag 2 = .i16p ∧ h.tag 3 = .i32 ∧ h.vlen ≤ 256 ∧ h.vlen ≠ 0 := by decide +kernel

theorem witness_VectorFloatingPoint : ∀ t ∈ [Tag.fp32, .bf16], isFpTag ((three t).hart.tag 1) = true ∧
    (three t).hart.sameTag t (.v 2) = true ∧ (three t).hart.tag 3 = t ∧ (three t).hart.vlen ≤ tagMvl t := by decide +kernel

/-- R126: a signalling NaN and a quiet one among the operands, each in both formats. -/
theorem witness_FloatingResultsHaveTheCanonicalNan : (fp32.decode 0x7F800001).isSignalling = true ∧ (fp32.decode 0x7FC00000).isNan = true ∧
    (bf16.decode 0x7F81).isSignalling = true ∧ (fp32.decode (fp32.add .nearest (fp32.decode 0x7F800000) (fp32.decode 0xFF800000)).1).isNan = true := by
  decide +kernel

theorem witness_predicates : (on (fun h => { h with csr := { h.csr with vl := 513 } }) S).hart.vlen > 512 ∧
    (three .i32).hart.vlen ≤ 512 ∧ ((List.range (three .i32).hart.vlen).filter fun e => ((three .i32).hart.getP 1).getLsbD e) = [] ∧
    ((List.range (three .i32).hart.vlen).filter fun e => ((three .i32).hart.getP 0).getLsbD e) = [0, 1] := by decide +kernel

theorem witness_Pfromx : let s := three .i32
    OnStrand s ∧ s.hart.vlen ≤ 512 ∧ s.hart.range = List.range s.hart.vlen ∧ s.hart.vlen = 2 ∧ (5 : Reg) ≠ 0 := by unfold OnStrand; decide +kernel
theorem test_pfromx : (nextOf (exec (.pfromx 5 6 0) (regs [(6, 2)] (three .i32)))).map (fun t => ((t.hart.getP 5).getLsbD 0, (t.hart.getP 5).getLsbD 1)) =
    some (false, true) := by decide +kernel

theorem witness_UnorderedReductions : let s := three .fp32
    s.hart.tag 1 ≠ .i16p ∧ s.hart.tag 2 = s.hart.tag 1 ∧ s.hart.st.det = false ∧ s.hart.vlen ≠ 0 ∧ s.hart.vlen ≤ tagMvl (s.hart.tag 1) ∧
    isIntTag ((three .i32).hart.tag 1) = true ∧ (on (fun h => { h with st := { h.st with det := true } }) s).hart.st.det = true := by
  decide +kernel

/-- I32 to FP32, I32 to I64 at its last part, I32 to I16; a part too high; an I16P source; a vl too high. -/
theorem witness_ConversionsAndRandomElements : let s := three .i32
    s.hart.tag 1 ≠ .i16p ∧ s.hart.vlen ≤ 128 ∧ s.hart.vlen ≠ 0 ∧ tagWidth (s.hart.tag 1) = tagWidth .fp32 ∧ tagWidth (s.hart.tag 1) < tagWidth .i64 ∧
    1 < max 32 (tagWidth .i64) / min 32 (tagWidth .i64) ∧ max 32 (tagWidth .i64) / min 32 (tagWidth .i64) ≤ 2 ∧
    tagWidth .i16 < tagWidth (s.hart.tag 1) ∧ (three .i16p).hart.tag 1 = .i16p ∧
    8192 / 32 < (on (fun h => { h with csr := { h.csr with vl := 257 } }) s).hart.vlen ∧ (three .fp32).hart.tag 1 = .fp32 ∧ S.hart.vlen = 0 := by
  decide +kernel

theorem witness_scales_and_moves : (three .fp32).hart.tag 1 ≠ .i64 ∧ (three .fp32).hart.tag 1 ≠ .i16p ∧ (three .i32).hart.vlen ≠ 0 ∧
    0 ∈ (three .i32).hart.active 0 ∧ 0 ∉ (three .i32).hart.active 1 := by decide +kernel

theorem witness_SortsRankElementsStably : let h := (three .i32).hart
    h.tag 1 = .i32 ∧ h.tag 2 = h.tag 1 ∧ min (h.getX 6).toNat h.vlen = 0 ∧ min ((regs [(6, 1)] (three .i32)).hart.getX 6).toNat h.vlen ≠ 0 ∧
    isFpTag ((three .bf16).hart.tag 1) = true ∧
    [(h.elem 1 0, 0)].Pairwise (fun p q => p.1 ≤ q.1) ∧ h.elem 1 0 ≠ h.elem 1 1 := by decide +kernel

theorem witness_AccumulatorRows : let s := inGang .scratch (three .fp32)
    OnStrand s ∧ s.clusterOf (gangOf s.hart.id) = some 0 ∧ s.clusters[0].mode = 0 ∧ s.hart.tag 1 = .fp32 ∧ s.hart.vlen ≤ 256 ∧
    s.hart.vlen ≠ 0 ∧ (inGang .scratch (three .i32)).hart.tag 1 ≠ .fp32 ∧ (three .fp32).clusterOf (gangOf s.hart.id) = none := by
  unfold OnStrand; decide +kernel

/-! ### Vector memory -/

/-- Two I32 elements in registers 1 to 3, base a0 at 0x30000, x6 = 1. -/
def vmem : State := regs [(16, 0x30000), (6, 1)] (three .i32)

theorem witness_VectorLoads : let h := vmem.hart
    let v := unitShape h 1 0 0 .native 0
    OnStrand vmem ∧ h.judgeAccess loadPairs .native v.regs none false = none ∧ h.judgeAccess loadPairs .native [1] (some 2) false = none ∧
    h.vlen ≠ 0 ∧ v.misaligned h = false ∧ h.st.det = false ∧ h.active 0 = [0, 1] ∧ h.range ≠ [] ∧
    h.judgeAccess loadPairs .native (segmentShape h 1 0 2 0 .native 0).regs none false = none := by unfold OnStrand; decide +kernel
theorem witness_loadField : ∀ e ∈ [0, 1], ∀ x ∈ positions ((unitShape vmem.hart 1 0 0 .native 0).fields e),
    vmem.loadField .native 0 0x30000 e x.1 x.2 = .ok (x.2.reg, 0) vmem := by
  intro e he x hx
  fin_cases he <;> fin_cases hx <;> rfl

theorem witness_MemoryFieldsWiden : MemFmt.int8 ≠ .nested ∧ vmem.hart.csr.bscale = 0 ∧ LeadsToDevice .load vmem 0x30000 0x30000 ∧
    Readable vmem 0x30000 := by
  unfold LeadsToDevice Readable; decide +kernel

theorem witness_VectorStores : let h := vmem.hart
    let v := unitShape h 1 0 0 .native 0
    h.judgeAccess storePairs .native v.regs none false = none ∧ v.misaligned h = false ∧ h.storesFull = false ∧ vmem.badLines = [] ∧
    h.judgeAccess storePairs .native [1] (some 2) true = none ∧ h.active 0 ≠ [] ∧ LeadsToDevice .store vmem 0x30000 0x30000 ∧
    ∀ g ∈ vmem.gangs, g.dirtyBad = [] := by
  unfold LeadsToDevice; decide +kernel
theorem witness_storeField : ∀ e ∈ [0, 1], ∀ x ∈ positions ((unitShape vmem.hart 1 0 0 .native 0).fields e), ∃ d,
    vmem.storeField .native 0 0x30000 e x.1 x.2 =
      .ok ([{ target := .device (0x30000 + 4 * e), data := d, va := BitVec.ofNat 64 (0x30000 + 4 * e) }], false) vmem := by
  intro e he x hx
  fin_cases he <;> fin_cases hx <;> exact ⟨_, rfl⟩

theorem witness_BackgroundLoads : vmem.hart.judgeAccess loadPairs .native [1] (some 3) false = none ∧ vmem.hart.vlen ≠ 0 ∧
    (vmem.hart.base 0).toNat % (memWidth .native (vmem.hart.tag 1) / 8) = 0 ∧ vmem.hart.cnt.loads ≠ 0xFFFF ∧ vmem.hart.st.det = false := by
  decide +kernel
theorem witness_vldbElem : ∀ e ∈ [0, 1], vmem.vldbElem .native 0 .i32 0x30000 3 e =
    .ok { va := 0x30000, source := .device 0x30000, sub := 0, scale := .pow 0 } vmem := by
  have hi : ∀ e ∈ [0, 1], vmem.hart.indexOf 3 e = 0 := by decide +kernel
  have hr : vmem.resolve vmem.hart.ctx .load 196608#64 = .ok (.device 0x30000) := by decide +kernel
  intro e he
  simp [State.vldbElem, hi e he, memWidth, tagWidth, elemAddr, isFpTag, State.readScale, Got.kept, Got.bind, hr]

/-- Two active elements, at the indices 5 and 4 of register 2. -/
def twoAtomics (t : Tag) : State := on (fun h => { h with tags := (h.tags.set 1 t).set 2 .i32 }) vmem
theorem witness_IndexedAtomics : ∀ t ∈ [Tag.i32, .fp32], let s := twoAtomics t
    let h := s.hart
    let after := fun k : Nat => (({ s with mem := ((h.active 0).take k).foldl (fun m e => m.setBytes (0x30000 + 4 * h.elem 2 e) (leBytes 4 7)) s.mem }) : State)
    OnStrand s ∧ vamoxTag .add (h.tag 1) = true ∧ vamoxTag .addu t = true ∧ isIntTag (h.tag 2) = true ∧ h.st.det = false ∧ h.vlen ≠ 0 ∧ h.vlen ≤ tagMvl (h.tag 1) ∧
    h.vlen ≤ tagMvl (h.tag 2) ∧ h.storesFull = false ∧ h.active 0 = [0, 1] ∧ ((h.active 0).map (h.elem 2)).Nodup ∧
    (∀ k ∈ [0, 1], LeadsToDevice .atomic (after k) (h.base 0 + BitVec.ofNat 64 (h.elem 2 k * 4)) (0x30000 + 4 * h.elem 2 k) ∧
      Readable s (0x30000 + 4 * h.elem 2 k) ∧ (h.base 0 + BitVec.ofNat 64 (h.elem 2 k * 4)).toNat % 4 = 0 ∧ isHostMemory (0x30000 + 4 * h.elem 2 k) = false) := by
  unfold LeadsToDevice Readable OnStrand; decide +kernel
theorem witness_vamoxRun : let r := vmem.vamoxRun (fun e s => s.vamoxElem .add .i32 0 0x30000 1 3 e) (vmem.hart.active 0)
    r.1.isNone = true := by decide +kernel

/-- A FIFO bank of 32-byte entries and depth 2 behind a0. -/
def fifo : State := regs [(16, 0x20000000000000)] (inGang (.fifo 5 1) (three .i32))
theorem witness_FifoBanks : let K := bank0 (.fifo 5 1)
    fifo.bank? (some (gangOf fifo.hart.id)) 0 = some K ∧ K.switching = none ∧ K.receive = false ∧
    fifo.hart.vlen * tagWidth (fifo.hart.tag 1) / 8 ≤ 2 ^ (5 : BitVec 4).toNat ∧ clusterBase ≤ (fifo.hart.base 0).toNat ∧
    ((fifo.hart.base 0).toNat - clusterBase) / 0x40000 = 0 ∧ K.entries.length < (1 : BitVec 16).toNat + 1 ∧
    fifo.fifoAhead fifo.hart .push (fifo.hart.base 0) = false ∧ fifo.fifoAhead fifo.hart .pop (fifo.hart.base 0) = false ∧ K.bad = [] ∧ fifo.hart.turn = none ∧
    (∀ o ∈ fifo.allHarts, o.id ≠ fifo.hart.id → gangOf o.id = gangOf fifo.hart.id → o.wait = none ∧ o.turn = none) ∧
    (fifo.hart.base 0).toNat < clusterBase + clusterSize ∧ fifo.hart.vlen ≤ tagMvl (fifo.hart.tag 1) ∧
    ({ K with entries := [[1], [2]] } : Bank).entries = [1] :: [[2]] := by decide +kernel

/-! ### Versioned memory, exchange, jobs, banks, matrix engine -/

/-- With versioned granule 0 at versions 3 and 5 of 0x40000. -/
def versions : State := inRegion (regs [(6, 0x40008), (7, 4), (16, 0x40000)] (three .i32))
def region35 : Region := { region0 with granules := [{ index := 0, latest := 5, slots := [some (3, 30), some (5, 50)] }], cursors := [some 3] }
def versioned : State := { versions with regions := [region35] }

theorem witness_LeadsToGranule : Claim.LeadsToGranule .load versioned 0x40008 0x40008 0 region35 0 ∧
    Claim.LeadsToGranule .store versioned 0x40000 0x40000 0 region35 0 ∧ OnStrand versioned ∧
    LeadsToDevice .load versioned 0x30008 0x30008 := by
  unfold Claim.LeadsToGranule OnStrand LeadsToDevice; decide +kernel
/-- Versions 4 (a value), 2 (below the horizon 3), 6 (above LATEST), the snapshot; the edges 3 and 5 are values. -/
theorem witness_VersionedLoads : (region35.granule 0).latest = 5 ∧ region35.horizon = 3 ∧ versioned.badLines = [] ∧ versioned.hart.due = none ∧
    some ((3 : BitVec 32), (30 : BitVec 1024)) ∈ (region35.granule 0).slots := by decide +kernel
theorem test_ldv : x5 (.ldv 5 6 7 0) (regs [(6, 0x40000)] versioned) = some 30 ∧ x5 (.ldv 5 6 7 0) (regs [(6, 0x40000), (7, 5)] versioned) = some 50 ∧
    x5 (.ldv 5 6 7 0) (regs [(6, 0x40000), (7, 3)] versioned) = some 30 := by decide +kernel
theorem test_ldv_below_horizon : (nextOf (exec (.ldv 5 6 7 0) (handled (regs [(7, 2)] versioned)))).map (·.hart.csr.scause.extractLsb' 0 8) =
    some 0x18 := by decide +kernel

/-- R118: slot 0 below the kept version 5 of a horizon 5 is free; so is an empty slot. -/
theorem witness_VersionedStores : (region0.granule 0).slots[1]? = some none ∧ (region0.granule 0).latest < 1 ∧
    (3 : BitVec 32).toNat < (region35.granule 0).keep 5 ∧ ¬ (3 : BitVec 32).toNat < (region35.granule 0).keep (region35.horizonAt 0) ∧
    0 < region0.pages.length * 512 := by decide +kernel

/-- A value read, without the state. -/
def gotOf {α : Type} : Got α → Option α
  | .ok a _ => some a
  | _ => none

/-- A block read within the package, judged by evaluation. -/
theorem reads_block (s : State) (va : Word) (n v : Nat) (hv : gotOf (s.readBlock va n) = some v)
    (hr : ((List.range (n / 8)).all fun k => ! (s.resolve s.hart.ctx .load (va + 8 * BitVec.ofNat 64 k)).isRemote) = true) :
    s.readBlock va n = .ok v s := by
  cases h : s.readBlock va n with
  | ok w t =>
    have ht := readBlock_same h (by simpa using hr)
    rw [h] at hv; cases hv; rw [ht]
  | _ => rw [h] at hv; cases hv

/-- Bytes at 0x30000, to which x6 leads. -/
def withBytes (l : List Byte) (s : State) : State := regs [(6, 0x30000)] { s with mem := s.mem.setBytes 0x30000 l }

theorem witness_VectorVersioned : let s := versioned
    s.hart.vlen ≠ 0 ∧ s.hart.vlen ≤ tagMvl (s.hart.tag 1) ∧ (s.hart.base 0).toNat % 128 = 0 ∧ s.hart.active 0 ≠ [] ∧
    (∀ e ∈ s.hart.active 0, ∃ l t, s.versionedBytes (s.hart.base 0) 4 128 0 e = .ok l t ∧ l = leBytes 128 30) ∧
    (on (fun h => { h with csr := { h.csr with vl := 32 } }) s).hart.vlen * 32 / 8 % 128 = 0 ∧ s.hart.storesFull = false ∧
    s.hart.classPending 3 = false ∧ s.hart.firstElem = 0 := by
  refine ⟨by decide +kernel, by decide +kernel, by decide +kernel, by decide +kernel, ?_, by decide +kernel, by decide +kernel,
    by decide +kernel, by decide +kernel⟩
  have : versioned.hart.active 0 = [0, 1] := by decide +kernel
  rw [this]
  intro e he
  fin_cases he <;> exact ⟨_, _, rfl, by decide +kernel⟩

theorem witness_Publish : let s := regs [(6, 0x40000), (7, 256)] versioned
    (gotOf (match s.rangeRegion none (256 / 128) 0x40000 with | .ok l => .ok l s | .error _ => .stall s) = some [0, 1]) ∧
    s.hart.storesFull = false ∧ s.hart.classPending 0 = false ∧ Claim.LeadsToGranule .store s 0x40000 0x40000 0 region35 0 ∧
    Claim.LeadsToGranule .load s 0x40000 0x40000 0 region35 0 ∧
    region35.cursors[0]? = some (some 3) ∧ region35.cursors.length ≤ 1 := by
  unfold Claim.LeadsToGranule; decide +kernel

/-- R279: depth 2, one cursor, scope 4, zero fill, one page at 0x50000, three pool pages listed at 0x30040. -/
def card : List Byte := leBytes 64 (1 + 2 * 2 ^ 16 + 2 ^ 24 + 4 * 2 ^ 32 + 0x50000 * 2 ^ 64 + 0x10000 * 2 ^ 128 + 0x30040 * 2 ^ 256 + 3 * 2 ^ 320) ++
  leBytes 8 0x60000 ++ leBytes 8 0x70000 ++ leBytes 8 0x80000
def declaring : State := super (withBytes card S)
theorem witness_RegionsAreDeclared : Supervisor declaring ∧ (declaring.hart.getX 6).toNat % 64 = 0 ∧
    declaring.readBlock (declaring.hart.getX 6) 64 = .ok (leNat (card.take 64)) declaring ∧
    (declaring.declareStatus (RegionDescriptor.parse (leNat (card.take 64)))).toOption = some [0x50000] ∧
    declaring.poolPages (RegionDescriptor.parse (leNat (card.take 64))) [0x60000, 0x70000, 0x80000] = some [0x60000, 0x70000, 0x80000] ∧
    (RegionDescriptor.parse 2).format ≠ 1 ∧ (RegionDescriptor.parse 1).inRange = false ∧
    declaring.poolPages (RegionDescriptor.parse (leNat (card.take 64))) [0x60001] = none := by
  refine ⟨by unfold Supervisor OnStrand; decide +kernel, by decide +kernel, reads_block _ _ _ _ (by decide +kernel) (by decide +kernel), ?_⟩
  decide +kernel
theorem test_vrdecl : x5 (.vrdecl 5 6) declaring = some 0 ∧ x5 (.vrdecl 5 6) (super (withBytes (leBytes 64 2) S)) = some 1 := by decide +kernel
theorem witness_RegionsAreFreed : let s := regs [(6, 0x40000)] (super versioned)
    s.regions = [] ++ region35 :: [] ∧ region35.part = s.hart.part ∧ region35.base = (s.hart.getX 6).toNat ∧
    ∀ r ∈ s.regions, r.part = s.hart.part → r.base ≠ (S.hart.getX 6).toNat := by decide +kernel

/-! ### Sorted exchange -/

/-- One receiver, the opener's own bank 0, I32 keys, one INT32 payload element, generation 7. -/
def desc0 : SxDescriptor :=
  { split := 0, rxBank := 0, rpr := 1, receivers := 1, slog2 := 0, span := 0, elements := 1, det := false, wideKey := false,
    ptype := .int32, comb := .none, gen := 7 }
def session0 : Session :=
  { part := 0, sid := 2, live := true, retired := none, descAddr := 0x30000, desc := desc0, opener := S.hart.id, ranks := 1,
    completed := 0, participants := [.join S.hart.id 0], records := [], samples := [], laterRecords := [], laterSamples := [], sdrop := false, splitters := [],
    receivers := [.fresh 0] }
/-- The strand of `s` in a gang with one FIFO bank and in session `x`. -/
def inSession (x : Session) (s : State) : State := { inGang (.fifo 8 1023) s with sessions := [x] }

theorem witness_SessionsOpen : let s := inGang (.fifo 8 1023) (withBytes (leBytes 128 (1 + 7 * 2 ^ 16 + 2 * 2 ^ 27 + 2 ^ 32)) S)
    OnStrand s ∧ s.readBlock 0x30000 128 = .ok (1 + 7 * 2 ^ 16 + 2 * 2 ^ 27 + 2 ^ 32) s ∧
    (parseSession (1 + 7 * 2 ^ 16 + 2 * 2 ^ 27 + 2 ^ 32) s.spanRanks).toOption = some desc0 ∧ (if s.ownSpan then { desc0 with span := min desc0.span 1 } else desc0) = desc0 ∧
    s.receiveBankOk desc0 s.hart.id = true ∧ s.readKeys (desc0.keyBits / 8) 0 desc0.split = .ok [] s ∧ ascending [] = true ∧
    s.session? s.hart.part 2 = none ∧ S.receiveBankOk desc0 S.hart.id = false ∧ ascending [2, 1] = false ∧
    (parseSession 2 1).toOption = none := by
  refine ⟨by unfold OnStrand; decide +kernel, reads_block _ _ _ _ (by decide +kernel) (by decide +kernel), by decide +kernel, by decide +kernel,
    by decide +kernel, rfl, by decide +kernel, by decide +kernel, by decide +kernel, by decide +kernel, by decide +kernel⟩
theorem witness_SessionsAreJoined : let x := { session0 with participants := [] }
    let s := inSession x (regs [(6, 0x30000)] S)
    s.session? s.hart.part 2 = some x ∧ x.live = true ∧ x.covers s.hart.id = true ∧ s.hart.getX 6 = x.descAddr ∧
    s.receiveBankOk x.desc x.opener = true ∧ x.participant? s.hart.id = none ∧ s.serves x.desc x.opener ≠ none := by decide +kernel

theorem witness_TakesPart : Claim.TakesPart 2 session0 (.join S.hart.id 0) (inSession session0 S) := by
  unfold Claim.TakesPart OnStrand; decide +kernel
/-- The clauses of SXROUND: a round to close, one that is complete with a report due, one given up at a trap, and a retired participant. -/
theorem witness_Rounds : let q := SxParticipant.join S.hart.id 0
    (∀ z ∈ [{ q with rounds := 1, bad := [1] }, { q with arrived := true, closing := some 1 }],
      Claim.TakesPart 2 { session0 with participants := [z] } z (inSession { session0 with participants := [z] } S)) ∧
    S.hart.wait = none ∧ S.hart.abandoned = [] ∧ q.rounds + 1 = 1 ∧
    (waits .sxRound 2).kind = .sxRound ∧ (waits .sxRound 2).addr = BitVec.ofNat 64 2 ∧ (waits .barrier 2).kind ≠ .sxRound ∧
    (on (fun h => { h with abandoned := [{ uih := false, pc := h.pc, wait := { waits .sxRound 2 with elem := 1 } }] }) S).hart.abandoned.length = 1 ∧
    (inSession { session0 with participants := [{ q with stale := true }] } S).session? 0 2 ≠ none := by
  unfold Claim.TakesPart OnStrand; decide +kernel

/-- Keys 4 and 5 of register 1 with one-element payloads in register 2. -/
def sending : State := inSession session0 (vectors 0x0000000500000004 0x0000000900000008 .i32)
theorem witness_RecordsAreSent : let h := sending.hart
    Claim.TakesPart 2 session0 (.join S.hart.id 0) sending ∧ h.judgeSend 1 2 desc0 = none ∧
    ((List.range h.vlen).filter fun e => (h.getP 0).getLsbD e) = [0, 1] ∧ ((List.range h.vlen).filter fun e => (h.getP 1).getLsbD e) = [] ∧
    [0, 1].map (h.elem 1) = [4, 5] ∧ h.tag 1 = .i32 ∧ S.hart.tag 1 ≠ .i64 ∧
    (.join S.hart.id 0 : SxParticipant).now.runs < 16 ∧ (.join S.hart.id 0 : SxParticipant).arrived = false ∧
    desc0.elements ≠ 0 ∧ ({ desc0 with elements := 0 }).elements = 0 := by unfold Claim.TakesPart OnStrand; decide +kernel

/-- In round 1, with a record that has landed; and before it has. -/
def part1 : SxParticipant := { SxParticipant.join S.hart.id 0 with rounds := 1 }
def record4 : SxRecord := { key := 4, source := 0, run := 0, position := 0, payload := [9], scale := 0 }
def landed : Session := { session0 with completed := 1, participants := [part1], receivers := [{ SxReceiver.fresh 0 with
  buffer := [(1, record4)], finished := 1, tallies := [{ round := 1, received := 1, nulls := 0, dropped := false }] }] }
def coming : Session := { session0 with completed := 1, participants := [part1], receivers := [{ SxReceiver.fresh 0 with
  incoming := [(1, [record4])], tallies := [{ round := 1, received := 0, nulls := 0, dropped := false }] }] }
theorem witness_RecordsAreReceived : let s := inSession landed (three .i32)
    Claim.TakesPart 2 landed part1 s ∧ s.hart.vlen = 2 ∧ S.hart.vlen = 0 ∧ s.serves landed.desc landed.opener = some 0 ∧
    ((inSession coming (three .i32)).serves coming.desc coming.opener = some 0 ∧ (SxReceiver.fresh 0).cut = false ∧
      (SxReceiver.fresh 0).buffer = [] ∧ (SxReceiver.fresh 0).finished < part1.rounds) ∧
    1 + (2 * desc0.elements + 255) / 256 ≤ 32 ∧ ¬ (32 + (2 * desc0.elements + 255) / 256 ≤ 32) := by
  unfold Claim.TakesPart OnStrand; decide +kernel
theorem test_sxrecv : (nextOf (exec (.sxrecv 1 2 2 3) (inSession landed (three .i32)))).map
    (fun t => (t.hart.elem 1 0, t.hart.elem 2 0, t.hart.csr.vl, (t.hart.getP 3).getLsbD 0)) = some (4, 9, 1, true) := by decide +kernel
theorem witness_SessionStatus : let s := inSession landed S
    Claim.TakesPart 2 landed part1 s ∧ s.serves landed.desc landed.opener = some 0 ∧ S.session? 0 2 = none ∧ OnStrand S := by
  unfold Claim.TakesPart OnStrand; decide +kernel

/-- A session over two ranks, of which the other has stopped (R450). -/
def spanning : Session := { session0 with desc := { desc0 with span := 2 }, ranks := 2 }
def peerStopped : State :=
  { S with parts := S.parts.set 0 { S.parts[0] with ranks := [some 0, some 5] }, fabric := { S.fabric with stopped := [(0, 5)] } }
theorem witness_RoundsAreLost : (inSession spanning peerStopped).roundLost spanning = true ∧ (inSession session0 S).roundLost session0 = false ∧
    Claim.TakesPart 2 spanning (.join S.hart.id 0) (inSession spanning peerStopped) ∧
    (∀ y ∈ (inSession spanning peerStopped).sessions, ∀ z ∈ y.participants, z.arrived = false) ∧ S.hart.wait = none ∧ S.hart.abandoned = [] ∧
    (inSession coming (three .i32)).roundLost coming = false ∧ spanning.desc.span = 2 ∧ 1 < spanning.ranks := by
  unfold Claim.TakesPart OnStrand; decide +kernel

theorem witness_RoundsComplete : let q := { SxParticipant.join S.hart.id 0 with arrived := true }
    let x := { session0 with participants := [q] }
    (inSession x S).session? 0 2 = some x ∧ (inSession x S).roundReady x = true ∧ (inSession session0 S).roundReady session0 = false ∧
    (inSession x S).sessionOver x = false ∧
    (∀ z ∈ x.participants, z.request = .none) := by decide +kernel
theorem witness_StreamsAreInRecordOrder : session0.desc.comb = .none ∧ record4 ∈ { session0 with records := [record4] }.records := by decide +kernel
theorem witness_RecordsLand : let s := inSession coming S
    s.session? 0 2 = some coming ∧ coming.participant? (coming.serving 0) = some part1 ∧
    (∃ r, coming.receivers.find? (fun r => r.index == 0) = some r ∧ r.incoming = (1, record4 :: []) :: [] ∧ r.cut = false ∧ r.freeing = none ∧
      r.buffer.length < 262144 / coming.desc.recordBytes) := by
  refine ⟨by decide +kernel, by decide +kernel, _, rfl, by decide +kernel, by decide +kernel, by decide +kernel, by decide +kernel⟩
theorem witness_RecordsAreDropped : 262144 / ({ desc0 with elements := 64 }).recordBytes ≤ (List.replicate 1008 record4).length ∧
    ¬ 262144 / ({ desc0 with elements := 64 }).recordBytes ≤ (List.replicate 1007 record4).length := by decide +kernel

/-! ### Items, banks, matrix engine -/

/-- A copy card and a tile card (R302): bit 21 is TILES; a ring aligned to 64. -/
def jobs (v : Nat) : State := withBytes (leBytes 128 v) S
theorem witness_Jobs : ∀ v ∈ [2, 2 + 2 ^ 21], OnStrand (jobs v) ∧
    (jobs v).hart.getX 6 = 0x30000 ∧ (jobs v).hasRoom (jobs v).myDie = true ∧ (jobs v).hart.cnt.tiles ≠ 0xFFFF ∧
    (jobs v).hart.cnt.copies ≠ 0xFFFF ∧ gotOf ((jobs v).readBlock 0x30000 128) = some v := by
  unfold OnStrand; decide +kernel
theorem witness_Jobs_read : (jobs 2).readBlock 0x30000 128 = .ok 2 (jobs 2) := reads_block _ _ _ _ (by decide +kernel) (by decide +kernel)
/-- A job of the strand of `S` with card `v`. -/
def job (v : Nat) : Job where
  item := 0
  die := 0
  ctx := .strand S.hart.id
  id := 1
  part := 0
  asid := S.hart.csr.asid
  troot := S.hart.csr.troot
  super := false
  gang := none
  det := false
  rank := 0
  card := leBytes 128 v
  waited := false
  hold := none
  expired := none
  begun := false
  kept := []
  progress := 0
  todo := []
  cures := []
  ending := none
  slot := none
  replies := []
  result := none
  complete := false

/-- A die with 1,024 jobs in flight has no room. -/
theorem witness_NoRoom : ({ S with jobs := List.replicate 1024 (job 2) } : State).hasRoom 0 = false := by decide +kernel

/-- A launch header for queue 0: a stack of 2^12 bytes, no banks, format 1 (R348). -/
def header : Nat := 1 + 12 * 2 ^ 20
/-- Queue 0 enabled for partition 0. -/
def queued (s : State) : State := { s with queues := s.queues.set 0 { s.queues[0] with cfg := s.queues[0].cfg ||| 0x8000000000000000 } }
theorem witness_Launches : let s := queued (jobs header)
    OnStrand s ∧ checkHeader header false = none ∧ headerQueue header = 0 ∧ s.queues[0].cfg.getLsbD 63 = true ∧
    s.queues[0].cfg.toNat / 2 ^ 59 % 8 = s.hart.part.val ∧ S.queues[0].cfg.getLsbD 63 = false ∧ s.hasRoom s.myDie = true := by
  unfold OnStrand; decide +kernel
theorem witness_Launches_read : (queued (jobs header)).readBlock 0x30000 128 = .ok header (queued (jobs header)) :=
  reads_block _ _ _ _ (by decide +kernel) (by decide +kernel)
theorem test_launch : x5 (.launch 5 6) (queued (jobs header)) = some 1 ∧ x5 (.launch 5 6) (jobs header) = some 0x8000000000000003 := by
  decide +kernel

theorem witness_BankSwitches : let s := inGang .scratch S
    OnStrand s ∧ s.bank? (some (gangOf s.hart.id)) 0 = some (bank0 .scratch) ∧ s.bank? (some (gangOf s.hart.id)) 1 = none ∧
    bankModeOf 0 = some .cache ∧ (bank0 .scratch).future = .scratch ∧ bankModeOf 3 = none ∧
    (regs [(7, 0x8000000000000000)] s).hart.getX 7 = 0x8000000000000000 := by unfold OnStrand; decide +kernel
theorem witness_BankSwitchesEnd : let k := { bank0 .scratch with queued := [.cache] }
    let s := { S with gangs := [gang0 [k]] }
    s.bank? (some (gangOf s.hart.id)) 0 = some k ∧ k.switching = none ∧ k.receive = false ∧
    ({ k with switching := some .cache } : Bank).switching = some .cache ∧
    (on (fun h => { h with wait := some (waits .push 0x20000000000000) }) s).hart.wait.isSome = true := by decide +kernel

theorem witness_Matrix : OnControl 0 (onControl S) ∧ (onControl S).clusters[0].queue.length < 16 ∧ OnStrand S ∧
    (onControl { S with clusters := S.clusters.set 0 { S.clusters[0] with queue := List.replicate 16 .zero } }).clusters[0].queue.length = 16 := by
  unfold OnControl OnStrand; decide +kernel
theorem witness_MatrixEffect : let q := fun o : MatrixOp => { S.clusters[0] with queue := [o], busy := true, mode := 1, bMode := some 1 }
    (q (.mma 0)).busy = true ∧ (q (.mma 0)).mode ≠ 0 ∧ (q (.mma 0)).bMode = some (q (.mma 0)).mode ∧ S.clusters[0].busy = false ∧
    ((0x20000000 : Word).extractLsb' 27 3).toNat ≤ 4 := by decide +kernel
/-- MODE 0, its B latch filled in that mode. -/
theorem witness_MmaFloats : let q := { S.clusters[0] with queue := [.mma 2], busy := true, mode := 0, bMode := some 0 }
    q.busy = true ∧ q.queue = .mma 2 :: [] ∧ q.mode = 0 ∧ q.bMode = some 0 := by decide +kernel
/-- A byte as `Claim.EngineByte` has it, judged by evaluation. -/
def byteOk (s : State) (g : GangId) (read : Bool) (a : Nat) (v : Byte) : Bool :=
  let b := (a - clusterBase) / 0x40000
  let off := (a - clusterBase) % 0x40000
  decide (clusterBase ≤ a ∧ b < 48) && match s.bank? (some g) b with
    | some K => decide (K.switching = none ∧ K.mode = .scratch ∧ (read = true → K.bad.contains (off / 32) = false) ∧ K.bytes.get off = v)
    | none => false
theorem byte_of {s : State} {g : GangId} {read : Bool} {a : Nat} {v : Byte} (h : byteOk s g read a v = true) : Claim.EngineByte s g read a v := by
  simp only [byteOk, Bool.and_eq_true, decide_eq_true_eq] at h
  obtain ⟨⟨h1, h2⟩, h3⟩ := h
  split at h3
  · next K e =>
    obtain ⟨k1, k2, k3, k4⟩ := of_decide_eq_true h3
    exact ⟨_, _, K, by omega, h2, Nat.mod_lt _ (by decide), e, k1, k2, k3, k4⟩
  · cases h3
/-- An engine whose oldest instruction is `o`, in mode `m`, for a gang with one scratchpad bank; its tile is one element. -/
def engine (m : BitVec 3) (o : MatrixOp) : State :=
  { inGang .scratch S with clusters := S.clusters.set 0 { S.clusters[0] with queue := [o], busy := true, mode := m, trowsM1 := 0, tcolsM1 := 0, owner := some S.hart.id } }
/-- MGATHER of one row whose index entry is 0, MLDB in mode 0 and in mode 2, all from bank 0. -/
theorem witness_Latches : let g := gangOf S.hart.id
    let o := MatrixOp.gather 0x20000000000000 0x20000000000000 (1 * 2 ^ 32) 0 0
    (engine 0 o).clusters[0].busy = true ∧ (engine 0 o).clusters[0].queue = o :: [] ∧ gangOf ((engine 0 o).clusters[0].owner.getD S.hart.id) = g ∧
    min (((1 * 2 ^ 32 : Word)).extractLsb' 32 9).toNat 256 = 1 ∧ (0x20000000000000 : Word).toNat % 128 = 0 ∧
    (∀ i, i < 128 → Claim.EngineByte (engine 0 o) g true (0x20000000000000 + i) 0) ∧
    ∀ m ∈ [(0 : BitVec 3), 2], ∀ k ∈ List.range 128, ∀ i ∈ [0, 127], Claim.EngineByte (engine m (.ldb 0x20000000000000)) g true (0x20000000000000 + 128 * k + i) 0 := by
  refine ⟨rfl, rfl, rfl, by decide +kernel, by decide +kernel, fun i hi => byte_of ?_, fun m hm k hk i hi => byte_of ?_⟩
  · have h : ∀ i ∈ List.range 128, byteOk (engine 0 (.gather 0x20000000000000 0x20000000000000 (1 * 2 ^ 32) 0 0)) (gangOf S.hart.id) true (0x20000000000000 + i) 0 = true := by
      decide +kernel
    exact h i (List.mem_range.mpr hi)
  · revert m k i; decide +kernel
theorem witness_Drains : let o := MatrixOp.drain 0x20000000000000 1024 .native
    let s := engine 0 o
    let q := s.clusters[0]
    let inTile := fun m n : Nat => m < 256 ∧ n < 256 ∧ 256 * q.brow.toNat + m ≤ q.trowsM1.toNat ∧ 256 * q.bcol.toNat + n ≤ q.tcolsM1.toNat
    q.busy = true ∧ q.queue = o :: [] ∧ (0x20000000000000 : Word).toNat % 4 = 0 ∧ (1024 : Word).toNat % 4 = 0 ∧ q.mode = 0 ∧
    (∀ m n i, inTile m n → i < 4 → Claim.EngineByte s (gangOf S.hart.id) false (((0x20000000000000 : Word) + BitVec.ofNat 64 m * 1024).toNat + n * 4 + i) 0) ∧
    (∀ m n m' n' : Nat, inTile m n → inTile m' n' → m = m') ∧ Memory.wf (bank0 .scratch).bytes := by
  have hq : (engine 0 (.drain 0x20000000000000 1024 .native)).clusters[0].trowsM1.toNat = 0 ∧
    (engine 0 (.drain 0x20000000000000 1024 .native)).clusters[0].tcolsM1.toNat = 0 := by decide +kernel
  have h : ∀ i ∈ List.range 4, byteOk (engine 0 (.drain 0x20000000000000 1024 .native)) (gangOf S.hart.id) false
    (((0x20000000000000 : Word) + BitVec.ofNat 64 0 * 1024).toNat + 0 * 4 + i) 0 = true := by decide +kernel
  refine ⟨rfl, rfl, by decide, by decide, rfl, fun m n i hm hi => ?_, fun m n m' n' h1 h2 => ?_, by decide⟩
  · obtain ⟨-, -, h1, h2⟩ := hm
    rw [hq.1] at h1; rw [hq.2] at h2
    obtain rfl : m = 0 := by omega
    obtain rfl : n = 0 := by omega
    exact byte_of (h i (List.mem_range.mpr hi))
  · have a := h1.2.2.1; have b := h2.2.2.1
    rw [hq.1] at a b; omega
theorem test_mcfg : (nextOf (exec (.matrixInstructionComplete 0) { S with clusters := S.clusters.set 0 { S.clusters[0] with queue := [.cfg 0x20000000], busy := true } })).map
    (fun t => (t.clusters[0].mode, t.clusters[0].queue.length)) = some (4, 0) := by decide +kernel

/-! ### Steps of strands and gangs -/

/-- The strand of `S`, and another of its gang. -/
def one : StrandId := S.hart.id
def two : StrandId := { one with vcid := 1 }
def waitFor (k : WaitKind) (a : Word) (h : Hart) : Hart := { h with wait := some (waits k a) }

/-- The second GiB lies in pages in transit. -/
def moving (s : State) : State := { s with mem := s.mem.setBytes 0x11008 (leBytes 8 (2 + 3 * 2 ^ 52)) }
theorem witness_Fetches : (∀ h ∈ S.allHarts, S.transitAt h.ctx 4 h.pc = none) ∧
    let s := moving (on (fun h => { h with pc := 0x40000000, st := { h.st with att := false } }) S)
    s.strand? one = some s.hart ∧ s.hart.saved = .resident ∧ s.hart.phase = .running ∧ s.hart.st.att = false ∧ s.hart.wait = none ∧
      s.transitAt s.hart.ctx 4 s.hart.pc = some 0x40000000 := by decide +kernel
theorem witness_Visits : S.strand? one = some S.hart ∧ S.ready S.hart = true ∧
    (on (waitFor .barrier 0) S).ready (on (waitFor .barrier 0) S).hart = false := by decide +kernel

theorem witness_Reports : let s := handled (on (fun h => { h with reports := [{ src := 1, pos := 0, cause := 0x28, stval := 5 }] }) S)
    s.strand? one = some s.hart ∧ s.hart.phase = .running ∧ s.hart.saved = .resident ∧ s.hart.st.priv = false ∧ s.hart.wait = none ∧ s.hart.iss.flow = .seq ∧
    s.hart.csr.stvec ≠ 0 ∧ s.unfetchable { s.hart.ctx with super := true } 4 s.hart.csr.stvec = false := by decide +kernel
theorem witness_Notifications : let s := on (fun h => { h with notifs := [0x500000001], st := { h.st with uie := true } }) S
    s.strand? one = some s.hart ∧ s.hart.phase = .running ∧ s.hart.saved = .resident ∧ s.hart.engine = .strand ∧ s.hart.wait = none ∧
    s.hart.iss.flow = .seq ∧ s.hart.st.uie = true ∧ s.hart.st.uih = false ∧ s.hart.st.priv = false ∧
    (0x500000001 : Word).toNat % 2 ^ 32 / 2 ^ 8 % 2 ^ 17 = 0 ∧
    (on (fun h => { h with restored := true, iss := { h.iss with flow := .held 3 } }) s).hart.restored = true := by decide +kernel

/-- A second gang's strand of the same core, ready, beside a strand that waits. -/
def gang1 : Gang := { gang0 [] with id := { launch := 0, stage := 0, gang := 1 }, slot := some (0, 1) }
def rivals : State :=
  let s := on (waitFor .rendezvous 0) (inGang .scratch S)
  { s with gangs := s.gangs ++ [gang1], harts := [{ S.hart with id := { one with vcid := 16 } }] }
theorem witness_SavedRegisters : rivals.strand? one = some rivals.hart ∧ rivals.waiting rivals.hart = true ∧ rivals.hart.saved = .resident ∧
    rivals.hart.phase = .running ∧ rivals.coreBusy rivals.hart = true ∧ rivals.hart.pending = [] ∧ rivals.hart.vldbs = [] ∧
    S.waiting S.hart = false ∧ (rivals.clusterOf (gangOf one)).isSome = true ∧
    (on (fun h => { h with saved := .swapped }) rivals).hart.saved = .swapped ∧ S.hart.saved = .resident ∧
    rivals.areaCells one = rivals.hart.area ∧ rivals.areaCells one ≠ (on (fun h => { h with area := [(0, 1)] }) rivals).hart.area := by decide +kernel

/-- The gang of `rivals` beside a runnable gang of another queue. -/
def contested : State := { rivals with gangs := [gang0 [bank0 .scratch], { gang1 with slot := none, runnable := some 0, queue := 1, started := false }], harts := [] }
theorem witness_Slots : let x := gang0 [bank0 .scratch]
    contested.gang? x.id = some x ∧ contested.gangSavable x = true ∧ contested.members x.id ≠ [] ∧
    (∀ h ∈ contested.members x.id, contested.waiting h = true) ∧
    (∃ y ∈ contested.gangs, y.slot = none ∧ y.runnable.isSome = true ∧ y.ended = false ∧ y.part = x.part ∧ contested.mayRun y.queue = true ∧
      y.queue ≠ x.queue ∧ contested.levelOf y = contested.levelOf x) ∧
    (∀ y ∈ (inGang .scratch S).gangs, ¬ (y.slot = none)) ∧
    (∀ h ∈ contested.members x.id, h.cut = none) ∧ (on (fun h => { h with cut := some (1, 3) }) contested).hart.cut.isSome = true ∧
    (0x4000000000000000 : Word).getLsbD 62 = true := by decide +kernel

/-- A launch of one stage, and its first gang, runnable for the first time. -/
def launched : Launch where
  id := 0
  item := 0
  die := 0
  queue := 0
  part := 0
  asid := 0
  seq := 1
  record := 0x30000
  node := none
  stages := 1
  det := false
  entry := 0x20000
  arg0 := 7
  arg1 := 8
  stackBase := 0x100000
  stackLog2 := 12
  ctxBase := 0x200000
  spanTag := 0
  tables := 0x30000
  nexpr := 0
  nbanks := 0
  svMask := 0
  parent := none
  foot := { reads := [], writes := [] }
  sv := Vector.replicate 32 0
  stvec := 0x20000
  sscratch := 0
  troot := S.hart.csr.troot
  rank := 0
  area := []
  began := 0
  byStrand := true
  aborted := false
  state := .running
def starting : State :=
  { S with launches := [launched], gangs := [{ gang0 [] with slot := none, started := false, runnable := some 0 }], hart := Hart.idle, parts := S.parts.set 0 { S.parts[0] with cfg := S.parts[0].cfg ||| 0x00FF000000000000 } }
theorem witness_GangsStart : let x := { gang0 [] with slot := none, started := false, runnable := some 0 }
    starting.gang? x.id = some x ∧ starting.launches.find? (fun l => l.id == x.id.launch) = some launched ∧
    starting.mayRun x.queue = true ∧ starting.fits x 0 0 = true ∧ (∀ y ∈ starting.gangs, y ≠ x → y.runnable = none) ∧
    x.ended = false ∧ x.home = none ∧
    let z : Gang := { x with id := { x.id with gang := 1 }, runnable := some 1 }
    let s := { starting with gangs := starting.gangs ++ [z] }
    s.gang? z.id = some z ∧ s.fits z 0 1 = true ∧ s.mayRun z.queue = true ∧ x.part = z.part ∧ [0, 0, 0] < [1, z.id.stage.val, z.id.gang.val] := by decide +kernel
theorem test_gang_resident : (nextOf (exec (.gangResident { launch := 0, stage := 0, gang := 0 } 0 0) starting)).map (fun t =>
    (t.harts.length, (t.harts[15]?).map fun h => (h.pc, h.getX 2, h.getX 8, h.getX 9))) = some (16, some (0x20000, 0x110000, 7, 8)) := by
  decide +kernel

/-- Two attached members, the first 32 convoys behind: the second is held by the drift window. -/
def drifting : State := { inGang .scratch S with harts := [{ S.hart with id := two, streamNo := 32 }] }
theorem witness_DriftEviction : drifting.strand? one = some drifting.hart ∧ drifting.hart.st.att = true ∧
    ((drifting.members (gangOf one)).filter fun m => m.st.att && m.id != one) ≠ [] ∧
    (∀ m ∈ (drifting.members (gangOf one)).filter fun m => m.st.att && m.id != one, drifting.streamHeld m = true ∧ drifting.hart.streamNo ≤ m.streamNo) ∧
    drifting.hart.dbg.ctl.getLsbD 1 = false ∧ ((S.members (gangOf one)).filter fun m => m.st.att && m.id != one) = [] ∧ S.hart.st.att = true ∧ (on (fun h => { h with st := { h.st with att := false } }) S).hart.st.att = false := by decide +kernel

theorem witness_StoresReachTheirEvent : let p : PendingStore := { cls := 0, counted := true }
    let s := on (fun h => { h with pending := [p] }) S
    let k := { (onControl S).hart with pending := [p] }
    let u := { S with harts := [k] }
    s.strand? one = some s.hart ∧ s.hart.pending = p :: [] ∧ u.strand? one = some u.hart ∧ u.program? 0 = some k ∧ k.id = one ∧
    u.hart.pending = [] ∧ k.pending = p :: [] := by decide +kernel

/-- A background load of one element at 0x30000 in flight. -/
def vldb1 : PendingVldb := { cls := 0, dest := 1, pred := 2, tag := .i32, fmt := .native, planes := 8, elems := [{ va := 0x30000, source := .device 0x30000, sub := 0, scale := .pow 0 }], dup := 0 }
theorem witness_BackgroundLoadsComplete : let s := on (fun h => { h with vldbs := [vldb1] }) S
    s.strand? one = some s.hart ∧ s.hart.tag vldb1.dest = vldb1.tag ∧ vldb1.elems.length * tagWidth vldb1.tag ≤ 8192 ∧
    (∀ x ∈ vldb1.elems, (s.vldbRaw s.hart.ctx vldb1 x).toOption = some 0) := by decide +kernel
theorem witness_BackgroundLoadsComplete_raw : ∀ x ∈ vldb1.elems, S.vldbRaw S.hart.ctx vldb1 x = .ok 0 := by
  intro x hx; simp only [vldb1, List.mem_singleton] at hx; subst hx; rfl

theorem witness_WaitLimits : ∀ k ∈ [WaitKind.versionLoad, .versionStore, .page, .barrier, .sxRecv, .pop], let s := handled (on (waitFor k 0x40000) S)
    ∃ w, s.strand? one = some s.hart ∧ s.hart.engine = .strand ∧ s.hart.wait = some w ∧ w.met = false ∧ s.hart.phase = .running ∧
      s.hart.iss.judging = false ∧ s.hart.saved = .resident ∧ s.hart.csr.stvec ≠ 0 ∧
      s.unfetchable { s.hart.ctx with super := true } 4 s.hart.csr.stvec = false := by
  intro k hk
  refine ⟨waits k 0x40000, ?_⟩
  revert k; decide +kernel

/-- A strand that waits for the first convoy of its handler. -/
theorem witness_WaitLimits_delivery : let s := on (fun h => { waitFor .fetch 0x40000000 h with delivery := some 0x02 }) (handled S)
    ∃ w, s.strand? one = some s.hart ∧ s.hart.wait = some w ∧ w.kind = .fetch ∧ w.met = false ∧ s.hart.phase = .running ∧ s.hart.saved = .resident ∧
      s.hart.iss.judging = false ∧ s.hart.delivery = some 0x02 := ⟨_, by decide +kernel, rfl, by decide +kernel⟩

/-- An arrival of the first strand at barrier 0 of its gang. -/
def arriving (n : Nat) : State := { inGang .scratch S with barriers := [{ (S.barrier (barrierKey one 0)) with key := barrierKey one 0, pending := [{ strand := one, mask := 0xFFFF, after := n }] }] }
theorem witness_Arrivals : let s := on (fun h => { h with storesIssued := 1, pending := [{ cls := 0, counted := true}] }) (arriving 1)
    (arriving 0).strand? one = some (arriving 0).hart ∧ ((arriving 0).barrier (barrierKey one 0)).pending = [{ strand := one, mask := 0xFFFF, after := 0 }] ∧
    one ∉ ((arriving 0).barrier (barrierKey one 0)).registered ∧ (arriving 0).hart.arrivalReady { strand := one, mask := 0xFFFF, after := 0 } = true ∧
    s.hart.arrivalReady { strand := one, mask := 0xFFFF, after := 1 } = false ∧
    (∀ m ∈ (arriving 0).allHarts, participates (barrierKey one 0) m = true → m.id = one) ∧ ∀ g ∈ (arriving 0).gangs, awaitsGang (barrierKey one 0) g = false := by
  decide +kernel

theorem witness_ForkedPrograms : let f : Fork := { entry := 0x20000, arg := 5, owner := one, asid := 0, troot := S.hart.csr.troot, super := false }
    let s := { S with clusters := S.clusters.set 0 { S.clusters[0] with forks := [f] } }
    s.clusters[0].forks = f :: [] ∧ s.strand? f.owner = some s.hart ∧ s.program? 0 = none ∧
    s.golium.verified[2] = false ∧ ({ s with golium := { s.golium with verified := Vector.replicate 4 true } } : State).golium.verified[2] = true ∧
    ({ s with harts := [(onControl S).hart] } : State).program? 0 ≠ none := by decide +kernel

/-- A load of version 5 of granule 0 that waits on its list, and one of version 6: LDV x5, x6, x7. -/
def listing : State := on (fun h => { (waitFor .versionLoad 0x40008 h) with wait := some { waits .versionLoad 0x40008 with ir := 0x30531C00 } }) (regs [(7, 5)] versioned)
theorem witness_VersionWaits_woken : listing.allParked.any (fun e => listing.waitsAt 0 (some 0) e && listing.versionCame e) = true ∧
    (regs [(7, 6)] listing).allParked.length = 1 ∧ ∀ e ∈ (regs [(7, 6)] listing).allParked, (regs [(7, 6)] listing).versionCame e = false := by decide +kernel
theorem witness_VersionWaits : versioned.regions[0]? = some region35 ∧ 0 < region35.pages.length * 512 ∧ region35.horizon < 2 ^ 32 := by decide +kernel

/-! ### Jobs, queues, launches -/

/-- One job with card `v` in flight. -/
def withJob (v : Nat) : State := { S with jobs := [job v] }
/-- Cards of format 2 (R302-R309): COPY of 8 bytes, FILL, DIGEST, and one row of TILE, GATHER, SCATTER and PAGEGATHER. -/
def copyCard : Nat := 2 + 0x30000 * 2 ^ 640 + 0x30100 * 2 ^ 704 + 8 * 2 ^ 768
def fillCard : Nat := 2 + 5 * 2 ^ 16 + 0x30100 * 2 ^ 640 + 16 * 2 ^ 704 + 0x0102030405060708 * 2 ^ 768
def digestCard : Nat := 2 + 6 * 2 ^ 16 + 0x30000 * 2 ^ 640 + 0x30100 * 2 ^ 704 + 3 * 2 ^ 768
def tileCard : Nat := 2 + 2 ^ 16 + 0x30000 * 2 ^ 640 + 0x30100 * 2 ^ 704 + 2 ^ 832 + 2 ^ 853 + 2 ^ 874
def gatherCard : Nat := 2 + 2 * 2 ^ 16 + 0x30000 * 2 ^ 640 + 0x30100 * 2 ^ 704 + 0x30200 * 2 ^ 768 + 4 * 2 ^ 832 + 2 ^ 864 + 4 * 2 ^ 896 + 4 * 2 ^ 960
def scatterCard : Nat := 2 + 3 * 2 ^ 16 + 0x30000 * 2 ^ 640 + 0x30100 * 2 ^ 704 + 0x30200 * 2 ^ 768 + 4 * 2 ^ 832 + 2 ^ 864 + 4 * 2 ^ 896 + 4 * 2 ^ 960
def pageCard : Nat := 2 + 4 * 2 ^ 16 + 0x30200 * 2 ^ 640 + 0x30100 * 2 ^ 704 + 0x30300 * 2 ^ 768 + 0x30000 * 2 ^ 832 + 2 ^ 896 + 65536 * 2 ^ 928 + 2 ^ 960

/-- A job that starts, judged by evaluation. -/
def startsOk (v k : Nat) : Bool :=
  decide ((withJob v).job? 0 = some (job v) ∧ (withJob v).edgesDone (job v).asItem = true ∧ (job v).fields.rejected = none ∧
    (job v).fields.kind = k ∧ Memory.wf (withJob v).mem ∧ (job v).onList = false)
theorem starts_of {v k : Nat} (h : startsOk v k = true) : Claim.JobStarts 0 k (job v) (withJob v) := by
  obtain ⟨h1, h2, h3, h4, h5, h6⟩ := of_decide_eq_true h
  exact ⟨⟨h1, rfl, h6, .inr ⟨h2, nofun⟩⟩, rfl, h3, h4, fun _ => rfl, h5⟩
/-- One row of a job, as `Claim.RowAt` has it, judged by evaluation. -/
def rowOk (s : State) (j : Job) (k : AccessKind) (va : Word) (pa n : Nat) : Bool := (List.range n).all fun b =>
  decide (s.resolve j.reach k (va + BitVec.ofNat 64 b) = .ok (.device (pa + b)) ∧ s.regionAt j.part (pa + b) = none ∧
    s.badLines.contains ((pa + b) / 128 * 128) = false ∧ inClusterWindow (va + BitVec.ofNat 64 b) = false ∧
    s.hostRefuses j.part (pa + b) = false) && (k != .load || ! s.dirtyBad j.gang ((pa + b) / 128 * 128))
theorem row_of {s : State} {j : Job} {k : AccessKind} {va : Word} {pa n : Nat} (h : rowOk s j k va pa n = true) :
    Claim.RowAt s j k va pa n := by
  intro b hb
  have h1 := List.all_eq_true.mp h b (List.mem_range.mpr hb)
  obtain ⟨h2, h3⟩ := Bool.and_eq_true_iff.mp h1
  obtain ⟨a1, a2, a3, a4, a5⟩ := of_decide_eq_true h2
  refine ⟨a1, a2, a3, a4, a5, fun e => ?_⟩
  subst e
  simpa using h3
theorem witness_JobsStart : ∀ e ∈ [(copyCard, 0), (fillCard, 5), (digestCard, 6), (tileCard, 1), (gatherCard, 2), (scatterCard, 3), (pageCard, 4)],
    Claim.JobStarts 0 e.2 (job e.1) (withJob e.1) := by
  have h : ∀ e ∈ [(copyCard, 0), (fillCard, 5), (digestCard, 6), (tileCard, 1), (gatherCard, 2), (scatterCard, 3), (pageCard, 4)],
    startsOk e.1 e.2 = true := by decide +kernel
  exact fun e he => starts_of (h e he)
theorem witness_Rows : Claim.RowAt (withJob copyCard) (job copyCard) .load ((job copyCard).fields.addr 640) 0x30000 8 ∧
    Claim.RowAt (withJob copyCard) (job copyCard) .store ((job copyCard).fields.addr 704) 0x30100 8 ∧
    Claim.RowAt (withJob fillCard) (job fillCard) .store ((job fillCard).fields.addr 640) 0x30100 16 ∧
    Claim.RowAt (withJob digestCard) (job digestCard) .load ((job digestCard).fields.addr 640) 0x30000 3 ∧
    Claim.RowAt (withJob digestCard) (job digestCard) .store ((job digestCard).fields.addr 704) 0x30100 32 :=
  ⟨row_of (by decide +kernel), row_of (by decide +kernel), row_of (by decide +kernel), row_of (by decide +kernel), row_of (by decide +kernel)⟩
theorem witness_RowJobs : ∀ e ∈ [(tileCard, 1), (gatherCard, 2), (scatterCard, 3), (pageCard, 4)], let j := job e.1
    Claim.RowAt (withJob e.1) j .store (j.fields.addr 704) 0x30100 4 ∧ Claim.RowAt (withJob e.1) j .load (j.fields.addr 768 + 0) 0 0 ∧
    (withJob e.1).mem.getNat 0x30200 4 = 0 ∧ j.fields.vsrc = false ∧ (j.fields.addr 704).toNat % j.fields.esize = 0 ∧
    (j.fields.addr 768).toNat % 4 = 0 := by
  have h : ∀ e ∈ [(tileCard, 1), (gatherCard, 2), (scatterCard, 3), (pageCard, 4)], let j := job e.1
      rowOk (withJob e.1) j .store (j.fields.addr 704) 0x30100 4 = true ∧ rowOk (withJob e.1) j .load (j.fields.addr 768 + 0) 0 0 = true ∧
      (withJob e.1).mem.getNat 0x30200 4 = 0 ∧ j.fields.vsrc = false ∧ (j.fields.addr 704).toNat % j.fields.esize = 0 ∧
      (j.fields.addr 768).toNat % 4 = 0 := by decide +kernel
  exact fun e he => ⟨row_of (h e he).1, row_of (h e he).2.1, (h e he).2.2⟩
theorem witness_RowJobs_cards : (job tileCard).fields.box = (1, 1, 1) ∧ (job tileCard).fields.tileSource 0 0 0 = some 0x30000 ∧
    (job tileCard).fields.esize = 1 ∧ (job gatherCard).fields.get 895 864 = 1 ∧ (job gatherCard).fields.get 863 832 ≠ 0 ∧
    (job scatterCard).fields.get 863 832 = 4 ∧ (job pageCard).fields.get 991 960 = 1 ∧ (job pageCard).fields.get 927 896 = 1 ∧
    (job pageCard).fields.addr 640 = 0x30200 ∧ (job gatherCard).fields.addr 768 = 0x30200 := by decide +kernel
/-- A DIGEST that has read its three bytes, 1, 2, 3, before the first changed to 9. -/
theorem witness_DigestKeeps : let j := { job digestCard with begun := true, kept := [(0, [1, 2, 3])] }
    let s : State := { withJob digestCard with jobs := [j], mem := S.mem.setBytes 0x30000 [9, 2, 3] }
    let old := fun b : Nat => (BitVec.ofNat 8 (b + 1) : Byte)
    s.job? 0 = some j ∧ (j.fields.addr 640 + BitVec.ofNat 64 0) = 0x30000 ∧
    ([1, 2, 3] : List Byte) = (List.range (min 3 32)).map (fun b => old (0 + b)) ∧
    (∀ b, b < 3 → s.mem.get (0x30000 + b) = old b ∨ (0 ≤ b ∧ b < 0 + [1, 2, 3].length)) := by
  refine ⟨by decide +kernel, by decide +kernel, by decide +kernel, fun b hb => .inr ⟨by omega, by simpa using hb⟩⟩
theorem test_digest_of_kept_bytes : let j := { job digestCard with begun := true, kept := [(0, [1, 2, 3])] }
    ((nextOf (exec (.digest 0) { withJob digestCard with jobs := [j], mem := S.mem.setBytes 0x30000 [9, 2, 3] })).map fun t => t.mem.getBytes 0x30100 4) =
      some ((sha256 [1, 2, 3]).take 4) := by decide +kernel
theorem witness_Apart : Claim.Apart [0] 4 fun _ => 0x30100 := fun i k h1 h2 h3 => by simp at h1 h2; omega
theorem test_copy : (nextOf (exec (.copy 0) { withJob copyCard with mem := S.mem.setBytes 0x30000 [1, 2, 3] })).map (fun t => t.mem.getBytes 0x30100 8) =
    some [1, 2, 3, 0, 0, 0, 0, 0] := by decide +kernel
theorem test_fill : (nextOf (exec (.fill 0) (withJob fillCard))).map (fun t => t.mem.getBytes 0x30100 9) = some [8, 7, 6, 5, 4, 3, 2, 1, 8] := by
  decide +kernel
theorem test_gather : (nextOf (exec (.gather 0) { withJob gatherCard with mem := (S.mem.setBytes 0x30004 [1, 2, 3, 4]).setBytes 0x30200 [1] })).map
    (fun t => t.mem.getBytes 0x30100 4) = some [1, 2, 3, 4] := by decide +kernel
theorem witness_Rejected : (job (2 + 7 * 2 ^ 16)).fields.rejected = some 2 ∧ (withJob (2 + 7 * 2 ^ 16)).job? 0 = some (job (2 + 7 * 2 ^ 16)) := by
  decide +kernel

def good : JobResult := { status := 1, fault := 0, foffset := 0, bread := 8, bdeliv := 8, vwait := false, pclip := false, fclip := false }
/-- A job whose result stands; its ring is at 0x38000. -/
def ended : Job := { job (2 + 2 ^ 20 + 0x38000 * 2 ^ 64) with result := some good }
theorem witness_JobsComplete : let s := { S with jobs := [ended] }
    s.job? 0 = some ended ∧ ended.complete = false ∧ s.strand? one = some s.hart ∧ s.hart.notifs.length < 16 ∧
    (match s.ringWrite ended good with | .done () u => decide (u.hart = s.hart ∧ u.harts = s.harts) | _ => false) = true := by
  decide +kernel
theorem witness_Records : let s := { S with jobs := [ended] }
    let tail := s.mem.getNat 0x38000 8
    Memory.wf s.mem ∧ s.badLines = [] ∧ ended.slot = none ∧ s.hostRefuses ended.part 0x38000 = false ∧ s.hostRefuses ended.part 0x38040 = false ∧ s.dirtyBad ended.gang 0x38000 = false ∧
    s.resolve ended.reach .atomic 0x38000 = .ok (.device 0x38000) ∧ s.regionAt ended.part 0x38000 = none ∧
    ({ s with mem := s.mem.setBytes 0x38000 (leBytes 8 ((tail + 1) % 2 ^ 64)) } : State).resolve ended.reach .store 0x38040 = .ok (.device 0x38040) ∧
    s.regionAt ended.part 0x38040 = none := by decide +kernel

/-- Words a unit reads within the package, judged by evaluation. -/
def accOf {α : Type} : Acc α → Option α
  | .ok a _ => some a
  | _ => none
theorem reads_words (s : State) (q : Fin 64) (n : Nat) (va : Word) (l : List Nat) (hv : accOf (s.queueWords q n va) = some l)
    (hr : ((List.range n).all fun k => ! (s.resolve (s.queueCtx q) .load (va + 8 * BitVec.ofNat 64 k)).isRemote) = true) :
    s.queueWords q n va = .ok l s := by
  cases h : s.queueWords q n va with
  | ok w t =>
    have ht := unitWords_same h (by simpa using hr)
    rw [h] at hv; cases hv; rw [ht]
  | _ => rw [h] at hv; cases hv

/-- The module is ready, its firmware verified (R388, R393). -/
def ready (s : State) : State := { s with golium := { s.golium with stage := 7, verified := Vector.replicate 4 true } }

/-- Queue 0 of an enabled partition, with one ring entry at 0x38000 that names the record at 0x30000; the ASID's root is that of `S`. -/
def ringed : State :=
  let s := ready (queued (jobs header))
  { s with mem := s.mem.setBytes 0x38000 (leBytes 8 0x30000), queues := s.queues.set 0 { s.queues[0] with ring := 0x38000, tail := 1 }, parts := s.parts.set 0 { s.parts[0] with cfg := s.parts[0].cfg ||| 0x8000000000000000, roots := [(0, S.hart.csr.troot)] } }
theorem witness_RingEntries : let k := ringed.queues[0]
    k.cfg.getLsbD 63 = true ∧ k.cfg.getLsbD 62 = false ∧ ringed.accepts k.part = true ∧ k.head.toNat < k.tail.toNat ∧ k.entryAddr = 0x38000 ∧
    ringed.golium.stage = 7 ∧ ringed.golium.verified[1] = true ∧ (ringed.queueWords 0 2 k.entryAddr matches .ok ..) = true ∧
    (k.head.toNat ≤ (1 : Word).toNat ∧ (1 : Word).toNat ≤ k.head.toNat + 2 ^ (k.cfg.toNat / 2 ^ 44 % 32)) ∧ k.status = 0 := by decide +kernel
theorem witness_RingEntries_read : ringed.queueWords 0 2 0x38000 = .ok [0x30000, 0] ringed :=
  reads_words _ _ _ _ _ (by decide +kernel) (by decide +kernel)
theorem witness_RingEntries_record : let u := { ringed with queues := ringed.queues.set 0 { ringed.queues[0] with head := 1, nextSeq := 2 } }
    u.queueWords 0 16 0x30000 = .ok [header, 0, 0, 0, 0, 0, 0, 0, 0, 0, 0, 0, 0, 0, 0, 0] u ∧
      checkHeader (ofWords [header, 0, 0, 0, 0, 0, 0, 0, 0, 0, 0, 0, 0, 0, 0, 0]) true = none :=
  ⟨reads_words _ _ _ _ _ (by decide +kernel) (by decide +kernel), by decide +kernel⟩

/-- A queued launch of one stage on that queue; its tail is at 0x30000, its save area at 0x200000. -/
def waiting0 : Launch := { launched with state := .queued, tables := 0x34000 }
def readyToStart : State := { ringed with launches := [waiting0] }
theorem witness_LaunchesStart : let u := (readyToStart.unitDone (unitOf 0)).onQueue 0 fun k => k.start waiting0.seq
    readyToStart.launches.find? (fun l => l.item == 0) = some waiting0 ∧ readyToStart.itemReady waiting0 = true ∧
    (∀ m ∈ readyToStart.launches, m.item ≠ 0 → m.die = waiting0.die → readyToStart.itemReady m = true → readyToStart.startsBefore m waiting0 = false) ∧
    32 + waiting0.nbanks + 5 * waiting0.nexpr = 32 ∧ (((List.replicate 32 0).drop 32).take waiting0.nbanks).any badBankWord = false ∧
    (match shapeAll (tailEntries ((List.replicate 32 0).drop (32 + waiting0.nbanks)) waiting0.nexpr) 0 (u.initialShape waiting0 (List.replicate 32 0)) with
      | .ok _ => true | _ => false) = true := by decide +kernel
theorem witness_LaunchesStart_read : readyToStart.queueWords 0 32 0x34000 = .ok (List.replicate 32 0) readyToStart :=
  reads_words _ _ _ _ _ (by decide +kernel) (by decide +kernel)
/-- The pages at both ends of a launch's save area of 580 times 64 KiB are writable; a launch without stages has an empty area, and
starts. -/
theorem witness_LaunchesStart_area : (accOf (readyToStart.saveArea (readyToStart.queueCtx 0) 1 waiting0.ctxBase)).isSome = true ∧
    (accOf (readyToStart.saveArea (readyToStart.queueCtx 0) 1 (waiting0.ctxBase + 579 * 65536))).isSome = true ∧
    waiting0.saveBytes = 580 * 65536 ∧ waiting0.savePages = 580 ∧ ({ waiting0 with stages := 0 } : Launch).savePages = 0 ∧
    ({ readyToStart with launches := [{ waiting0 with stages := 0 }] } : State).itemReady { waiting0 with stages := 0 } = true := by decide +kernel
theorem witness_Credits : ∀ q : Fin 64, S.queues[q].lists = [] ∧ S.queues[q].owed = false := by decide +kernel
theorem witness_LaunchesComplete : let s := { S with launches := [launched], hart := Hart.idle, gangs := [{ gang0 [] with ended := true }] }
    s.launches.find? (fun l => l.id == 0) = some launched ∧ s.launchOver launched = true ∧ launched.node = none ∧
    ({ s with gangs := [gang0 []] } : State).launchOver launched = false := by decide +kernel

/-- A version-wait node for version 1 of one granule at 0x40000 (R360). -/
def waitNode : ListNode := { addr := 0x31000, words := [1 + 2 * 2 ^ 16, 0, 0, 0x40000, 128, 1, 0, 0], edges := 0, run := true, state := .running }
def badNode : ListNode := { waitNode with words := [1 + 2 * 2 ^ 16, 0, 0, 0x4000000000, 128, 1, 0, 0] }
def waitList : LaunchList := { id := 5, queue := 0, seq := 1, nodes := [waitNode], stuck := [], stopped := false, done := false }
def listed : State := { ringed with queues := ringed.queues.set 0 { ringed.queues[0] with lists := [waitList] }, regions := [region0] }
theorem witness_VersionWaitNodes : (List.finRange 64).find? (fun q => (listed.queues[q].list? 5).isSome) = some 0 ∧
    listed.queues[0].list? 5 = some waitList ∧ waitList.node? 0x31000 = some waitNode ∧ waitNode.kind = 2 ∧ waitNode.next0 = 0 ∧ waitNode.next1 = 0 ∧
    accOf (listed.rangeReached (unitOf 0) (listed.queueCtx 0) waitNode.version waitNode.granules (waitNode.obj &&& ~~~ 127)) = some false ∧
    accOf ({ listed with regions := [region35] }.rangeReached (unitOf 0) (listed.queueCtx 0) waitNode.version waitNode.granules (waitNode.obj &&& ~~~ 127)) = some true := by
  decide +kernel

/-- A node whose range no entry maps, and a conditional node over a word of memory, and over none. -/
theorem witness_NodesFault : let reached := listed.rangeReached (unitOf 0) (listed.queueCtx 0) badNode.version badNode.granules (badNode.obj &&& ~~~ 127)
    let node := fun o : Word => ({ waitNode with words := [1 + 3 * 2 ^ 16, 0, 0, o, 0, 0, 0, 0] } : ListNode)
    badNode.kind = 2 ∧ badNode.next0 = 0 ∧ badNode.next1 = 0 ∧ (match reached with | .fault .notPresent => true | _ => false) = true ∧
    (node 0x30000).kind = 3 ∧ (node 0x30000).obj = 0x30000 ∧ accOf (listed.unitRead (unitOf 0) (listed.queueCtx 0) 15 (node 0x30000).obj 4) = some [1, 0, 0xC0, 0] ∧
    (match listed.unitRead (unitOf 0) (listed.queueCtx 0) 15 (node 0x4000000000).obj 4 with | .fault .notPresent => true | _ => false) = true := by decide +kernel

/-! ### Fabric and ports -/

def flit (n : Fin 3) : FlitIn := { port := 0, fails := n }
/-- A load of 8 bytes at offset 0 of an exported page, from rank 9 of job 5. -/
def request9 : SpanReq := { src := 9, job := 5, tag := 3, inc := 0, cls := 0, seq := 0, offset := 0, op := .load 8 }
/-- `s` with every port trained, and the link controllers' firmware verified. -/
def linkUp (s : State) : State := { ready s with fabric := { s.fabric with ports := Vector.replicate 8 { Port.reset with ver := 3, keyEpoch := 1, spdm := { Spdm.reset with session := true, keys := 1 } } } }
def exporting : State := { linkUp S with parts := S.parts.set 0 { S.parts[0] with jobTag := 5, ranks := [some 9], roots := [(0, S.hart.csr.troot)], exports := [{ taddr := 0x30000, len := 0x20000, offset := 0, asid := 0, a := false, w := false, l := true }] } }
theorem witness_RequestsServed : Claim.Arrives (flit 0) exporting ∧ exporting.fabric.early = [] ∧ exporting.fabric.passed = [] ∧ exporting.fabric.waits = [] ∧
    request9.seq = exporting.fabric.expected 9 0 ∧ isAnswered request9.op = true ∧ exporting.parts[0].rankOf 9 = some 0 ∧
    exporting.parts[0].jobTag.toNat % 65536 = request9.job.toNat ∧ S.parts[0].rankOf 9 = none ∧
    (flit 2).fails = 2 ∧ exporting.linked (flit 2).port = true ∧ S.linked (flit 2).port = false := by
  unfold Claim.Arrives; decide +kernel
theorem witness_RequestsServed_read : let v := (exporting.receiveFlit (flit 0) (flitsOf request9.op)).2
    v.windowTargets 0 .load (windowPieces 0 8) = .ok [(0x30000, 8)] v ∧ v.readPiecesAt (v.spanCtx 0) [(0x30000, 8)] = .ok (List.replicate 8 0) v :=
  ⟨rfl, rfl⟩
/-- Version 6 of the granule at 0x40000, which is not there yet. -/
theorem witness_RequestsServed_wait : let r : SpanReq := { request9 with offset := 0x10000, op := .versionedLoad 6 8 }
    let v := (({ exporting with regions := [region35] } : State).receiveFlit (flit 0) (flitsOf r.op)).2
    v.serve { part := 0, port := (flit 0).port, req := r } = .wait .versionLoad := rfl

/-- A request of the strand in front, under tag 3, and the message that carries it. -/
def asked : FabricRequest := { dest := 9, via := none, by_ := .hart .strand one 0 0, addr := 0, req := { request9 with src := 0 } }
def asking : State := { linkUp S with fabric := { (linkUp S).fabric with requests := [asked] } }
def held9 : State := { asking with fabric := { asking.fabric with atSource := [spanMessage asked.req 9] } }
/-- The next message of class 0 from rank 9, and one of 32,768 before. -/
def heading (n : Fin 65536) : Heading := { src := 9, cls := 0, seq := n, flit := flit 0 }
theorem witness_Replies : Claim.Arrives (heading 0).flit asking ∧ S.fabric.requests.find? (fun r => r.req.tag == 3 && r.req.inc == 0) = none ∧
    asking.fabric.requests.find? (fun r => r.req.tag == 3 && r.req.inc == 0) = some asked ∧ asking.fabric.requests.find? (fun r => r.req.tag == 3) = some asked ∧
    asked.by_ = .hart asking.hart.engine asking.hart.id 0 0 ∧ asking.fabric.early = [] ∧ asking.fabric.passed = [] ∧
    ((heading 0).seq - asking.fabric.expected 9 0).val = 0 ∧ 32768 ≤ ((heading 32768).seq - asking.fabric.expected 9 0).val ∧
    ((heading 5).seq - asking.fabric.expected 9 0).val < 32768 := by unfold Claim.Arrives; decide +kernel
theorem witness_Unanswered : asking.fabric.requests.find? (fun r => r.req.tag == 4) = none ∧
    held9.fabric.requests.find? (fun r => r.req.tag == 3) = some asked ∧ held9.fabric.atSource.any (·.asks 3) = true ∧
    held9.fabric.cutOff 9 = false ∧ asking.fabric.atSource.any (·.asks 3) = false := by decide +kernel
/-- The cancel of the request whose turn it is, of one to come, and of one performed; its own turn is the next but one. -/
theorem witness_Cancelled : let n := asking.fabric.expected 9 0
    Claim.Arrives (heading 2).flit asking ∧ asking.fabric.passed = [] ∧ asking.fabric.early = [] ∧ S.linked (heading 2).flit.port = false ∧
    0 < ((heading 2).seq - n).val ∧ ((heading 2).seq - n).val < 32768 ∧ (0 : Fin 65536) = n ∧ 0 < ((1 : Fin 65536) - n).val ∧
    ((1 : Fin 65536) - n).val < 32768 ∧ (1 : Fin 65536) ≠ (heading 2).seq ∧ 32768 ≤ ((65535 : Fin 65536) - n).val := by unfold Claim.Arrives; decide +kernel
/-- A port that has trained, one that never has, and one in each other state. -/
theorem witness_Ports : let p := (linkUp S).fabric.ports[0]
    (linkUp S).golium.verified[3] = true ∧ S.golium.verified[3] = false ∧ p.up = true ∧ p.state ≠ .down ∧ p.ver = 3 ∧ p.spdm.session = true ∧ p.replay = [] ∧
    (linkUp S).fabric.atSource = [] ∧ Port.reset.state ≠ .down ∧ Port.reset.up = false ∧ ({ p with state := .down } : Port).state = .down ∧
    ({ p with state := .locked } : Port).state = .locked ∧ 2 ≤ p.ver.val ∧ ({ p with ver := 1 } : Port).up = true ∧ ({ p with ver := 1 } : Port).ver.val < 2 ∧
    (1 : Fin 4) ≠ 0 := by decide +kernel
theorem witness_Stopped : asked.dest = 9 ∧ asked ∈ asking.fabric.requests ∧ exporting.parts[0].ranks[0]? = some (some 9) ∧ (9 : Fin 4096) ≠ exporting.fabric.self ∧
    asked.req.job = BitVec.ofNat 16 exporting.parts[0].jobTag.toNat ∧ asked.by_ = .hart exporting.hart.engine exporting.hart.id 0 0 := by decide +kernel
/-- R376, R452: a flit that fails twice locks its port, and the request stays. -/
theorem test_port_locks : (nextOf (exec (.fabricReply { heading 0 with flit := flit 2 } 3 0 (.data [])) asking)).map (fun t => (t.fabric.ports[0].state, t.fabric.requests.length)) =
    some (.locked, 1) := by decide +kernel

/-! ### Registers and interfaces -/

/-- Partition 0 belongs to VF 1, in state `x`. -/
def owned (x : VfState) : State := { S with parts := S.parts.set 0 { S.parts[0] with cfg := 1 }, golium := { S.golium with vfs := S.golium.vfs.set 1 x } }
/-- `s` with VF 1's session open, its keys supplied. -/
def trusted (s : State) : State := { s with golium := { s.golium with vfSpdm := s.golium.vfSpdm.set 1 { Spdm.reset with session := true, keys := 1 } } }
/-- A function that writes without the TEE bit. -/
def from_ (f : Fin 64) : Caller := { function := f, tee := false }
theorem witness_Writes : Claim.MayWrite (from_ 0) 0 (ready S) ∧ Claim.MayWrite (from_ 1) 0 (ready (owned .configUnlocked)) ∧
    Claim.MayWrite (from_ 0) 0 (ready (owned .configUnlocked)) ∧ Claim.MayWrite { from_ 1 with tee := true } 0 (trusted (ready (owned .run))) := by
  unfold Claim.MayWrite; decide +kernel
theorem witness_LockedWrites : (ready (owned .run)).golium.stage = 7 ∧ S.golium.stage ≠ 7 ∧ (from_ 1).function = (owned .run).parts[0].vf ∧
    (from_ 1).tee = false ∧ (owned .run).golium.vfSpdm[(owned .run).parts[0].vf].secure = false ∧ (2 : Fin 64) ≠ 0 ∧ (2 : Fin 64) ≠ (owned .run).parts[0].vf ∧ (owned .run).parts[0].vf ≠ 0 ∧
    (owned .run).golium.vfs[(owned .run).parts[0].vf] = .run ∧ (owned .configLocked).golium.vfs[(owned .configLocked).parts[0].vf] = .configLocked ∧
    (owned .run).queues[0].part = 0 := by decide +kernel
/-- R384: no octet to enable is code 1; an octet and a grant of the first GiB are accepted; grants beside each other and one grant twice. -/
theorem witness_Configurations : S.judgeCfg 0 0x8000000000000000 ≠ 0 ∧ S.judgeCfg 0 0x8001000000000000 = 0 ∧ S.judgeCfg 0 0 = 0 ∧ S.inUse 0 = false ∧
    ({ S with launches := [launched] } : State).inUse 0 = true ∧ (0x8000100000000000 : Word) &&& 0x80FFFFFFFFC00000 ≠ S.parts[0].pmem[1] ∧
    S.badGrants 0 (S.parts[0].pmem.set 1 0x8000100000000000) = true ∧ S.badGrants 0 (S.parts[0].pmem.set 1 0x8000100000400000) = false ∧
    ¬ (S.parts[0].cfg.getLsbD 63 = true ∨ S.parts[0].enabling = true) := by decide +kernel
theorem witness_Enabling : S.parts[0].enabling = false ∧ ({ S.parts[0] with enabling := true } : Partition).enabling = true := by decide +kernel
/-- An export map of one good entry, and one whose length is not a multiple of 64 KiB. -/
theorem witness_Exports : (exportEntry (1 + 0x10000 * 2 ^ 128)).ok = true ∧ (exportEntry (1 + 0x10001 * 2 ^ 128)).ok = false ∧
    ([] : List ExportEntry).Pairwise (fun a b => overlap (a.offset, a.len) (b.offset, b.len) = false) ∧ ¬ (65 ≤ 64) := by decide +kernel
theorem witness_Queues : Claim.MayWrite (from_ 0) S.queues[0].part (ready S) ∧ (0x8000000000000000 : Word).getLsbD 63 = true ∧ S.queues[0].cfg.getLsbD 63 = false ∧
    1200 ≤ (1200 : Word).toNat % 4096 ∧ (3300 : Word).toNat % 4096 ≤ 3300 := by unfold Claim.MayWrite; decide +kernel
theorem witness_Interfaces : ∀ x ∈ [VfState.configUnlocked, .configLocked, .run, .error], (1 : Fin 64) ≠ 0 ∧ (ready (owned x)).golium.enumerable = true ∧
    S.golium.enumerable = false ∧ (ready (owned x)).golium.vfs[(1 : Fin 64)] = x ∧
    (owned x).parts[0].vf = 1 := by decide +kernel
theorem test_pcfg_needs_an_octet : (nextOf (exec (.pcfgWrite (from_ 0) 0 0x8000000000000000) (ready S))).map (fun t => t.parts[0].pstat) = some 1 := by decide +kernel

/-! ### Golium and the host -/

theorem witness_Spdm : (ready S).hears .management = true ∧ (ready S).hears .vdm = true ∧ (ready S).hears .mailbox = true ∧ S.hears .management = false ∧
    (linkUp S).hears (.partner 0) = true ∧ (∀ v, SpdmLink.management ≠ .vf v) ∧ S.link .management = Spdm.reset ∧
    ({ S with golium := { S.golium with management := { Spdm.reset with algorithms := true } } } : State).link .management =
      { Spdm.reset with algorithms := true } := ⟨by decide +kernel, by decide +kernel, by decide +kernel, by decide +kernel, by decide +kernel, nofun, rfl, rfl⟩
/-- A malformed request is answered with ERROR, code 1 (log 63). -/
theorem test_spdm_malformed : (nextOf (exec (.getVersion { link := .management, malformed := true }) (ready S))).map (·.outputs) =
    some [.spdm .management 0x7F [1]] := by decide +kernel
theorem witness_EndSession : let s := { owned .run with golium := { (ready (owned .run)).golium with vfSpdm := (owned .run).golium.vfSpdm.set 1 { Spdm.reset with session := true } } }
    (1 : Fin 64) ≠ 0 ∧ s.golium.enumerable = true ∧ s.parts[0].vf = 1 ∧ s.golium.vfSpdm[(1 : Fin 64)].session = true ∧ s.golium.vfs[(1 : Fin 64)] = .run := by decide +kernel
/-- With `witness_EndSession`, whose partition 0 runs with a session open. -/
theorem witness_DebugPolicies : (owned .run).golium.vfSpdm[(owned .run).parts[0].vf].session = false ∧ (owned .run).parts[0].vf ≠ 0 ∧ (owned .run).golium.vfs[(owned .run).parts[0].vf] = .run ∧ ¬ (S.parts[0].vf ≠ 0) := by
  decide +kernel
theorem witness_BringUp : S.golium.stage.toNat + 1 ≤ 7 ∧ ({ S.golium with verified := Vector.replicate 4 true } : Golium).imagesOk 1 = true ∧
    7 < ({ S.golium with stage := 7 } : Golium).stage.toNat + 1 := by decide +kernel
/-- R458: one cause 0x32 is ground enough to drain a cluster, two causes 0x31 are not. -/
theorem test_clusterDrain : let s := fun (b : Bool) n => { S with clusters := S.clusters.set 3 { S.clusters[3] with parityFound := b, bankFaults := n } }
    ((nextOf (exec (.clusterDrain 3) (s true 0))).map fun t => t.clusters[3].draining) = some true ∧
    ((nextOf (exec (.clusterDrain 3) (s false 2))).map fun t => t.clusters[3].draining) = some false ∧
    (S.blame (some 3) 0x32).clusters[3].parityFound = true ∧ (S.blame (some 3) 0x31).clusters[3].bankFaults = 1 := by decide +kernel
theorem witness_Fencing : let s := { S with clusters := S.clusters.set 3 { S.clusters[3] with draining := true } }
    s.drained 3 = true ∧ S.drained 3 = false ∧ (∀ l ∈ S.badLines, l / 65536 ≠ 3) ∧
    (∃ l ∈ ({ S with badLines := [3 * 65536] } : State).badLines, l / 65536 = 3) ∧ (∀ l ∈ S.rewritten, l / 65536 ≠ 3) ∧
    (∃ l ∈ ({ S with rewritten := [3 * 65536] } : State).rewritten, l / 65536 = 3) ∧ ∀ l ∈ S.badLines, l ∉ Config.sparedRow 0 := by decide +kernel

/-- The host stores 4 bytes of device memory outside every grant. -/
def hostStore : HostAcc := { function := 0, tee := false, addr := 0x50000, op := .store [1, 2, 3, 4] }
/-- A read of a register, at its offset in BAR 0. -/
def barRead (o : Nat) : HostAcc := { function := 0, tee := false, addr := o, op := .barRead }
/-- The grant of `S` covers 0x50000; partition 0 is enabled and belongs to VF 1, in state `x`. -/
def granted (x : VfState) : State := { owned x with parts := (owned x).parts.set 0 { (owned x).parts[0] with cfg := 0x8001000000000001 } }
theorem witness_HostAccesses : let s := ready State.reset
    s.golium.enumerable = true ∧ isHostMemory hostStore.addr = false ∧ isDeviceMemory hostStore.addr = true ∧ s.grantee hostStore.addr = none ∧
    s.regions = [] ∧ s.badLines = [] ∧ s.unkeyed = [] ∧ Memory.wf s.mem ∧ (granted .configUnlocked).grantee hostStore.addr = some 0 ∧
    (granted .configUnlocked).ownerState 0 = .configUnlocked ∧ (granted .run).parts[0].vf ≠ 0 ∧
    (granted .run).golium.vfs[(granted .run).parts[0].vf] = .run ∧ (granted .run).grantee hostStore.addr = some 0 ∧
    (granted .run).trusts 1 hostStore.tee = false ∧ (trusted (granted .run)).trusts 1 true = true ∧ (granted .run).parts[0].vf = 1 ∧
    hostStore.op ≠ .barRead ∧ (granted .run).ownerState 0 = .run ∧ (2 : Fin 64) ≠ 0 ∧ (2 : Fin 64) ≠ (granted .run).parts[0].vf := by decide +kernel
theorem witness_HostAccesses_op : (∀ v, hostStore.op ≠ .barWrite v) ∧ ∀ l r, hostStore.op ≠ .linkRead l r := ⟨nofun, nofun⟩
theorem witness_Registers : (granted .run).queues[0].part = 0 ∧ (1 : Fin 64) = (granted .run).parts[(granted .run).queues[0].part].vf ∧
    (granted .run).golium.vfs[(1 : Fin 64)] = .run ∧ (granted .run).trusts 1 false = false ∧ (trusted (granted .run)).trusts 1 true = true ∧
    (granted .configUnlocked).golium.vfs[(1 : Fin 64)] = .configUnlocked ∧ (ready S).golium.stage ≠ 0 ∧ (ready S).golium.enumerable = true := by decide +kernel
/-- R395: STAGE can be read over the management link before the host link is trained. -/
theorem test_linkRead : (nextOf (exec (.hostAccess { function := 0, tee := false, addr := 0, op := .linkRead .management .pcap })
    { S with golium := { S.golium with stage := 0x84 } })).map (·.outputs) = some [.linkData .management (leBytes 8 S.golium.pcap.toNat)] := by decide +kernel
/-- R383: LOCK shows while the owner is locked. -/
theorem test_bar_reads_pcfg : (nextOf (exec (.hostAccess (barRead 0x10000)) (ready (granted .run)))).map (·.outputs) =
    some [.hostData [1, 0, 0, 0, 0, 0, 1, 0xC0]] := by decide +kernel

/-! ### The machine as a whole -/

theorem witness_Words : (Instr.add 5 6 7).wf = true ∧ encode (.add 5 6 7) = some 0x02531C00 ∧ 0x02531C00 < 2 ^ 31 ∧ decode 0x02531C00 = .ok (.add 5 6 7) := by
  decide +kernel
theorem witness_Issues_state : S.parityUse [0x02531C00] = none ∧ S.midConvoy = false ∧ S.plain [0x02531C00] = true := by decide +kernel
theorem witness_Issues : Claim.Issues 0x02531C00 S := by unfold Claim.Issues Claim.AtConvoy; decide +kernel
theorem witness_Issues_effect : (Claim.issued 0x02531C00 S).badUse (.add 5 6 7) = none ∧
    (nextOf (exec (.add 5 6 7) (Claim.issued 0x02531C00 S))).isSome = true ∧
    (nextOf (exec (.add 5 6 7) (Claim.issued 0x02531C00 S))).map (fun t => (t.hart.iss.flow, t.hart.st.lact, t.parts == S.parts)) = some (.seq, false, true) ∧
    S.parts[S.hart.part].policy = false ∧ keepsStop (.add 5 6 7) = false := by unfold Claim.issued; decide +kernel
/-- Major 0x1F is reserved. -/
theorem witness_Issues_undecoded : let s := handled (State.reset.withFetchWord 32 0x3E000000)
    Claim.Issues 0x3E000000 s ∧ s.hart.engine = .strand ∧ (Claim.issued 0x3E000000 s).vectorDead = false ∧ (instrOf 0x3E000000).isNone = true := by
  unfold Claim.Issues Claim.AtConvoy Claim.issued; decide +kernel

/-- `S` with a debug policy, and in its debug block comparator 0 at its pc, breakpoints, counting and single step as `ctl` says. -/
def traced (ctl : BitVec 3) : State :=
  debugged (on (fun h => { h with dbg := { h.dbg with ctl := ctl, bkaddr := h.dbg.bkaddr.set 0 (h.pc + 1), perfsel := 0x09020100 } }) (handled S))
theorem witness_DebugRegisters : OnStrand (traced 0) ∧ (traced 0).debugReadable .perfsel = true ∧ (traced 0).debugReadable .dbgctl = false ∧ isDebug .dbgctl = true ∧
    (5 : Reg) ≠ 0 ∧ timingEvent ((traced 0).hart.eventOf 0) = false ∧ (super (traced 0)).debugReadable .dbgctl = true := by unfold OnStrand; decide +kernel
theorem witness_Breakpoints : Claim.AtConvoy 0x02531C00 (traced 1) ∧ (traced 1).breakHits = 1 ∧ (traced 1).vectorDead = false ∧ Supervisor (super (handled S)) ∧
    (traced 0).breakHits = 0 := by unfold Claim.AtConvoy Supervisor OnStrand; decide +kernel
theorem test_breakpoint : (nextOf (step (traced 1))).map (fun t => (t.hart.csr.scause.toNat % 512, t.hart.dbg.hit, t.hart.csr.sepc == (traced 1).hart.pc)) =
    some (0x0B, 1, true) := by decide +kernel
/-- Single step, and counting without it. -/
theorem witness_SingleStep : ∀ c ∈ [(4 : BitVec 3), 2], let s := traced c
    Claim.Issues 0x02531C00 s ∧ OnStrand s ∧ s.hart.st.priv = false ∧ s.parts[s.hart.part].policy = true ∧ (Claim.issued 0x02531C00 s).badUse (.add 5 6 7) = none ∧
    (nextOf (exec (.add 5 6 7) (Claim.issued 0x02531C00 s))).map (fun t => (t.hart.engine, t.hart.st.lact, t.hart.part, t.hart.iss.flow)) =
      some (.strand, false, s.hart.part, .seq) ∧
    (nextOf (exec (.add 5 6 7) (Claim.issued 0x02531C00 s))).map (fun t => (t.parts == s.parts, t.hart.dbg.ctl, t.vectorDead)) = some (true, c, false) := by
  unfold Claim.Issues Claim.AtConvoy Claim.issued OnStrand; decide +kernel
theorem test_single_step_and_counters : ((nextOf (step (traced 4))).map fun t => (t.hart.csr.scause.toNat % 512, t.hart.dbg.hit, t.hart.csr.stval == (traced 4).hart.pc)) =
    some (0x0B, 0, true) ∧ ((nextOf (step (traced 2))).map fun t => t.hart.dbg.perfcnt.toList) = some [0, 1, 1, 0] := by decide +kernel
theorem witness_Power : S.golium.powered = true ∧ ({ S.golium with powered := false } : Golium).powered = false ∧ S.agenda = [] := by decide +kernel
theorem witness_MemoriesCanonical : MemoriesCanonical S ∧ (∃ t, step S = .next t) := by
  refine ⟨by unfold MemoriesCanonical; decide +kernel, ?_⟩
  cases h : step S with
  | next t => exact ⟨t, rfl⟩
  | _ => have : (nextOf (step S)).isSome = true := by decide +kernel
         rw [h] at this; cases this

/-- FIPS 180-4: the digest of "abc". -/
theorem test_sha256 : (sha256 [0x61, 0x62, 0x63]).take 8 = [0xBA, 0x78, 0x16, 0xBF, 0x8F, 0x01, 0xCF, 0xEA] := by decide +kernel

end Sys2Proof.Tests
end

section
/-! Settled here: O57, the state right after reset, and O49, bring-up, heat, reset and power, parts out of service (R21, R388-R396, R443,
R458, R459). Both end in the last part; before it stands what Golium's operations do, said once for each. -/

namespace Sys2Proof.Machine

/-! ### CLMASK shows the clusters in service (R21) -/

/-- A number summed up from the powers of two of the bits that are set. -/
theorem foldl_add_two_pow {n : Nat} (f : Fin n → Bool) (k m : Nat) :
    (List.finRange n).foldl (fun m i => if f i then m + 2 ^ (i.val + k) else m) m = m + 2 ^ k * Nat.ofBits f := by
  induction n generalizing k m with
  | zero => simp
  | succ n ih =>
    have hs : ∀ i : Fin n, i.val + 1 + k = i.val + (k + 1) := fun i => by omega
    have := ih (f ∘ Fin.succ) (k + 1)
    simp only [Function.comp_apply] at this
    simp only [List.finRange_succ, List.foldl_cons, List.foldl_map, Fin.val_succ, hs, this, Nat.ofBits_succ, Fin.val_zero, Nat.zero_add]
    cases f 0 <;> simp <;> ring

theorem State.clmask_getLsbD (s : State) (c : Fin 64) : s.clmask.getLsbD c.val = s.clusters[c].enabled := by
  have h := foldl_add_two_pow (fun c : Fin 64 => s.clusters[c].enabled) 0 0
  simp only [Nat.add_zero, Nat.pow_zero, Nat.one_mul, Nat.zero_add] at h
  rw [State.clmask, h, BitVec.getLsbD_ofNat, Nat.testBit_ofBits_lt _ _ c.isLt]
  simp

/-! ### What a measurement and the limits of R459 can change -/

/-- `t` is `s` after measurements were taken, errors sampled or limits judged: the notes on the ports, RADV, the errors shown, the log, the
outputs and the free values used may differ, and RADV is not taken back. -/
def LimitsJudged (s t : State) : Prop := ∃ f r e l o d,
  t = { s with fabric := f, golium := { s.golium with radv := r, cerr := e, log := l }, outputs := o, draws := d } ∧
  (s.golium.radv = true → r = true)

theorem LimitsJudged.refl (s : State) : LimitsJudged s s := ⟨_, _, _, _, _, _, rfl, id⟩

theorem LimitsJudged.trans {s t u : State} (h : LimitsJudged s t) (k : LimitsJudged t u) : LimitsJudged s u := by
  obtain ⟨_, _, _, _, _, _, rfl, hr⟩ := h
  obtain ⟨_, _, _, _, _, _, rfl, kr⟩ := k
  exact ⟨_, _, _, _, _, _, rfl, kr ∘ hr⟩

theorem LimitsJudged.mem {s t : State} (h : LimitsJudged s t) : t.mem = s.mem := by obtain ⟨_, _, _, _, _, _, rfl, -⟩ := h; rfl
theorem LimitsJudged.clusters {s t : State} (h : LimitsJudged s t) : t.clusters = s.clusters := by obtain ⟨_, _, _, _, _, _, rfl, -⟩ := h; rfl
theorem LimitsJudged.parts {s t : State} (h : LimitsJudged s t) : t.parts = s.parts := by obtain ⟨_, _, _, _, _, _, rfl, -⟩ := h; rfl
theorem LimitsJudged.queues {s t : State} (h : LimitsJudged s t) : t.queues = s.queues := by obtain ⟨_, _, _, _, _, _, rfl, -⟩ := h; rfl
theorem LimitsJudged.rewritten {s t : State} (h : LimitsJudged s t) : t.rewritten = s.rewritten := by obtain ⟨_, _, _, _, _, _, rfl, -⟩ := h; rfl
theorem LimitsJudged.stage {s t : State} (h : LimitsJudged s t) : t.golium.stage = s.golium.stage := by obtain ⟨_, _, _, _, _, _, rfl, -⟩ := h; rfl
theorem LimitsJudged.fencedCount {s t : State} (h : LimitsJudged s t) : t.golium.fencedCount = s.golium.fencedCount := by
  obtain ⟨_, _, _, _, _, _, rfl, -⟩ := h; rfl
theorem LimitsJudged.sparedCount {s t : State} (h : LimitsJudged s t) : t.golium.sparedCount = s.golium.sparedCount := by
  obtain ⟨_, _, _, _, _, _, rfl, -⟩ := h; rfl
theorem LimitsJudged.retiredCount {s t : State} (h : LimitsJudged s t) : t.golium.retiredCount = s.golium.retiredCount := by
  obtain ⟨_, _, _, _, _, _, rfl, -⟩ := h; rfl
theorem LimitsJudged.radv {s t : State} (h : LimitsJudged s t) (hr : s.golium.radv = true) : t.golium.radv = true := by
  obtain ⟨_, _, _, _, _, _, rfl, k⟩ := h; exact k hr

theorem State.measure_judged (s : State) (n : Nat) : LimitsJudged s (s.measure n) := ⟨_, _, _, _, _, _, rfl, id⟩

theorem State.draw_judged (s : State) : LimitsJudged s s.draw.2 := ⟨_, _, _, _, _, _, rfl, id⟩

theorem State.advise_judged (s : State) : LimitsJudged s s.advise := by
  unfold State.advise
  split
  · exact .refl s
  · exact ⟨_, _, _, _, _, _, rfl, fun _ => rfl⟩

@[simp] theorem State.advise_radv (s : State) : s.advise.golium.radv = true := by
  unfold State.advise
  split
  · assumption
  · rfl

/-- A state whose ports are noted as judged. -/
def State.portsJudged (s : State) : State :=
  { s with fabric := { s.fabric with ports := s.fabric.ports.map fun p => { p with judged := p.retrain } } }

theorem State.portsJudged_judged (s : State) : LimitsJudged s s.portsJudged := ⟨_, _, _, _, _, _, rfl, id⟩

/-- The limits are judged in one of three ways: one is reached, none is, or a free value decides. -/
theorem State.checkLimits_cases (s : State) :
    s.checkLimits = s.portsJudged.advise ∨ s.checkLimits = s.portsJudged ∨ s.checkLimits = s.portsJudged.draw.2.advise ∨
      s.checkLimits = s.portsJudged.draw.2 := by
  unfold State.checkLimits
  simp only
  split
  · exact .inl rfl
  · split
    · split
      · exact .inr (.inr (.inl rfl))
      · exact .inr (.inr (.inr rfl))
    · exact .inr (.inl rfl)

theorem State.checkLimits_judged (s : State) : LimitsJudged s s.checkLimits := by
  have hp := s.portsJudged_judged
  have hd := hp.trans s.portsJudged.draw_judged
  obtain h | h | h | h := s.checkLimits_cases <;> rw [h]
  · exact hp.trans (State.advise_judged _)
  · exact hp
  · exact hd.trans (State.advise_judged _)
  · exact hd

/-- R459: four clusters fenced, 1,024 pages retired or 200 rows spared set REPLACE ADVISED. -/
theorem State.checkLimits_radv (s : State)
    (h : 4 ≤ s.golium.fencedCount ∨ 1024 ≤ s.golium.retiredCount ∨ 200 ≤ s.golium.sparedCount) : s.checkLimits.golium.radv = true := by
  have hn : 4 ≤ s.golium.fencedCount ∨ 1024 ≤ s.golium.retiredCount ∨ 200 ≤ s.golium.sparedCount ∨ 10000 ≤ s.golium.cerr.toNat := by omega
  unfold State.checkLimits
  simp [hn]

/-- HEALTH with the corrected errors of the last hour, not yet held against their limit. -/
def State.errorsSampled (s : State) : State :=
  { s.draw.2 with golium := { s.golium with cerr := BitVec.ofNat 16 s.draw.1 } }

theorem State.sampleErrors_eq (s : State) : s.sampleErrors = s.errorsSampled.checkLimits := rfl

theorem State.sampleErrors_judged (s : State) : LimitsJudged s s.sampleErrors :=
  LimitsJudged.trans (t := s.errorsSampled) ⟨_, _, _, _, _, _, rfl, id⟩ (State.checkLimits_judged _)

/-! ### Bring-up (R388, R393) -/

/-- `t` shows stage `n`, with the memory, the partitions and the queues of `s`. -/
def ShowsStage (s : State) (n : Nat) (t : State) : Prop :=
  t.golium.stage.toNat = n ∧ t.mem = s.mem ∧ t.parts = s.parts ∧ t.queues = s.queues

theorem ShowsStage.judged {s t u : State} {n : Nat} (h : ShowsStage s n t) (k : LimitsJudged t u) : ShowsStage s n u := by
  obtain ⟨hs, hm, hp, hq⟩ := h
  exact ⟨k.stage ▸ hs, k.mem.trans hm, k.parts.trans hp, k.queues.trans hq⟩

/-- Reaching a stage verifies images, reads the straps, notes links and judges limits; it touches no memory, no partition and no queue. -/
theorem State.reachStage_shows (s : State) (n : Nat) (hn : n ≤ 7) : ShowsStage s n (s.reachStage n) := by
  have hs : (BitVec.ofNat 8 n).toNat = n := by simp; omega
  unfold State.reachStage
  simp only
  split
  · refine .judged ?_ (State.measure_judged _ 1)
    exact ⟨hs, rfl, rfl, rfl⟩
  split
  · refine .judged (.judged ?_ (State.measure_judged _ 2)) (State.measure_judged _ 3)
    exact ⟨hs, rfl, rfl, rfl⟩
  split
  · refine .judged (.judged (.judged (.judged ?_ (State.measure_judged _ 4)) (State.measure_judged _ 5)) (State.measure_judged _ 48))
      (State.checkLimits_judged _)
    exact ⟨hs, rfl, rfl, rfl⟩
  split
  · have hl : LimitsJudged s (if s.golium.storedLimit then s.advise else s).checkLimits := by
      split
      · exact s.advise_judged.trans (State.checkLimits_judged _)
      · exact s.checkLimits_judged
    rename_i h7
    subst h7
    exact ⟨rfl, hl.mem, hl.parts, hl.queues⟩
  · exact ⟨hs, rfl, rfl, rfl⟩

theorem exec_bringUpStage (ok : Bool) (s : State) : exec (.bringUpStage ok) s = .next (
    if 7 < s.golium.stage.toNat + 1 then s
    else if ok ∧ s.golium.imagesOk (s.golium.stage.toNat + 1) then s.reachStage (s.golium.stage.toNat + 1)
    else s.showStage (0x80 + (s.golium.stage.toNat + 1))) := rfl

theorem bringUpGoesStageByStage : Claim.BringUpGoesStageByStage := by
  intro im s
  refine ⟨rfl, fun hn hi => ⟨_, exec_bringUpStage true s, ?_⟩, fun _ hi => ?_, fun hn => ?_, fun hn => ?_⟩
  · rw [if_neg (by omega), if_pos ⟨rfl, hi⟩]
    exact s.reachStage_shows _ hn
  · simp [exec_bringUpStage, hi]
  · simp only [exec_bringUpStage, Bool.false_eq_true, false_and, if_false]
    rw [if_neg (by omega)]
    rfl
  · simp only [exec_bringUpStage, if_pos hn, and_self]

/-! ### Heat (R394, R396) -/

theorem heatStopsIssueOnly : Claim.HeatStopsIssueOnly := by
  intro s
  have hold : exec .thermalHold s = .next (s.setHold true) := rfl
  have resume : exec .thermalResume s = .next (s.setHold false) := rfl
  rw [hold, resume, State.setHold, State.setHold]
  cases s.golium.thold <;> exact ⟨rfl, rfl⟩

/-! ### Reset and power (R21, R24, R390, R393, R394, R396) -/

/-- The four ways to the reset state, which differ in whether power is on and whether a trip is counted. -/
theorem exec_of_mem_resets {i : Instr} (hi : i ∈ [Instr.moduleReset, .powerLoss, .powerOn, .thermalTrip]) (s : State) :
    exec i s = .next { s.moduleReset with golium := { s.golium.keep with
      trips := if i = .thermalTrip then s.golium.trips + 1 else s.golium.trips
      powered := if i = .powerLoss ∨ i = .thermalTrip then false else if i = .moduleReset then s.golium.powered else true } } := by
  simp only [List.mem_cons, List.not_mem_nil, or_false] at hi
  obtain rfl | rfl | rfl | rfl := hi <;> simp only [reduceCtorEq, if_true, if_false, or_true, or_false] <;> rfl

theorem State.moduleReset_cluster (s : State) (c : Fin 64) :
    s.moduleReset.clusters[c] = { Cluster.reset with enabled := s.clusters[c].enabled } := by
  simp [State.moduleReset]

theorem State.reset_part (p : Fin 8) : State.reset.parts[p] = Partition.reset := by simp [State.reset]
theorem State.reset_queue (q : Fin 64) : State.reset.queues[q] = Queue.reset := by simp [State.reset]
theorem State.reset_cluster (c : Fin 64) : State.reset.clusters[c] = Cluster.reset := by simp [State.reset]
theorem Golium.reset_vf (v : Fin 64) : Golium.reset.vfs[v] = .configUnlocked := by simp [Golium.reset]
theorem Fabric.reset_port (i : Fin 8) : Fabric.reset.ports[i] = Port.reset := by simp [Fabric.reset]
/-- QCFG.EN is clear in a queue after reset. -/
theorem Queue.reset_disabled : Queue.reset.cfg.getLsbD 63 = false := by decide
/-- PCFG.EN is clear in a partition after reset. -/
theorem Partition.reset_disabled : Partition.reset.cfg.getLsbD 63 = false := by decide

theorem resetAndPowerLossKeepGoliumsCounts : Claim.ResetAndPowerLossKeepGoliumsCounts := by
  intro s i hi
  refine ⟨_, exec_of_mem_resets hi s, rfl, rfl, rfl, rfl, rfl, rfl, rfl, fun p => ?_, fun q => ?_, fun c => ?_, Golium.reset_vf,
    rfl, rfl, rfl, rfl, rfl, rfl, rfl, rfl⟩
  · change State.reset.parts[p].cfg.getLsbD 63 = false ∧ State.reset.parts[p].policy = false
    rw [State.reset_part]
    exact ⟨Partition.reset_disabled, rfl⟩
  · change State.reset.queues[q].cfg.getLsbD 63 = false
    rw [State.reset_queue, Queue.reset_disabled]
  · simp only [State.moduleReset_cluster, true_and]
    exact ⟨rfl, rfl, rfl, rfl, rfl⟩

/-! ### Parts out of service (R443, R458, R459) -/

theorem exec_clusterDrain (c : Fin 64) (s : State) : exec (.clusterDrain c) s = .next (
    if ¬ s.clusters[c].enabled ∨ s.clusters[c].draining then s
    else if s.clusters[c].parityFound then s.drainCluster c
    else if 3 ≤ s.clusters[c].bankFaults then if s.draw.1 % 2 = 1 then s.draw.2.drainCluster c else s.draw.2
    else s) := rfl

/-- A cluster that drains already stays as it is. -/
theorem State.drainCluster_of_draining {s : State} {c : Fin 64} (h : s.clusters[c].draining = true) : s.drainCluster c = s := by
  have hx : { s.clusters[c] with draining := true } = s.clusters[c] := by rw [← h]
  rw [State.drainCluster, hx]
  simp

theorem exec_clusterDrain_of_parity {s : State} {c : Fin 64} (he : s.clusters[c].enabled = true) (hp : s.clusters[c].parityFound = true) :
    exec (.clusterDrain c) s = .next (s.drainCluster c) := by
  rw [exec_clusterDrain]
  by_cases hd : s.clusters[c].draining = true
  · rw [if_pos (.inr hd), State.drainCluster_of_draining hd]
  · rw [if_neg (by simp only [he, hd]; decide), if_pos hp]

theorem exec_clusterDrain_without_ground {s : State} {c : Fin 64}
    (h : s.clusters[c].enabled = false ∨ (s.clusters[c].parityFound = false ∧ s.clusters[c].bankFaults < 3)) :
    exec (.clusterDrain c) s = .next s := by
  rw [exec_clusterDrain]
  obtain he | ⟨hp, hb⟩ := h
  · rw [if_pos (.inl (by rw [he]; decide))]
  · rw [hp, if_neg Bool.false_ne_true, if_neg (Nat.not_le.2 hb), ite_self]

/-- After three causes 0x31 a free value says whether they fell within 24 hours. -/
theorem exec_clusterDrain_of_bankFaults {s : State} {c : Fin 64} (he : s.clusters[c].enabled = true)
    (hp : s.clusters[c].parityFound = false) (hb : 3 ≤ s.clusters[c].bankFaults) : ∃ d b, (s.clusters[c].draining = true → b = true) ∧
    exec (.clusterDrain c) s = .next { s with draws := d, clusters := s.clusters.set c { s.clusters[c] with draining := b } } := by
  rw [exec_clusterDrain]
  by_cases hd : s.clusters[c].draining = true
  · refine ⟨s.draws, true, fun _ => rfl, ?_⟩
    rw [if_pos (.inr hd)]
    exact congrArg _ (State.drainCluster_of_draining hd).symm
  · rw [if_neg (by simp only [he, hd]; decide), if_neg (by rw [hp]; decide), if_pos hb]
    split
    · exact ⟨_, true, fun _ => rfl, rfl⟩
    · refine ⟨s.draws + 1, s.clusters[c].draining, fun h => h, ?_⟩
      rw [show s.clusters.set c s.clusters[c] = s.clusters from Vector.set_getElem_self _]
      rfl

theorem Cause.code_eq_parity (k : Cause) : k.code = 0x32 ↔ k = .parity := by cases k <;> decide
theorem Cause.code_eq_bankError (k : Cause) : k.code = 0x31 ↔ k = .bankError := by cases k <;> decide

theorem State.blame_cluster (s : State) (c : Fin 64) (k : Cause) : (s.blame (some c) k.code).clusters[c] =
    { s.clusters[c] with
      parityFound := s.clusters[c].parityFound || k == .parity
      bankFaults := if k = .bankError then s.clusters[c].bankFaults + 1 else s.clusters[c].bankFaults } := by
  simp only [State.blame, Cause.code_eq_parity, Cause.code_eq_bankError]
  by_cases hp : k = .parity
  · simp [hp]
  have hq : (k == Cause.parity) = false := by simpa using hp
  by_cases hb : k = .bankError <;> simp [hp, hq, hb]

/-- Cluster `c` leaves service, and that is counted. -/
def State.fenceCluster (s : State) (c : Fin 64) : State :=
  { s with
    clusters := s.clusters.set c { Cluster.reset with enabled := false }
    golium := { s.golium with fencedCount := s.golium.fencedCount + 1 } }

theorem State.fenceCluster_same (s : State) (c : Fin 64) : (s.fenceCluster c).clusters[c].enabled = false := by simp [State.fenceCluster]
theorem State.fenceCluster_ne (s : State) {c d : Fin 64} (h : d ≠ c) : (s.fenceCluster c).clusters[d] = s.clusters[d] := by
  have hv : c.val ≠ d.val := fun e => h (Fin.ext e.symm)
  simp [State.fenceCluster, hv]

theorem exec_clusterFence (c : Fin 64) (s : State) : exec (.clusterFence c) s =
    .next (if s.drained c then ((s.fenceCluster c).measure 5).checkLimits else s) := rfl

theorem exec_clusterFence_of_drained {s : State} {c : Fin 64} (h : s.drained c = true) : ∃ t, exec (.clusterFence c) s = .next t ∧
    t.mem = s.mem ∧ t.clusters[c].enabled = false ∧ t.clmask.getLsbD c.val = false ∧ (∀ d : Fin 64, d ≠ c → t.clusters[d] = s.clusters[d]) ∧
    t.golium.fencedCount = s.golium.fencedCount + 1 ∧ (4 ≤ s.golium.fencedCount + 1 → t.golium.radv = true) ∧
    (s.golium.radv = true → t.golium.radv = true) := by
  have hj := ((s.fenceCluster c).measure_judged 5).trans (State.checkLimits_judged _)
  refine ⟨_, by rw [exec_clusterFence, if_pos h], hj.mem, ?_, ?_, fun d hd => ?_, hj.fencedCount,
    fun h4 => State.checkLimits_radv _ (.inl h4), hj.radv⟩
  · rw [hj.clusters, State.fenceCluster_same]
  · rw [State.clmask_getLsbD, hj.clusters, State.fenceCluster_same]
  · rw [hj.clusters, State.fenceCluster_ne s hd]

/-- A row is spared, chosen by two free values, and that is counted. -/
def State.spareRow (s : State) : State :=
  { s with
    draws := s.draws + 2
    golium := { s.golium with sparedCount := s.golium.sparedCount + 1, spared := satAdd8 s.golium.spared 1 } }

theorem exec_rowSpare (s : State) : exec .rowSpare s = .next (
    if Config.free (s.draws + 1) % 2 = 0 ∨ s.badLines.any (Config.sparedRow (Config.free s.draws)).contains then { s with draws := s.draws + 2 }
    else s.spareRow.sampleErrors) := rfl

theorem exec_rowSpare_of_ground {s : State} (hf : Config.free (s.draws + 1) % 2 = 1)
    (hb : ∀ l ∈ s.badLines, l ∉ Config.sparedRow (Config.free s.draws)) : ∃ t, exec .rowSpare s = .next t ∧ t.mem = s.mem ∧
    t.golium.sparedCount = s.golium.sparedCount + 1 ∧ (200 ≤ s.golium.sparedCount + 1 → t.golium.radv = true) ∧
    (s.golium.radv = true → t.golium.radv = true) := by
  have hg : ¬ (Config.free (s.draws + 1) % 2 = 0 ∨ s.badLines.any (Config.sparedRow (Config.free s.draws)).contains) := by
    simpa [hf] using hb
  have hj := s.spareRow.sampleErrors_judged
  refine ⟨_, by rw [exec_rowSpare, if_neg hg], hj.mem, hj.sparedCount, fun h2 => ?_, hj.radv⟩
  rw [State.sampleErrors_eq]
  exact State.checkLimits_radv _ (.inr (.inr h2))

/-- A page is retired, its rewritten lines are forgotten, and that is counted. -/
def State.retirePage (s : State) (page : Nat) : State :=
  { s with
    rewritten := s.rewritten.filter fun l => l / 65536 != page
    golium := { s.golium with retiredCount := s.golium.retiredCount + 1, retired := satAdd16 s.golium.retired 1 } }

theorem exec_pageRetire (page : Nat) (s : State) : exec (.pageRetire page) s = .next (
    if s.badLines.any (fun l => l / 65536 == page) ∨ ¬ s.rewritten.any (fun l => l / 65536 == page) then s
    else (s.retirePage page).checkLimits) := rfl

theorem exec_pageRetire_of_ground {s : State} {page : Nat} (hb : ∀ l ∈ s.badLines, l / 65536 ≠ page)
    (hw : ∃ l ∈ s.rewritten, l / 65536 = page) : ∃ t, exec (.pageRetire page) s = .next t ∧ t.mem = s.mem ∧
    t.golium.retiredCount = s.golium.retiredCount + 1 ∧ t.rewritten = s.rewritten.filter (fun l => l / 65536 != page) ∧
    (1024 ≤ s.golium.retiredCount + 1 → t.golium.radv = true) := by
  have hg : ¬ (s.badLines.any (fun l => l / 65536 == page) ∨ ¬ s.rewritten.any (fun l => l / 65536 == page)) := by
    simpa using ⟨hb, hw⟩
  have hj := (s.retirePage page).checkLimits_judged
  exact ⟨_, by rw [exec_pageRetire, if_neg hg], hj.mem, hj.retiredCount, hj.rewritten,
    fun h1 => State.checkLimits_radv _ (.inr (.inl h1))⟩

theorem fencingSparingAndRetiring : Claim.FencingSparingAndRetiring := by
  intro c page s
  refine ⟨exec_clusterDrain_of_parity, exec_clusterDrain_without_ground, fun he hp hb => ?_, fun k => s.blame_cluster c k, fun hd => ?_,
    exec_clusterFence_of_drained, fun hg => ?_, exec_rowSpare_of_ground, fun hg => ?_, exec_pageRetire_of_ground⟩
  · obtain ⟨d, b, hdb, ht⟩ := exec_clusterDrain_of_bankFaults he hp hb
    exact ⟨_, ht, by simp, by simpa using hdb⟩
  · rw [exec_clusterFence, hd]
    rfl
  · rw [exec_rowSpare, if_pos (by simpa using hg)]
  · rw [exec_pageRetire, if_pos (by simpa using hg)]

/-! ### The statements -/

/-- Settles O49, claim by claim. -/
theorem healthPowerAndReset : Obligations.HealthPowerAndReset :=
  ⟨bringUpGoesStageByStage, heatStopsIssueOnly, resetAndPowerLossKeepGoliumsCounts, fencingSparingAndRetiring⟩

/-- Settles O57: every vector of the reset state holds one value throughout. -/
theorem resetLeavesTheModuleIdle : Obligations.ResetLeavesTheModuleIdle := by
  refine ⟨⟨Memory.wf_nil, by simp [State.reset]⟩, rfl, rfl, rfl, rfl, rfl, rfl, rfl, fun c => ?_, fun q => ?_, fun p => ?_, fun i => ?_,
    Golium.reset_vf, rfl, rfl⟩
  · rw [State.reset_cluster]
    exact ⟨rfl, rfl, rfl, rfl, rfl⟩
  · rw [State.reset_queue]
    exact ⟨Queue.reset_disabled, rfl⟩
  · rw [State.reset_part]
    exact ⟨Partition.reset_disabled, rfl⟩
  · change Fabric.reset.ports[i].status = 0
    rw [Fabric.reset_port]
    decide

end Sys2Proof.Machine
end

section
/-! The strands of the module, found by their id: what a change of some harts does to each of them, and bringing one in front. -/

namespace Sys2Proof.Machine

open Sys2Proof.Safety

/-! ### Strands found by their id -/

/-- A change of a hart that leaves whose it is, what it executes on and whether it runs. -/
def KeepsIdentity (f : Hart → Hart) : Prop := ∀ h, (f h).id = h.id ∧ (f h).engine = h.engine ∧ (f h).phase = h.phase

/-- A change made to the strand of an id. -/
def Hart.ifStrand (i : StrandId) (f : Hart → Hart) (h : Hart) : Hart := if h.engine = .strand ∧ h.id = i ∧ h.phase ≠ .absent then f h else h

/-- A change made to the strands of a gang. -/
def Hart.ifMember (g : GangId) (f : Hart → Hart) (h : Hart) : Hart :=
  if h.engine = .strand ∧ gangOf h.id = g ∧ h.phase ≠ .absent then f h else h

theorem KeepsIdentity.ifStrand {f : Hart → Hart} (hf : KeepsIdentity f) (i : StrandId) : KeepsIdentity (Hart.ifStrand i f) := by
  intro h
  unfold Hart.ifStrand
  split
  · exact hf h
  · exact ⟨rfl, rfl, rfl⟩

theorem KeepsIdentity.ifMember {f : Hart → Hart} (hf : KeepsIdentity f) (g : GangId) : KeepsIdentity (Hart.ifMember g f) := by
  intro h
  unfold Hart.ifMember
  split
  · exact hf h
  · exact ⟨rfl, rfl, rfl⟩

/-- Two changes of the strands of a gang, the first of which leaves whose they are. -/
theorem Hart.ifMember_ifMember {f : Hart → Hart} (hf : KeepsIdentity f) (k : Hart → Hart) (g : GangId) (h : Hart) :
    (h.ifMember g f).ifMember g k = h.ifMember g fun h => k (f h) := by
  obtain ⟨hi, he, hp⟩ := hf h
  unfold Hart.ifMember
  by_cases hm : h.engine = .strand ∧ gangOf h.id = g ∧ h.phase ≠ .absent
  · rw [if_pos hm, if_pos hm, if_pos (by rw [hi, he, hp]; exact hm)]
  · rw [if_neg hm, if_neg hm, if_neg hm]

/-- Every hart of the module changes, the one in front and the others alike. -/
def State.mapHarts (s : State) (f : Hart → Hart) : State := { s with hart := f s.hart, harts := s.harts.map f }

theorem State.onStrand_eq (s : State) (i : StrandId) (f : Hart → Hart) : s.onStrand i f = s.mapHarts (Hart.ifStrand i f) := rfl

theorem State.onMembers_eq (s : State) (g : GangId) (f : Hart → Hart) : s.onMembers g f = s.mapHarts (Hart.ifMember g f) := rfl

theorem State.allHarts_mapHarts (s : State) (f : Hart → Hart) : (s.mapHarts f).allHarts = s.allHarts.map f := rfl

theorem State.onMembers_onMembers (s : State) (g : GangId) {f : Hart → Hart} (hf : KeepsIdentity f) (k : Hart → Hart) :
    (s.onMembers g f).onMembers g k = s.onMembers g fun h => k (f h) := by
  simp only [State.onMembers_eq, State.mapHarts, List.map_map, Function.comp_def, Hart.ifMember_ifMember hf]

theorem State.strand?_mapHarts (s : State) {f : Hart → Hart} (hf : KeepsIdentity f) (j : StrandId) :
    (s.mapHarts f).strand? j = (s.strand? j).map f := by
  change ((s.allHarts.map f).find? _) = _
  rw [List.find?_map]
  simp only [Function.comp_def, fun h => (hf h).1, fun h => (hf h).2.1, fun h => (hf h).2.2]
  rfl

theorem State.program?_mapHarts (s : State) {f : Hart → Hart} (hf : KeepsIdentity f) (c : Fin 64) :
    (s.mapHarts f).program? c = (s.program? c).map f := by
  change ((s.allHarts.map f).find? _) = _
  rw [List.find?_map]
  simp only [Function.comp_def, fun h => (hf h).2.1, fun h => (hf h).2.2]
  rfl

/-- What a strand found by its id is. -/
theorem State.strand?_some {s : State} {i : StrandId} {h : Hart} (hs : s.strand? i = some h) :
    h.engine = .strand ∧ h.id = i ∧ h.phase ≠ .absent := by
  simpa using List.find?_some hs

theorem State.program?_some {s : State} {c : Fin 64} {h : Hart} (hs : s.program? c = some h) :
    h.engine = .control c ∧ h.phase = .running := by
  simpa using List.find?_some hs

section
variable (s : State) (i : StrandId) (g : GangId) {f : Hart → Hart} (hf : KeepsIdentity f)
include hf

theorem State.strand?_onStrand_same : (s.onStrand i f).strand? i = (s.strand? i).map f := by
  rw [State.onStrand_eq, State.strand?_mapHarts _ (hf.ifStrand i)]
  refine Option.map_congr fun h hs => if_pos (State.strand?_some hs)

theorem State.strand?_onStrand_ne {j : StrandId} (hj : j ≠ i) : (s.onStrand i f).strand? j = s.strand? j := by
  rw [State.onStrand_eq, State.strand?_mapHarts _ (hf.ifStrand i)]
  refine (Option.map_congr (g := id) fun h hs => if_neg fun hi => hj ?_).trans (Option.map_id_apply)
  exact (State.strand?_some hs).2.1.symm.trans hi.2.1

theorem State.program?_onStrand (c : Fin 64) : (s.onStrand i f).program? c = s.program? c := by
  rw [State.onStrand_eq, State.program?_mapHarts _ (hf.ifStrand i)]
  refine (Option.map_congr (g := id) fun h hs => if_neg fun hi => ?_).trans (Option.map_id_apply)
  simp [(State.program?_some hs).1] at hi

theorem State.onStrand_becomes : Claim.StrandBecomes i f s (s.onStrand i f) :=
  ⟨rfl, s.strand?_onStrand_same i hf, fun _ => s.strand?_onStrand_ne i hf, s.program?_onStrand i hf⟩

theorem State.strand?_onMembers_same {j : StrandId} (hj : gangOf j = g) : (s.onMembers g f).strand? j = (s.strand? j).map f := by
  rw [State.onMembers_eq, State.strand?_mapHarts _ (hf.ifMember g)]
  refine Option.map_congr fun h hs => if_pos ?_
  obtain ⟨he, hi, hp⟩ := State.strand?_some hs
  exact ⟨he, hi ▸ hj, hp⟩

theorem State.strand?_onMembers_ne {j : StrandId} (hj : gangOf j ≠ g) : (s.onMembers g f).strand? j = s.strand? j := by
  rw [State.onMembers_eq, State.strand?_mapHarts _ (hf.ifMember g)]
  refine (Option.map_congr (g := id) fun h hs => if_neg fun hi => hj ?_).trans (Option.map_id_apply)
  exact (State.strand?_some hs).2.1 ▸ hi.2.1

end

/-- The live strands of a gang are found by what each of them is. -/
theorem State.mem_members {s : State} {g : GangId} {h : Hart} : h ∈ s.members g ↔
    h ∈ s.allHarts ∧ h.engine = .strand ∧ gangOf h.id = g ∧ h.phase ≠ .absent ∧ h.phase ≠ .exited := by
  simp [State.members, and_assoc]

theorem State.mem_members_onMembers {s : State} {g : GangId} {f : Hart → Hart} (hf : KeepsIdentity f) {h : Hart} :
    h ∈ (s.onMembers g f).members g ↔ ∃ k ∈ s.members g, f k = h := by
  simp only [State.mem_members, State.onMembers_eq, State.allHarts_mapHarts, List.mem_map]
  constructor
  · rintro ⟨⟨k, hk, rfl⟩, he, hg, ha, hx⟩
    obtain ⟨hi', he', hp'⟩ := hf.ifMember g k
    rw [hi'] at hg
    rw [he'] at he
    rw [hp'] at ha hx
    exact ⟨k, ⟨hk, he, hg, ha, hx⟩, (if_pos ⟨he, hg, ha⟩).symm⟩
  · rintro ⟨k, ⟨hk, he, hg, ha, hx⟩, rfl⟩
    obtain ⟨hi', he', hp'⟩ := hf k
    rw [hi', he', hp']
    exact ⟨⟨k, hk, if_pos ⟨he, hg, ha⟩⟩, he, hg, ha, hx⟩

/-- Only harts of the module stand behind the one that is brought in front. -/
theorem Hart.mem_kept {h k : Hart} (hk : k ∈ h.kept) : k = h := by
  unfold Hart.kept at hk
  split at hk
  · cases hk
  · exact List.mem_singleton.1 hk

/-- A strand brought in front: nothing changes but where harts stand. -/
theorem State.focus_eq {s : State} {i : StrandId} {h : Hart} (hs : s.strand? i = some h) :
    s.focus i = { s with hart := h, harts := (s.focus i).harts } ∧ ∀ k ∈ (s.focus i).harts, k ∈ s.allHarts := by
  have hfind : (s.hart :: s.harts).find? (·.isStrand i) = some h := hs
  unfold State.focus
  by_cases hi : s.hart.isStrand i = true
  · simp only [List.find?_cons, hi] at hfind
    cases hfind
    rw [if_pos hi]
    exact ⟨rfl, fun k hk => List.mem_cons_of_mem _ hk⟩
  · simp only [List.find?_cons, hi] at hfind
    rw [if_neg hi, hfind]
    refine ⟨rfl, fun k hk => ?_⟩
    rcases List.mem_append.1 hk with hk | hk
    · exact List.mem_cons_of_mem _ (List.mem_of_mem_filter hk)
    · exact Hart.mem_kept hk ▸ List.mem_cons_self

end Sys2Proof.Machine
end

section
/-! Settled here: O4, branches, jumps, STRIP and the start of loops (R55, R78, R189-R192, R422), and O9, leaving a loop by LCOUNT (R55, R192,
R193). -/

namespace Sys2Proof.Machine

open Sys2Proof.Safety

/-! ### Branches and jumps (R189, R190, R422) -/

/-- `i` names its target where two registers stand in relation `P`, else it falls through; it changes nothing else. -/
def BranchesOn (i : Instr) (a b : Reg) (o : BitVec 12) (P : Word → Word → Prop) : Prop := ∀ s : State,
  (P (s.hart.getX a) (s.hart.getX b) → exec i s = .next { s with hart := s.hart.setFlow (.jump (s.hart.pc + o.signExtend 64 * 4)) }) ∧
  (¬ P (s.hart.getX a) (s.hart.getX b) → exec i s = .next { s with hart := s.hart.setFlow .seq })

theorem branchesOn_of {i : Instr} {a b : Reg} {o : BitVec 12} {test : Word → Word → Bool} {P : Word → Word → Prop}
    (hi : ∀ s, exec i s = s.branch a b o test) (hP : ∀ x y, test x y = true ↔ P x y) : BranchesOn i a b o P := by
  intro s
  rw [hi, ← hP]
  refine ⟨fun h => ?_, fun h => ?_⟩ <;> simp only [State.branch, State.onHart, h] <;> rfl

theorem branchesAndJumpsNameTheNextConvoy : Claim.BranchesAndJumpsNameTheNextConvoy := by
  intro a b d o j i
  have heq : BranchesOn (.beq a b o) a b o (· = ·) := branchesOn_of (fun _ => rfl) fun x y => beq_iff_eq
  have hne : BranchesOn (.bne a b o) a b o (· ≠ ·) := branchesOn_of (fun _ => rfl) fun x y => bne_iff_ne
  have hlt : BranchesOn (.blt a b o) a b o (fun x y => x.toInt < y.toInt) := branchesOn_of (fun _ => rfl) fun x y => BitVec.slt_iff_toInt_lt
  have hge : BranchesOn (.bge a b o) a b o (fun x y => y.toInt ≤ x.toInt) :=
    branchesOn_of (test := fun x y => ! x.slt y) (fun _ => rfl) fun x y => by simp [BitVec.slt_eq_decide]
  have hltu : BranchesOn (.bltu a b o) a b o (fun x y => x.toNat < y.toNat) :=
    branchesOn_of (test := BitVec.ult) (fun _ => rfl) fun x y => by simp [BitVec.ult_eq_decide]
  have hgeu : BranchesOn (.bgeu a b o) a b o (fun x y => y.toNat ≤ x.toNat) :=
    branchesOn_of (test := fun x y => ! x.ult y) (fun _ => rfl) fun x y => by simp [BitVec.ult_eq_decide]
  refine ⟨heq, hne, hlt, hge, hltu, hgeu, fun s _ => ⟨_, rfl, rfl⟩, fun s hs => ⟨_, ?_, rfl⟩⟩
  change Host.Outcome.next (if aligned _ 4 = true then _ else _) = _
  rw [if_pos (by simpa [aligned, signed] using hs)]
  rfl

/-! ### STRIP (R78, R191) -/

@[simp] theorem addrReg_val (k : Fin 8) : (addrReg k).val = 16 + k.val := rfl

theorem addrReg_inj {k l : Fin 8} (h : addrReg k = addrReg l) : k = l := by
  have := congrArg Fin.val h
  simp at this
  exact Fin.ext this

theorem addrReg_ne_zero (k : Fin 8) : addrReg k ≠ 0 := fun h => by
  have := congrArg Fin.val h
  simp at this

/-- Streams after those bound to the registers that `p` names were stepped. -/
def Hart.steppedStreams (h : Hart) (p : Fin 8 → Prop) [DecidablePred p] : List StreamBinding :=
  h.streams.map fun b => if p b.reg then { b with position := b.position + h.csr.bump[b.reg] } else b

/-- `g` is `h` once the address registers that `p` names, and the streams bound to them, were bumped (R78, R191). -/
def Bumped (p : Fin 8 → Prop) [DecidablePred p] (h g : Hart) : Prop :=
  g = { h with x := g.x, streams := h.steppedStreams p } ∧
    (∀ k, g.getX (addrReg k) = if p k then h.getX (addrReg k) + h.csr.bump[k] else h.getX (addrReg k)) ∧
    ∀ r, (∀ k, r ≠ addrReg k) → g.getX r = h.getX r

theorem bumped_refl (h : Hart) : Bumped (fun _ => False) h h := by
  refine ⟨?_, fun k => rfl, fun r _ => rfl⟩
  simp [Hart.steppedStreams]

theorem bumped_bumpOne (h : Hart) (k : Fin 8) : Bumped (· = k) h (h.bumpOne k) := by
  refine ⟨?_, fun l => ?_, fun r hr => Hart.getX_setX_ne _ _ (hr k)⟩
  · rw [Hart.bumpOne, Hart.setX_eq, Hart.steppedStreams]
    congr 1
    refine List.map_congr_left fun b _ => ?_
    split
    · rename_i hb
      subst hb
      rfl
    · rfl
  · change (h.setX (addrReg k) _).getX _ = _
    split
    · rename_i hl
      rw [hl, Hart.getX_setX_same, if_neg (addrReg_ne_zero k)]
    · rename_i hl
      exact Hart.getX_setX_ne _ _ fun e => hl (addrReg_inj e)

theorem Bumped.trans {p q : Fin 8 → Prop} [DecidablePred p] [DecidablePred q] {h g f : Hart} (hp : Bumped p h g) (hq : Bumped q g f)
    (hd : ∀ k, p k → ¬ q k) : Bumped (fun k => p k ∨ q k) h f := by
  obtain ⟨hg, hgx, hgr⟩ := hp
  obtain ⟨hf, hfx, hfr⟩ := hq
  have hc : g.csr = h.csr := by rw [hg]
  have hs : g.streams = h.steppedStreams p := by rw [hg]
  refine ⟨?_, fun k => ?_, fun r hr => (hfr r hr).trans (hgr r hr)⟩
  · rw [hf, Hart.steppedStreams, hs, hc, hg]
    simp only [Hart.steppedStreams, List.map_map]
    congr 1
    refine List.map_congr_left fun b _ => ?_
    by_cases hb : p b.reg
    · simp [hb, hd _ hb]
    · simp [hb]
  · rw [hfx, hgx, hc]
    by_cases hk : p k
    · simp [hk, hd _ hk]
    · simp [hk]

theorem bumped_congr {p q : Fin 8 → Prop} [DecidablePred p] [DecidablePred q] {h g : Hart} (hb : Bumped p h g) (hpq : ∀ k, p k ↔ q k) :
    Bumped q h g := by
  obtain rfl : p = q := funext fun k => propext (hpq k)
  convert hb

/-- What bumping the registers that a list names once each, and a mask too, can do. -/
theorem bumped_foldl (m : BitVec 8) (l : List (Fin 8)) (hl : l.Nodup) (h : Hart) :
    Bumped (fun k => k ∈ l ∧ m.getLsbD k.val = true) h (l.foldl (fun h k => if m.getLsbD k.val then h.bumpOne k else h) h) := by
  induction l generalizing h with
  | nil => exact bumped_congr (bumped_refl h) (by simp)
  | cons k l ih =>
    rw [List.nodup_cons] at hl
    rw [List.foldl_cons]
    split
    · rename_i hk
      refine bumped_congr ((bumped_bumpOne h k).trans (ih hl.2 _) fun j hj hn => hl.1 (hj ▸ hn.1)) fun j => ?_
      rw [List.mem_cons]
      refine ⟨?_, fun ⟨hj, hm⟩ => hj.imp id fun hj => ⟨hj, hm⟩⟩
      rintro (rfl | ⟨hj, hm⟩)
      · exact ⟨.inl rfl, hk⟩
      · exact ⟨.inr hj, hm⟩
    · rename_i hk
      refine bumped_congr (ih hl.2 h) fun j => ?_
      rw [List.mem_cons]
      refine ⟨fun ⟨hj, hm⟩ => ⟨.inr hj, hm⟩, ?_⟩
      rintro ⟨rfl | hj, hm⟩
      · exact absurd hm hk
      · exact ⟨hj, hm⟩

theorem Hart.bumpAll_bumped (h : Hart) (m : BitVec 8) : Bumped (fun k => m.getLsbD k.val = true) h (h.bumpAll m) :=
  bumped_congr (bumped_foldl m _ (List.nodup_finRange 8) h) (by simp)

/-- Fetching the next strips ahead counts uncorrectable lines and changes nothing else. -/
theorem State.prefetch_eq (s : State) (m : BitVec 8) :
    s.prefetch m = { s with golium := (s.prefetch m).golium } ∧
    (s.prefetch m).golium = { s.golium with unconsumed := (s.prefetch m).golium.unconsumed } ∧
    (s.badLines = [] → (s.prefetch m).golium = s.golium) := by
  unfold State.prefetch
  split
  · exact ⟨rfl, rfl, fun _ => rfl⟩
  · rename_i hb
    exact ⟨rfl, rfl, fun h => absurd (by simp [h]) hb⟩

/-- The address registers are x16 to x23. -/
theorem eq_addrReg {r : Reg} (hr : 16 ≤ r.val ∧ r.val < 24) : r = addrReg ⟨r.val - 16, by omega⟩ := by
  apply Fin.ext
  simp only [addrReg]
  omega

theorem ne_addrReg {r : Reg} (hr : ¬ (16 ≤ r.val ∧ r.val < 24)) (k : Fin 8) : r ≠ addrReg k := fun h => by
  have := congrArg Fin.val h
  simp only [addrReg] at this
  omega

theorem vector_getD_of_lt {α : Type} {n k : Nat} (v : Vector α n) (x : α) (h : k < n) : v.getD k x = v[k] := by
  simp [Vector.getD, h]

/-- The hart as STRIP leaves it: bumped, counted, and with the branch taken while the count is positive (R191). -/
def Hart.strip (h : Hart) (n : Reg) (m : BitVec 8) (o : BitVec 12) : Hart :=
  let c := (h.bumpAll m).getX n - h.csr.vl.zeroExtend 64
  ((h.bumpAll m).setX n c).setFlow (if (0 : Word).slt c then .jump (wordTarget h.pc o) else .seq)

theorem exec_strip {s : State} (hs : OnStrand s) (n : Reg) (m : BitVec 8) (o : BitVec 12) :
    exec (.strip n m o) s = .next (({ s with hart := s.hart.strip n m o } : State).prefetch m) := by
  change execStrip n m o s = _
  rw [execStrip, State.strandOnly_strand s _ hs]
  rfl

theorem stripBumpsThenCountsThenBranches : Claim.StripBumpsThenCountsThenBranches := by
  intro n m o named bumped count s hs
  obtain ⟨hall, haddr, hother⟩ := s.hart.bumpAll_bumped m
  have hx : ∀ r, (s.hart.bumpAll m).getX r = bumped s.hart r := by
    intro r
    by_cases hr : 16 ≤ r.val ∧ r.val < 24
    · have hk : r.val - 16 < 8 := by omega
      have hn : named r ↔ m.getLsbD (r.val - 16) = true := ⟨fun h => h.2.2, fun h => ⟨hr.1, hr.2, h⟩⟩
      have := haddr ⟨r.val - 16, hk⟩
      rw [← eq_addrReg hr] at this
      simp only [bumped, hn, this, Fin.getElem_fin, vector_getD_of_lt _ _ hk]
    · rw [hother r (ne_addrReg hr)]
      exact (if_neg fun h => hr ⟨h.1, h.2.1⟩).symm
  have hc : count s.hart = (s.hart.bumpAll m).getX n - s.hart.csr.vl.zeroExtend 64 := by rw [hx]
  obtain ⟨hp, hg, hb⟩ := State.prefetch_eq { s with hart := s.hart.strip n m o } m
  have hflow : (0 : Word).slt (count s.hart) = true ↔ 0 < (count s.hart).toInt := BitVec.slt_iff_toInt_lt
  refine ⟨_, exec_strip hs n m o, hg, hb, ?_, fun r => ?_⟩
  · rw [hp, Hart.strip, ← hc, Hart.setX_eq]
    simp only [hflow, Hart.setFlow]
    rw [hall]
    rfl
  · rw [hp]
    change ((s.hart.bumpAll m).setX n _).getX r = _
    rw [← hc, ← hx]
    by_cases hr : r = n
    · rw [hr, Hart.getX_setX_same]
      by_cases hn : n = 0
      · simp [hn]
      · simp [hn]
    · rw [Hart.getX_setX_ne _ _ hr, if_neg fun h => hr h.1]

/-! ### Hardware loops (R55, R192, R193) -/

/-- The hart with the bounds of a loop that ends at `lend` (R192). -/
def Hart.setLoop (h : Hart) (lend : Word) : Hart := { h with csr := { h.csr with lstart := h.pc + 4, lend := lend } }

/-- The address of the convoy that ends a loop. -/
def Hart.loopEnd (h : Hart) (off : Fin 524288) : Word := h.pc + 4 * BitVec.ofNat 64 off.val

section
variable {s : State} (c : Word) (off : Fin 524288)

theorem State.startLoop_of_active (h : s.hart.st.lact = true) : s.startLoop c off = s.trapWord .loopWrite := if_pos h

theorem State.startLoop_of_count (h : s.hart.st.lact = false) (hc : c ≠ 0) : s.startLoop c off =
    { s with hart := { s.hart.setLoop (s.hart.loopEnd off) with
      csr := { (s.hart.setLoop (s.hart.loopEnd off)).csr with lcount := c }, st := { s.hart.st with lact := true } } } := by
  rw [State.startLoop, if_neg (by rw [h]; decide)]
  simp only [if_neg hc]
  rfl

/-- A convoy of one word ends where it stands (R192). -/
theorem State.convoyEnd_word {a : Word} {w : BitVec 32} (n : Nat) (hf : s.fetch s.hart.ctx a = .word w) (hw : w.getLsbD 31 = false) :
    s.convoyEnd (n + 1) a = .next (a + 4) := by
  simp only [State.convoyEnd, hf, continues, hw]
  rfl

theorem State.startLoop_zero {w : BitVec 32} (h : s.hart.st.lact = false) (hf : s.fetch s.hart.ctx (s.hart.loopEnd off) = .word w)
    (hw : w.getLsbD 31 = false) : s.startLoop 0 off =
    { s with hart := (s.hart.setLoop (s.hart.loopEnd off)).setFlow (.jump (s.hart.loopEnd off + 4)) } := by
  have he := State.convoyEnd_word 3 hf hw
  rw [Hart.loopEnd] at he
  rw [State.startLoop, if_neg (by rw [h]; decide)]
  simp only [if_true, he]
  rfl
end

theorem exec_loop (n : Reg) (off : Fin 524288) (s : State) : exec (.loop n off) s = .next (s.startLoop (s.hart.getX n) off) := rfl
theorem exec_loopi (n : Reg) (off : Fin 524288) (s : State) : exec (.loopi n off) s = .next (s.startLoop (BitVec.ofNat 64 n.val) off) := rfl

theorem loopsStartWhileNoneIsActive : Claim.LoopsStartWhileNoneIsActive := by
  intro n k off s
  refine ⟨fun h => ⟨?_, ?_⟩, fun h hn => ?_, fun h hk => ?_, fun w h hn hf hw => ?_⟩
  · rw [exec_loop, State.startLoop_of_active _ _ h]
  · rw [exec_loopi, State.startLoop_of_active _ _ h]
  · rw [exec_loop, State.startLoop_of_count _ _ h hn]
    rfl
  · have hc : BitVec.ofNat 64 k.val ≠ 0 := fun e => hk (by
      have := congrArg BitVec.toNat e
      simp at this
      omega)
    rw [exec_loopi, State.startLoop_of_count _ _ h hc]
    rfl
  · rw [exec_loop, hn, State.startLoop_zero off h hf hw]
    rfl

/-- Settles O4, claim by claim. -/
theorem controlTransfersNameTheNextConvoy : Obligations.ControlTransfersNameTheNextConvoy :=
  ⟨branchesAndJumpsNameTheNextConvoy, stripBumpsThenCountsThenBranches, loopsStartWhileNoneIsActive⟩

/-! ### LCOUNT (R55, R192, R193) -/

/-- `t` holds `v` in LCOUNT, and its loop is active only while that is not 0 (R193). -/
def LeavesLcount (v : Word) (t : State) : Prop := t.hart.csr.lcount = v ∧ (t.hart.st.lact = true ↔ v ≠ 0)

theorem Hart.csrRefused_lcount (h : Hart) (w : Bool) : h.csrRefused .lcount w = none := by
  simp [Hart.csrRefused, controlCsr, supervisorCsr, userReadOnly, neverWritten]

/-- A write of LCOUNT is never refused. -/
theorem State.csrAccess_lcount {s : State} (hs : s.hart.st.lact = true) (d : Reg) (f : Word → Word) :
    LeavesLcount (f s.hart.csr.lcount) (s.csrAccess d .lcount (some f)) := by
  simp only [State.csrAccess, Hart.csrRefused_lcount]
  refine ⟨by simp [State.csrRead, isDebug, Hart.csrWrite, Hart.csrValue], by simp [State.csrRead, isDebug, Hart.csrWrite, Hart.csrValue, hs]⟩

theorem Hart.endTest_active {h : Hart} (ha : h.st.lact = true) (seq : Word) : h.endTest h.csr.lend seq =
    if 1 < h.csr.lcount.toNat then (h.csr.lstart, { h with csr := { h.csr with lcount := h.csr.lcount - 1 } })
    else (seq, { h with csr := { h.csr with lcount := 0 }, st := { h.st with lact := false } }) := if_pos ⟨ha, rfl⟩

/-- A branch or JAL leaves the loop active. -/
theorem lact_of_transfer {s : State} (hs : s.hart.st.lact = true) {d a b : Reg} {o : BitVec 12} {j : BitVec 20} {i : Instr}
    (hi : i ∈ [Instr.beq a b o, .bne a b o, .blt a b o, .bge a b o, .bltu a b o, .bgeu a b o, .jal d j]) :
    ∃ t, exec i s = .next t ∧ t.hart.st.lact = true := by
  simp only [List.mem_cons, List.not_mem_nil, or_false] at hi
  rcases hi with rfl | rfl | rfl | rfl | rfl | rfl | rfl
  case inr.inr.inr.inr.inr.inr => exact ⟨_, rfl, by simpa [Hart.setFlow] using hs⟩
  all_goals exact ⟨_, rfl, hs⟩

/-- Settles O9: LCOUNT is written without a refusal, the end test and LOOP look at what was left. -/
theorem leavingALoopByLcount : Obligations.LeavingALoopByLcount := by
  intro d a b o j off s hs
  refine ⟨⟨_, rfl, State.csrAccess_lcount hs d _⟩, fun ha => ⟨⟨_, rfl, ?_⟩, ⟨_, rfl, ?_⟩⟩,
    fun h seq ha => h.endTest_active ha seq, fun i hi => ?_⟩
  · rw [if_neg ha]
    exact State.csrAccess_lcount hs d fun old => old ||| s.hart.getX a
  · rw [if_neg ha]
    exact State.csrAccess_lcount hs d fun old => old &&& ~~~ s.hart.getX a
  · obtain ⟨t, ht, hl⟩ := lact_of_transfer hs hi
    exact ⟨t, ht, hl, by rw [exec_loop, State.startLoop_of_active _ _ hl], by rw [exec_loopi, State.startLoop_of_active _ _ hl]⟩

end Sys2Proof.Machine
end

section
/-! Settled here: O14, common vector arithmetic, merges, moves and broadcasts (R226, R227). -/

namespace Sys2Proof.Machine

open Sys2Proof.Safety

/-! ### Integer elements modulo 2^w (R122, R226) -/

theorem wrap_eq_of_modEq {w n : Nat} {i : Int} (h : i ≡ n [ZMOD (2 ^ w : Nat)]) : wrap w i = n % 2 ^ w := by
  rw [wrap, BitVec.toNat_ofInt, h.eq, ← Int.natCast_emod, Int.toNat_natCast]

theorem sgn_modEq (w x : Nat) : sgn w x ≡ x [ZMOD (2 ^ w : Nat)] := by
  rw [sgn, BitVec.toInt_ofNat']
  exact Int.bmod_emod

theorem modEq_pow_sub {w x : Nat} (h : x ≤ 2 ^ w) : -(x : Int) ≡ (2 ^ w - x : Nat) [ZMOD (2 ^ w : Nat)] := by
  rw [Nat.cast_sub h, Int.modEq_iff_dvd]
  exact ⟨1, by ring⟩

theorem wrap_add (w x y : Nat) : wrap w (sgn w x + sgn w y) = (x + y) % 2 ^ w :=
  wrap_eq_of_modEq (by rw [Nat.cast_add]; exact (sgn_modEq w x).add (sgn_modEq w y))

theorem wrap_mul (w x y : Nat) : wrap w (sgn w x * sgn w y) = x * y % 2 ^ w :=
  wrap_eq_of_modEq (by rw [Nat.cast_mul]; exact (sgn_modEq w x).mul (sgn_modEq w y))

theorem wrap_neg {w x : Nat} (h : x ≤ 2 ^ w) : wrap w (-sgn w x) = (2 ^ w - x) % 2 ^ w :=
  wrap_eq_of_modEq ((sgn_modEq w x).neg.trans (modEq_pow_sub h))

theorem wrap_sub {w x y : Nat} (h : y ≤ 2 ^ w) : wrap w (sgn w x - sgn w y) = (x + 2 ^ w - y) % 2 ^ w := by
  refine wrap_eq_of_modEq ?_
  rw [Nat.add_sub_assoc h, Nat.cast_add, sub_eq_add_neg]
  exact (sgn_modEq w x).add ((sgn_modEq w y).neg.trans (modEq_pow_sub h))

theorem wrap_sgn (w x : Nat) : wrap w (sgn w x) = x % 2 ^ w := wrap_eq_of_modEq (sgn_modEq w x)

theorem wrap_min (w x y : Nat) : wrap w (min (sgn w x) (sgn w y)) = (if sgn w y < sgn w x then y else x) % 2 ^ w := by
  split
  · rename_i h
    rw [min_eq_right h.le, wrap_sgn]
  · rename_i h
    rw [min_eq_left (not_lt.1 h), wrap_sgn]

theorem wrap_max (w x y : Nat) : wrap w (max (sgn w x) (sgn w y)) = (if sgn w x < sgn w y then y else x) % 2 ^ w := by
  split
  · rename_i h
    rw [max_eq_right h.le, wrap_sgn]
  · rename_i h
    rw [max_eq_left (not_lt.1 h), wrap_sgn]

theorem wrap_natAbs {w x : Nat} (h : x ≤ 2 ^ w) : wrap w (sgn w x).natAbs = (if sgn w x < 0 then 2 ^ w - x else x) % 2 ^ w := by
  split
  · rename_i hx
    rw [Int.ofNat_natAbs_of_nonpos hx.le, wrap_neg h]
  · rename_i hx
    rw [Int.natAbs_of_nonneg (not_lt.1 hx), wrap_sgn]

/-! ### Signs of FP elements (R226) -/

theorem tagFmt_width {t : Tag} (h : isFpTag t = true) : (tagFmt t).width = tagWidth t := by
  cases t <;> simp_all [isFpTag] <;> rfl

theorem tagWidth_pos (t : Tag) : 0 < tagWidth t := by cases t <;> decide

/-- The top bit of an encoding, taken off and put on. -/
theorem signBit_cases {n x : Nat} (hn : 0 < n) (hx : x < 2 ^ n) :
    (bit x (n - 1) = true ∧ 2 ^ (n - 1) ≤ x ∨ bit x (n - 1) = false ∧ x < 2 ^ (n - 1)) ∧ 2 ^ n = 2 * 2 ^ (n - 1) := by
  have hp : 2 ^ n = 2 * 2 ^ (n - 1) := by rw [← pow_succ', Nat.sub_add_cancel hn]
  refine ⟨?_, hp⟩
  by_cases h : x < 2 ^ (n - 1)
  · exact .inr ⟨by simp [bit, Nat.div_eq_of_lt h], h⟩
  · have : x / 2 ^ (n - 1) = 1 := by
      rw [Nat.div_eq_iff (by positivity)]
      omega
    exact .inl ⟨by simp [bit, this], not_lt.1 h⟩

theorem signElem_clear {f : Fmt} {x : Nat} (hn : 0 < f.width) (hx : x < 2 ^ f.width) : signElem f false x =
    match f.decode x with | .nan g => f.nanOf g | _ => (x % 2 ^ (f.width - 1), .none) := by
  have hv : (if bit x (f.width - 1) then x - f.signBit else if false then x + f.signBit else x) = x % 2 ^ (f.width - 1) := by
    obtain ⟨⟨hb, hs⟩ | ⟨hb, hs⟩, hp⟩ := signBit_cases hn hx
    · rw [hb, if_pos rfl, Nat.mod_eq_sub_mod hs, Nat.mod_eq_of_lt (by omega)]
      rfl
    · rw [hb, Nat.mod_eq_of_lt hs]
      rfl
  unfold signElem
  cases f.decode x with
  | nan g => rfl
  | inf b => exact congrArg (·, Raised.none) hv
  | fin y => exact congrArg (·, Raised.none) hv

theorem signElem_invert {f : Fmt} {x : Nat} (hn : 0 < f.width) (hx : x < 2 ^ f.width) : signElem f true x =
    match f.decode x with | .nan g => f.nanOf g | _ => ((x + 2 ^ (f.width - 1)) % 2 ^ f.width, .none) := by
  have hv : (if bit x (f.width - 1) then x - f.signBit else if true then x + f.signBit else x) = (x + 2 ^ (f.width - 1)) % 2 ^ f.width := by
    obtain ⟨⟨hb, hs⟩ | ⟨hb, hs⟩, hp⟩ := signBit_cases hn hx
    · rw [hb, if_pos rfl, Nat.mod_eq_sub_mod (by omega), Nat.mod_eq_of_lt (by omega), Fmt.signBit]
      omega
    · rw [hb, Nat.mod_eq_of_lt (by omega)]
      rfl
  unfold signElem
  cases f.decode x with
  | nan g => rfl
  | inf b => exact congrArg (·, Raised.none) hv
  | fin y => exact congrArg (·, Raised.none) hv

/-! ### Operands are elements of their tag -/

theorem elemOf_lt (v : VecBits) (w e : Nat) : elemOf v w e < 2 ^ w := BitVec.isLt _

theorem Hart.src2_lt {h : Hart} {t : Tag} {o : Src2} (ho : h.sameTag t o = true) (e : Nat) : h.src2 t o e < 2 ^ tagWidth t := by
  cases o with
  | v b =>
    have hb : h.tag b = t := by simpa [Hart.sameTag] using ho
    rw [← hb]
    exact elemOf_lt _ _ _
  | x x => exact Nat.mod_lt _ (by positivity)
  | i i => exact BitVec.isLt _

/-- The two-operand skeleton, with the elements' meaning given for operands of its tag. -/
theorem elementOp_of_lt {i : Instr} {d a m : Reg} {o : Src2} {accepts : Tag → Bool} {f g : Hart → Tag → Nat → Nat → Nat × Raised}
    (hfg : ∀ h t p q, p < 2 ^ tagWidth t → q < 2 ^ tagWidth t → g h t p q = f h t p q)
    (h : ∀ s, exec i s = s.vec2 d a o m accepts (g s.hart)) : ElementOp i d a o m accepts f := by
  obtain ⟨htag, hlen, hzero, hdone⟩ := elementOp_of (f := g) h
  refine ⟨htag, hlen, hzero, fun s hs => ?_⟩
  obtain ⟨t, ht, hp⟩ := hdone s hs
  have ho : s.hart.sameTag (s.hart.tag a) o = true := (Bool.and_eq_true_iff.1 hs.2.1).2
  have hw : (fun e => g s.hart (s.hart.tag a) (s.hart.elem a e) (s.hart.src2 (s.hart.tag a) o e)) =
      fun e => f s.hart (s.hart.tag a) (s.hart.elem a e) (s.hart.src2 (s.hart.tag a) o e) :=
    funext fun e => hfg _ _ _ _ (elemOf_lt _ _ _) (Hart.src2_lt ho e)
  refine ⟨t, ht, ?_⟩
  simpa only [ElementWise, hw] using hp

/-- An instruction with an integer and an FP meaning (R226). -/
theorem dual_eq_byTag {i : Nat → Int → Int → Int} {n : Nat → Nat → Nat → Nat} {f : Fmt → Rounding → Nat → Nat → Nat × Raised}
    (hi : ∀ w p q, p < 2 ^ w → q < 2 ^ w → wrap w (i w (sgn w p) (sgn w q)) = n w p q % 2 ^ w)
    (h : Hart) (t : Tag) (p q : Nat) (hp : p < 2 ^ tagWidth t) (hq : q < 2 ^ tagWidth t) :
    dual i (fun k x y => f k h.rounding x y) t p q = Claim.byTag n f h t p q := by
  unfold dual Claim.byTag
  split
  · rfl
  · rw [← hi _ _ _ hp hq]

theorem vabsElem_eq_byTag (h : Hart) (t : Tag) (p q : Nat) (hp : p < 2 ^ tagWidth t) : vabsElem t p =
    Claim.byTag (fun w p _ => if Claim.signedOfBits w p < 0 then 2 ^ w - p else p) (fun k _ p _ =>
      match k.decode p with | .nan g => k.nanOf g | _ => (p % 2 ^ (k.width - 1), .none)) h t p q := by
  unfold vabsElem Claim.byTag
  split
  · rename_i ht
    rw [signElem_clear (by rw [tagFmt_width ht]; exact tagWidth_pos t) (by rwa [tagFmt_width ht])]
  · rw [wrap_natAbs hp.le]
    rfl

theorem vnegElem_eq_byTag (h : Hart) (t : Tag) (p q : Nat) (hp : p < 2 ^ tagWidth t) : vnegElem t p =
    Claim.byTag (fun w p _ => 2 ^ w - p) (fun k _ p _ =>
      match k.decode p with | .nan g => k.nanOf g | _ => ((p + 2 ^ (k.width - 1)) % 2 ^ k.width, .none)) h t p q := by
  unfold vnegElem Claim.byTag
  split
  · rename_i ht
    rw [signElem_invert (by rw [tagFmt_width ht]; exact tagWidth_pos t) (by rwa [tagFmt_width ht])]
  · rw [wrap_neg hp.le]

theorem arithTag_eq : arithTag = fun t => decide (t ≠ .i16p) := by
  funext t
  cases t <;> rfl

theorem commonVectorArithmetic : Claim.CommonVectorArithmetic := by
  intro d a b x m
  dsimp only
  rw [← arithTag_eq]
  have add := dual_eq_byTag (i := fun _ x y => x + y) (f := fun k r p q => k.add r (k.decode p) (k.decode q)) fun w p q _ _ => wrap_add w p q
  have sub := dual_eq_byTag (i := fun _ x y => x - y) (f := fun k r p q => k.sub r (k.decode p) (k.decode q))
    fun w p q _ hq => wrap_sub (x := p) hq.le
  have mul := dual_eq_byTag (i := fun _ x y => x * y) (f := fun k r p q => k.mul r (k.decode p) (k.decode q)) fun w p q _ _ => wrap_mul w p q
  have min := dual_eq_byTag (i := fun _ x y => min x y) (f := fun k _ p q => k.minmax false p q) fun w p q _ _ => wrap_min w p q
  have max := dual_eq_byTag (i := fun _ x y => max x y) (f := fun k _ p q => k.minmax true p q) fun w p q _ _ => wrap_max w p q
  exact ⟨⟨elementOp_of_lt add fun _ => rfl, elementOp_of_lt add fun _ => rfl⟩,
    ⟨elementOp_of_lt sub fun _ => rfl, elementOp_of_lt sub fun _ => rfl⟩,
    ⟨elementOp_of_lt mul fun _ => rfl, elementOp_of_lt mul fun _ => rfl⟩,
    ⟨elementOp_of_lt min fun _ => rfl, elementOp_of_lt min fun _ => rfl⟩,
    ⟨elementOp_of_lt max fun _ => rfl, elementOp_of_lt max fun _ => rfl⟩,
    elementOp_of_lt (fun h t p q hp _ => vabsElem_eq_byTag h t p q hp) fun _ => rfl,
    elementOp_of_lt (fun h t p q hp _ => vnegElem_eq_byTag h t p q hp) fun _ => rfl⟩

/-! ### Merges, moves and broadcasts (R223, R227) -/

theorem Hart.nodup_range (h : Hart) : h.range.Nodup := List.nodup_range.filter _

/-- A commit of every element of the run. -/
theorem runWrites_commit (s : State) (d : Reg) (t : Tag) (f : Hart → Nat → Nat × Raised) :
    Claim.RunWrites d (fun _ => t) (·.range) f s (s.onHart fun h => h.commit d t (h.range.map fun e => (e, f h e))) := by
  unfold Claim.RunWrites
  split
  · rename_i hr
    simp [State.onHart, Hart.commit, hr]
  · rename_i hr
    have := writesV_put s d t s.hart.range (f s.hart) s.hart.nodup_range
    simpa [State.onHart, Hart.commit, hr, Function.comp_def] using this

theorem raisedOf_none (l : List Nat) (f : Nat → Nat) : raisedOf (l.map fun e => (e, (f e, .none))) = .none := by
  induction l with
  | nil => rfl
  | cons e l ih => exact ih

theorem Hart.raise_none (h : Hart) : h.raise .none = h := by
  simp [Hart.raise, Raised.none, Raised.bits]

/-- A write of a vector register that raises nothing. -/
theorem writesV_setV (s : State) (d : Reg) (t : Tag) (act : List Nat) (f : Nat → Nat) (hn : act.Nodup) :
    WritesV d t act (fun e => (f e, .none)) s (s.onHart fun h =>
      h.setV d t (putElems h.v[d] (tagWidth t) (act.map fun e => (e, f e)))) := by
  have := writesV_put s d t act (fun e => (f e, .none)) hn
  simpa only [raisedOf_none, Hart.raise_none] using this

theorem mergeWith_judged {i : Instr} {d a m : Reg} {o : Src2} (hi : ∀ s, exec i s = s.mergeWith d a o m) :
    Judged i (fun h => h.sameTag (h.tag a) o) (fun h => tagMvl (h.tag a))
      (Claim.RunWrites d (·.tag a) (·.range) fun h e => (if (h.getP m).getLsbD e then h.elem a e else h.src2 (h.tag a) o e, .none)) :=
  judged_of (k := fun s u => u.onHart fun h => h.commit d (s.hart.tag a) (h.range.map fun e =>
      (e, (if (h.getP m).getLsbD e then h.elem a e else h.src2 (s.hart.tag a) o e, .none))))
    (fun s => by rw [hi, State.mergeWith, State.vectorHart]) fun s => runWrites_commit s d (s.hart.tag a) fun h e =>
      (if (h.getP m).getLsbD e then h.elem a e else h.src2 (s.hart.tag a) o e, .none)

theorem vbcast_judged (d a m : Reg) : Judged (.vbcast d a m) (fun _ => true) (fun h => tagMvl (h.tag a))
    (WholeWrite d (·.tag a) (·.wholeActive m) fun h _ => (h.elem a 0, .none)) := by
  refine judged_of (k := fun s u => u.onHart fun h =>
    h.setV d (s.hart.tag a) (putElems h.v[d] (tagWidth (s.hart.tag a)) ((h.wholeActive m).map fun e => (e, h.elem a 0))))
    (fun s => ?_) fun s => ?_
  · change execVbcast d a m s = _
    rw [execVbcast, State.vectorHart]
  · exact writesV_setV s d (s.hart.tag a) (s.hart.wholeActive m) (fun _ => s.hart.elem a 0) (s.hart.nodup_wholeActive m)

theorem vbcastVx_judged (d x m : Reg) : Judged (.vbcastVx d x m) (fun _ => true) (fun h => tagMvl (h.tag d))
    (ElementWise d m (·.tag d) fun h _ => ((h.getX x).toNat % 2 ^ tagWidth (h.tag d), .none)) := by
  refine judged_of (k := fun s u => u.onHart fun h => h.elementPure d m (s.hart.tag d) fun _ => h.scalar x (s.hart.tag d))
    (fun s => ?_) fun s => ?_
  · change execVbcastVx d x m s = _
    rw [execVbcastVx, State.vectorHart]
  · exact elementWise_writes s d m (s.hart.tag d) fun h _ => (h.scalar x (s.hart.tag d), .none)

theorem mergesMovesAndBroadcasts : Claim.MergesMovesAndBroadcasts := fun d a _ x m =>
  ⟨mergeWith_judged fun _ => rfl, mergeWith_judged fun _ => rfl, elementOp_of (f := fun _ _ p _ => (p, .none)) fun _ => rfl,
    vbcast_judged d a m, vbcastVx_judged d x m⟩

/-- Settles O14, claim by claim. -/
theorem vectorArithmeticAndMoves : Obligations.VectorArithmeticAndMoves := ⟨commonVectorArithmetic, mergesMovesAndBroadcasts⟩

end Sys2Proof.Machine
end

section
/-! Settled here: O5, DETACH, YIELD, JOIN and EXIT (R48, R50, R52, R195-R197, R362, R430). -/

namespace Sys2Proof.Machine

open Sys2Proof.Safety

/-- An instruction of the strands alone has its effect on a strand (R171). -/
theorem exec_of_strandOnly {i : Instr} (k : State → State) (hi : ∀ s, exec i s = s.strandOnly k) {s : State} (hs : OnStrand s) :
    exec i s = .next (k s) := by
  rw [hi, State.strandOnly_strand _ _ hs]

theorem detachAndYieldTouchNothingElse : Claim.DetachAndYieldTouchNothingElse :=
  ⟨fun _ hs => ⟨_, exec_of_strandOnly (fun s => s.onHart fun h => { h with st := { h.st with att := false } }) (fun _ => rfl) hs, rfl⟩,
    fun _ hs => ⟨_, exec_of_strandOnly (fun s => s.onHart fun h => { h with deficit := 0 }) (fun _ => rfl) hs, rfl⟩⟩

/-! ### JOIN (R50, R430) -/

theorem Hart.joinWait_eq_some {h : Hart} {a : Word} : h.joinWait = some a ↔
    ∃ w, h.wait = some w ∧ w.kind = .join ∧ w.met = false ∧ h.st.att = false ∧ w.addr = a := by
  unfold Hart.joinWait
  cases h.wait with
  | none => simp
  | some w => simp [and_assoc]

/-- A hart that does not wait is in no JOIN. -/
theorem Hart.joinWait_of_none {h : Hart} (hw : h.wait = none) : h.joinWait = none := by rw [Hart.joinWait, hw]

/-- A wait that has been met is over. -/
theorem Hart.joinWait_met (h : Hart) (w : Wait) : ({ h with wait := some { w with met := true } } : Hart).joinWait = none := by
  simp [Hart.joinWait]

/-- A member that waits in a JOIN elsewhere than at `a` passes on (R50). -/
def Hart.releaseFrom (a : Word) (h : Hart) : Hart :=
  match h.joinWait, h.wait with
  | some b, some w => if b = a then h else { h with wait := some { w with met := true } }
  | _, _ => h

/-- A member that waits in a JOIN at `a` re-attaches at stream number `n` (R50). -/
def Hart.rejoinAt (a : Word) (n : Nat) (h : Hart) : Hart :=
  match h.joinWait, h.wait with
  | some b, some w =>
    if b = a then { h with wait := some { w with met := true }, st := { h.st with att := true }, streamNo := n } else h
  | _, _ => h

theorem Hart.releaseFrom_of_none {a : Word} {h : Hart} (hj : h.joinWait = none) : h.releaseFrom a = h := by simp [Hart.releaseFrom, hj]

theorem Hart.releaseFrom_here {a : Word} {h : Hart} (hj : h.joinWait = some a) : h.releaseFrom a = h := by
  unfold Hart.releaseFrom
  split
  · rename_i hb _
    rw [hj] at hb
    rw [if_pos (Option.some.inj hb).symm]
  · rfl

theorem Hart.releaseFrom_elsewhere {a b : Word} {h : Hart} {w : Wait} (hj : h.joinWait = some b) (hw : h.wait = some w) (hb : b ≠ a) :
    h.releaseFrom a = { h with wait := some { w with met := true } } := by
  simp [Hart.releaseFrom, hj, hw, hb]

theorem Hart.rejoinAt_of_none {a : Word} {n : Nat} {h : Hart} (hj : h.joinWait = none) : h.rejoinAt a n = h := by simp [Hart.rejoinAt, hj]

theorem Hart.rejoinAt_here {a : Word} {n : Nat} {h : Hart} {w : Wait} (hj : h.joinWait = some a) (hw : h.wait = some w) :
    h.rejoinAt a n = { h with wait := some { w with met := true }, st := { h.st with att := true }, streamNo := n } := by
  simp [Hart.rejoinAt, hj, hw]

theorem keepsIdentity_releaseFrom (a : Word) : KeepsIdentity (Hart.releaseFrom a) := by
  intro h
  unfold Hart.releaseFrom
  split
  · split <;> exact ⟨rfl, rfl, rfl⟩
  · exact ⟨rfl, rfl, rfl⟩

/-- What becomes of a strand of the gang as its stream reaches a JOIN at `a`. -/
def Hart.joined (a : Word) (n : Nat) (h : Hart) : Hart := (h.releaseFrom a).rejoinAt a n

theorem Hart.joined_of_none {a : Word} {n : Nat} {h : Hart} (hj : h.joinWait = none) : h.joined a n = h := by
  rw [Hart.joined, Hart.releaseFrom_of_none hj, Hart.rejoinAt_of_none hj]

theorem Hart.joined_of_some {a : Word} {n : Nat} {h : Hart} {w : Wait} (hw : h.wait = some w) : h.joined a n =
    if h.joinWait = some a then { h with wait := some { w with met := true }, st := { h.st with att := true }, streamNo := n }
    else if h.joinWait.isSome then { h with wait := some { w with met := true } } else h := by
  cases hj : h.joinWait with
  | none => simp [Hart.joined_of_none hj]
  | some b =>
    by_cases hb : b = a
    · subst hb
      rw [Hart.joined, Hart.releaseFrom_here hj, Hart.rejoinAt_here hj hw, if_pos rfl]
    · rw [Hart.joined, Hart.releaseFrom_elsewhere hj hw hb, Hart.rejoinAt_of_none (h.joinWait_met w), if_neg (by simpa using hb)]
      rfl

theorem State.streamJoin_eq (s : State) (whole : Bool) : s.streamJoin whole =
    if whole ∧ ¬ ((s.onMembers (gangOf s.hart.id) (Hart.releaseFrom s.hart.pc)).members (gangOf s.hart.id)).all
        fun m => m.st.att || m.joinWait == some s.hart.pc then
      ((s.onMembers (gangOf s.hart.id) (Hart.releaseFrom s.hart.pc)).onGang (gangOf s.hart.id)
        fun x => { x with joinAt := some s.hart.pc }).waitFor .join 0 s.hart.pc
    else
      ((s.onMembers (gangOf s.hart.id) (Hart.releaseFrom s.hart.pc)).onMembers (gangOf s.hart.id)
        (Hart.rejoinAt s.hart.pc s.hart.streamNo)).onGang (gangOf s.hart.id) fun x => { x with joinAt := none } := rfl

section
variable {s : State} (whole : Bool)

theorem State.join_of_handler (h : s.hart.st.priv = true ∨ s.hart.st.uih = true) : s.join whole = s.onHart (·.setFlow .seq) := by
  unfold State.join
  exact if_pos (h.imp id .inl)

theorem State.join_of_pilot (hp : s.hart.st.priv = false) (hu : s.hart.st.uih = false) (hw : s.hart.wait = none) (ha : s.hart.st.att = true)
    (hk : s.streamKnown (gangOf s.hart.id) s.hart.streamNo = false)
    (hl : (s.pilot? (gangOf s.hart.id)).map (·.id) = some s.hart.id) : s.join whole = s.streamJoin whole := by
  simp [State.join, hp, hu, hw, ha, hk, hl]

/-- The stream goes past a JOIN: those waiting there rejoin, the others pass on. -/
theorem State.streamJoin_joined (hw : s.hart.wait = none)
    (hr : whole = true → ∀ h ∈ s.members (gangOf s.hart.id), h.st.att = true ∨ h.joinWait = some s.hart.pc) : s.streamJoin whole =
      { s with
        harts := s.harts.map (Hart.ifMember (gangOf s.hart.id) (·.joined s.hart.pc s.hart.streamNo))
        gangs := s.gangs.map fun x => if x.id = gangOf s.hart.id then { x with joinAt := none } else x } := by
  have hready : whole = true → ((s.onMembers (gangOf s.hart.id) (Hart.releaseFrom s.hart.pc)).members (gangOf s.hart.id)).all
      (fun m => m.st.att || m.joinWait == some s.hart.pc) = true := by
    intro hwh
    refine List.all_eq_true.2 fun m hm => ?_
    obtain ⟨k, hk, rfl⟩ := (State.mem_members_onMembers (keepsIdentity_releaseFrom _)).1 hm
    obtain ha | hj := hr hwh k hk
    · have hn : k.joinWait = none := by
        refine Option.eq_none_iff_forall_ne_some.2 fun a hj => ?_
        obtain ⟨_, _, _, _, hatt, _⟩ := Hart.joinWait_eq_some.1 hj
        simp [ha] at hatt
      simp [Hart.releaseFrom_of_none hn, ha]
    · simp [Hart.releaseFrom_here hj, hj]
  rw [State.streamJoin_eq, if_neg fun h => h.2 (hready h.1), State.onMembers_onMembers _ _ (keepsIdentity_releaseFrom _)]
  have hh : s.hart.ifMember (gangOf s.hart.id) (·.joined s.hart.pc s.hart.streamNo) = s.hart := by
    simp only [Hart.ifMember, Hart.joined_of_none (Hart.joinWait_of_none hw), ite_self]
  have hs : s.mapHarts (Hart.ifMember (gangOf s.hart.id) (·.joined s.hart.pc s.hart.streamNo)) =
      { s with harts := s.harts.map (Hart.ifMember (gangOf s.hart.id) (·.joined s.hart.pc s.hart.streamNo)) } := by
    rw [State.mapHarts, hh]
  change ((s.mapHarts (Hart.ifMember (gangOf s.hart.id) (·.joined s.hart.pc s.hart.streamNo))).onGang _ _) = _
  rw [hs]
  simp only [State.onGang, beq_iff_eq]
end

theorem joinReattachesTheWaitingMembers : Claim.JoinReattachesTheWaitingMembers := by
  intro s hs hw g a mine rejoins joined
  have hN : exec .joinN s = .next (s.join false) := exec_of_strandOnly (·.join false) (fun _ => rfl) hs
  have hW : exec .joinW s = .next (s.join true) := exec_of_strandOnly (·.join true) (fun _ => rfl) hs
  refine ⟨fun h => ⟨?_, ?_⟩, fun hp hu ha hk hl => ?_⟩
  · rw [hW, State.join_of_handler _ h]
    rfl
  · rw [hN, State.join_of_handler _ h]
    rfl
  have hr : ∀ h : Hart, h.ifMember g (·.joined a s.hart.streamNo) = rejoins h := by
    intro h
    simp only [rejoins, Hart.ifMember]
    cases hv : h.wait with
    | none => rw [Hart.joined_of_none (Hart.joinWait_of_none hv), ite_self]
    | some w =>
      rw [Hart.joined_of_some hv]
      by_cases hm : h.engine = .strand ∧ gangOf h.id = g ∧ h.phase ≠ .absent
      · simp only [mine, hm, true_and, if_true, ne_eq, not_false_eq_true]
      · simp only [mine, hm, false_and, if_false]
  have hj : joined = .next { s with
      harts := s.harts.map (Hart.ifMember g (·.joined a s.hart.streamNo))
      gangs := s.gangs.map fun x => if x.id = g then { x with joinAt := none } else x } := by
    simp only [joined, funext hr]
  refine ⟨?_, fun hall => ?_⟩
  · rw [hN, hj, State.join_of_pilot _ hp hu hw ha hk hl, State.streamJoin_joined _ hw fun h => Bool.noConfusion h]
  · rw [hW, hj, State.join_of_pilot _ hp hu hw ha hk hl, State.streamJoin_joined _ hw fun _ => hall]

/-! ### EXIT (R48, R52, R196) -/

/-- `t` is `s` after barriers were settled: waits at barriers may have ended, and other ranks may have been told. -/
def BarriersSettled (s t : State) : Prop := ∃ w p hs b f o,
  t = { s with hart := { s.hart with wait := w, paused := p }, harts := hs, barriers := b, fabric := f, outputs := o }

theorem BarriersSettled.refl (s : State) : BarriersSettled s s := ⟨_, _, _, _, _, _, rfl⟩

theorem BarriersSettled.trans {s t u : State} (h : BarriersSettled s t) (k : BarriersSettled t u) : BarriersSettled s u := by
  obtain ⟨_, _, _, _, _, _, rfl⟩ := h
  obtain ⟨_, _, _, _, _, _, rfl⟩ := k
  exact ⟨_, _, _, _, _, _, rfl⟩

theorem BarriersSettled.foldl {α : Type} {f : State → α → State} (hf : ∀ s a, BarriersSettled s (f s a)) (l : List α) (s : State) :
    BarriersSettled s (l.foldl f s) := by
  induction l generalizing s with
  | nil => exact .refl s
  | cons a l ih => exact (hf s a).trans (ih _)

theorem State.setBarrier_settled (s : State) (b : Barrier) : BarriersSettled s (s.setBarrier b) := ⟨_, _, _, _, _, _, rfl⟩

theorem State.post_settled (s : State) (p : Fin 8) (q off : Nat) (op : SpanOp) : BarriersSettled s (s.post p q off op) := by
  unfold State.post
  split
  · exact ⟨_, _, _, _, _, _, rfl⟩
  · exact .refl s

theorem State.announce_settled (s : State) (b : Barrier) : BarriersSettled s (s.announce b) := by
  unfold State.announce
  split
  · split
    · exact .refl s
    · exact (s.setBarrier_settled _).trans (.foldl (fun s q => s.post_settled _ q _ _) _ _)
  · exact .refl s

/-- What the completion of a generation does to a hart: its BAR.WAIT there is met (R93, R94). -/
def Hart.passBarrier (b : Barrier) (h : Hart) : Hart :=
  let mark := fun w : Wait =>
    if w.kind = .barrier ∧ w.addr = barrierWaitKey b.key.id b.phase.toNat then { w with met := true } else w
  if participates b.key h then { h with wait := h.wait.map mark, paused := h.paused.map fun p => (p.1, mark p.2) } else h

theorem Hart.passBarrier_eq (b : Barrier) (h : Hart) :
    h.passBarrier b = { h with wait := (h.passBarrier b).wait, paused := (h.passBarrier b).paused } := by
  unfold Hart.passBarrier
  dsimp only
  split <;> rfl

theorem State.completeBarrier_eq (s : State) (b : Barrier) : s.completeBarrier b =
    (s.setBarrier { b with
      phase := b.phase + 1, registered := [], peers := b.peers.filter (fun e => e.2 != b.phase.toNat), announced := false }).mapHarts
      (Hart.passBarrier b) := rfl

theorem State.completeBarrier_settled (s : State) (b : Barrier) : BarriersSettled s (s.completeBarrier b) := by
  have h : s.completeBarrier b = { s with
    hart := s.hart.passBarrier b, harts := (s.completeBarrier b).harts, barriers := (s.completeBarrier b).barriers } := rfl
  rw [Hart.passBarrier_eq] at h
  exact ⟨_, _, _, _, _, _, h⟩

theorem State.settleBarrier_settled (s : State) (k : BarrierKey) : BarriersSettled s (s.settleBarrier k) := by
  unfold State.settleBarrier
  dsimp only
  split
  · have ha := s.announce_settled (s.barrier k)
    split
    · exact ha
    · have hc := ha.trans (State.completeBarrier_settled _ (s.barrier k))
      split
      · exact hc.trans (State.announce_settled _ _)
      · exact hc
  · exact .refl s

theorem State.settleAll_settled (s : State) (i : StrandId) : BarriersSettled s (s.settleAll i) :=
  .foldl (fun s _ => (s.setBarrier_settled _).trans (State.settleBarrier_settled _ _)) _ _

/-- `t` is `s` but for its sessions and gangs. -/
def SessionsChanged (s t : State) : Prop := ∃ x g, t = { s with sessions := x, gangs := g }

theorem SessionsChanged.refl (s : State) : SessionsChanged s s := ⟨_, _, rfl⟩

theorem SessionsChanged.trans {s t u : State} (h : SessionsChanged s t) (k : SessionsChanged t u) : SessionsChanged s u := by
  obtain ⟨_, _, rfl⟩ := h
  obtain ⟨_, _, rfl⟩ := k
  exact ⟨_, _, rfl⟩

theorem State.setBank_eq (s : State) (g : Option GangId) (b : Nat) (k : Bank) : s.setBank g b k = { s with gangs := (s.setBank g b k).gangs } := by
  unfold State.setBank
  split <;> rfl

/-- A receiver's bank becoming plain changes banks alone. -/
theorem State.freeReceiver_eq (s : State) (x : Session) (r : SxReceiver) : s.freeReceiver x r = { s with gangs := (s.freeReceiver x r).gangs } := by
  unfold State.freeReceiver State.markReceive
  split
  · split
    · exact State.setBank_eq _ _ _ _
    · rfl
  · rfl

theorem State.foldl_freeReceiver_eq (x : Session) (l : List SxReceiver) (s : State) :
    l.foldl (fun s r => s.freeReceiver x r) s = { s with gangs := (l.foldl (fun s r => s.freeReceiver x r) s).gangs } := by
  induction l generalizing s with
  | nil => rfl
  | cons r l ih => rw [List.foldl_cons, ih, State.freeReceiver_eq]

theorem State.endSession_changed (s : State) (x : Session) (r : Bool) : SessionsChanged s (s.endSession x r) := by
  unfold State.endSession
  rw [State.foldl_freeReceiver_eq]
  exact ⟨_, _, rfl⟩

theorem State.settleSession_changed (s : State) (x : Session) : SessionsChanged s (s.settleSession x) := by
  unfold State.settleSession
  split
  · exact s.endSession_changed x false
  · exact .refl s

theorem State.leaveSession_changed (s : State) (x : Session) (i : StrandId) : SessionsChanged s (s.leaveSession x i) :=
  SessionsChanged.trans ⟨_, _, rfl⟩ (State.settleSession_changed _ _)

/-! #### No session is left that the strand has joined (R334) -/

theorem State.session?_some {s : State} {p : Fin 8} {sid : Fin 16} {x : Session} (h : s.session? p sid = some x) :
    x.part = p ∧ x.sid = sid := by
  simpa using List.find?_some h

theorem State.session?_setSession (s : State) (x : Session) (p : Fin 8) (sid : Fin 16) :
    (s.setSession x).session? p sid = if x.part = p ∧ x.sid = sid then some x else s.session? p sid := by
  simp only [State.session?, State.setSession, List.find?_cons]
  split
  · rename_i hx
    rw [if_pos (by simpa using hx)]
  · rename_i hx
    have hx : ¬ (x.part = p ∧ x.sid = sid) := by simpa using hx
    rw [if_neg hx, List.find?_filter]
    congr 1
    funext y
    by_cases hy : y.part = p ∧ y.sid = sid
    · have hk : (y.part == x.part && y.sid == x.sid) = false := by
        simpa using fun e f => hx ⟨e.symm.trans hy.1, f.symm.trans hy.2⟩
      simp [hk, ← beq_iff_eq]
    · have hk : (y.part == p && y.sid == sid) = false := by simpa using hy
      simp [hk]

/-- Strand `i` has joined no session of partition `p` under id `sid`. -/
def State.HasLeft (s : State) (p : Fin 8) (i : StrandId) (sid : Fin 16) : Prop := ∀ x, s.session? p sid = some x → x.joined i = false

theorem Session.joined_of_dead {x : Session} (h : x.live = false) (i : StrandId) : x.joined i = false := by simp [Session.joined, h]

/-- A session that ends is joined by nobody, and the others stay. -/
theorem State.session?_endSession (s : State) (x : Session) (r : Bool) (p : Fin 8) (sid : Fin 16) :
    ((x.part = p ∧ x.sid = sid) → ∃ y, (s.endSession x r).session? p sid = some y ∧ y.live = false) ∧
    (¬ (x.part = p ∧ x.sid = sid) → (s.endSession x r).session? p sid = s.session? p sid) := by
  unfold State.endSession
  rw [State.foldl_freeReceiver_eq]
  simp only [State.session?_setSession]
  refine ⟨fun h => ⟨_, if_pos h, rfl⟩, fun h => if_neg h⟩

theorem State.settleSession_hasLeft {s : State} {x : Session} {p : Fin 8} {i : StrandId} {sid : Fin 16} (hx : x.part = p ∧ x.sid = sid)
    (h : s.HasLeft p i sid) : (s.settleSession x).HasLeft p i sid := by
  unfold State.settleSession
  split
  · obtain ⟨y, hy, hl⟩ := (s.session?_endSession x false p sid).1 hx
    intro z hz
    rw [hy] at hz
    exact Option.some.inj hz ▸ Session.joined_of_dead hl i
  · exact h

theorem State.session?_settleSession_ne {s : State} {x : Session} {p : Fin 8} {sid : Fin 16} (hx : ¬ (x.part = p ∧ x.sid = sid)) :
    (s.settleSession x).session? p sid = s.session? p sid := by
  unfold State.settleSession
  split
  · exact (s.session?_endSession x false p sid).2 hx
  · rfl

/-- The session once a strand has closed its part of it (R334). -/
def Session.left (x : Session) (i : StrandId) : Session :=
  let x1 := match x.participant? i with
    | none => x
    | some q => x.setParticipant { q with closed := true, arrived := false, request := .none }
  { x1 with receivers := x1.receivers.map fun r => if x.serving r.index = i then { r with buffer := [], freeing := some (x.completed + 1) } else r }

theorem State.leaveSession_eq (s : State) (x : Session) (i : StrandId) :
    s.leaveSession x i = (s.setSession (x.left i)).settleSession (x.left i) := rfl

theorem Session.left_id (x : Session) (i : StrandId) : (x.left i).part = x.part ∧ (x.left i).sid = x.sid := by
  unfold Session.left
  cases x.participant? i <;> exact ⟨rfl, rfl⟩

theorem Session.left_joined (x : Session) (i : StrandId) : (x.left i).joined i = false := by
  cases hq : x.participant? i with
  | none =>
    have hn : (x.left i).participant? i = none := by rw [Session.left, hq]; exact hq
    simp [Session.joined, hn]
  | some q =>
    have hi : (q.strand == i) = true := by
      have := List.find?_some hq
      simpa using this
    have hc : (x.left i).participant? i = some { q with closed := true, arrived := false, request := .none } := by
      rw [Session.left, hq]
      simp only [Session.participant?, Session.setParticipant, List.find?_cons, hi]
    simp [Session.joined, hc]

/-- What EXIT does to one session id. -/
def State.leaveId (p : Fin 8) (i : StrandId) (s : State) (sid : Fin 16) : State :=
  match s.session? p sid with
  | some x => if x.joined i then s.leaveSession x i else if x.live then s.settleSession x else s
  | none => s

theorem State.leaveId_changed (p : Fin 8) (i : StrandId) (s : State) (sid : Fin 16) : SessionsChanged s (s.leaveId p i sid) := by
  unfold State.leaveId
  split
  · split
    · exact s.leaveSession_changed _ i
    · split
      · exact s.settleSession_changed _
      · exact .refl s
  · exact .refl s

theorem State.leaveId_hasLeft (p : Fin 8) (i : StrandId) (s : State) (sid : Fin 16) : (s.leaveId p i sid).HasLeft p i sid := by
  unfold State.leaveId
  cases hx : s.session? p sid with
  | none => exact fun y hy => by rw [hx] at hy; cases hy
  | some x =>
    obtain ⟨hp, hs⟩ := State.session?_some hx
    have hstay : x.joined i = false → s.HasLeft p i sid := fun hj y hy => by
      rw [hx] at hy
      exact Option.some.inj hy ▸ hj
    by_cases hj : x.joined i = true
    · obtain ⟨hlp, hls⟩ := x.left_id i
      have hl : (x.left i).part = p ∧ (x.left i).sid = sid := ⟨hlp.trans hp, hls.trans hs⟩
      simp only [hj, if_true, State.leaveSession_eq]
      refine State.settleSession_hasLeft hl fun y hy => ?_
      rw [State.session?_setSession, if_pos hl] at hy
      exact Option.some.inj hy ▸ x.left_joined i
    · have hj : x.joined i = false := by simpa using hj
      simp only [hj, Bool.false_eq_true, if_false]
      split
      · exact State.settleSession_hasLeft ⟨hp, hs⟩ (hstay hj)
      · exact hstay hj

theorem State.session?_leaveId_ne (p : Fin 8) (i : StrandId) (s : State) {sid n : Fin 16} (hn : n ≠ sid) :
    (s.leaveId p i sid).session? p n = s.session? p n := by
  unfold State.leaveId
  split
  · rename_i x hx
    obtain ⟨hp, hs⟩ := State.session?_some hx
    have hne : ¬ (x.part = p ∧ x.sid = n) := fun h => hn (h.2.symm.trans hs)
    obtain ⟨hlp, hls⟩ := x.left_id i
    have hl : ¬ ((x.left i).part = p ∧ (x.left i).sid = n) := by rw [hlp, hls]; exact hne
    split
    · rw [State.leaveSession_eq, State.session?_settleSession_ne hl, State.session?_setSession, if_neg hl]
    · split
      · exact State.session?_settleSession_ne hne
      · rfl
  · rfl

/-- After its EXIT has gone through a list of session ids, a strand has joined none of them. -/
theorem State.foldl_leaveId (p : Fin 8) (i : StrandId) (l : List (Fin 16)) (s : State) :
    SessionsChanged s (l.foldl (State.leaveId p i) s) ∧
    ∀ sid, sid ∈ l ∨ s.HasLeft p i sid → (l.foldl (State.leaveId p i) s).HasLeft p i sid := by
  induction l generalizing s with
  | nil => exact ⟨.refl s, fun sid h => h.resolve_left (by simp)⟩
  | cons n l ih =>
    obtain ⟨hc, hl⟩ := ih (s.leaveId p i n)
    refine ⟨(s.leaveId_changed p i n).trans hc, fun sid h => hl sid ?_⟩
    by_cases hn : sid = n
    · exact .inr (hn ▸ s.leaveId_hasLeft p i n)
    · refine (h.imp_left fun h => (List.mem_cons.1 h).resolve_left hn).imp_right fun h y hy => h y ?_
      rwa [s.session?_leaveId_ne p i hn] at hy

theorem State.leaveSessions_changed (s : State) (p : Fin 8) (i : StrandId) : SessionsChanged s (s.leaveSessions p i) :=
  (State.foldl_leaveId p i _ s).1

theorem State.leaveSessions_hasLeft (s : State) (p : Fin 8) (i : StrandId) (sid : Fin 16) : (s.leaveSessions p i).HasLeft p i sid :=
  (State.foldl_leaveId p i _ s).2 sid (.inl (List.mem_finRange sid))

theorem State.settleGang_frame (s : State) (g : GangId) :
    (s.settleGang g).mem = s.mem ∧ (s.settleGang g).hart = s.hart ∧ (s.settleGang g).sessions = s.sessions := by
  unfold State.settleGang
  split <;> exact ⟨rfl, rfl, rfl⟩

theorem BarriersSettled.frame {s t : State} (h : BarriersSettled s t) : t.mem = s.mem ∧ t.hart.phase = s.hart.phase ∧
    t.hart.st = s.hart.st ∧ t.hart.x = s.hart.x ∧ t.hart.v = s.hart.v := by
  obtain ⟨_, _, _, _, _, _, rfl⟩ := h
  exact ⟨rfl, rfl, rfl, rfl, rfl⟩

theorem SessionsChanged.frame {s t : State} (h : SessionsChanged s t) : t.mem = s.mem ∧ t.hart = s.hart := by
  obtain ⟨_, _, rfl⟩ := h
  exact ⟨rfl, rfl⟩

/-- The strand in front as its EXIT leaves it. -/
def Hart.ended (h : Hart) : Hart := { h with phase := .exited, wait := none, st := { h.st with att := false } }.setFlow .ended

theorem State.endStrand_eq (s : State) : s.endStrand =
    ((({ s with hart := s.hart.ended } : State).settleAll s.hart.id).leaveSessions s.hart.part s.hart.id).settleGang (gangOf s.hart.id) := rfl

theorem State.endStrand_ends (s : State) : s.endStrand.mem = s.mem ∧ s.endStrand.hart.phase = .exited ∧ s.endStrand.hart.st.att = false ∧
    s.endStrand.hart.x = s.hart.x ∧ s.endStrand.hart.v = s.hart.v ∧ ∀ sid, s.endStrand.HasLeft s.hart.part s.hart.id sid := by
  rw [State.endStrand_eq]
  obtain ⟨hm, hp, hst, hx, hv⟩ := (({ s with hart := s.hart.ended } : State).settleAll_settled s.hart.id).frame
  generalize ({ s with hart := s.hart.ended } : State).settleAll s.hart.id = t at hm hp hst hx hv ⊢
  obtain ⟨hlm, hlh⟩ := (t.leaveSessions_changed s.hart.part s.hart.id).frame
  obtain ⟨hgm, hgh, hgs⟩ := (t.leaveSessions s.hart.part s.hart.id).settleGang_frame (gangOf s.hart.id)
  refine ⟨by rw [hgm, hlm, hm], by rw [hgh, hlh, hp]; rfl, by rw [hgh, hlh, hst]; rfl, by rw [hgh, hlh, hx]; rfl,
    by rw [hgh, hlh, hv]; rfl, fun sid y hy => t.leaveSessions_hasLeft s.hart.part s.hart.id sid y ?_⟩
  rwa [State.session?, hgs] at hy

theorem exec_exit (s : State) : exec .exit s = .next (match s.hart.engine with | .strand => s.exitStrand | .control c => s.exitForked c) := rfl

theorem State.exitStrand_held {s : State} (h : s.hart.cnt.loads ≠ 0 ∨ s.hart.cnt.stores ≠ 0) : s.exitStrand = s.stall 0 :=
  if_neg fun e => h.elim (fun h => h e.1) fun h => h e.2

theorem State.exitForked_held {s : State} {c : Fin 64} (h : s.clusters[c].queue ≠ [] ∨ s.hart.pending ≠ []) : s.exitForked c = s.stall 0 := by
  refine if_neg fun e => ?_
  simp only [List.isEmpty_iff] at e
  exact h.elim (fun h => h e.1) fun h => h e.2

/-- A program that ends counts off its strand's tiles counter (R52). -/
theorem State.exitForked_ends {s : State} {c : Fin 64} (he : OnControl c s) (hq : s.clusters[c].queue = []) (hp : s.hart.pending = []) :
    s.exitForked c = { s with
      hart := { s.hart with phase := .exited, wait := none }.setFlow .ended
      harts := s.harts.map (Hart.ifStrand s.hart.id fun h => { h with cnt := { h.cnt with tiles := h.cnt.tiles - 1 } }) } := by
  have hn : ¬ s.hart.engine = .strand := by rw [he]; exact Engine.noConfusion
  rw [State.exitForked, hq, hp, if_pos ⟨rfl, rfl⟩, State.onStrand_eq, State.mapHarts]
  congr 1
  exact if_neg fun h => hn h.1

theorem exitEndsTheStrandOrProgram : Claim.ExitEndsTheStrandOrProgram := by
  intro s
  have strand : OnStrand s → exec .exit s = .next s.exitStrand := fun h => by rw [exec_exit, h]
  have control : ∀ {c}, OnControl c s → exec .exit s = .next (s.exitForked c) := fun h => by rw [exec_exit, h]
  refine ⟨fun hs hl ht => ?_, fun c hc hq hp => ?_, ?_⟩
  · obtain ⟨hm, hph, ha, hx, hv, hj⟩ := s.endStrand_ends
    exact ⟨_, (strand hs).trans (congrArg _ (if_pos ⟨hl, ht⟩)), hm, hph, ha, hx, hv, fun sid x => hj sid x⟩
  · rw [control hc, State.exitForked_ends hc hq hp]
    rfl
  · rintro (⟨hs, h⟩ | ⟨c, hc, h⟩)
    · rw [strand hs, State.exitStrand_held h]
      rfl
    · rw [control hc, State.exitForked_held h]
      rfl

/-- Settles O5, claim by claim. -/
theorem gangInstructionsAndEnds : Obligations.GangInstructionsAndEnds :=
  ⟨detachAndYieldTouchNothingElse, joinReattachesTheWaitingMembers, exitEndsTheStrandOrProgram⟩

end Sys2Proof.Machine
end

section
/-! Settled here: O6, FORK, RENDEZVOUS, UIMASK and UIRET (R52, R53, R198, R199, R204, R205, R289, R298, R315). -/

namespace Sys2Proof.Machine

open Sys2Proof.Safety

/-! ### FORK (R52, R198, R289) -/

theorem exec_fork {s : State} {a b : Reg} {c : Fin 64} (hs : OnStrand s) (ha : (s.hart.getX a).toNat % 4 = 0)
    (hc : s.clusterOf (gangOf s.hart.id) = some c) (hf : s.clusters[c].forks.length < 4) (ht : s.hart.cnt.tiles ≠ 0xFFFF) :
    exec (.fork a b) s = .next { s with
      hart := { s.hart with cnt := { s.hart.cnt with tiles := s.hart.cnt.tiles + 1 } }
      clusters := s.clusters.set c { s.clusters[c] with forks := s.clusters[c].forks ++ [
        { entry := s.hart.getX a, arg := s.hart.getX b, owner := s.hart.id, asid := s.hart.csr.asid
          troot := s.hart.csr.troot, super := s.hart.st.priv }] }
      gangs := s.gangs.map fun x => if x.id = gangOf s.hart.id then { x with bound := some c } else x } := by
  have hal : aligned (s.hart.getX a) 4 = true := by simpa [aligned] using ha
  change execFork a b s = _
  rw [execFork, State.strandOnly_strand _ _ hs]
  simp only [hal, hc, not_true_eq_false, if_false, if_neg (Nat.not_le.2 hf), if_neg ht]
  simp only [State.onGang, State.onHart, beq_iff_eq]

theorem forkQueuesAProgram : Claim.ForkQueuesAProgram :=
  fun _ _ _ _ ⟨hs, ha, hc, hf, ht⟩ => ⟨_, exec_fork hs ha hc hf ht, rfl⟩

/-! ### RENDEZVOUS (R53, R199, R298, R316) -/

theorem Wait.meetsAt_iff {w : Wait} {id : Fin 16} : w.meetsAt id = true ↔
    w.kind = .rendezvous ∧ w.met = false ∧ w.addr = BitVec.ofNat 64 id.val := by
  simp [Wait.meetsAt, and_assoc]

theorem Hart.meetsAt_iff {h : Hart} {id : Fin 16} : h.meetsAt id = true ↔
    (∃ w, h.wait = some w ∧ w.meetsAt id = true) ∨ ∃ p, h.paused = some p ∧ p.2.meetsAt id = true := by
  simp [Hart.meetsAt, Option.any_eq_true]

theorem isPartner_iff {h o : Hart} : isPartner h o = true ↔ o.id = h.id ∧ o.phase = .running ∧ o.isControl ≠ h.isControl := by
  simp only [isPartner, Bool.and_eq_true, beq_iff_eq, bne_iff_ne, and_assoc]
  rw [eq_comm, ne_comm]

/-- What a RENDEZVOUS does to a wait (R199). -/
def Wait.meet (id : Fin 16) (w : Wait) : Wait := if w.meetsAt id then { w with met := true } else w

theorem Hart.meet_eq (h : Hart) (id : Fin 16) :
    h.meet id = { h with wait := h.wait.map (Wait.meet id), paused := h.paused.map fun p => (p.1, p.2.meet id) } := rfl

section
variable {s : State} {id : Fin 16}

/-- No matrix instruction holds a strand, nor a control core whose queue is empty (R298). -/
theorem State.rendezvousHeld_eq_false (hs : OnStrand s ∨ ∃ c, OnControl c s ∧ s.clusters[c].queue = []) : s.rendezvousHeld = false := by
  unfold State.rendezvousHeld
  obtain hs | ⟨c, hc, hq⟩ := hs
  · rw [hs]
  · rw [hc]
    simp only [hq, List.any_nil]

theorem exec_rendezvous (hw : s.hart.wait = none) (hh : s.rendezvousHeld = false) : exec (.rendezvous id) s = .next (
    if s.harts.any (fun o => isPartner s.hart o && o.meetsAt id) then
      { s with
        hart := s.hart.setFlow .seq
        harts := s.harts.map fun o => if isPartner s.hart o && o.meetsAt id then o.meet id else o }
    else s.waitFor .rendezvous 0 (BitVec.ofNat 64 id.val)) := by
  change execRendezvous id s = _
  simp only [execRendezvous, hw, hh, Bool.false_eq_true, if_false]
end

theorem rendezvousMeetsItsPartner : Claim.RendezvousMeetsItsPartner := by
  intro id s hw hs open_ meets ends
  have hh := State.rendezvousHeld_eq_false hs
  have hopen : ∀ w, w.meetsAt id = true ↔ open_ w := fun w => Wait.meetsAt_iff
  have hends : ∀ w, ends w (w.meet id) := fun w =>
    ⟨fun h => if_pos ((hopen w).2 h), fun h => if_neg fun e => h ((hopen w).1 e)⟩
  have hmeets : ∀ o, (isPartner s.hart o && o.meetsAt id) = true ↔ meets o := by
    intro o
    rw [Bool.and_eq_true, isPartner_iff, Hart.meetsAt_iff]
    simp only [hopen, meets, and_assoc]
  refine ⟨fun ⟨o, ho, hm⟩ => ?_, fun hn => ?_, ⟨rfl, rfl, rfl⟩, rfl, rfl, rfl, rfl⟩
  · refine ⟨_, (exec_rendezvous hw hh).trans (congrArg _ (if_pos (List.any_eq_true.2 ⟨o, ho, (hmeets o).2 hm⟩))), rfl,
      List.length_map _, fun k hk ht => ?_⟩
    simp only [List.getElem_map]
    refine ⟨fun h => if_neg fun e => h ((hmeets _).1 e), fun h => ?_⟩
    rw [if_pos ((hmeets _).2 h), Hart.meet_eq]
    refine ⟨rfl, ?_, ?_⟩
    · cases s.harts[k].wait with
      | none => exact .none
      | some w => exact .some (hends w)
    · cases s.harts[k].paused with
      | none => exact .none
      | some p => exact .some ⟨rfl, hends p.2⟩
  · have ha : ¬ s.harts.any (fun o => isPartner s.hart o && o.meetsAt id) = true := fun e => by
      obtain ⟨o, ho, hm⟩ := List.any_eq_true.1 e
      exact hn o ho ((hmeets o).1 hm)
    rw [exec_rendezvous hw hh, if_neg ha]
    rfl

/-! ### UIMASK and UIRET (R204, R205, R315) -/

theorem Hart.getX_of_x {h k : Hart} (hx : h.x = k.x) (r : Reg) : h.getX r = k.getX r := by rw [Hart.getX, Hart.getX, hx]

theorem Hart.getX_swapShadow (h : Hart) (r : Reg) :
    h.swapShadow.getX r = if 1 ≤ r.val ∧ r.val ≤ 7 then h.shadow.getD (r.val - 1) 0 else h.getX r := by
  unfold Hart.getX Hart.swapShadow
  by_cases h0 : r = 0
  · simp [h0]
  · simp only [if_neg h0, Fin.getElem_fin, Vector.getElem_ofFn]
    split
    · rename_i hr
      rw [vector_getD_of_lt _ _ (by omega)]
    · rfl

theorem Hart.shadow_swapShadow (h : Hart) (k : Fin 7) : h.swapShadow.shadow[k] = h.getX ⟨k.val + 1, by omega⟩ := by
  have h0 : (⟨k.val + 1, by omega⟩ : Reg) ≠ 0 := fun e => by
    have := congrArg Fin.val e
    simp at this
  simp [Hart.getX, Hart.swapShadow, h0]

theorem boolWord_eq (b : Bool) : boolWord b = if b then 1 else 0 := by cases b <;> rfl

theorem BitVec_ofNat_bits {n : Nat} (v : BitVec n) (lo k : Nat) : BitVec.ofNat k (bits v.toNat lo k) = v.extractLsb' lo k := by
  apply BitVec.eq_of_toNat_eq
  simp [bits, Nat.shiftRight_eq_div_pow]

/-- The hart as UIRET leaves it (R205). -/
def Hart.uiret (h : Hart) : Hart := h.returnUser.setFlow (.jump h.csr.uiepc)

theorem Hart.uiret_eq (h : Hart) : h.uiret = { h with
    x := h.uiret.x, shadow := h.uiret.shadow
    st := { h.st with uih := false }
    csr := { h.csr with vconv := h.csr.uicause.extractLsb' 23 2, vstart := h.csr.uicause.extractLsb' 13 10 }
    iss := { h.iss with flow := .jump h.csr.uiepc } } := by
  simp only [Hart.uiret, Hart.returnUser, Hart.setFlow, Hart.swapShadow, BitVec_ofNat_bits]

theorem Hart.uiret_x (h : Hart) : h.uiret.x = h.swapShadow.x := rfl

theorem Hart.getX_uiret (h : Hart) (r : Reg) :
    h.uiret.getX r = if 1 ≤ r.val ∧ r.val ≤ 7 then h.shadow.getD (r.val - 1) 0 else h.getX r :=
  (Hart.getX_of_x h.uiret_x r).trans (h.getX_swapShadow r)

theorem Hart.shadow_uiret (h : Hart) (k : Fin 7) : h.uiret.shadow[k] = h.getX ⟨k.val + 1, by omega⟩ := h.shadow_swapShadow k

theorem exec_uiret {s : State} (hs : OnStrand s) : exec .uiret s = .next
    (if s.hart.st.uih then { s with hart := s.hart.uiret } else s.trapWord .illegal) :=
  exec_of_strandOnly (fun s => if s.hart.st.uih then { s with hart := s.hart.uiret } else s.trapWord .illegal) (fun _ => rfl) hs

theorem exec_uimask {s : State} (hs : OnStrand s) (d a : Reg) : exec (.uimask d a) s = .next { s with
    hart := { s.hart with st := { s.hart.st with uie := (s.hart.getX a).getLsbD 0 } }.setX d (if s.hart.st.uie then 1 else 0) } := by
  rw [exec_of_strandOnly (fun s => s.onHart fun h =>
      { h with st := { h.st with uie := (h.getX a).getLsbD 0 } }.setX d (boolWord h.st.uie)) (fun _ => rfl) hs, State.onHart, boolWord_eq]

theorem userInterruptInstructions : Claim.UserInterruptInstructions := by
  intro d a
  refine ⟨fun s hs => ⟨_, exec_uimask hs d a, rfl⟩,
    fun s ⟨hs, hu⟩ => ⟨{ s with hart := s.hart.uiret }, ?_, ?_, s.hart.getX_uiret, s.hart.shadow_uiret⟩,
    fun s hs hu => ?_⟩
  · rw [exec_uiret hs, if_pos hu]
  · exact congrArg (fun h => { s with hart := h }) s.hart.uiret_eq
  · rw [exec_uiret hs, if_neg (by rw [hu]; decide)]

/-- Settles O6, claim by claim. -/
theorem forkRendezvousAndUserInterrupts : Obligations.ForkRendezvousAndUserInterrupts :=
  ⟨forkQueuesAProgram, rendezvousMeetsItsPartner, userInterruptInstructions⟩

end Sys2Proof.Machine
end

section
/-! Settled here: O35, fetches, visits of the core arbiter, drift eviction and the start of strands (R26, R29, R41, R46, R47, R352, R362). -/

namespace Sys2Proof.Machine

open Sys2Proof.Safety

/-! ### Fetches (R41, R46, R436) -/

theorem State.mapHarts_id {s : State} {f : Hart → Hart} (hf : ∀ h ∈ s.allHarts, f h = h) : s.mapHarts f = s := by
  have hh : f s.hart = s.hart := hf _ List.mem_cons_self
  have hl : s.harts.map f = s.harts :=
    (List.map_congr_left (g := id) fun h hh => hf h (List.mem_cons_of_mem _ hh)).trans (List.map_id _)
  rw [State.mapHarts, hh, hl]

theorem State.fetchFor_of_none {s : State} {h : Hart} (ht : s.transitAt h.ctx 4 h.pc = none) : s.fetchFor h = h := by
  unfold State.fetchFor
  rw [ht]
  cases h.live && h.wait.isNone <;> rfl

theorem State.fetchFor_of_transit {s : State} {h : Hart} {a : Word} (hr : h.saved = .resident) (hp : h.phase = .running)
    (hw : h.wait = none) (ht : s.transitAt h.ctx 4 h.pc = some a) : s.fetchFor h = { h with
      wait := some { kind := .fetch, pos := 0, elem := 0, addr := a, ir := 0, since := s.ticket, met := false, expired := none } } := by
  have hl : (h.live && h.wait.isNone) = true := by simp [Hart.live, hr, hp, hw]
  unfold State.fetchFor
  rw [ht, hl]

theorem State.fetchFor_keeps (s : State) : KeepsIdentity s.fetchFor := by
  intro h
  unfold State.fetchFor
  split <;> exact ⟨rfl, rfl, rfl⟩

/-- The harts of the stream that fetch: the attached ones, or those that fetch for themselves (R41, R46). -/
def State.fetchIf (s : State) (att : Bool) (h : Hart) : Hart := if h.st.att = att then s.fetchFor h else h

theorem State.fetchIf_keeps (s : State) (att : Bool) : KeepsIdentity (s.fetchIf att) := by
  intro h
  unfold State.fetchIf
  split
  · exact s.fetchFor_keeps h
  · exact ⟨rfl, rfl, rfl⟩

theorem exec_aniseFetch (g : GangId) (s : State) : exec (.aniseFetch g) s = .next (s.onMembers g (s.fetchIf true)) := rfl

theorem exec_privateFetch (i : StrandId) (s : State) : exec (.privateFetch i) s = .next (s.onStrand i (s.fetchIf false)) := by
  have hf : s.fetchIf false = fun h => if h.st.att then h else s.fetchFor h := by
    funext h
    unfold State.fetchIf
    cases h.st.att <;> rfl
  rw [hf]
  rfl

theorem fetchesHoldNoState : Claim.FetchesHoldNoState := by
  intro g i s
  refine ⟨fun hn => ?_, fun h a hs hr hp hw ht => ?_⟩
  · have hid : ∀ b, ∀ h ∈ s.allHarts, s.fetchIf b h = h := fun b h hh => by
      rw [State.fetchIf, State.fetchFor_of_none (hn h hh), ite_self]
    refine ⟨?_, ?_⟩
    · rw [exec_aniseFetch, State.onMembers_eq, State.mapHarts_id fun h hh => ?_]
      rw [Hart.ifMember, hid _ h hh, ite_self]
    · rw [exec_privateFetch, State.onStrand_eq, State.mapHarts_id fun h hh => ?_]
      rw [Hart.ifStrand, hid _ h hh, ite_self]
  · intro waits
    have hf : ∀ b, h.st.att = b → s.fetchIf b h = waits h := fun b hb => (if_pos hb).trans (State.fetchFor_of_transit hr hp hw ht)
    refine ⟨fun ha => ⟨_, exec_privateFetch i s, rfl, ?_, ?_, ?_⟩, fun ha => ⟨_, exec_aniseFetch _ s, rfl, ?_⟩⟩
    · rw [s.strand?_onStrand_same i (s.fetchIf_keeps false), hs, Option.map_some, Option.map_some, hf _ ha]
    · exact fun j => s.strand?_onStrand_ne i (s.fetchIf_keeps false)
    · exact s.program?_onStrand i (s.fetchIf_keeps false)
    · rw [s.strand?_onMembers_same _ (s.fetchIf_keeps true) rfl, hs, Option.map_some, hf _ ha]

/-! ### Visits (R362) -/

theorem exec_issueVisit {i : StrandId} {s : State} {h : Hart} (hs : s.strand? i = some h) : exec (.issueVisit i) s = .next (
    if s.ready h then
      (({ s with seat := s.seatOf h } : State).focus i).onHart fun h =>
        { h with deficit := min (h.deficit + s.quantum h) (s.quantum h + 32), first := true }
    else ({ s with seat := s.seatOf h } : State).onStrand i fun h => { h with deficit := 0 }) := by
  change execIssueVisit i s = _
  rw [execIssueVisit, hs]

theorem visitsGrantBeats : Claim.VisitsGrantBeats := by
  intro i s h hs quantum v
  refine ⟨fun hr => ⟨_, (exec_issueVisit hs).trans (congrArg _ (if_pos hr)), ?_⟩,
    fun hr => ⟨_, (exec_issueVisit hs).trans (congrArg _ (if_neg (by rw [hr]; decide))), ?_⟩⟩
  · obtain ⟨hf, hk⟩ := State.focus_eq (s := v) (i := i) (h := h) hs
    refine ⟨?_, hk⟩
    change State.onHart (v.focus i) _ = { v with hart := _, harts := (v.focus i).harts }
    rw [hf]
    rfl
  · exact v.onStrand_becomes i fun h => ⟨rfl, rfl, rfl⟩

/-! ### Drift eviction (R47) -/

/-- The other attached members of a strand's gang. -/
def State.companions (s : State) (i : StrandId) : List Hart := (s.members (gangOf i)).filter fun m => m.st.att && m.id != i

theorem exec_driftEviction {i : StrandId} {s : State} {h : Hart} (hs : s.strand? i = some h) : exec (.driftEviction i) s = .next (
    if h.st.att ∧ s.companions i ≠ [] ∧ (s.companions i).all (fun m => s.streamHeld m && decide (h.streamNo ≤ m.streamNo)) then
      s.onStrand i fun h => { h with st := { h.st with att := false } }.count 0x06 1
    else s) := by
  change execDriftEviction i s = _
  rw [execDriftEviction, hs]
  rfl

theorem driftEvictionDetaches : Claim.DriftEvictionDetaches := by
  intro i s h hs others
  refine ⟨fun ha hn hall => ?_, fun ha hno => ?_, fun ha => ?_⟩
  · have hb : (s.companions i).all (fun m => s.streamHeld m && decide (h.streamNo ≤ m.streamNo)) = true :=
      List.all_eq_true.2 fun m hm => by simpa using hall m hm
    exact ⟨_, (exec_driftEviction hs).trans (congrArg _ (if_pos ⟨ha, hn, hb⟩)),
      s.onStrand_becomes i fun h => ⟨Hart.count_id _ _ _, Hart.count_engine _ _ _, Hart.count_phase _ _ _⟩⟩
  · rw [exec_driftEviction hs, if_neg]
    rintro ⟨_, hn, hall⟩
    obtain he | ⟨m, hm, hx⟩ := hno
    · exact hn he
    · obtain ⟨hh, hle⟩ : s.streamHeld m = true ∧ h.streamNo ≤ m.streamNo := by simpa using List.all_eq_true.1 hall m hm
      exact hx.elim (fun hx => by simp [hx] at hh) fun hx => absurd hle (Nat.not_le.2 hx)
  · rw [exec_driftEviction hs, if_neg fun e => by simp [ha] at e]

/-! ### Gangs found by their id -/

theorem State.gang?_some {s : State} {g : GangId} {x : Gang} (h : s.gang? g = some x) : x.id = g ∧ x ∈ s.gangs :=
  ⟨by simpa using List.find?_some h, List.mem_of_find?_eq_some h⟩

/-- Gangs that change, each keeping its id. -/
theorem State.gang?_of_map {s t : State} {f : Gang → Gang} (hf : ∀ x, (f x).id = x.id) (ht : t.gangs = s.gangs.map f) (j : GangId) :
    t.gang? j = (s.gang? j).map f := by
  rw [State.gang?, ht, List.find?_map]
  simp only [Function.comp_def, hf]
  rfl

section
variable (s : State) (g : GangId) {f : Gang → Gang} (hf : ∀ x, (f x).id = x.id)
include hf

theorem State.gang?_onGang (j : GangId) : (s.onGang g f).gang? j = (s.gang? j).map fun x => if x.id == g then f x else x := by
  refine State.gang?_of_map (fun x => ?_) rfl j
  split
  · exact hf x
  · rfl

theorem State.gang?_onGang_same : (s.onGang g f).gang? g = (s.gang? g).map f := by
  rw [State.gang?_onGang s g hf]
  exact Option.map_congr fun x hx => if_pos (by simpa using (State.gang?_some hx).1)

theorem State.gang?_onGang_ne {j : GangId} (hj : j ≠ g) : (s.onGang g f).gang? j = s.gang? j := by
  rw [State.gang?_onGang s g hf]
  refine (Option.map_congr (g := id) fun x hx => if_neg ?_).trans Option.map_id_apply
  simpa [(State.gang?_some hx).1] using hj
end

/-! ### Placement (R26, R29, R352) -/

/-- Place of a gang in the order of R29, launches aside. -/
def Gang.place (g : Gang) : List Nat := [g.runnable.getD 0, g.id.stage.val, g.id.gang.val]

theorem Gang.before_of_place {a b : Gang} (h : a.place < b.place) : a.before b = true := by
  simp only [Gang.place, List.cons_lt_cons_iff, List.lt_irrefl, and_false, or_false] at h
  simp only [Gang.before, decide_eq_true_eq, List.cons_lt_cons_iff, List.lt_irrefl, and_false, or_false]
  tauto

theorem Gang.not_before_of_before {a b : Gang} (h : a.before b = true) : b.before a = false := by
  simp only [Gang.before, decide_eq_true_eq, decide_eq_false_iff_not] at h ⊢
  exact List.not_lt.2 (List.le_of_lt h)

theorem Gang.before_irrefl (a : Gang) : a.before a = false := by simp [Gang.before]

theorem Gang.wants_iff {g : Gang} : g.wants = true ↔ g.slot = none ∧ g.runnable.isSome = true ∧ g.ended = false := by
  simp [Gang.wants, and_assoc]

/-- A gang that has got its slot. -/
def Gang.placed (c : Fin 64) (k : Fin 4) (x : Gang) : Gang := { x with slot := some (c, k), home := none, runnable := none, started := true }

theorem exec_gangResident {g : GangId} {c : Fin 64} {k : Fin 4} {s : State} {x : Gang} {l : Launch} (hx : s.gang? g = some x)
    (hl : s.launches.find? (fun l => l.id == g.launch) = some l) : exec (.gangResident g c k) s = .next (
      if x.wants ∧ s.mayRun x.queue ∧ s.fits x c k ∧ ¬ s.gangs.any (s.rival x · c) then
        if x.started then (s.onGang g (Gang.placed c k)).returnGang x
        else { s.onGang g (Gang.placed c k) with harts := s.harts ++ (membersOf g).map (Hart.startStrand l) }
      else s) := by
  change execGangResident g c k s = _
  rw [execGangResident, hx, hl]
  rfl

/-- What a strand has at its start (R352). -/
theorem Hart.getX_startStrand (l : Launch) (i : StrandId) (r : Reg) : (Hart.startStrand l i).getX r =
    if r = 2 then l.stackBase + BitVec.ofNat 64 ((i.stage.val * 1024 + i.vcid.val + 1) * 2 ^ l.stackLog2)
    else if r = 8 then l.arg0 else if r = 9 then l.arg1 else 0 := by
  by_cases h0 : r = 0
  · rw [h0]
    rfl
  by_cases h2 : r = 2
  · rw [h2]
    rfl
  by_cases h8 : r = 8
  · rw [h8]
    rfl
  by_cases h9 : r = 9
  · rw [h9]
    rfl
  have hn : ∀ n : Fin 32, ¬ r = n → ¬ n.val = r.val := fun n h e => h (Fin.ext e.symm)
  have hx : (Hart.startStrand l i).x[r.val] = 0 :=
    (Vector.getElem_set_ne (i := 9) (by decide) r.isLt (hn 9 h9)).trans <|
      (Vector.getElem_set_ne (i := 8) (by decide) r.isLt (hn 8 h8)).trans <|
        (Vector.getElem_set_ne (i := 2) (by decide) r.isLt (hn 2 h2)).trans (Vector.getElem_replicate r.isLt)
  rw [if_neg h2, if_neg h8, if_neg h9]
  exact (if_neg h0).trans hx

theorem Hart.vector_startStrand (l : Launch) (i : StrandId) (r : Reg) :
    (Hart.startStrand l i).v[r] = 0 ∧ (Hart.startStrand l i).tag r = .i32 ∧ (r ≠ 0 → (Hart.startStrand l i).getP r = 0) := by
  refine ⟨by simp [Hart.startStrand, Hart.idle], by simp [Hart.tag, Hart.startStrand, Hart.idle], fun h0 => ?_⟩
  simp [Hart.getP, h0, Hart.startStrand, Hart.idle]

theorem mem_membersOf (g : GangId) (m : Fin 16) :
    ({ launch := g.launch, stage := g.stage, vcid := ⟨g.gang.val * 16 + m.val, by omega⟩ } : StrandId) ∈ membersOf g :=
  List.mem_map.2 ⟨m, List.mem_finRange m, rfl⟩

def Gang.withBanks (b : Gang → List Bank) (x : Gang) : Gang := { x with banks := b x }

/-- A gang that comes back has the banks it had, where nobody has written what was saved of them (R366). -/
theorem State.returnGang_eq (s : State) (x : Gang) :
    (x.home.isSome = true ∨ s.gangArea x.id = x.area → s.returnGang x = s) ∧
    ∃ b : Gang → List Bank, ∃ d, s.returnGang x = { s.onGang x.id (Gang.withBanks b) with draws := d } := by
  unfold State.returnGang
  refine ⟨fun h => if_pos h, ?_⟩
  split
  · refine ⟨Gang.banks, s.draws, ?_⟩
    simp [State.onGang, Gang.withBanks]
  · exact ⟨_, _, rfl⟩

section
variable {g : GangId} {c : Fin 64} {k : Fin 4} {s : State} {x : Gang} {l : Launch} (hx : s.gang? g = some x)
include hx

theorem State.gang?_placed : (s.onGang g (Gang.placed c k)).gang? g = some (x.placed c k) := by
  rw [State.gang?_onGang_same s g (f := Gang.placed c k) fun _ => rfl, hx, Option.map_some]

/-- A gang that comes back to a slot. -/
theorem State.returnGang_placed : let t := (s.onGang g (Gang.placed c k)).returnGang x
    t = { s with harts := t.harts, gangs := t.gangs, draws := t.draws } ∧
    (∃ y, t.gang? g = some y ∧ y = { x.placed c k with banks := y.banks } ∧
      (x.home.isSome = true ∨ s.gangArea g = x.area → y.banks = x.banks ∧ t.draws = s.draws)) ∧
    (∀ j, j ≠ g → t.gang? j = s.gang? j) ∧ t.harts = s.harts := by
  obtain ⟨hid, -⟩ := State.gang?_some hx
  obtain ⟨hsame, b, d, ht⟩ := (s.onGang g (Gang.placed c k)).returnGang_eq x
  rw [hid] at ht hsame
  intro t
  have ht : t = { (s.onGang g (Gang.placed c k)).onGang g (Gang.withBanks b) with draws := d } := ht
  have hg : ∀ j, t.gang? j = ((s.onGang g (Gang.placed c k)).onGang g (Gang.withBanks b)).gang? j := fun j => by rw [ht]; rfl
  have hy : t.gang? g = some ((x.placed c k).withBanks b) := by
    rw [hg, State.gang?_onGang_same _ g (f := Gang.withBanks b) fun _ => rfl, State.gang?_placed hx, Option.map_some]
  refine ⟨by rw [ht]; rfl, ⟨(x.placed c k).withBanks b, hy, rfl, fun h => ?_⟩, fun j hj => ?_, by rw [ht]; rfl⟩
  · have hs : t = s.onGang g (Gang.placed c k) := hsame h
    rw [hs, State.gang?_placed hx] at hy
    exact ⟨(congrArg Gang.banks (Option.some.inj hy).symm : _ = (x.placed c k).banks), by rw [hs]; rfl⟩
  · rw [hg, State.gang?_onGang_ne _ g (f := Gang.withBanks b) (fun _ => rfl) hj,
      State.gang?_onGang_ne _ g (f := Gang.placed c k) (fun _ => rfl) hj]

end

theorem gangsStartTheirStrands : Claim.GangsStartTheirStrands := by
  intro g c k s x l hx hl hslot hrun hend hmay hfits place first
  have hw : x.wants = true := Gang.wants_iff.2 ⟨hslot, hrun, hend⟩
  have hfirst : ∀ {y z : Gang}, first y z → y.wants = true → z.wants = true → y.before z = true := by
    intro y z h hy hz
    obtain ⟨n, hn⟩ := Option.isSome_iff_exists.1 (Gang.wants_iff.1 hy).2.1
    obtain ⟨m, hm⟩ := Option.isSome_iff_exists.1 (Gang.wants_iff.1 hz).2.1
    refine Gang.before_of_place ?_
    simpa [Gang.place, hn, hm] using h n m hn hm
  refine ⟨fun ⟨y, hy, hyx, hys, hyr, hye, hyp, hym, hback⟩ => ?_, fun hall => ?_⟩
  · have hyw : y.wants = true := Gang.wants_iff.2 ⟨hys, hyr, hye⟩
    have hno : (x.home == some c && s.bankWork x && ! (List.finRange 64).any fun d => (List.finRange 4).any fun k => s.fits y d k) = false := by
      obtain h | h | ⟨d, n, h⟩ := hback
      · simp [h]
      · simp [h]
      · have : ((List.finRange 64).any fun d => (List.finRange 4).any fun k => s.fits y d k) = true :=
          List.any_eq_true.2 ⟨d, List.mem_finRange d, List.any_eq_true.2 ⟨n, List.mem_finRange n, h⟩⟩
        simp [this]
    have hriv : s.rival x y c = true := by
      simp [State.rival, hyw, hyp, hym, hfirst hyx hyw hw, hno]
    rw [exec_gangResident hx hl, if_neg fun ⟨_, _, _, hno⟩ => hno (List.any_eq_true.2 ⟨y, hy, hriv⟩)]
  · have hnone : ¬ s.gangs.any (s.rival x · c) = true := by
      intro h
      obtain ⟨y, hy, hr⟩ := List.any_eq_true.1 h
      have hyw : y.wants = true := by simp [State.rival] at hr; tauto
      have hyb : y.before x = true := by simp [State.rival] at hr; tauto
      by_cases hyx : y = x
      · rw [hyx, Gang.before_irrefl] at hyb
        cases hyb
      · rw [Gang.not_before_of_before (hfirst (hall y hy hyx) hw hyw)] at hyb
        cases hyb
    have hexec := (exec_gangResident hx hl).trans (congrArg _ (if_pos ⟨hw, hmay, hfits, hnone⟩))
    by_cases hst : x.started = true
    · rw [if_pos hst] at hexec
      obtain ⟨hfr, ⟨y, hy, hye, hyb⟩, hj, hh⟩ := State.returnGang_placed (c := c) (k := k) hx
      exact ⟨_, hexec, hfr, ⟨y, hy, hye, fun h => hyb (h.resolve_left (by simp [hst]))⟩, hj, fun _ => hh, fun h => absurd hst (by simp [h])⟩
    · rw [if_neg hst] at hexec
      refine ⟨_, hexec, rfl, ⟨_, State.gang?_placed hx, rfl, fun _ => ⟨rfl, rfl⟩⟩,
        fun j hj => State.gang?_onGang_ne s g (f := Gang.placed c k) (fun _ => rfl) hj,
        fun h => absurd h hst, fun _ => ⟨by simp [membersOf], fun m => ?_⟩⟩
      refine ⟨_, List.mem_append_right _ (List.mem_map_of_mem (mem_membersOf g m)), rfl, rfl, rfl, rfl, rfl, rfl, rfl, rfl, rfl, rfl, rfl,
        ?_, ?_, ?_, fun r h2 h8 h9 => ?_, rfl, Hart.vector_startStrand l _⟩
      · rw [Hart.getX_startStrand, if_pos rfl]
        exact congrArg (fun n => l.stackBase + BitVec.ofNat 64 ((n + 1) * 2 ^ l.stackLog2)) (Nat.add_assoc _ _ _).symm
      · rw [Hart.getX_startStrand, if_neg (by decide), if_pos rfl]
      · rw [Hart.getX_startStrand, if_neg (by decide), if_neg (by decide), if_pos rfl]
      · rw [Hart.getX_startStrand, if_neg h2, if_neg h8, if_neg h9]

/-- Settles O35, claim by claim. -/
theorem fetchVisitsAndPlacement : Obligations.FetchVisitsAndPlacement :=
  ⟨fetchesHoldNoState, visitsGrantBeats, driftEvictionDetaches, gangsStartTheirStrands⟩

end Sys2Proof.Machine
end

section
/-! Settled here: O37, strands and gangs are saved whole (R31, R32, R163, R363-R365). -/

namespace Sys2Proof.Machine

open Sys2Proof.Safety

/-! ### Saving and restoring a strand (R163, R365) -/

theorem State.saveStrand_keeps (s : State) (how : Saved) : KeepsIdentity (s.saveStrand · how) := by
  intro h
  unfold State.saveStrand
  dsimp only
  split <;> exact ⟨rfl, rfl, rfl⟩

theorem State.saveStrand_resident {s : State} {h : Hart} {how : Saved} (hr : h.saved = .resident) :
    s.saveStrand h how = { h.save how with area := s.areaCells h.id } := if_pos hr

theorem State.saveStrand_saved {s : State} {h : Hart} {how : Saved} (hr : h.saved ≠ .resident) :
    s.saveStrand h how = { h with saved := how } := if_neg hr

/-- The saved contents of a register are the newest ones. -/
theorem Hart.save_savedV (h : Hart) (how : Saved) (r : Reg) :
    (h.save how).savedV[r] = if h.csr.vdirty.getLsbD r.val then h.v[r] else h.savedV[r] :=
  Vector.getElem_ofFn r.isLt

theorem Hart.restore_v (h : Hart) (r : Reg) : h.restore.v[r] = if h.savedMask.getLsbD r.val then h.savedV[r] else 0 :=
  Vector.getElem_ofFn r.isLt

theorem Hart.restore_keeps : KeepsIdentity Hart.restore := fun _ => ⟨rfl, rfl, rfl⟩

theorem Hart.damaged_keeps (k : Nat → Nat) : KeepsIdentity (Hart.damaged · k) := by
  intro h
  dsimp only
  unfold Hart.damaged
  exact ⟨rfl, rfl, rfl⟩

/-- What parking makes of a strand (R31). -/
def State.park (s : State) (h : Hart) : Hart := (s.saveStrand h .parked).count 0x0A 1

theorem State.park_keeps (s : State) : KeepsIdentity s.park := by
  intro h
  obtain ⟨hi, he, hp⟩ := s.saveStrand_keeps .parked h
  exact ⟨(Hart.count_id _ _ _).trans hi, (Hart.count_engine _ _ _).trans he, (Hart.count_phase _ _ _).trans hp⟩

/-- A waiting strand that is not in the middle of its accesses can be saved (R100). -/
theorem State.canSave_of_waiting {s : State} {h : Hart} (hw : s.waiting h = true) (hp : h.pending = []) (hv : h.vldbs = []) :
    s.canSave h = true := by
  have hw : h.wait.isSome = true := by simp only [State.waiting, Bool.and_eq_true] at hw; exact hw.1
  obtain ⟨w, hw⟩ := Option.isSome_iff_exists.1 hw
  simp [State.canSave, Hart.savable, State.underWay, hp, hv, hw]

theorem exec_parking {i : StrandId} {s : State} {h : Hart} (hs : s.strand? i = some h) : exec (.parking i) s = .next (
    if h.live ∧ s.waiting h ∧ s.coreBusy h ∧ s.canSave h then s.onStrand i s.park else s) := by
  change execParking i s = _
  rw [execParking, hs]
  rfl

theorem exec_strandRestore {i : StrandId} {s : State} {h : Hart} (hs : s.strand? i = some h) : exec (.strandRestore i) s = .next (
    if (s.clusterOf (gangOf i)).isSome ∧ (h.saved = .swapped ∨ (h.saved = .parked ∧ ¬ s.waiting h)) then
      if s.areaCells i = h.area then s.onStrand i Hart.restore
      else { (s.onStrand i Hart.restore).onStrand i (·.damaged fun k => Config.free (s.draws + k)) with draws := s.draws + 200 }
    else s) := by
  change execStrandRestore i s = _
  rw [execStrandRestore, hs]

theorem savedRegistersComeBack : Claim.SavedRegistersComeBack := by
  intro i s h hs
  have hsome : ∀ {f : Hart → Hart}, KeepsIdentity f → (s.onStrand i f).strand? i = some (f h) := fun hf => by
    rw [s.strand?_onStrand_same i hf, hs, Option.map_some]
  refine ⟨fun hw hr hp hb hpend hvldb => ?_, fun hw => ?_, fun hc hsv => ⟨fun ha => ?_, fun ha => ?_⟩, fun hr => ?_⟩
  · have hl : h.live = true := by simp [Hart.live, hr, hp]
    have hpark : s.park h = Hart.count { h.save .parked with area := s.areaCells h.id } 0x0A 1 :=
      congrArg (Hart.count · 0x0A 1) (State.saveStrand_resident hr)
    refine ⟨_, s.park h, (exec_parking hs).trans (congrArg _ (if_pos ⟨hl, hw, hb, State.canSave_of_waiting hw hpend hvldb⟩)),
      hsome s.park_keeps, rfl, fun j => s.strand?_onStrand_ne i s.park_keeps, ?_⟩
    rw [hpark]
    simp only [Hart.count_saved, Hart.count_csr, Hart.count_x, Hart.count_p, Hart.count_tags, Hart.count_pc, Hart.count_wait,
      Hart.count_savedMask, Hart.count_savedV]
    exact ⟨rfl, rfl, rfl, rfl, rfl, rfl, rfl, rfl, h.save_savedV .parked⟩
  · rw [exec_parking hs, if_neg fun e => by simp [hw] at e]
  · have hexec := (exec_strandRestore hs).trans (congrArg _ (if_pos ⟨hc, hsv.imp_right (And.imp_right (by simp [·]))⟩))
    rw [if_neg ha] at hexec
    have hk := Hart.damaged_keeps fun k => Config.free (s.draws + k)
    refine ⟨_, h.restore.damaged fun k => Config.free (s.draws + k), hexec, ?_, rfl, fun j hj => ?_, rfl⟩
    · exact (State.strand?_onStrand_same _ i hk).trans (congrArg (Option.map _) (hsome Hart.restore_keeps))
    · exact (State.strand?_onStrand_ne _ i hk hj).trans (s.strand?_onStrand_ne i Hart.restore_keeps hj)
  · have hexec := (exec_strandRestore hs).trans (congrArg _ (if_pos ⟨hc, hsv.imp_right (And.imp_right (by simp [·]))⟩))
    rw [if_pos ha] at hexec
    exact ⟨_, h.restore, hexec, hsome Hart.restore_keeps, rfl, fun j => s.strand?_onStrand_ne i Hart.restore_keeps, rfl, h.restore_v⟩
  · rw [exec_strandRestore hs, if_neg fun e => by simp [hr] at e]

/-! ### A gang that leaves its slot (R32, R69, R364, R412) -/

theorem State.gang?_setGang_same {s : State} {g : GangId} {x y : Gang} (hx : s.gang? g = some x) (hy : y.id = x.id) :
    (s.setGang y).gang? g = some y := by
  have hid := (State.gang?_some hx).1
  rw [State.gang?_of_map (f := fun z => if z.id == y.id then y else z) ?_ rfl, hx, Option.map_some, hy]
  · simp
  · intro z
    split
    · rename_i h
      simpa using (eq_of_beq h).symm
    · rfl

/-- Every dirty line of a gang is written back; the uncorrectable ones stay so (R412). -/
theorem State.writeBackBad_all {s : State} {g : GangId} {x : Gang} (hx : s.gang? g = some x) :
    let t := s.writeBackBad g fun _ => true
    t = { s with
      gangs := t.gangs, badLines := t.badLines
      golium := { s.golium with unconsumed := s.golium.unconsumed + x.dirtyBad.length } } ∧
    (∀ n, n ∈ t.badLines ↔ n ∈ s.badLines ∨ ∃ b, (b, n) ∈ x.dirtyBad) ∧ t.gang? g = some { x with dirtyBad := [] } := by
  intro t
  have hpart : x.dirtyBad.partition (fun _ => true) = (x.dirtyBad, []) := by simp [List.partition_eq_filter_filter]
  have ht : t = if x.dirtyBad.isEmpty then s
      else { s.setGang { x with dirtyBad := [] } with
        badLines := s.badLines ++ (x.dirtyBad.map (·.2)).filter fun l => ! s.badLines.contains l
        golium := { s.golium with unconsumed := s.golium.unconsumed + x.dirtyBad.length } } := by
    change s.writeBackBad g _ = _
    unfold State.writeBackBad
    rw [hx]
    dsimp only
    rw [hpart]
  by_cases he : x.dirtyBad = []
  · rw [if_pos (by simp [he])] at ht
    have hx' : x = { x with dirtyBad := [] } := by rw [← he]
    rw [ht, ← hx', he]
    exact ⟨rfl, fun n => by simp, hx⟩
  · rw [if_neg (by simpa using he)] at ht
    rw [ht]
    refine ⟨rfl, fun n => ?_, State.gang?_setGang_same hx rfl⟩
    by_cases hn : n ∈ s.badLines <;> simp [hn]

/-- Noting who is runnable changes nothing but that (R32). -/
theorem State.noteRunnable_frame (s : State) : s.noteRunnable = { s with gangs := s.noteRunnable.gangs } := by
  unfold State.noteRunnable
  dsimp only
  split <;> rfl

theorem State.gang?_noteRunnable {s : State} {g : GangId} {x : Gang} (hx : s.gang? g = some x) :
    ∃ r, s.noteRunnable.gang? g = some { x with runnable := r } := by
  unfold State.noteRunnable
  dsimp only
  split
  · rw [State.gang?_of_map (s := s) ?_ rfl, hx, Option.map_some]
    · split
      · exact ⟨_, rfl⟩
      · exact ⟨x.runnable, rfl⟩
    · intro y
      split <;> rfl
  · exact ⟨x.runnable, hx⟩

/-- What a swap makes of a strand of the gang. -/
def State.swapHart (s : State) (h : Hart) : Hart :=
  match h.phase with
  | .running | .aborting _ _ => s.saveStrand h .swapped
  | _ => h

theorem State.swapHart_keeps (s : State) : KeepsIdentity s.swapHart := by
  intro h
  unfold State.swapHart
  split
  · exact s.saveStrand_keeps .swapped h
  · exact s.saveStrand_keeps .swapped h
  · exact ⟨rfl, rfl, rfl⟩

theorem State.swapHart_running {s : State} {h : Hart} (hp : h.phase = .running) : s.swapHart h = s.saveStrand h .swapped := by
  unfold State.swapHart
  rw [hp]

/-- A gang as it stands when it has left its slot. -/
def Gang.unplaced (home : Gang → Option (Fin 64)) (area : Memory) (x : Gang) : Gang :=
  { x with slot := none, runnable := none, home := home x, area := area }

theorem State.swapOut_eq (s : State) (x : Gang) : ∃ home area, s.swapOut x =
    (((s.onMembers x.id s.swapHart).writeBackBad x.id fun _ => true).onGang x.id (Gang.unplaced home area)).noteRunnable := ⟨_, _, rfl⟩

/-- What a gang that leaves its slot leaves behind, `n` free values having been drawn before. -/
theorem State.swapOut_gives {s : State} {g : GangId} {x : Gang} (n : Nat) (hx : s.gang? g = some x) :
    let t := ({ s with draws := s.draws + n } : State).swapOut x
    t = { s with
      hart := t.hart, harts := t.harts, gangs := t.gangs, badLines := t.badLines, draws := s.draws + n
      golium := { s.golium with unconsumed := s.golium.unconsumed + x.dirtyBad.length } } ∧
    (∀ n, n ∈ t.badLines ↔ n ∈ s.badLines ∨ ∃ b, (b, n) ∈ x.dirtyBad) ∧
    (∃ y, t.gang? g = some y ∧ y = { x with slot := none, runnable := y.runnable, home := y.home, area := y.area, dirtyBad := [] }) ∧
    (∀ j, gangOf j ≠ g → t.strand? j = s.strand? j) ∧
    ∀ j h, gangOf j = g → s.strand? j = some h → h.phase = .running → ∃ k, t.strand? j = some k ∧
      if h.saved = .resident then
        k.saved = .swapped ∧ k.x = h.x ∧ k.p = h.p ∧ k.pc = h.pc ∧ k.csr = { h.csr with vdirty := 0 } ∧ k.wait = h.wait ∧
        k.savedMask = h.savedMask ||| h.csr.vdirty ∧
        ∀ r : Reg, k.savedV[r] = if h.csr.vdirty.getLsbD r.val then h.v[r] else h.savedV[r]
      else k = { h with saved := .swapped } := by
  obtain rfl := (State.gang?_some hx).1
  let d : State := { s with draws := s.draws + n }
  let m := d.onMembers x.id d.swapHart
  intro t
  obtain ⟨home, area, ht⟩ : ∃ home area, t =
      ((m.writeBackBad x.id fun _ => true).onGang x.id (Gang.unplaced home area)).noteRunnable := d.swapOut_eq x
  let w := m.writeBackBad x.id fun _ => true
  obtain ⟨hw, hbad, hgang⟩ := State.writeBackBad_all (s := m) (g := x.id) (x := x) hx
  have hfr : t = { w with gangs := t.gangs } := by
    rw [ht]
    exact State.noteRunnable_frame _
  have hharts : ∀ j, t.strand? j = m.strand? j := fun j => by
    rw [hfr]
    change w.strand? j = _
    rw [show w = _ from hw]
    rfl
  refine ⟨?_, fun n => ?_, ?_, fun j hj => ?_, fun j h hj hs hp => ⟨d.swapHart h, ?_, ?_⟩⟩
  · rw [hfr]
    rw [show w = _ from hw]
    rfl
  · rw [hfr]
    exact hbad n
  · have hg : (w.onGang x.id (Gang.unplaced home area)).gang? x.id = some (({ x with dirtyBad := [] } : Gang).unplaced home area) := by
      rw [State.gang?_onGang_same w x.id (f := Gang.unplaced home area) fun _ => rfl, hgang, Option.map_some]
    obtain ⟨r, hr⟩ := State.gang?_noteRunnable hg
    exact ⟨_, ht ▸ hr, rfl⟩
  · exact (hharts j).trans (d.strand?_onMembers_ne x.id d.swapHart_keeps hj)
  · rw [hharts, d.strand?_onMembers_same x.id d.swapHart_keeps hj]
    exact congrArg (Option.map _) hs
  · rw [State.swapHart_running hp]
    split
    · rename_i hr
      rw [State.saveStrand_resident hr]
      exact ⟨rfl, rfl, rfl, rfl, rfl, rfl, rfl, h.save_savedV .swapped⟩
    · rename_i hr
      exact State.saveStrand_saved hr

/-! ### When gangs leave their slots (R32, R363, R364) -/

theorem exec_swapOnWait {g : GangId} {s : State} {x : Gang} (hx : s.gang? g = some x) : exec (.swapOnWait g) s = .next (
    if ((s.members g).all fun h => h.saved == .parked || s.waiting h) ∧ s.members g ≠ [] ∧
        (s.gangs.any fun y => y.wants && y.part == x.part && s.mayRun y.queue) ∧ s.gangSavable x then s.swapOut x else s) := by
  change execSwapOnWait g s = _
  rw [execSwapOnWait, hx]

theorem exec_timeSharingExpiry {g : GangId} {s : State} {x : Gang} (hx : s.gang? g = some x) : exec (.timeSharingExpiry g) s = .next (
    if (s.gangs.any fun y => y.wants && y.part == x.part && s.mayRun y.queue && y.queue != x.queue && s.levelOf y == s.levelOf x) ∧
        s.gangSavable x then s.swapOut x else s) := by
  change execTimeSharingExpiry g s = _
  rw [execTimeSharingExpiry, hx]

theorem bit_toNat {n : Nat} (w : BitVec n) (i : Nat) : bit w.toNat i = w.getLsbD i := by
  rw [BitVec.getLsbD, Nat.testBit_eq_decide_div_mod_eq]
  rfl

/-- A gang of a suspended queue is pre-empted (R357, R363). -/
theorem exec_preEmption {g : GangId} {s : State} {x : Gang} (hx : s.gang? g = some x) (hsav : s.gangSavable x = true)
    (hq : s.queues[x.queue].cfg.getLsbD 62 = true) : exec (.preEmption g) s = .next (s.preempt x) := by
  have hsus : s.queues[x.queue].suspended = true := (bit_toNat _ _).trans hq
  have hm : ¬ s.mayRun x.queue = true := by
    unfold State.mayRun
    simp only [hsus, Bool.not_true, Bool.false_and, Bool.false_eq_true, not_false_eq_true]
  change execPreEmption g s = _
  rw [execPreEmption, hx]
  exact congrArg _ (if_pos ⟨.inr (.inl hm), hsav⟩)

/-- A strand that is told where to stop before its gang is pre-empted (R38, R364). -/
def Hart.withCut (e : Fin 4 × Fin 64) (h : Hart) : Hart := if h.wait.isNone then { h with cut := some e } else h

theorem Hart.withCut_keeps (e : Fin 4 × Fin 64) : KeepsIdentity (Hart.withCut e) := by
  intro h
  unfold Hart.withCut
  split <;> exact ⟨rfl, rfl, rfl⟩

theorem State.preempt_eq (s : State) (x : Gang) : s.preempt x =
    if Config.free s.draws % 2 = 0 ∨ (s.members x.id).any (·.cut.isSome) then ({ s with draws := s.draws + 1 } : State).swapOut x
    else ({ s with draws := s.draws + 1 } : State).onMembers x.id
      (Hart.withCut (Fin.ofNat 4 (Config.free s.draws / 2), Fin.ofNat 64 (Config.free s.draws / 8))) := rfl

theorem gangsGiveUpTheirSlots : Claim.GangsGiveUpTheirSlots := by
  intro g s x hx hsav out rival
  have hid := (State.gang?_some hx).1
  have hout : ∀ {i n}, exec i s = .next (({ s with draws := s.draws + n } : State).swapOut x) → out i n :=
    fun {i n} h => ⟨_, h, State.swapOut_gives n hx⟩
  have hrival : ∀ y, rival y ↔ (y.wants && y.part == x.part && s.mayRun y.queue) = true := fun y => by
    simp [rival, Gang.wants_iff, and_assoc]
  have hnone : (∀ y ∈ s.gangs, ¬ rival y) → ∀ k : Gang → Bool,
      ¬ (s.gangs.any fun y => (y.wants && y.part == x.part && s.mayRun y.queue) && k y) = true :=
    fun h k e => by
      obtain ⟨y, hy, hr⟩ := List.any_eq_true.1 e
      exact h y hy ((hrival y).2 (Bool.and_eq_true_iff.1 hr).1)
  refine ⟨fun hm hidle ⟨y, hy, hr⟩ => hout ?_, fun hq hfree => hout ?_, fun hq hfree hcut => ?_, fun ⟨y, hy, hr, hqueue, hlevel⟩ => hout ?_,
    fun h => ⟨?_, ?_⟩⟩
  · have hall : ((s.members g).all fun h => h.saved == .parked || s.waiting h) = true := List.all_eq_true.2 fun h hh => by
      simpa using hidle h hh
    exact (exec_swapOnWait hx).trans (congrArg _ (if_pos ⟨hall, hm, List.any_eq_true.2 ⟨y, hy, (hrival y).1 hr⟩, hsav⟩))
  · rw [exec_preEmption hx hsav hq, State.preempt_eq, if_pos (by rw [hid]; exact hfree.imp_right fun h => by simpa using h)]
  · have hno : ¬ (Config.free s.draws % 2 = 0 ∨ (s.members g).any (·.cut.isSome) = true) := by
      rintro (h | h)
      · exact hfree h
      · obtain ⟨k, hk, hc⟩ := List.any_eq_true.1 h
        simp [hcut k hk] at hc
    have hexec := exec_preEmption hx hsav hq
    rw [State.preempt_eq, hid, if_neg hno] at hexec
    refine ⟨_, (Fin.ofNat 4 (Config.free s.draws / 2), Fin.ofNat 64 (Config.free s.draws / 8)), hexec, rfl, fun j h hs => ?_⟩
    by_cases hj : gangOf j = g
    · rw [State.strand?_onMembers_same _ g (Hart.withCut_keeps _) hj]
      refine (congrArg (Option.map _) hs).trans ?_
      rw [Option.map_some, Hart.withCut]
      simp [hj]
    · rw [State.strand?_onMembers_ne _ g (Hart.withCut_keeps _) hj, if_neg fun e => hj e.1]
      exact hs
  · have hany : (s.gangs.any fun y => y.wants && y.part == x.part && s.mayRun y.queue && y.queue != x.queue && s.levelOf y == s.levelOf x)
        = true := List.any_eq_true.2 ⟨y, hy, by simp [(hrival y).1 hr, hqueue, hlevel]⟩
    exact (exec_timeSharingExpiry hx).trans (congrArg _ (if_pos ⟨hany, hsav⟩))
  · rw [exec_swapOnWait hx, if_neg fun ⟨_, _, hany, _⟩ => hnone h (fun _ => true) (by simpa using hany)]
  · rw [exec_timeSharingExpiry hx, if_neg fun e => hnone h (fun y => y.queue != x.queue && s.levelOf y == s.levelOf x)
      (by simpa only [Bool.and_assoc] using e.1)]

/-- Settles O37: what a strand's save keeps, and how a gang leaves its slot. -/
theorem strandsAndGangsAreSavedWhole : Obligations.StrandsAndGangsAreSavedWhole := ⟨savedRegistersComeBack, gangsGiveUpTheirSlots⟩

end Sys2Proof.Machine
end

section
/-! Settled here: O39, waits that reach their limit (R414, R435, R436, R445), with what a precise trap of a strand leaves (R407, R408). -/

namespace Sys2Proof.Machine

open Sys2Proof.Safety

/-! ### Fetches of a state with other harts (R414) -/

/-- Other harts and sorted-exchange sessions; memory, tables and the gangs' banks as they are. -/
def State.withHarts (h : Hart) (l : List Hart) (x : List Session) (s : State) : State := { s with hart := h, harts := l, sessions := x }
/-- An access whose state is seen through a change. -/
def Acc.mapState {α : Type} (f : State → State) : Acc α → Acc α
  | .ok a s => .ok a (f s)
  | .stall s => .stall (f s)
  | .fault e => .fault e
  | .wait k => .wait k

section
variable (s : State) (h : Hart) (l : List Hart) (x : List Session)

theorem State.walkPartition_withHarts : (s.withHarts h l x).walkPartition = s.walkPartition := by
  have hr : (s.withHarts h l x).readTableEntry = s.readTableEntry := funext fun _ => rfl
  unfold State.walkPartition
  rw [hr]

theorem State.readGuestEntry_withHarts : (s.withHarts h l x).readGuestEntry = s.readGuestEntry := by
  have hr : (s.withHarts h l x).readTableEntry = s.readTableEntry := funext fun _ => rfl
  unfold State.readGuestEntry
  rw [hr, State.walkPartition_withHarts]

theorem State.translate_withHarts (c : Ctx) (k : AccessKind) (u : Bool) (a : Nat) :
    (s.withHarts h l x).translate c k u a = s.translate c k u a := by
  have hp : (s.withHarts h l x).parts = s.parts := rfl
  unfold State.translate
  rw [hp, State.readGuestEntry_withHarts, State.walkPartition_withHarts]

theorem State.resolve_withHarts (c : Ctx) (k : AccessKind) (a : Word) : (s.withHarts h l x).resolve c k a = s.resolve c k a := by
  have hp : (s.withHarts h l x).parts = s.parts := rfl
  have hf : (s.withHarts h l x).fabricRank = s.fabricRank := rfl
  have hr : (s.withHarts h l x).rootOf = s.rootOf := rfl
  unfold State.resolve State.exportResolve
  simp only [hp, hf, hr, State.translate_withHarts]

theorem State.readTarget_withHarts (c : Ctx) (d : Bool) (g : Target) (n : Nat) :
    (s.withHarts h l x).readTarget c d g n = (s.readTarget c d g n).mapState (State.withHarts h l x) := by
  cases g with
  | device pa =>
    have hr : (s.withHarts h l x).regionAt c.part pa = s.regionAt c.part pa := rfl
    unfold State.readTarget
    dsimp only
    rw [hr]
    cases s.regionAt c.part pa with
    | none =>
      simp only [apply_ite (Acc.mapState _)]
      rfl
    | some r =>
      simp only [apply_ite (Acc.mapState _)]
      rfl
  | bank b o =>
    have hb : (s.withHarts h l x).bank? c.gang b = s.bank? c.gang b := rfl
    unfold State.readTarget
    dsimp only
    rw [hb]
    cases s.bank? c.gang b with
    | none => rfl
    | some k =>
      simp only [apply_ite (Acc.mapState _)]
      rfl
  | remote _ _ => rfl

theorem State.fetch_withHarts (c : Ctx) (a : Word) : (s.withHarts h l x).fetch c a = s.fetch c a := by
  unfold State.fetch
  rw [State.resolve_withHarts]
  cases s.resolve c .fetch a with
  | ok t =>
    dsimp only
    rw [State.readTarget_withHarts]
    cases s.readTarget c false t 4 <;> rfl
  | transit => rfl
  | fault e => rfl

theorem State.unfetchable_withHarts (c : Ctx) (n : Nat) : ∀ a, (s.withHarts h l x).unfetchable c n a = s.unfetchable c n a := by
  induction n with
  | zero => exact fun _ => rfl
  | succ n ih =>
    intro a
    unfold State.unfetchable
    rw [State.fetch_withHarts]
    cases s.fetch c a with
    | word w =>
      dsimp only
      rw [ih]
    | fault e => rfl
    | transit => rfl
end

/-! ### Precise traps of a strand (R407, R408) -/

/-- The cause SCAUSE names (R408). -/
theorem scauseWord_cause {cause : Nat} (hc : cause < 256) (pos src : Nat) (nest lost async : Bool) (vconv vstart : Nat) :
    ((scauseWord cause pos src nest lost async vconv vstart).extractLsb' 0 8).toNat = cause := by
  rw [BitVec.extractLsb'_toNat, scauseWord, BitVec.toNat_ofNat, Nat.shiftRight_zero]
  omega

/-- The position SCAUSE names (R408). -/
theorem scauseWord_pos {cause : Nat} (hc : cause < 256) (pos src : Nat) (nest lost async : Bool) (vconv vstart : Nat) :
    ((scauseWord cause pos src nest lost async vconv vstart).extractLsb' 18 2).toNat = pos % 4 := by
  have hn := Bool.toNat_lt nest
  have hl := Bool.toNat_lt lost
  have ha := Bool.toNat_lt async
  rw [BitVec.extractLsb'_toNat, scauseWord, BitVec.toNat_ofNat, Nat.shiftRight_eq_div_pow]
  omega

theorem Cause.code_lt (c : Cause) : c.code < 256 := by cases c <;> decide

/-- A strand as a precise trap detected at issue leaves it, `a` being its convoy. -/
def Hart.trapped (h : Hart) (a : Word) (elem : Nat) (c : Cause) (v : Word) : Hart :=
  ((h.enterTrap a 0 h.iss.pos false false c.code v).count 0x09 1).setFlow (.trapped true h.iss.pos elem c v)

theorem State.trap_delivered {s : State} (hs : OnStrand s) (hj : s.hart.iss.judging = false) (hd : s.vectorDead = false)
    (elem : Nat) (c : Cause) (v : Word) : s.trap true elem c v = s.onHart fun h => h.trapped h.pc elem c v := by
  unfold State.trap State.trapTo State.enterTrap
  rw [if_neg (by simp [hj]), show s.hart.engine = .strand from hs]
  dsimp only
  rw [if_pos rfl, if_neg (by simp [hd])]
  rfl

theorem Hart.trapped_leaves (h : Hart) (a : Word) (elem : Nat) (c : Cause) (v : Word) : let t := h.trapped a elem c v
    t = { h with
      pc := h.csr.stvec, wait := none, turn := none, arrived := false, delivery := some c.code
      abandoned := t.abandoned, dbg := t.dbg, iss := { h.iss with flow := .trapped true h.iss.pos elem c v }
      csr := { h.csr with
        sepc := a, stval := v, vconv := 0, vstart := 0
        scause := scauseWord c.code h.iss.pos 0 h.st.priv false false h.csr.vconv.toNat h.csr.vstart.toNat }
      st := { h.st with spriv := h.st.priv, priv := true, att := false } } := by
  unfold Hart.trapped Hart.count
  dsimp only
  split <;> rfl

/-! ### Waits that reach their limit (R435, R445) -/

theorem exec_watchdogTimeout (i : StrandId) (s : State) :
    exec (.watchdogTimeout (.strand i)) s = .next (s.expireStrand i fun k => ! k.transit) := rfl

theorem exec_transitTimeout (i : StrandId) (s : State) : exec (.transitTimeout (.strand i)) s = .next (
    if s.strandTransit i then s.expireStrand i WaitKind.transit else s.expireProgram i) := rfl

theorem State.expireStrand_eq {s : State} {i : StrandId} {h : Hart} {w : Wait} (hs : s.strand? i = some h) (hw : h.wait = some w)
    (hm : w.met = false) (hp : h.phase = .running) (k : WaitKind → Bool) :
    s.expireStrand i k = if k w.kind then s.expireWait h w else s := by
  unfold State.expireStrand
  rw [hs]
  dsimp only
  rw [hw]
  by_cases hk : k w.kind = true <;> simp [hm, hp, hk]

theorem WaitKind.transit_iff (k : WaitKind) : k.transit = true ↔ k = .page ∨ k = .fetch := by cases k <;> simp [WaitKind.transit]

theorem WaitKind.version_iff (k : WaitKind) : k.version = true ↔ k = .versionLoad ∨ k = .versionRefused ∨ k = .versionStore := by
  cases k <;> simp [WaitKind.version]

/-- The cause a wait ends in (R435, R445). -/
theorem WaitKind.timeout_eq (k : WaitKind) : k.timeout = if k.version then .versionTimeout else if k.transit then .notPresent else .waitTimeout := by
  cases k <;> rfl

section
variable {s : State} {i : StrandId} {h : Hart} {w : Wait} (hs : s.strand? i = some h) (hw : h.wait = some w) (hm : w.met = false)
include hs hw hm

theorem State.strandTransit_eq : s.strandTransit i = w.kind.transit := by
  simp [State.strandTransit, hs, hw, hm]

/-- The event by which a wait of a strand reaches its limit. -/
theorem exec_limit (hp : h.phase = .running) :
    exec (if w.kind.transit then .transitTimeout (.strand i) else .watchdogTimeout (.strand i)) s = .next (s.expireWait h w) := by
  by_cases ht : w.kind.transit = true
  · rw [if_pos ht, exec_transitTimeout, State.strandTransit_eq hs hw hm, if_pos ht, State.expireStrand_eq hs hw hm hp, if_pos ht]
  · rw [if_neg ht, exec_watchdogTimeout, State.expireStrand_eq hs hw hm hp, if_pos (by simp [ht])]

end

/-- Where the trap of a wait's end is taken: the wait is over, and a sorted-exchange round is withdrawn (R40, R448). -/
theorem State.trapWait_eq {s : State} {w : Wait} {c : Cause} {v : Word} (hf : w.kind = .fetch → s.hart.delivery = none) :
    ∃ x, s.trapWait w c v = State.trap (s.withHarts { s.hart with wait := none, iss := { s.hart.iss with pos := w.pos } } s.harts x)
      true 0 c v := by
  have hnone : (if w.kind = .fetch ∧ c.abortsDelivery then s.hart.delivery else none) = none := by
    by_cases hk : w.kind = .fetch
    · simp [hf hk]
    · simp [hk]
  unfold State.trapWait
  rw [hnone]
  by_cases hx : w.kind = .sxRound
  · exact ⟨_, congrArg (State.trap · true 0 c v) (if_pos hx)⟩
  · exact ⟨s.sessions, congrArg (State.trap · true 0 c v) (if_neg hx)⟩

theorem State.expireWait_resident {s : State} {i : StrandId} {h : Hart} {w : Wait} (hs : s.strand? i = some h) (hr : h.saved = .resident)
    (hv : w.kind.version = false) : s.expireWait h w = (s.focus i).takeExpiry w w.kind.timeout := by
  obtain ⟨-, hid, -⟩ := State.strand?_some hs
  rw [State.expireWait, if_pos ⟨hr, by simp [hv]⟩, hid]

theorem State.expireProgram_of_none {s : State} {i : StrandId} (hno : ∀ k ∈ s.allHarts, k.isControl = true → k.id = i → k.wait = none) :
    s.expireProgram i = s := by
  have hnone : (s.allHarts.find? fun h => h.isControl && h.id == i && h.phase == .running && h.wait.any fun w => w.kind.transit && ! w.met)
      = none := List.find?_eq_none.2 fun k hk hh => by
    simp only [Bool.and_eq_true, beq_iff_eq] at hh
    obtain ⟨⟨⟨hc, hid⟩, -⟩, hw⟩ := hh
    simp [hno k hk hc hid] at hw
  unfold State.expireProgram
  rw [hnone]

/-- A strand on its core takes the trap that ends its wait (R40, R445). -/
theorem State.expireWait_delivered {s : State} {i : StrandId} {h : Hart} {w : Wait} (hs : s.strand? i = some h) (hr : h.saved = .resident)
    (hv : w.kind.version = false) (hj : h.iss.judging = false) (hf : w.kind = .fetch → h.delivery = none) (hz : h.csr.stvec ≠ 0)
    (hu : s.unfetchable { h.ctx with super := true } 4 h.csr.stvec = false) :
    ∃ l x, s.expireWait h w = s.withHarts (Hart.trapped { h with wait := none, iss := { h.iss with pos := w.pos } } h.pc 0 w.kind.timeout
      (h.endedValue w w.kind.timeout)) l x := by
  obtain ⟨heng, -, -⟩ := State.strand?_some hs
  obtain ⟨hfocus, -⟩ := State.focus_eq hs
  rw [State.expireWait_resident hs hr hv, hfocus]
  obtain ⟨x, hx⟩ := State.trapWait_eq (s := { s with hart := h, harts := (s.focus i).harts }) (c := w.kind.timeout)
    (v := h.endedValue w w.kind.timeout) hf
  refine ⟨(s.focus i).harts, x, hx.trans (State.trap_delivered (s := State.withHarts
    { h with wait := none, iss := { h.iss with pos := w.pos } } (s.focus i).harts x s) heng hj ?_ _ _ _)⟩
  rw [State.vectorDead, Bool.or_eq_false_iff]
  exact ⟨beq_eq_false_iff_ne.2 hz, (s.unfetchable_withHarts _ _ _ _ _ _).trans hu⟩

/-- STVAL at the end of a wait (R409, R436, R445). -/
theorem Hart.endedValue_timeout (h : Hart) {w : Wait} (hv : w.kind.version = false) : h.endedValue w w.kind.timeout =
    if w.kind.transit then (if w.kind = .fetch then h.pc else w.addr) else w.ir.zeroExtend 64 := by
  rw [WaitKind.timeout_eq, hv]
  by_cases ht : w.kind.transit = true <;> simp [Hart.endedValue, Hart.timeoutValue, WaitKind.timeout_eq, hv, ht]

/-- Settles O39: the watchdog ends waits, the transit limit those for pages. -/
theorem waitsThatReachTheirLimit : Obligations.WaitsThatReachTheirLimit := by
  intro i s h w hs hw hm hp hj version page cause event
  obtain ⟨heng, hid, -⟩ := State.strand?_some hs
  obtain ⟨hfocus, -⟩ := State.focus_eq hs
  have hpage : page ↔ w.kind.transit = true := w.kind.transit_iff.symm
  have hversion : version ↔ w.kind.version = true := w.kind.version_iff.symm
  have hcause : w.kind.timeout.code = cause := by
    rw [WaitKind.timeout_eq]
    simp only [cause, hversion, hpage]
    split
    · rfl
    · split <;> rfl
  have hexec : exec event s = .next (s.expireWait h w) := by
    rw [← exec_limit hs hw hm hp]
    simp only [event, hpage]
  refine ⟨fun hr hf k hk => ?_, fun hr hv hf hz hu => ?_, fun hsv => ?_, fun hpg => ?_, fun hpg hno => ?_⟩
  · have hnone : w.kind.version = false := by rw [hf]; rfl
    refine ⟨_, hexec, ?_⟩
    have habort : (s.focus i).takeExpiry w w.kind.timeout = (s.focus i).onHart fun h => (h.startAbort k).setFlow (.held 0) := by
      unfold State.takeExpiry State.trapWait
      rw [hf, if_pos ⟨rfl, rfl⟩, hfocus, hk]
    rw [State.expireWait_resident hs hr hnone, habort, hfocus]
    exact ⟨rfl, hid, rfl, rfl, rfl, rfl, rfl⟩
  · have hnv : w.kind.version = false := Bool.eq_false_iff.2 fun h => hv (hversion.2 h)
    obtain ⟨l, x, ht⟩ := State.expireWait_delivered hs hr hnv hj hf hz hu
    have hleft := Hart.trapped_leaves { h with wait := none, iss := { h.iss with pos := w.pos } } h.pc 0 w.kind.timeout
      (h.endedValue w w.kind.timeout)
    refine ⟨_, hexec.trans (congrArg _ ht), rfl, ?_⟩
    dsimp only [State.withHarts]
    rw [hleft]
    refine ⟨hid, rfl, rfl, rfl, rfl, rfl, rfl, rfl, rfl, ?_, scauseWord_pos (Cause.code_lt _) .., rfl, ?_⟩
    · exact (scauseWord_cause (Cause.code_lt _) ..).trans hcause
    · simp only [h.endedValue_timeout hnv, hpage]
  · have hwait : s.expireWait h w = s.onStrand i fun k => { k with wait := some { w with expired := some w.kind.timeout } } := by
      rw [State.expireWait, if_neg, hid]
      rintro ⟨hr, hv⟩
      exact hsv.elim (· hr) (hv ∘ hversion.1)
    have hk : KeepsIdentity fun k => { k with wait := some { w with expired := some w.kind.timeout } } := fun _ => ⟨rfl, rfl, rfl⟩
    refine ⟨_, { h with wait := some { w with expired := some w.kind.timeout } }, hexec.trans (congrArg _ hwait), ?_, rfl, _, hcause, rfl⟩
    rw [s.strand?_onStrand_same i hk, hs, Option.map_some]
  · rw [exec_watchdogTimeout, State.expireStrand_eq hs hw hm hp, if_neg (by simp [hpage.1 hpg])]
  · have hnone : ¬ w.kind.transit = true := fun h => hpg (hpage.2 h)
    rw [exec_transitTimeout, State.strandTransit_eq hs hw hm, if_neg hnone, State.expireProgram_of_none]
    exact hno

end Sys2Proof.Machine
end

section
/-! Settled here: O40, arrivals at barriers are registered, forked programs start (R52, R93, R94, R154). -/

namespace Sys2Proof.Machine

open Sys2Proof.Safety

/-! ### Barriers (R93) -/

@[simp] theorem State.barrier_key (s : State) (k : BarrierKey) : (s.barrier k).key = k := by
  unfold State.barrier
  cases h : s.barriers.find? (fun b => b.key == k) with
  | none => rfl
  | some b => simpa using List.find?_some h

theorem State.barrier_setBarrier_same {s : State} {b : Barrier} {k : BarrierKey} (hb : b.key = k) : (s.setBarrier b).barrier k = b := by
  simp [State.barrier, State.setBarrier, hb]

theorem State.barrier_setBarrier_ne {s : State} {b : Barrier} {k : BarrierKey} (hb : k ≠ b.key) :
    (s.setBarrier b).barrier k = s.barrier k := by
  have hfind : (s.setBarrier b).barriers.find? (fun x => x.key == k) = s.barriers.find? (fun x => x.key == k) := by
    simp only [State.setBarrier, List.find?_cons_of_neg (p := fun x : Barrier => x.key == k) (by simpa using Ne.symm hb), List.find?_filter]
    congr 1
    funext x
    by_cases hx : x.key = k <;> simp [hx, hb]
  rw [State.barrier, State.barrier, hfind]

theorem BarrierKey.id_barrierKey (i : StrandId) (id : Fin 36) : (barrierKey i id).id = id := by
  unfold barrierKey
  split
  · rfl
  · split <;> rfl

/-- The barriers below 32 are those of a gang or of a field: no other rank takes part (R92). -/
theorem State.spanLaunch?_barrierKey {id : Fin 36} (hid : id.val < 32) (s : State) (i : StrandId) : s.spanLaunch? (barrierKey i id) = none := by
  unfold barrierKey
  by_cases h : id.val < 16
  · rw [if_pos h]
    rfl
  · rw [if_neg h, if_pos hid]
    rfl

/-- Where no other rank takes part, a barrier completes once, when all its participants have registered (R93). -/
theorem State.settleBarrier_eq {k : BarrierKey} (hk : ∀ t : State, t.spanLaunch? k = none) (s : State) :
    s.settleBarrier k = if s.barrierLocal (s.barrier k) then s.completeBarrier (s.barrier k) else s := by
  have hann : ∀ t : State, ∀ b : Barrier, b.key = k → t.announce b = t := fun t b hb => by
    unfold State.announce
    rw [hb, hk]
    cases k <;> rfl
  have hmiss : s.spanMissing (s.barrier k) = false := by
    unfold State.spanMissing
    rw [State.barrier_key, hk]
  have hdone : (s.completeBarrier (s.barrier k)).barrier k = { s.barrier k with
      phase := (s.barrier k).phase + 1, registered := []
      peers := (s.barrier k).peers.filter (fun e => e.2 != (s.barrier k).phase.toNat), announced := false } := by
    rw [State.completeBarrier_eq]
    exact State.barrier_setBarrier_same (s.barrier_key k)
  have hlocal : (s.completeBarrier (s.barrier k)).barrierLocal ((s.completeBarrier (s.barrier k)).barrier k) = false := by
    rw [State.barrierLocal, State.barrier_key, hk, hdone]
    rfl
  unfold State.settleBarrier
  dsimp only
  rw [hann s _ (s.barrier_key k), hmiss, hlocal]
  rfl

/-- Once one participant has registered, its generation is complete when every one has, and none is still to start (R93). -/
theorem State.barrierLocal_iff {s : State} {b : Barrier} (hb : b.registered ≠ []) : s.barrierLocal b = true ↔
    (∀ m ∈ s.allHarts, participates b.key m = true → m.id ∈ b.registered) ∧ ∀ g ∈ s.gangs, awaitsGang b.key g = false := by
  have hne : b.registered.isEmpty = false := List.isEmpty_eq_false_iff.2 hb
  simp only [State.barrierLocal, hne, Bool.not_false, Bool.true_or, Bool.true_and, Bool.and_eq_true, List.all_eq_true, Bool.or_eq_true,
    Bool.not_eq_true', List.contains_iff_mem]
  refine and_congr_left' (forall₂_congr fun m hm => ?_)
  cases participates b.key m <;> simp

/-- The barrier wait of a participant is met when its generation completes (R94). -/
theorem Hart.passBarrier_wait {b : Barrier} {h : Hart} {w : Wait} (hp : participates b.key h = true) (hw : h.wait = some w)
    (hk : w.kind = .barrier) (ha : w.addr = barrierWaitKey b.key.id b.phase.toNat) : (h.passBarrier b).wait = some { w with met := true } := by
  unfold Hart.passBarrier
  dsimp only
  rw [if_pos hp, hw, Option.map_some, if_pos ⟨hk, ha⟩]

theorem Hart.passBarrier_keeps (b : Barrier) : KeepsIdentity (Hart.passBarrier b) := fun h => by
  rw [Hart.passBarrier_eq]
  exact ⟨rfl, rfl, rfl⟩

/-! ### Arrivals are registered (R93) -/

/-- A barrier whose one pending arrival has been registered. -/
def Barrier.arrived (b : Barrier) (i : StrandId) : Barrier := { b with pending := [], registered := b.registered ++ [i] }

theorem exec_barrierRegistration {i : StrandId} {id : Fin 36} {s : State} {h : Hart} {a : Arrival} (hs : s.strand? i = some h)
    (hp : (s.barrier (barrierKey i id)).pending = [a]) (ha : a.strand = i) (hi : i ∉ (s.barrier (barrierKey i id)).registered) :
    exec (.barrierRegistration i id) s = .next (if h.arrivalReady a then
      (s.setBarrier ((s.barrier (barrierKey i id)).arrived i)).settleBarrier (barrierKey i id) else s) := by
  have hreg : s.registerArrival i id =
      (s.setBarrier ((s.barrier (barrierKey i id)).arrived i)).settleBarrier (barrierKey i id) := by
    unfold State.registerArrival Barrier.arrived
    simp [hp, ha, hi]
  change execBarrierRegistration i id s = _
  unfold execBarrierRegistration
  rw [hs, hp, List.find?_cons_of_pos (by simp [ha]), hreg]

theorem arrivalsRegisterAndComplete : Claim.ArrivalsRegisterAndComplete := by
  intro i id s h a k b hs hp ha hi hid
  have hexec := exec_barrierRegistration hs hp ha hi
  have hspan : ∀ t : State, t.spanLaunch? k = none := fun t => State.spanLaunch?_barrierKey hid t i
  have hkey : (b.arrived i).key = k := s.barrier_key k
  let s1 := s.setBarrier (b.arrived i)
  have hb1 : s1.barrier k = b.arrived i := State.barrier_setBarrier_same hkey
  have hset : s1.settleBarrier k = if s1.barrierLocal (b.arrived i) then s1.completeBarrier (b.arrived i) else s1 := by
    rw [State.settleBarrier_eq hspan, hb1]
  have hother : ∀ j, j ≠ k → s1.barrier j = s.barrier j := fun j hj => State.barrier_setBarrier_ne (hkey ▸ hj)
  refine ⟨fun hr => by rw [hexec, if_neg (by simp [hr])], fun hr => ?_⟩
  have hexec : exec (.barrierRegistration i id) s = .next (s1.settleBarrier k) := hexec.trans (congrArg _ (if_pos hr))
  rw [hset] at hexec
  have hlocal : s1.barrierLocal (b.arrived i) = true ↔
      (∀ m ∈ s.allHarts, participates k m = true → m.id = i ∨ m.id ∈ b.registered) ∧ ∀ g ∈ s.gangs, awaitsGang k g = false := by
    rw [State.barrierLocal_iff (by simp [Barrier.arrived]), hkey]
    simp only [Barrier.arrived, List.mem_append, List.mem_singleton, or_comm]
    rfl
  by_cases hl : s1.barrierLocal (b.arrived i) = true
  · rw [if_pos hl] at hexec
    let done : Barrier := { b.arrived i with
      phase := b.phase + 1, registered := [], peers := b.peers.filter (fun e => e.2 != b.phase.toNat), announced := false }
    have hdone : s1.completeBarrier (b.arrived i) = (s1.setBarrier done).mapHarts (Hart.passBarrier (b.arrived i)) :=
      State.completeBarrier_eq _ _
    have hbk : (s1.completeBarrier (b.arrived i)).barrier k = done := by
      rw [hdone]
      exact State.barrier_setBarrier_same hkey
    refine ⟨_, hexec, rfl, fun j hj => ?_, fun hn => absurd (hlocal.1 hl) hn, fun _ => ⟨?_, ?_, ?_, fun j m w hm hpm hw hk hadr => ?_⟩⟩
    · rw [hdone]
      exact (State.barrier_setBarrier_ne (hkey ▸ hj)).trans (hother j hj)
    · rw [hbk]
    · rw [hbk]
    · rw [hbk]
      rfl
    · refine ⟨m.passBarrier (b.arrived i), ?_, Hart.passBarrier_wait (hkey ▸ hpm) hw hk ?_⟩
      · rw [hdone, State.strand?_mapHarts _ (Hart.passBarrier_keeps _)]
        exact congrArg (Option.map _) hm
      · rw [hkey, BarrierKey.id_barrierKey]
        exact hadr
  · rw [if_neg hl] at hexec
    exact ⟨_, hexec, rfl, hother, fun _ => ⟨hb1, rfl⟩, fun hall => absurd (hlocal.2 hall) hl⟩

/-! ### Forked programs start (R52, R154) -/

/-- A control core begins its next program, `l` being those that stay queued. -/
def State.withProgram (s : State) (c : Fin 64) (l : List Fork) (h : Hart) : State :=
  let s1 := { s with clusters := s.clusters.set c { s.clusters[c] with forks := l } }
  let others := s.harts.filter fun x => ! (x.engine == .control c)
  if s.hart.engine == .control c then { s1 with hart := h, harts := others } else { s1 with harts := others ++ [h] }

theorem State.withProgram_frame (s : State) (c : Fin 64) (l : List Fork) (h : Hart) :
    (s.withProgram c l h).mem = s.mem ∧ (s.withProgram c l h).clusters = s.clusters.set c { s.clusters[c] with forks := l } := by
  unfold State.withProgram
  dsimp only
  split <;> exact ⟨rfl, rfl⟩

theorem State.program?_withProgram {s : State} {c : Fin 64} {l : List Fork} {h : Hart} (he : h.engine = .control c) (hp : h.phase = .running) :
    (s.withProgram c l h).program? c = some h := by
  unfold State.withProgram
  by_cases hm : s.hart.engine = .control c
  · dsimp only
    rw [if_pos (by simpa using hm)]
    exact List.find?_cons_of_pos (by simp [he, hp])
  · dsimp only
    rw [if_neg (by simpa using hm)]
    have hothers : (s.harts.filter fun x => ! (x.engine == .control c)).find? (fun h => decide (h.engine = .control c ∧ h.phase = .running))
        = none := by simpa using fun x _ hx hc => absurd hc hx
    refine (List.find?_cons_of_neg (by simp [hm])).trans ?_
    rw [List.find?_append, hothers, Option.none_or, List.find?_cons_of_pos (by simp [he, hp])]

theorem exec_forkedProgramStart {c : Fin 64} {s : State} {f : Fork} {l : List Fork} {o : Hart} (hf : s.clusters[c].forks = f :: l)
    (ho : s.strand? f.owner = some o) : exec (.forkedProgramStart c) s = .next (
      if (s.program? c).isSome ∨ ¬ s.golium.running .matrixBoot then s
      else s.withProgram c l (Hart.startProgram c f o ((s.allHarts.find? fun h => h.engine == .control c).getD Hart.idle))) := by
  change execForkedProgramStart c s = _
  unfold execForkedProgramStart
  rw [hf]
  dsimp only
  rw [ho]
  rfl

/-- The registers of a program at its start (R52, R154). -/
theorem Hart.getX_startProgram (c : Fin 64) (f : Fork) (o k : Hart) (r : Reg) : (Hart.startProgram c f o k).getX r =
    if r = 3 then f.arg else if r = 4 then BitVec.ofNat 64 f.owner.vcid.val else 0 := by
  by_cases h0 : r = 0
  · rw [h0]
    rfl
  by_cases h3 : r = 3
  · rw [h3]
    rfl
  by_cases h4 : r = 4
  · rw [h4]
    rfl
  have hn : ∀ n : Fin 32, ¬ r = n → ¬ n.val = r.val := fun n h e => h (Fin.ext e.symm)
  have hx : (Hart.startProgram c f o k).x[r.val] = 0 :=
    (Vector.getElem_set_ne (i := 4) (by decide) r.isLt (hn 4 h4)).trans <|
      (Vector.getElem_set_ne (i := 3) (by decide) r.isLt (hn 3 h3)).trans (Vector.getElem_replicate r.isLt)
  rw [if_neg h3, if_neg h4]
  exact (if_neg h0).trans hx

theorem forkedProgramsStart : Claim.ForkedProgramsStart := by
  intro c s f l o hf ho
  have hexec := exec_forkedProgramStart hf ho
  refine ⟨fun h => ?_, fun hn hv => ?_⟩
  · rw [hexec, if_pos (h.imp_right fun h => by rw [Bool.not_eq_true]; exact h)]
  · have hgo : ¬ ((s.program? c).isSome = true ∨ ¬ s.golium.running .matrixBoot = true) := by
      rintro (h | h)
      · simp [hn] at h
      · exact h hv
    rw [if_neg hgo] at hexec
    obtain ⟨hmem, hcl⟩ := s.withProgram_frame c l
      (Hart.startProgram c f o ((s.allHarts.find? fun h => h.engine == .control c).getD Hart.idle))
    exact ⟨_, _, hexec, hmem, hcl, State.program?_withProgram rfl rfl, rfl, rfl, rfl, rfl,
      fun r h3 h4 => by rw [Hart.getX_startProgram, if_neg h3, if_neg h4], rfl, rfl, rfl⟩

/-- Settles O40, claim by claim. -/
theorem arrivalsAndForkedProgramsBegin : Obligations.ArrivalsAndForkedProgramsBegin :=
  ⟨arrivalsRegisterAndComplete, forkedProgramsStart⟩

end Sys2Proof.Machine
end

section
/-! Settled here: O51, words of each family (R165-R170). -/

namespace Sys2Proof.Machine

/-- Settles O51: every word is decoded. -/
theorem someWordsOfEachFamily : Obligations.SomeWordsOfEachFamily := by
  unfold Obligations.SomeWordsOfEachFamily
  and_intros <;> rfl

end Sys2Proof.Machine
end

section
/-! Settled here: O54, a step runs the instruction that the word at the pc decodes to (R35, R39, R407). -/

namespace Sys2Proof.Machine

open Sys2Proof.Safety

/-! ### From a step to the instruction in issue (R35, R362) -/

theorem State.badUse_begin (s : State) (i : Instr) (w : BitVec 32) : (s.begin w 0 0 none 0).badUse i = s.badUse i := rfl

theorem instrOf_of_decode {w : BitVec 32} {i : Instr} (h : decode w.toNat = .ok i) : instrOf w = some i := by
  rw [instrOf, h]
  rfl

theorem instrOf_of_undecodable {w : BitVec 32} (h : ∀ i, decode w.toNat ≠ .ok i) : instrOf w = none := by
  rw [instrOf]
  cases hd : decode w.toNat with
  | ok i => exact absurd hd (h i)
  | error e => rfl

/-- A step of a hart that issues a one-word convoy is the issue of that word. -/
theorem step_of_issues {s : State} {w : BitVec 32} (h : Claim.Issues w s) {t : State} (ht : s.issueWord w = .next t) :
    step s = .next t.noteRunnable := by
  obtain ⟨⟨hpow, hag, hmay, hphase, hwait, hrep, hnot, hfetch, hc, hmid⟩, hpar, hbrk, hplain⟩ := h
  have hwords : s.fetchConvoy = .words [w] := by
    rw [State.fetchConvoy, State.fetchWords, hfetch]
    exact if_neg (by rw [continues, hc]; decide)
  have hissue : s.issue = s.issueWord w := by
    unfold State.issue
    rw [hwords]
    dsimp only
    rw [if_neg (by simp [hmid]), if_neg (by simp [hbrk]), hpar]
    exact if_pos hplain
  have hnone : (s.hart.wait.bind fun w => w.expired.map fun c => (w, c)) = none := by
    cases hw : s.hart.wait with
    | none => rfl
    | some x => simp [hwait x hw]
  have hact : s.act = .next t := by
    unfold State.act
    rw [hphase, hnone]
    dsimp only
    rw [State.actReady, if_neg (by simp [hrep]), if_neg (by simp [hnot]), hissue, ht]
  unfold step
  rw [if_pos hpow, hag]
  dsimp only
  rw [if_pos hmay, hact]

theorem State.issueWord_of_decode {s t : State} {w : BitVec 32} {i : Instr} (hd : decode w.toNat = .ok i)
    (hb : (Claim.issued w s).badUse i = none) (ht : exec i (Claim.issued w s) = .next t) :
    s.issueWord w = .next (s.finish t (keepsStop i) (i == .eret) 1 (isRandom i).toNat) := by
  have hi := instrOf_of_decode hd
  unfold Claim.issued at hb ht
  rw [State.badUse_begin] at hb
  rw [hi] at hb ht
  unfold State.issueWord
  rw [hi]
  dsimp only
  rw [hb]
  dsimp only
  rw [ht]

theorem State.issueWord_of_undecodable {s : State} {w : BitVec 32} (hd : ∀ i, decode w.toNat ≠ .ok i) :
    s.issueWord w = .next (s.finish ((Claim.issued w s).trapWord .illegal) false false 1 0) := by
  unfold State.issueWord Claim.issued
  rw [instrOf_of_undecodable hd]

/-! ### The end of a convoy's issue (R39, R407) -/

/-- `t` is `s` after a convoy's end: memory and grants are those of `s`, and the hart in front is, but for what it awaits of the fabric,
its place in the stream, and whether it is attached. -/
def EndsAlike (s t : State) : Prop := ∃ r a k,
  t.mem = s.mem ∧ t.parts = s.parts ∧ t.hart = { s.hart with replies := r, streamNo := k, st := { s.hart.st with att := a } }

theorem EndsAlike.refl (s : State) : EndsAlike s s := ⟨_, _, _, rfl, rfl, rfl⟩

theorem EndsAlike.trans {s t u : State} (h : EndsAlike s t) (k : EndsAlike t u) : EndsAlike s u := by
  obtain ⟨_, _, _, hm, hp, hh⟩ := h
  obtain ⟨r, a, n, hm', hp', hh'⟩ := k
  exact ⟨r, a, n, hm'.trans hm, hp'.trans hp, by rw [hh', hh]⟩

theorem State.orphan_eq (s : State) : ∃ r f, s.orphan = { s with hart := { s.hart with replies := r }, fabric := f } := ⟨_, _, rfl⟩

theorem State.orphan_alike (s : State) : EndsAlike s s.orphan := ⟨_, _, _, rfl, rfl, rfl⟩

theorem State.unshelve_alike (s : State) (back : Bool) : EndsAlike s (s.unshelve back) := ⟨_, _, _, rfl, rfl, rfl⟩

theorem State.detachPast_alike (s : State) (g : GangId) (n : Nat) : EndsAlike s (s.detachPast g n) := by
  have hh : ∃ a, (s.detachPast g n).hart = { s.hart with st := { s.hart.st with att := a } } := by
    unfold State.detachPast
    rw [State.onMembers_eq]
    unfold State.mapHarts Hart.ifMember
    dsimp only
    split
    · split <;> exact ⟨_, rfl⟩
    · exact ⟨_, rfl⟩
  obtain ⟨a, ha⟩ := hh
  exact ⟨_, a, _, rfl, rfl, ha⟩

theorem State.follow_alike (s : State) (next seq : Word) : EndsAlike s (s.follow next seq) := by
  have hstep : ∀ t : State, EndsAlike t (t.onHart fun h => { h with streamNo := h.streamNo + 1 }) := fun _ => ⟨_, _, _, rfl, rfl, rfl⟩
  have hleave : EndsAlike s (s.onHart fun h => { h with st := { h.st with att := false } }) := ⟨_, _, _, rfl, rfl, rfl⟩
  have hres : EndsAlike s (s.resolve! (gangOf s.hart.id) s.hart.streamNo next) := ⟨_, _, _, rfl, rfl, rfl⟩
  unfold State.follow
  dsimp only
  split
  · exact .refl s
  · split
    · split
      · exact hstep s
      · exact hleave
    · split
      · refine .trans ?_ (hstep _)
        split
        · exact hres
        · exact hres.trans (State.detachPast_alike _ _ _)
      · split
        · exact hstep s
        · exact hleave

theorem State.singleStep_of_no_policy {s : State} (h : s.parts[s.hart.part].policy = false) (pc : Word) (user : Bool) :
    s.singleStep pc user = s := by
  unfold State.singleStep
  rw [if_neg]
  rintro ⟨-, -, hp, -⟩
  exact Bool.false_ne_true (h.symm.trans hp)

theorem State.policy_congr {s t : State} (hp : t.parts = s.parts) (hh : t.hart.part = s.hart.part) :
    t.parts[t.hart.part].policy = s.parts[s.hart.part].policy := by simp only [hp, hh]

theorem Hart.endTest_of_no_loop {h : Hart} (hl : h.st.lact = false) (pc seq : Word) : h.endTest pc seq = (seq, h) :=
  if_neg fun e => by simp [hl] at e

/-- What retirement makes of the registers (R39). -/
theorem Hart.retire_leaves (h : Hart) (next : Word) (jumped kept eret : Bool) (n draws : Nat) :
    let t := h.retire next jumped kept eret n draws
    t.pc = next ∧ t.x = h.x ∧ t.v = h.v ∧ t.p = h.p ∧ t.part = h.part ∧ t.csr = { h.csr with
      vconv := if kept then h.csr.vconv else 0
      vstart := if kept then h.csr.vstart else 0
      instret := h.csr.instret + BitVec.ofNat 64 n
      rngctr := h.csr.rngctr + BitVec.ofNat 32 draws } := by
  simp only [Hart.retire, Hart.count_pc, Hart.count_x, Hart.count_v, Hart.count_p, Hart.count_part, Hart.count_csr, and_self]

/-- The end of a convoy that leaves no loop and is not single-stepped (R39). -/
theorem State.retire_alike {s t : State} (hl : t.hart.st.lact = false) (hp : s.parts[s.hart.part].policy = false)
    (hparts : t.parts = s.parts) (hpart : t.hart.part = s.hart.part) (next : Word) (jumped kept eret : Bool) (n draws : Nat) :
    EndsAlike { t with hart := t.hart.retire next jumped kept eret n draws } (s.retire t next jumped kept eret n draws) := by
  let t1 : State := { t with hart := t.hart.retire next jumped kept eret n draws }
  let t2 := if t1.hart.st.uih then t1.orphan else t1.orphan.unshelve t1.hart.wait.isSome
  let t3 := t2.follow next (s.hart.pc + BitVec.ofNat 64 (4 * n))
  have hend : (if jumped then (next, t.hart) else t.hart.endTest s.hart.pc next) = (next, t.hart) := by
    rw [Hart.endTest_of_no_loop hl, ite_self]
  have hret : s.retire t next jumped kept eret n draws = t3.singleStep s.hart.pc (! s.hart.st.priv) := by
    unfold State.retire
    rw [hend]
  have h2 : EndsAlike t1 t2 := by
    change EndsAlike t1 (if t1.hart.st.uih then t1.orphan else t1.orphan.unshelve t1.hart.wait.isSome)
    split
    · exact t1.orphan_alike
    · exact t1.orphan_alike.trans (t1.orphan.unshelve_alike _)
  have h3 : EndsAlike t1 t3 := h2.trans (t2.follow_alike _ _)
  obtain ⟨_, _, _, -, hp3, hh3⟩ := id h3
  obtain ⟨-, -, -, -, hkeep, -⟩ := t.hart.retire_leaves next jumped kept eret n draws
  have hpart3 : t3.hart.part = s.hart.part := by
    rw [hh3]
    exact hkeep.trans hpart
  have hpol : t3.parts[t3.hart.part].policy = false := (State.policy_congr (hp3.trans hparts) hpart3).trans hp
  rw [hret, State.singleStep_of_no_policy hpol]
  exact h3

/-- A convoy that falls through, or jumps, ends so. -/
theorem State.finish_alike {s t : State} (hf : t.hart.iss.flow = .seq ∨ ∃ a, t.hart.iss.flow = .jump a) (hl : t.hart.st.lact = false)
    (hp : s.parts[s.hart.part].policy = false) (hparts : t.parts = s.parts) (hpart : t.hart.part = s.hart.part) (eret : Bool) (draws : Nat) :
    let u := s.finish t false eret 1 draws
    u.mem = t.mem ∧ u.hart.pc = (match t.hart.iss.flow with | .jump a => a | _ => s.hart.pc + 4) ∧
      u.hart.x = t.hart.x ∧ u.hart.v = t.hart.v ∧ u.hart.p = t.hart.p ∧ u.hart.csr = { t.hart.csr with
        vconv := 0, vstart := 0, instret := t.hart.csr.instret + 1, rngctr := t.hart.csr.rngctr + BitVec.ofNat 32 draws } := by
  have hend : ∀ next jumped, let u := (s.retire t next jumped false eret 1 draws).onHart Hart.issued
      u.mem = t.mem ∧ u.hart.pc = next ∧ u.hart.x = t.hart.x ∧ u.hart.v = t.hart.v ∧ u.hart.p = t.hart.p ∧ u.hart.csr = { t.hart.csr with
        vconv := 0, vstart := 0, instret := t.hart.csr.instret + 1, rngctr := t.hart.csr.rngctr + BitVec.ofNat 32 draws } := by
    intro next jumped
    obtain ⟨_, _, _, hm, -, hh⟩ := State.retire_alike hl hp hparts hpart next jumped false eret 1 draws
    obtain ⟨hpc, hx, hv, hpr, -, hcsr⟩ := t.hart.retire_leaves next jumped false eret 1 draws
    refine ⟨hm, ?_⟩
    change (s.retire t next jumped false eret 1 draws).hart.issued.pc = _ ∧ (s.retire t next jumped false eret 1 draws).hart.issued.x = _ ∧
      (s.retire t next jumped false eret 1 draws).hart.issued.v = _ ∧ (s.retire t next jumped false eret 1 draws).hart.issued.p = _ ∧
      (s.retire t next jumped false eret 1 draws).hart.issued.csr = _
    rw [hh]
    exact ⟨hpc, hx, hv, hpr, hcsr⟩
  unfold State.finish
  obtain hs | ⟨a, ha⟩ := hf
  · rw [hs]
    exact hend _ false
  · rw [ha]
    exact hend _ true

/-- A trap's entry stands (R407). -/
theorem State.finish_trapped {s t : State} {b : Bool} {p e : Nat} {c : Cause} {v : Word} (hf : t.hart.iss.flow = .trapped b p e c v)
    (kept eret : Bool) (n draws : Nat) : let u := s.finish t kept eret n draws
    u.mem = t.mem ∧ u.hart.pc = t.hart.pc ∧ u.hart.x = t.hart.x ∧ u.hart.csr = t.hart.csr ∧ u.hart.st = t.hart.st := by
  have hblame : ∀ k n, ∃ l, t.blame k n = { t with clusters := l } := by
    intro k n
    unfold State.blame
    cases k with
    | none => exact ⟨_, rfl⟩
    | some k =>
      dsimp only
      split
      · exact ⟨_, rfl⟩
      · split <;> exact ⟨_, rfl⟩
  unfold State.finish
  rw [hf]
  dsimp only
  obtain ⟨l, hl⟩ := hblame (t.clusterOf (gangOf t.hart.id)) c.code
  obtain ⟨r, f, ho⟩ := ({ t with clusters := l } : State).orphan_eq
  rw [hl, ho]
  exact ⟨rfl, rfl, rfl, rfl, rfl⟩

/-! ### Background loads written before an issue (R224) -/

/-- `t` is `s` after background loads were written: memory is that of `s`, and the hart in front goes on where it stood. -/
def LoadsWritten (s t : State) : Prop :=
  t.mem = s.mem ∧ t.hart.pc = s.hart.pc ∧ t.hart.engine = s.hart.engine ∧ t.hart.csr.stvec = s.hart.csr.stvec

theorem LoadsWritten.refl (s : State) : LoadsWritten s s := ⟨rfl, rfl, rfl, rfl⟩

theorem LoadsWritten.trans {s t u : State} (h : LoadsWritten s t) (k : LoadsWritten t u) : LoadsWritten s u := by
  obtain ⟨hm, hp, he, hv⟩ := h
  obtain ⟨hm', hp', he', hv'⟩ := k
  exact ⟨hm'.trans hm, hp'.trans hp, he'.trans he, hv'.trans hv⟩

theorem State.vldbElems_state (c : Ctx) (v : PendingVldb) : ∀ (l : List (Nat × VldbElem)) (s : State),
    ∃ d, (s.vldbElems c v l).2 = { s with draws := d }
  | [], s => ⟨s.draws, rfl⟩
  | (e, x) :: l, s => by
    unfold State.vldbElems
    cases s.vldbRaw c v x with
    | ok raw => exact State.vldbElems_state c v l s
    | error _ => exact State.vldbElems_state c v l { s with draws := s.draws + 1 }

theorem Hart.putVldb_leaves (h : Hart) (v : PendingVldb) (elems : List (Nat × Nat)) (bad : List BadElem) :
    let k := h.putVldb v elems bad
    k.pc = h.pc ∧ k.engine = h.engine ∧ k.csr.stvec = h.csr.stvec := by
  unfold Hart.putVldb
  dsimp only
  rw [Hart.setP_pc, Hart.setP_engine, Hart.setP_csr]
  exact ⟨rfl, rfl, rfl⟩

theorem execVldbDataWrite_written (i : StrandId) (s : State) : LoadsWritten s (resultState (execVldbDataWrite i s) s) := by
  unfold execVldbDataWrite resultState
  dsimp only
  cases s.strand? i with
  | none => exact .refl s
  | some h =>
    dsimp only
    cases h.vldbs with
    | nil => exact .refl s
    | cons v l =>
      dsimp only
      obtain ⟨d, hd⟩ := State.vldbElems_state h.ctx v (positions v.elems) s
      rw [hd, State.onStrand_eq]
      unfold LoadsWritten State.mapHarts Hart.ifStrand
      dsimp only
      split
      · exact ⟨rfl, Hart.putVldb_leaves ..⟩
      · exact ⟨rfl, rfl, rfl, rfl⟩

theorem State.settleVldbs_written (p : State → PendingVldb → Bool) : ∀ (n : Nat) (s : State), LoadsWritten s (s.settleVldbs p n)
  | 0, s => .refl s
  | n + 1, s => by
    unfold State.settleVldbs
    split
    · exact (execVldbDataWrite_written _ s).trans (State.settleVldbs_written p n _)
    · exact .refl s

theorem State.settle_written (s : State) (w : BitVec 32) (i : Option Instr) : LoadsWritten s (s.settle w i) := by
  unfold State.settle
  split
  · exact .refl s
  · exact State.settleVldbs_written _ _ s

theorem Claim.issued_written (w : BitVec 32) (s : State) : LoadsWritten s (Claim.issued w s) := by
  refine (s.settle_written w (instrOf w)).trans ?_
  unfold Claim.issued State.charged State.begin LoadsWritten
  exact ⟨rfl, Hart.count_pc _ _ _, Hart.count_engine _ _ _, congrArg Csrs.stvec (Hart.count_csr _ _ _)⟩

/-! ### A word that decodes to nothing (R420) -/

theorem undecodableWordTraps {s : State} {w : BitVec 32} (hi : Claim.Issues w s) (hd : ∀ i, decode w.toNat ≠ .ok i)
    (he : s.hart.engine = .strand) (hv : (Claim.issued w s).vectorDead = false) : ∃ u, step s = .next u ∧ u.mem = s.mem ∧
      u.hart.pc = s.hart.csr.stvec ∧ (u.hart.csr.scause.extractLsb' 0 8).toNat = 0x01 ∧ u.hart.csr.stval = w.zeroExtend 64 ∧
      u.hart.csr.sepc = s.hart.pc := by
  obtain ⟨hmem, hpc, heng, hvec⟩ := Claim.issued_written w s
  have htrap : (Claim.issued w s).trapWord .illegal =
      (Claim.issued w s).onHart fun h => h.trapped h.pc 0 .illegal (h.iss.ir.zeroExtend 64) :=
    State.trap_delivered (heng.trans he) rfl hv 0 .illegal _
  have hleft := (Claim.issued w s).hart.trapped_leaves (Claim.issued w s).hart.pc 0 .illegal ((Claim.issued w s).hart.iss.ir.zeroExtend 64)
  obtain ⟨hm, hp, -, hc, -⟩ := State.finish_trapped (s := s) (t := (Claim.issued w s).trapWord .illegal) (b := true)
    (p := (Claim.issued w s).hart.iss.pos) (e := 0) (c := .illegal) (v := (Claim.issued w s).hart.iss.ir.zeroExtend 64)
    (by rw [htrap]; rfl) false false 1 0
  refine ⟨_, step_of_issues hi (State.issueWord_of_undecodable hd), ?_⟩
  rw [State.noteRunnable_frame]
  dsimp only
  rw [hm, hp, hc, htrap]
  dsimp only [State.onHart]
  rw [hleft]
  exact ⟨hmem, hvec, scauseWord_cause (by decide) .., rfl, hpc⟩

/-- Settles O54: what stands in issue runs, and its convoy ends. -/
theorem aStepRunsTheDecodedInstruction : Obligations.AStepRunsTheDecodedInstruction := by
  intro s w hi
  refine ⟨fun i t hd hb ht => ?_, undecodableWordTraps hi⟩
  have hstep := step_of_issues hi (State.issueWord_of_decode hd hb ht)
  refine ⟨hstep, fun hf hl hp hparts hpart hk => ?_, fun b p e c v hf => ?_⟩
  · obtain ⟨hm, hpc, hx, hv, hpr, hcsr⟩ := State.finish_alike hf hl hp hparts hpart (i == .eret) (isRandom i).toNat
    refine ⟨_, hstep, ?_⟩
    rw [State.noteRunnable_frame, hk]
    exact ⟨hpc, hm, hx, hv, hpr, hcsr⟩
  · obtain ⟨hm, hpc, hx, hcsr, hst⟩ := State.finish_trapped (s := s) hf (keepsStop i) (i == .eret) 1 (isRandom i).toNat
    refine ⟨_, hstep, ?_⟩
    rw [State.noteRunnable_frame]
    exact ⟨hm, hpc, hx, hcsr, hst⟩

end Sys2Proof.Machine
end

section
/-! Settled here: O56, every step keeps the memories in canonical form (R65, R70; log 3). Each function of the model that answers with a
state is shown to keep the form, in the order of their definitions; only a few touch a memory at all. -/

namespace Sys2Proof.Machine

open Sys2Proof.Safety

/-! ### The form, and the answers that carry a state -/

/-- The banks of some gangs are in canonical form (R70). -/
def BanksCanonical (l : List Gang) : Prop := ∀ g ∈ l, ∀ b ∈ g.banks, Memory.wf b.bytes

/-- The form of a state depends on its memory and its gangs alone. -/
def FormOf (m : Memory) (l : List Gang) : Prop := Memory.wf m ∧ BanksCanonical l

theorem memoriesCanonical_iff {s : State} : MemoriesCanonical s ↔ FormOf s.mem s.gangs := Iff.rfl

/-- An access answers with states in canonical form. -/
def Acc.Canonical {α : Type} : Acc α → Prop
  | .ok _ s | .stall s => MemoriesCanonical s
  | .fault _ | .wait _ => True

/-- So does the access of an element. -/
def Got.Canonical {α : Type} : Got α → Prop
  | .ok _ s | .stall s => MemoriesCanonical s
  | .fault _ _ | .wait _ _ => True

/-- So does an instruction. -/
def ResultCanonical : Result → Prop
  | .next s => MemoriesCanonical s
  | .fault _ | .refused _ => True

theorem BanksCanonical.map {l : List Gang} {f : Gang → Gang} (hf : ∀ g ∈ l, ∀ b ∈ (f g).banks, Memory.wf b.bytes) :
    BanksCanonical (l.map f) := fun g hg => by
  obtain ⟨k, hk, rfl⟩ := List.mem_map.1 hg
  exact hf k hk

/-- A change of some gangs that keeps their banks. -/
theorem BanksCanonical.map_same {l : List Gang} (h : BanksCanonical l) {f : Gang → Gang} (hf : ∀ g, (f g).banks = g.banks) :
    BanksCanonical (l.map f) := BanksCanonical.map fun g hg => by rw [hf]; exact h g hg

section
variable {s : State}

theorem State.gang?_mem {g : GangId} {x : Gang} (e : s.gang? g = some x) : x ∈ s.gangs := List.mem_of_find?_eq_some e

/-- A bank that an access finds is one of a gang's. -/
theorem State.bank?_wf (h : MemoriesCanonical s) {g : Option GangId} {b : Nat} {k : Bank} (e : s.bank? g b = some k) : Memory.wf k.bytes := by
  unfold State.bank? at e
  split at e
  next x hx =>
    obtain ⟨i, -, hi⟩ := Option.bind_eq_some_iff.1 hx
    exact h.2 x (State.gang?_mem hi) k (List.mem_of_getElem? e)
  next => cases e

/-! ### Updates of the state (Ops) -/

variable (h : MemoriesCanonical s)
include h

theorem State.onHart_canonical (f : Hart → Hart) : MemoriesCanonical (s.onHart f) := h

theorem State.draw_canonical : MemoriesCanonical s.draw.2 := h

theorem State.onStrand_canonical (i : StrandId) (f : Hart → Hart) : MemoriesCanonical (s.onStrand i f) := h

theorem State.setRegion_canonical (i : Nat) (r : Region) : MemoriesCanonical (s.setRegion i r) := h

theorem State.mend_canonical (l : Nat → Bool) : MemoriesCanonical (s.mend l) := h

theorem State.setGang_canonical {g : Gang} (hg : ∀ b ∈ g.banks, Memory.wf b.bytes) : MemoriesCanonical (s.setGang g) :=
  ⟨h.1, BanksCanonical.map fun x hx => by split <;> [exact hg; exact h.2 x hx]⟩

theorem State.setBank_canonical (g : Option GangId) (b : Nat) {k : Bank} (hk : Memory.wf k.bytes) : MemoriesCanonical (s.setBank g b k) := by
  unfold State.setBank
  split
  next x hx =>
    obtain ⟨i, -, hi⟩ := Option.bind_eq_some_iff.1 hx
    refine setGang_canonical h fun c hc => ?_
    rcases List.mem_or_eq_of_mem_set hc with hc | rfl
    · exact h.2 x (State.gang?_mem hi) c hc
    · exact hk
  next => exact h

theorem State.cure_canonical (g : Option GangId) (l : Nat → Bool) : MemoriesCanonical (s.cure g l) :=
  ⟨h.1, BanksCanonical.map_same h.2 fun x => by split <;> rfl⟩

theorem State.performWrite_canonical (p : Fin 8) (g : Option GangId) (blocked : List Nat) (w : Write) :
    MemoriesCanonical (s.performWrite p g blocked w) := by
  unfold State.performWrite
  split
  · split
    · exact h
    · exact ⟨Memory.wf_setBytes h.1 _ _, h.2⟩
  · split
    next k hk => exact setBank_canonical h _ _ (Memory.wf_setBytes (State.bank?_wf h hk) _ _)
    next => exact h
  · exact h

end
/-- What keeps the form once keeps it for every entry of a list. -/
theorem foldl_canonical {β : Type} {f : State → β → State} (hf : ∀ s b, MemoriesCanonical s → MemoriesCanonical (f s b)) (l : List β) {s : State}
    (h : MemoriesCanonical s) : MemoriesCanonical (l.foldl f s) := by
  induction l generalizing s with
  | nil => exact h
  | cons b l ih => exact ih (hf s b h)

section
variable {s : State} (h : MemoriesCanonical s)
include h

theorem State.performWrites_canonical (p : Fin 8) (g : Option GangId) (ws : List Write) : MemoriesCanonical (s.performWrites p g ws) :=
  cure_canonical (foldl_canonical (fun _ w hs => performWrite_canonical hs p g _ w) ws h) g _

theorem State.writeBackBad_canonical (g : GangId) (p : Nat × Nat → Bool) : MemoriesCanonical (s.writeBackBad g p) := by
  unfold State.writeBackBad
  split
  · exact h
  next x hx =>
    dsimp only
    split
    · exact h
    · exact setGang_canonical h (h.2 x (gang?_mem hx))

theorem State.readTarget_canonical (c : Ctx) (d : Bool) (t : Target) (n : Nat) : (s.readTarget c d t n).Canonical := by
  unfold State.readTarget
  grind [Acc.Canonical]

theorem State.judgeWrite_canonical (c : Ctx) (t : Target) : (s.judgeWrite c t).Canonical := by
  unfold State.judgeWrite
  grind [Acc.Canonical]

/-! ### Fabric requests -/

theorem State.post_canonical (p : Fin 8) (q off : Nat) (op : SpanOp) : MemoriesCanonical (s.post p q off op) := by
  unfold State.post
  grind [memoriesCanonical_iff]

theorem State.sendRequest_canonical {p : Fin 8} {q off : Nat} {cls : Fin 16} {op : SpanOp} {r : Requester} {va : Word} {x : Fin 4096} {t : State}
    (e : s.sendRequest p q off cls op r va = some (x, t)) : MemoriesCanonical t := by
  unfold State.sendRequest at e
  grind [memoriesCanonical_iff]

/-- A request that finds no tag changes nothing. -/
theorem State.requested_canonical (p : Fin 8) (q off : Nat) (cls : Fin 16) (op : SpanOp) (r : Requester) (va : Word) :
    MemoriesCanonical (((s.sendRequest p q off cls op r va).map (·.2)).getD s) := by
  cases e : s.sendRequest p q off cls op r va with
  | none => exact h
  | some x => exact sendRequest_canonical h e

theorem State.unitAsk_canonical (key : Nat) (c : Ctx) (va : Word) (q off : Nat) (cls : Fin 16) (op : SpanOp) :
    (s.unitAsk key c va q off cls op).Canonical := by
  unfold State.unitAsk
  grind [Acc.Canonical, requested_canonical]

theorem State.unitDone_canonical (key : Nat) : MemoriesCanonical (s.unitDone key) := h

theorem State.unitRead_canonical (key : Nat) (c : Ctx) (cls : Fin 16) (va : Word) (n : Nat) : (s.unitRead key c cls va n).Canonical := by
  grind [State.unitRead, Acc.Canonical, unitAsk_canonical, readTarget_canonical]

omit h in
theorem State.unitWords_canonical (key : Nat) (c : Ctx) (cls : Fin 16) : ∀ (n : Nat) (va : Word) {s : State}, MemoriesCanonical s →
    (s.unitWords key c cls n va).Canonical
  | 0, _, _, h => h
  | n + 1, va, s, h => by
    have ih := @unitWords_canonical key c cls n (va + 8)
    grind [State.unitWords, Acc.Canonical, unitRead_canonical]

theorem State.unitTarget_canonical (c : Ctx) (va : Word) (data : List Byte) : (s.unitTarget c va data).Canonical := by
  grind [State.unitTarget, Acc.Canonical, judgeWrite_canonical]

theorem State.unitWrites_canonical (c : Ctx) (r : Requester) (ws : List Write) : MemoriesCanonical (s.unitWrites c r ws) :=
  foldl_canonical (fun s w hs => by split <;> [exact requested_canonical hs ..; exact hs]) ws (performWrites_canonical h ..)

theorem State.remoteAccess_canonical (va : Word) (q off : Nat) (cls : Fin 16) (op : SpanOp) (e : Nat) : (s.remoteAccess va q off cls op e).Canonical := by
  unfold State.remoteAccess
  grind [Acc.Canonical, requested_canonical, onHart_canonical]

theorem State.reportLate_canonical (c : Cause) (va : Word) : MemoriesCanonical (s.reportLate c va) := by
  grind [State.reportLate, onHart_canonical, onStrand_canonical]

theorem State.remoteStore_canonical (va : Word) (q off : Nat) (cls : Fin 16) (op : SpanOp) (e : Nat) : (s.remoteStore va q off cls op e).Canonical := by
  grind [State.remoteStore, Acc.Canonical, reportLate_canonical, onHart_canonical, remoteAccess_canonical]

/-! ### Traps and waits -/

theorem State.enterTrap_canonical (pc : Word) (src pos : Nat) (lost async : Bool) (c : Nat) (v : Word) :
    MemoriesCanonical (s.enterTrap pc src pos lost async c v) := by
  grind [State.enterTrap, onHart_canonical]

theorem State.blame_canonical (c : Option (Fin 64)) (code : Nat) : MemoriesCanonical (s.blame c code) := by
  unfold State.blame
  grind [memoriesCanonical_iff]

theorem State.endForkedByFault_canonical (c : Fin 64) (k : Cause) (v : Word) : MemoriesCanonical (s.endForkedByFault c k v) := by
  unfold State.endForkedByFault
  split
  · exact h
  · exact onStrand_canonical (blame_canonical (by exact h) ..) ..

theorem State.trapTo_canonical (pc : Word) (i : Bool) (e : Nat) (c : Cause) (v : Word) : MemoriesCanonical (s.trapTo pc i e c v) := by
  grind [State.trapTo, onHart_canonical, endForkedByFault_canonical, enterTrap_canonical]

theorem State.trap_canonical (i : Bool) (e : Nat) (c : Cause) (v : Word) : MemoriesCanonical (s.trap i e c v) := trapTo_canonical h ..

theorem State.trapWord_canonical (c : Cause) : MemoriesCanonical (s.trapWord c) := trap_canonical h ..

theorem State.takeTurn_canonical (k : WaitKind) (a : Word) : MemoriesCanonical (s.takeTurn k a) := h

theorem State.waitFor_canonical (k : WaitKind) (e : Nat) (a : Word) : MemoriesCanonical (s.waitFor k e a) := h

theorem State.stall_canonical (e : Nat) : MemoriesCanonical (s.stall e) := h

/-! ### Accesses of the hart in front -/

theorem State.loadBytes_canonical (va : Word) (n : Nat) (cls : Fin 16) (e : Nat) : (s.loadBytes va n cls e).Canonical := by
  grind [State.loadBytes, Acc.Canonical, remoteAccess_canonical, readTarget_canonical]

theorem State.storeTarget_canonical (va : Word) (d : List Byte) (m : Byte) : (s.storeTarget va d m).Canonical := by
  grind [State.storeTarget, Acc.Canonical, judgeWrite_canonical]

theorem State.sendStore_canonical (w : Write) (cls : Fin 16) (key : Nat) : (s.sendStore w cls key).Canonical := by
  grind [State.sendStore, Acc.Canonical, remoteStore_canonical]

theorem State.performStores_canonical (ws : List Write) : MemoriesCanonical (s.performStores ws) := by
  grind [State.performStores, performWrites_canonical, reportLate_canonical]

theorem State.commitStore_canonical (cls : Fin 16) (ws : List Write) : MemoriesCanonical (s.commitStore cls ws) := performStores_canonical h ws

/-- What the access answered may be used beside the form. -/
theorem State.withAcc_canonical_of_ok {α : Type} (va : Word) {a : Acc α} (ha : a.Canonical) {k : α → State → State}
    (hk : ∀ v t, a = .ok v t → MemoriesCanonical t → MemoriesCanonical (k v t)) : MemoriesCanonical (s.withAcc va a k) := by
  unfold State.withAcc
  grind [Acc.Canonical, trap_canonical, waitFor_canonical, stall_canonical]

theorem State.withAcc_canonical {α : Type} (va : Word) {a : Acc α} (ha : a.Canonical) {k : α → State → State}
    (hk : ∀ v t, MemoriesCanonical t → MemoriesCanonical (k v t)) : MemoriesCanonical (s.withAcc va a k) :=
  withAcc_canonical_of_ok h va ha fun v t _ => hk v t

end

/-! ### Scalar instructions -/

section
variable {s : State} (h : MemoriesCanonical s)
include h

theorem State.strandOnly_canonical {k : State → State} (hk : MemoriesCanonical (k s)) : ResultCanonical (s.strandOnly k) := by
  grind [State.strandOnly, ResultCanonical, trapWord_canonical]

theorem State.controlOnly_canonical {k : Fin 64 → State → State} (hk : ∀ c, MemoriesCanonical (k c s)) : ResultCanonical (s.controlOnly k) := by
  grind [State.controlOnly, ResultCanonical, trapWord_canonical]

theorem State.supervisorOnly_canonical {k : State → State} (hk : MemoriesCanonical (k s)) : ResultCanonical (s.supervisorOnly k) :=
  strandOnly_canonical h (by split <;> [exact hk; exact trapWord_canonical h _])

theorem State.scalarLoad_canonical (d a : Reg) (cls : Fin 16) (sz : Size) (o : BitVec 8) (f : List Byte → Word) :
    ResultCanonical (s.scalarLoad d a cls sz o f) := by
  unfold State.scalarLoad ResultCanonical
  grind [trap_canonical, stall_canonical, withAcc_canonical, loadBytes_canonical, onHart_canonical]

theorem execSt_canonical (x a : Reg) (cls : Fin 16) (sz : Size) (o : BitVec 8) : ResultCanonical (execSt x a cls sz o s) := by
  unfold execSt ResultCanonical
  grind [State.trap_canonical, State.stall_canonical, State.withAcc_canonical, State.storeTarget_canonical, State.sendStore_canonical,
    State.commitStore_canonical]

theorem State.modify_canonical (c : Ctx) (t : Target) (n : Nat) (ok : Bool) (f : Nat → Nat) : (s.modify c t n ok f).Canonical := by
  unfold State.modify
  split
  · have hm : ∀ a l, MemoriesCanonical { s with mem := s.mem.setBytes a l } := fun a l => ⟨Memory.wf_setBytes h.1 a l, h.2⟩
    grind [Acc.Canonical]
  · have hb := setBank_canonical h c.gang
    grind [Acc.Canonical, Memory.wf_setBytes, bank?_wf]
  · trivial

theorem State.spilled_canonical (va : Word) : MemoriesCanonical (s.spilled va) := by
  grind [State.spilled, writeBackBad_canonical]

theorem State.atomic_canonical (va : Word) (n : Nat) (op : AmoOp) (b e : Nat) (cls : Fin 16) (posted : Bool) (elem : Nat) :
    (s.atomic va n op b e cls posted elem).Canonical := by
  grind [State.atomic, Acc.Canonical, remoteStore_canonical, remoteAccess_canonical, modify_canonical]

theorem State.scalarAmo_canonical (d a b : Reg) (cls : Fin 16) (op : AmoOp) (n : Nat) : ResultCanonical (s.scalarAmo d a b cls op n) := by
  refine strandOnly_canonical h ?_
  grind [trapWord_canonical, trap_canonical, stall_canonical, withAcc_canonical, spilled_canonical, atomic_canonical, onHart_canonical]

theorem execTopkins_canonical (a b : Reg) (cls : Fin 16) : ResultCanonical (execTopkins a b cls s) := by
  refine State.strandOnly_canonical h ?_
  grind [State.trap_canonical, State.stall_canonical, State.waitFor_canonical, State.withAcc_canonical, State.remoteStore_canonical,
    State.spilled_canonical, State.modify_canonical, State.onHart_canonical]

/-! ### Control transfers -/

theorem execJal_canonical (d : Reg) (o : BitVec 20) : ResultCanonical (execJal d o s) := h

theorem execJalr_canonical (d a : Reg) (i : BitVec 15) : ResultCanonical (execJalr d a i s) := by
  grind [execJalr, ResultCanonical, State.onHart_canonical, State.trap_canonical]

theorem State.prefetch_canonical (m : BitVec 8) : MemoriesCanonical (s.prefetch m) := by
  grind [State.prefetch, memoriesCanonical_iff]

theorem execStrip_canonical (n : Reg) (m : BitVec 8) (o : BitVec 12) : ResultCanonical (execStrip n m o s) :=
  State.strandOnly_canonical h (State.prefetch_canonical (State.onHart_canonical h _) m)

theorem State.startLoop_canonical (c : Word) (off : Fin 524288) : MemoriesCanonical (s.startLoop c off) := by
  grind [State.startLoop, trapWord_canonical, onHart_canonical, trap_canonical, waitFor_canonical]

/-! ### Barriers (R92-R94) -/

theorem State.setBarrier_canonical (b : Barrier) : MemoriesCanonical (s.setBarrier b) := h

theorem State.completeBarrier_canonical (b : Barrier) : MemoriesCanonical (s.completeBarrier b) := h

theorem State.announce_canonical (b : Barrier) : MemoriesCanonical (s.announce b) := by
  unfold State.announce
  split
  · split
    · exact h
    · exact foldl_canonical (fun _ _ ht => post_canonical ht ..) _ (setBarrier_canonical h _)
  · exact h

theorem State.settleBarrier_canonical (k : BarrierKey) : MemoriesCanonical (s.settleBarrier k) := by
  grind [State.settleBarrier, announce_canonical, completeBarrier_canonical]

theorem State.notePeer_canonical (l : Launch) (q : Nat) (st : Fin 8) (id : Fin 36) (n : Nat) : MemoriesCanonical (s.notePeer l q st id n) :=
  settleBarrier_canonical (setBarrier_canonical h _) _

theorem State.takeArrivals_canonical (l : Launch) : MemoriesCanonical (s.takeArrivals l) :=
  foldl_canonical (fun _ _ ht => by split <;> [exact notePeer_canonical ht ..; exact ht]) _ h

theorem State.registerArrival_canonical (i : StrandId) (id : Fin 36) : MemoriesCanonical (s.registerArrival i id) :=
  settleBarrier_canonical (setBarrier_canonical h _) _

theorem State.settleAll_canonical (i : StrandId) : MemoriesCanonical (s.settleAll i) :=
  foldl_canonical (fun _ _ ht => settleBarrier_canonical (setBarrier_canonical ht _) _) _ h

/-! ### Sessions that end (R334, R338) -/

theorem State.setSession_canonical (x : Session) : MemoriesCanonical (s.setSession x) := h

theorem State.markReceive_canonical (d : SxDescriptor) (i : StrandId) (on : Bool) : MemoriesCanonical (s.markReceive d i on) := by
  unfold State.markReceive
  split
  next k hk => exact setBank_canonical h _ _ (k := { k with receive := on, entries := [] }) (State.bank?_wf (k := k) h hk)
  next => exact h

theorem State.freeReceiver_canonical (x : Session) (r : SxReceiver) : MemoriesCanonical (s.freeReceiver x r) := by
  grind [State.freeReceiver, markReceive_canonical]

theorem State.endSession_canonical (x : Session) (b : Bool) : MemoriesCanonical (s.endSession x b) :=
  setSession_canonical (foldl_canonical (fun _ r ht => freeReceiver_canonical ht x r) x.receivers h) _

theorem State.settleSession_canonical (x : Session) : MemoriesCanonical (s.settleSession x) := by
  grind [State.settleSession, endSession_canonical]

theorem State.leaveSession_canonical (x : Session) (i : StrandId) : MemoriesCanonical (s.leaveSession x i) :=
  settleSession_canonical (setSession_canonical h _) _

theorem State.leaveSessions_canonical (p : Fin 8) (i : StrandId) : MemoriesCanonical (s.leaveSessions p i) :=
  foldl_canonical (fun _ _ ht => by grind [leaveSession_canonical, settleSession_canonical]) _ h

/-! ### Vector registers (R221) -/

theorem State.vector_canonical (j : Option Cause) {k : State → State} (hk : MemoriesCanonical (k s)) : ResultCanonical (s.vector j k) := by
  refine strandOnly_canonical h ?_
  grind [trapWord_canonical]

theorem State.vectorHart_canonical (j : Option Cause) (k : Hart → Hart) : ResultCanonical (s.vectorHart j k) := vector_canonical h j h

theorem State.vectorDraw_canonical (j : Option Cause) (k : Hart → Hart) : ResultCanonical (s.vectorDraw j k) := by
  refine strandOnly_canonical h ?_
  grind [trapWord_canonical, onHart_canonical]

theorem execVcvt_canonical (d a : Reg) (q : Fin 4) (t : Tag) (m : Reg) : ResultCanonical (execVcvt d a q t m s) := by
  unfold execVcvt
  grind [State.strandOnly_canonical, State.trapWord_canonical, State.vectorHart_canonical]

omit h in
theorem State.sumFree_canonical (f : Nat → Nat → Nat × Raised) : ∀ (n : Nat) (l : List Nat) (r : Raised) {s : State}, MemoriesCanonical s →
    MemoriesCanonical (s.sumFree f n l r).2
  | 0, _, _, _, h => h
  | n + 1, _, _, _, h => sumFree_canonical f n _ _ (draw_canonical h)

theorem State.sumUnordered_canonical (t : Tag) (r : Rounding) (i : Nat) (l : List Nat) : MemoriesCanonical (s.sumUnordered t r i l).2 := by
  grind [State.sumUnordered, sumFree_canonical]

omit h in
theorem State.scanFree_canonical (t : Tag) (r : Rounding) (i : Nat) : ∀ (l : List (Nat × Nat)) (done : List Nat) {s : State},
    MemoriesCanonical s → MemoriesCanonical (s.scanFree t r i done l).2
  | [], _, _, h => h
  | _ :: l, _, _, h => scanFree_canonical t r i l _ (sumUnordered_canonical h t r i _)

theorem State.reduction_canonical (a b : Reg) (u : Bool) {k : State → State} (hk : MemoriesCanonical (k s)) :
    ResultCanonical (s.reduction a b u k) := vector_canonical h _ hk

theorem State.reduceOrdered_canonical (d a b m : Reg) (f : Tag → Nat → Nat → Nat × Raised) : ResultCanonical (s.reduceOrdered d a b m f) :=
  reduction_canonical h a b false h

theorem execVredsumu_canonical (d a b m : Reg) : ResultCanonical (execVredsumu d a b m s) :=
  State.reduction_canonical h a b true (State.onHart_canonical (State.sumUnordered_canonical h ..) _)

theorem execVscanf_canonical (d a b m : Reg) : ResultCanonical (execVscanf d a b m s) :=
  State.reduction_canonical h a b true (State.onHart_canonical (State.scanFree_canonical _ _ _ _ _ h) _)

end

/-! ### Accesses of elements (R258-R269) -/

theorem gotAt_canonical {α : Type} (va : Word) {a : Acc α} (ha : a.Canonical) : (gotAt va a).Canonical := by
  unfold gotAt
  grind [Acc.Canonical, Got.Canonical]

theorem Got.bind_canonical {α β : Type} {x : Got α} (hx : x.Canonical) {k : α → State → Got β}
    (hk : ∀ a t, MemoriesCanonical t → (k a t).Canonical) : (x.bind k).Canonical := by
  unfold Got.bind
  grind [Got.Canonical]

theorem gather_canonical {α β : Type} {f : α → State → Got β} (hf : ∀ a t, MemoriesCanonical t → (f a t).Canonical) :
    ∀ (l : List α) {s : State}, MemoriesCanonical s → (gather f l s).Canonical
  | [], _, h => h
  | a :: l, _, h => Got.bind_canonical (hf a _ h) fun _ _ ht => Got.bind_canonical (gather_canonical hf l ht) fun _ _ hu => hu

theorem sweep_canonical {α : Type} {f : Nat → State → Got α} (hf : ∀ e t, MemoriesCanonical t → (f e t).Canonical) :
    ∀ (l : List Nat) {s : State}, MemoriesCanonical s → MemoriesCanonical (sweep f l s).state
  | [], _, h => h
  | e :: l, s, h => by
    have he := hf e s h
    have ih := @sweep_canonical _ _ hf l
    unfold sweep
    split
    next a s1 e1 => exact ih (by rwa [e1] at he)
    next => exact h
    next => exact h
    next => exact h

section
variable {s : State} (h : MemoriesCanonical s)
include h

theorem State.holdAt_canonical (e : Nat) (w : Option (WaitKind × Word)) : MemoriesCanonical (s.holdAt e w) := by
  unfold State.holdAt
  split <;> exact h

theorem State.elemTrap_canonical (e : Nat) (c : Cause) (va : Word) : MemoriesCanonical (s.elemTrap e c va) := by
  grind [State.elemTrap, trapWord_canonical, trap_canonical]

theorem State.stopAt_canonical (x : Option (Nat × Stop)) : MemoriesCanonical (s.stopAt x) := by
  unfold State.stopAt
  grind [elemTrap_canonical, holdAt_canonical]

theorem Swept.carry_canonical {α : Type} (r : Swept α) : MemoriesCanonical (r.carry s) := by
  unfold Swept.carry
  split <;> exact h

theorem State.vload_canonical (v : VShape) : MemoriesCanonical (s.vload v) := by
  unfold State.vload
  grind [trapWord_canonical, trap_canonical, stopAt_canonical, onHart_canonical, Swept.carry_canonical]

omit h in
theorem State.shuffle_canonical {α : Type} : ∀ (n : Nat) (l : List α) {s : State}, MemoriesCanonical s → MemoriesCanonical (s.shuffle n l).2
  | 0, _, _, h => h
  | _ + 1, [], _, h => h
  | n + 1, _ :: _, _, h => shuffle_canonical n _ (draw_canonical h)

theorem State.vstore_canonical (v : VShape) (free : Bool) : MemoriesCanonical (s.vstore v free) := by
  unfold State.vstore
  grind [trapWord_canonical, trap_canonical, holdAt_canonical, stopAt_canonical, onHart_canonical, Swept.carry_canonical, shuffle_canonical,
    performStores_canonical, commitStore_canonical]

theorem State.vloadInstr_canonical (v : VShape) (i : Option Reg) : ResultCanonical (s.vloadInstr v i) :=
  vector_canonical h _ (vload_canonical h v)

theorem State.vstoreInstr_canonical (v : VShape) (i : Option Reg) (free : Bool) : ResultCanonical (s.vstoreInstr v i free) :=
  vector_canonical h _ (vstore_canonical h v free)

theorem execVldb_canonical (d : Reg) (n : Fin 8) (i : Reg) (cls : Fin 16) (f : MemFmt) (p : Reg) : ResultCanonical (execVldb d n i cls f p s) := by
  refine State.vector_canonical h _ ?_
  grind [State.trapWord_canonical, State.trap_canonical, State.stall_canonical, State.holdAt_canonical, State.onHart_canonical,
    Swept.carry_canonical]

theorem State.vamoxElem_canonical (op : AmoOp) (t : Tag) (cls : Fin 16) (base : Word) (r i : Reg) (e : Nat) :
    (s.vamoxElem op t cls base r i e).Canonical := by
  have done : ∀ (a : Unit) (t : State), MemoriesCanonical t → (Got.ok a t).Canonical := fun _ _ ht => ht
  unfold State.vamoxElem
  grind [Got.Canonical, Got.bind_canonical, gotAt_canonical, atomic_canonical, remoteAccess_canonical, modify_canonical]

omit h in
theorem State.vamoxRun_canonical {f : Nat → State → Got Unit} (hf : ∀ e t, MemoriesCanonical t → (f e t).Canonical) :
    ∀ (l : List Nat) {s : State}, MemoriesCanonical s → MemoriesCanonical (s.vamoxRun f l).2
  | [], _, h => h
  | e :: l, s, h => by
    have ih := @vamoxRun_canonical f hf l
    unfold State.vamoxRun
    grind [Got.Canonical]

theorem State.vamox_canonical (op : Vamox) (r : Reg) (n : Fin 8) (i : Reg) (cls : Fin 16) (m : Reg) :
    ResultCanonical (s.vamox op r n i cls m) := by
  refine vector_canonical h _ ?_
  have run := fun l => @vamoxRun_canonical _ (fun e t ht => vamoxElem_canonical ht (vamoxAmo op) (s.hart.tag r) cls (s.hart.base n) r i e) l
  grind [trap_canonical, holdAt_canonical, onHart_canonical, shuffle_canonical, spilled_canonical]

/-! ### Banks (R70-R74) -/

theorem State.fifoBank_canonical (k : WaitKind) (va : Word) (n : Nat) : (s.fifoBank k va n).Canonical := by
  grind [State.fifoBank, Acc.Canonical, takeTurn_canonical]

/-- The bank a push or pop finds is one of the gang's, and nothing has changed. -/
theorem State.fifoBank_ok {k : WaitKind} {va : Word} {n : Nat} {x : Nat × Bank × Nat × Nat} {t : State} (e : s.fifoBank k va n = .ok x t) :
    t = s ∧ Memory.wf x.2.1.bytes := by
  grind [State.fifoBank, bank?_wf]

end

section
variable {s : State} (h : MemoriesCanonical s)
include h

theorem execVpush_canonical (r : Reg) (n : Fin 8) (cls : Fin 16) (m : Reg) : ResultCanonical (execVpush r n cls m s) := by
  refine State.vector_canonical h _ ?_
  dsimp only
  split
  · exact State.stall_canonical h 0
  · refine State.withAcc_canonical_of_ok h _ (State.fifoBank_canonical h ..) fun ⟨b, k, size, depth⟩ t e ht => ?_
    have put := fun l => State.setBank_canonical ht t.hart.ctx.gang b (k := { k with entries := l }) (State.fifoBank_ok h e).2
    grind [State.waitFor_canonical, State.onHart_canonical]

theorem execVpop_canonical (d : Reg) (n : Fin 8) (cls : Fin 16) (m : Reg) : ResultCanonical (execVpop d n cls m s) := by
  refine State.vector_canonical h _ (State.withAcc_canonical_of_ok h _ (State.fifoBank_canonical h ..) fun ⟨b, k, size, depth⟩ t e ht => ?_)
  have put := fun l m => State.setBank_canonical ht t.hart.ctx.gang b (k := { k with entries := l, bad := m }) (State.fifoBank_ok h e).2
  grind [State.waitFor_canonical, State.trap_canonical, State.onHart_canonical]

theorem execBankcfg_canonical (d a b : Reg) : ResultCanonical (execBankcfg d a b s) := by
  refine State.strandOnly_canonical h ?_
  have put := State.setBank_canonical h
  grind [State.trap_canonical, State.onHart_canonical, State.bank?_wf]

theorem State.cutReceiver_canonical (g : GangId) (b : Nat) : MemoriesCanonical (s.cutReceiver g b) := h

theorem execBankSwitchBegin_canonical (g : GangId) (b : Fin 44) : ResultCanonical (execBankSwitchBegin g b s) := by
  unfold execBankSwitchBegin
  split
  next k hk =>
    split
    · refine State.setBank_canonical ?_ _ _ (State.bank?_wf (k := k) h hk)
      grind [State.cutReceiver_canonical, State.writeBackBad_canonical]
    · exact h
  next => exact h

theorem execBankSwitchEnd_canonical (g : GangId) (b : Fin 44) : ResultCanonical (execBankSwitchEnd g b s) := by
  unfold execBankSwitchEnd
  split
  · split
    · exact State.setBank_canonical h _ _ Memory.wf_nil
    · exact h
  · exact h

/-! ### Gangs (R41-R50) -/

theorem State.onMembers_canonical (g : GangId) (f : Hart → Hart) : MemoriesCanonical (s.onMembers g f) := h

theorem State.onGang_canonical (g : GangId) {f : Gang → Gang} (hf : ∀ x : Gang, (∀ b ∈ x.banks, Memory.wf b.bytes) → ∀ b ∈ (f x).banks, Memory.wf b.bytes) :
    MemoriesCanonical (s.onGang g f) :=
  ⟨h.1, BanksCanonical.map fun x hx => by split <;> [exact hf x (h.2 x hx); exact h.2 x hx]⟩

theorem State.onGang_canonical_of_same (g : GangId) {f : Gang → Gang} (hf : ∀ x, (f x).banks = x.banks) : MemoriesCanonical (s.onGang g f) :=
  onGang_canonical h g fun x hx => by rwa [hf]

theorem State.resolve!_canonical (g : GangId) (n : Nat) (a : Word) : MemoriesCanonical (s.resolve! g n a) := onGang_canonical_of_same h g fun _ => rfl

theorem State.streamJoin_canonical (whole : Bool) : MemoriesCanonical (s.streamJoin whole) := by
  unfold State.streamJoin
  grind [onMembers_canonical, onGang_canonical_of_same, waitFor_canonical]

theorem State.join_canonical (whole : Bool) : MemoriesCanonical (s.join whole) := by
  have alone : MemoriesCanonical ((s.onHart fun h => { h with st := { h.st with att := true }, streamNo := 0 }).onGang (gangOf s.hart.id)
      fun x => { x with ring := [], joinAt := none }) := onGang_canonical_of_same h _ fun _ => rfl
  unfold State.join
  grind [onHart_canonical, streamJoin_canonical, waitFor_canonical, stall_canonical]

theorem State.settleGang_canonical (g : GangId) : MemoriesCanonical (s.settleGang g) := by
  unfold State.settleGang
  split
  · refine onGang_canonical h g fun x hx => ?_
    split <;> [simp; exact hx]
  · exact h

theorem State.endStrand_canonical : MemoriesCanonical s.endStrand :=
  settleGang_canonical (leaveSessions_canonical (settleAll_canonical (onHart_canonical h _) _) _ _) _

theorem execExit_canonical : ResultCanonical (execExit s) := by
  have fork : ∀ c, MemoriesCanonical (s.exitForked c) := fun c => by
    grind [State.exitForked, State.onHart_canonical, State.onStrand_canonical, State.stall_canonical]
  grind [execExit, State.exitStrand, ResultCanonical, State.endStrand_canonical, State.stall_canonical]

theorem execFork_canonical (a b : Reg) : ResultCanonical (execFork a b s) := by
  refine State.strandOnly_canonical h ?_
  have row : ∀ v, MemoriesCanonical { s with clusters := v } := fun _ => h
  grind [State.trap_canonical, State.waitFor_canonical, State.stall_canonical, State.onHart_canonical, State.onGang_canonical_of_same]

theorem execRendezvous_canonical (id : Fin 16) : ResultCanonical (execRendezvous id s) := by
  have meet : ∀ k l, MemoriesCanonical { s with hart := k, harts := l } := fun _ _ => h
  grind [execRendezvous, ResultCanonical, State.onHart_canonical, State.stall_canonical, State.waitFor_canonical]

/-! ### Versions (R109-R118, R273-R281) -/

theorem State.pick_canonical (l : List Nat) : MemoriesCanonical (s.pick l).2 := by
  unfold State.pick
  split <;> exact h

theorem State.createVersion_canonical (i : Nat) (r : Region) (q : Nat) (n : BitVec 32) (d : BitVec 1024) :
    (s.createVersion i r q n d).Canonical := by
  unfold State.createVersion
  grind [Acc.Canonical, pick_canonical, setRegion_canonical, mend_canonical]

theorem State.versionedAt_canonical (k : AccessKind) (va : Word) : (s.versionedAt k va).Canonical := by
  grind [State.versionedAt, Acc.Canonical]

theorem State.versionedBytes_canonical (va : Word) (v n : Nat) (cls : Fin 16) (key : Nat) : (s.versionedBytes va v n cls key).Canonical := by
  have := versionedAt_canonical h .load va
  grind [State.versionedBytes, Acc.Canonical, remoteAccess_canonical]

theorem State.withVersioned_canonical {α : Type} (va : Word) (v : Nat) {a : Acc α} (ha : a.Canonical) {k : α → State → State}
    (hk : ∀ v t, MemoriesCanonical t → MemoriesCanonical (k v t)) : MemoriesCanonical (s.withVersioned va v a k) := by
  unfold State.withVersioned
  grind [Acc.Canonical, trap_canonical, waitFor_canonical, stall_canonical, withAcc_canonical]

theorem execLdv_canonical (d a b : Reg) (cls : Fin 16) : ResultCanonical (execLdv d a b cls s) := by
  refine State.strandOnly_canonical h ?_
  grind [State.trapWord_canonical, State.trap_canonical, State.withVersioned_canonical, State.versionedBytes_canonical, State.onHart_canonical]

theorem execVrqry_canonical (d a : Reg) (w : Fin 5) : ResultCanonical (execVrqry d a w s) := by
  refine State.strandOnly_canonical h ?_
  grind [State.withAcc_canonical, State.versionedAt_canonical, State.remoteAccess_canonical, State.onHart_canonical]

theorem execVldv_canonical (d : Reg) (n : Fin 8) (x : Reg) (cls : Fin 16) (m : Reg) : ResultCanonical (execVldv d n x cls m s) := by
  refine State.vector_canonical h _ ?_
  grind [State.trap_canonical, State.stopAt_canonical, State.onHart_canonical, Swept.carry_canonical]

theorem State.vstvGranule_canonical (va : Word) (n : Nat) (cls : Fin 16) (d : List Byte) (key : Nat) : (s.vstvGranule va n cls d key).Canonical := by
  refine gotAt_canonical va ?_
  have := versionedAt_canonical h .store va
  grind [Acc.Canonical, remoteAccess_canonical, createVersion_canonical]

omit h in
theorem State.vstvRun_canonical {f : Nat → State → Got Unit} (hf : ∀ e t, MemoriesCanonical t → (f e t).Canonical) :
    ∀ (l : List Nat) {s : State}, MemoriesCanonical s → MemoriesCanonical (s.vstvRun f l).2.2
  | [], _, h => h
  | e :: l, s, h => by
    have ih := @vstvRun_canonical f hf l
    unfold State.vstvRun
    grind [Got.Canonical]

theorem execVstv_canonical (r : Reg) (n : Fin 8) (x : Reg) (cls : Fin 16) : ResultCanonical (execVstv r n x cls s) := by
  refine State.vector_canonical h _ ?_
  have run := fun f hf l => @State.vstvRun_canonical f hf l
  grind [State.trap_canonical, State.holdAt_canonical, State.onHart_canonical, State.vstvGranule_canonical]

theorem State.withGot_canonical {α : Type} {x : Got α} (hx : x.Canonical) {k : α → State → State}
    (hk : ∀ v t, MemoriesCanonical t → MemoriesCanonical (k v t)) : MemoriesCanonical (s.withGot x k) := by
  have off : ∀ f e, MemoriesCanonical (State.stall { s with fabric := f } e) := fun _ _ => h
  unfold State.withGot
  grind [Got.Canonical, trap_canonical, waitFor_canonical]

omit h in
theorem State.readEntries_canonical (key : Nat) : ∀ (n : Nat) (va : Word) {s : State}, MemoriesCanonical s → (s.readEntries key n va).Canonical
  | 0, _, _, h => h
  | n + 1, _, _, h => Got.bind_canonical (gotAt_canonical _ (loadBytes_canonical h ..)) fun _ _ ht =>
    Got.bind_canonical (readEntries_canonical key n _ ht) fun _ _ hu => hu

theorem State.readBlock_canonical (va : Word) (n : Nat) : (s.readBlock va n).Canonical :=
  Got.bind_canonical (readEntries_canonical 0 _ va h) fun _ _ ht => ht

omit h in
theorem State.publishPieces_canonical (va : Word) (q off n : Nat) (cls : Fin 16) (v : BitVec 32) : ∀ (l : List ((Nat × Nat) × Nat)) {s : State},
    MemoriesCanonical s → (s.publishPieces va q off n cls v l).Canonical
  | [], _, h => h
  | _ :: l, _, h => Got.bind_canonical (gotAt_canonical va (remoteAccess_canonical h ..)) fun _ _ ht =>
    publishPieces_canonical va q off n cls v l ht

theorem execVpub_canonical (v a b : Reg) (cls : Fin 16) : ResultCanonical (execVpub v a b cls s) := by
  refine State.strandOnly_canonical h ?_
  grind [Acc.Canonical, State.trap_canonical, State.stall_canonical, State.waitFor_canonical, State.versionedAt_canonical, State.withGot_canonical,
    State.publishPieces_canonical, State.onHart_canonical, State.setRegion_canonical]

theorem execVretire_canonical (a b : Reg) (n : Fin 16) : ResultCanonical (execVretire a b n s) := by
  refine State.strandOnly_canonical h ?_
  grind [State.withAcc_canonical, State.versionedAt_canonical, State.trap_canonical, State.setRegion_canonical, State.remoteAccess_canonical]

theorem execVrdecl_canonical (d a : Reg) : ResultCanonical (execVrdecl d a s) := by
  refine State.supervisorOnly_canonical h ?_
  have more : ∀ (t : State) l, MemoriesCanonical t → MemoriesCanonical { t with regions := l } := fun _ _ ht => ht
  grind [State.trap_canonical, State.withGot_canonical, State.readBlock_canonical, State.readEntries_canonical, State.onHart_canonical,
    State.mend_canonical]

theorem State.wakeParked_canonical (p : Waker → Bool) : MemoriesCanonical (s.wakeParked p) := h

end

/-! ### A region is written back (R281) -/

theorem map_fst_positions {α : Type} (l : List α) : (positions l).map (·.1) = List.range l.length := by
  rw [positions, List.map_fst_zip (by simp)]

/-- The cells of a page rise. -/
theorem Region.pageCells_wf (r : Region) (i pa : Nat) : Memory.wf (r.pageCells i pa) := by
  have rise : ∀ l : List Byte, (positions l).Pairwise (fun a b => a.1 < b.1) := fun l =>
    List.pairwise_map.1 (by rw [map_fst_positions]; exact List.pairwise_lt_range)
  refine ⟨(List.pairwise_filterMap.2 ((rise _).imp ?_)), fun c hc => ?_⟩
  · grind
  · obtain ⟨x, -, hx⟩ := List.mem_filterMap.1 hc
    grind

/-- They lie in the page. -/
theorem Region.mem_pageCells {r : Region} {i pa : Nat} {c : Host.Cell} (hc : c ∈ r.pageCells i pa) : pa ≤ c.1 ∧ c.1 < pa + 65536 := by
  obtain ⟨x, hx, e⟩ := List.mem_filterMap.1 hc
  have hlt : x.1 < ((List.range 512).flatMap fun k => leBytes 128 (r.granule (i * 512 + k)).newest.toNat).length :=
    List.mem_range.1 (map_fst_positions _ ▸ List.mem_map_of_mem hx)
  have hlen : ((List.range 512).flatMap fun k => leBytes 128 (r.granule (i * 512 + k)).newest.toNat).length = 65536 := by
    simp only [List.length_flatMap, length_leBytes, List.map_const', List.sum_replicate, List.length_range, smul_eq_mul]
  grind

theorem Memory.wf_replace {m cells : Memory} (hm : Memory.wf m) {a n : Nat} (hc : Memory.wf cells) (hin : ∀ c ∈ cells, a ≤ c.1 ∧ c.1 < a + n) :
    Memory.wf (m.replace a n cells) := by
  refine ⟨List.pairwise_append.2 ⟨List.pairwise_append.2 ⟨hm.1.filter _, hc.1, ?_⟩, hm.1.filter _, ?_⟩, ?_⟩
  · grind
  · grind
  · have := hm.2
    have := hc.2
    grind [Memory.replace]

theorem Region.writeBack_wf (r : Region) {m : Memory} (hm : Memory.wf m) : Memory.wf (r.writeBack m) := by
  unfold Region.writeBack
  generalize positions r.pages = l
  induction l generalizing m with
  | nil => exact hm
  | cons x l ih => exact ih (Memory.wf_replace hm (r.pageCells_wf ..) fun _ hc => Region.mem_pageCells hc)

section
variable {s : State} (h : MemoriesCanonical s)
include h

theorem execVrfree_canonical (d a : Reg) : ResultCanonical (execVrfree d a s) := by
  refine State.supervisorOnly_canonical h ?_
  dsimp only
  split
  · exact h
  next r _ => exact ⟨r.writeBack_wf h.1, h.2⟩

theorem execVersionedStoreStep_canonical (r q : Nat) (n : BitVec 32) (d : BitVec 1024) : ResultCanonical (execVersionedStoreStep r q n d s) := by
  grind [execVersionedStoreStep, ResultCanonical, Acc.Canonical, State.createVersion_canonical]

theorem execVersionWaitWake_canonical (r q : Nat) : ResultCanonical (execVersionWaitWake r q s) := by
  grind [execVersionWaitWake, ResultCanonical, State.wakeParked_canonical]

theorem execWaitListRetry_canonical (i : StrandId) : ResultCanonical (execWaitListRetry i s) := h

theorem execHorizonPropagation_canonical (r q : Nat) : ResultCanonical (execHorizonPropagation r q s) := by
  grind [execHorizonPropagation, ResultCanonical, State.setRegion_canonical]

/-! ### Sessions (R317-R338) -/

theorem State.sxTrap_canonical (c : Cause) (sid : Fin 16) : MemoriesCanonical (s.sxTrap c sid) := trap_canonical h ..

theorem State.onSession_canonical (sid : Fin 16) {k : Session → SxParticipant → State → State} (hk : ∀ x q, MemoriesCanonical (k x q s)) :
    ResultCanonical (s.onSession sid k) := by
  refine strandOnly_canonical h ?_
  grind [sxTrap_canonical]

theorem State.joinSession_canonical (x : Session) : MemoriesCanonical (s.joinSession x) := by
  grind [State.joinSession, setSession_canonical, markReceive_canonical]

omit h in
theorem State.readKeys_canonical (w : Nat) : ∀ (n : Nat) (va : Word) {s : State}, MemoriesCanonical s → (s.readKeys w n va).Canonical
  | 0, _, _, h => h
  | n + 1, _, _, h => Got.bind_canonical (gotAt_canonical _ (loadBytes_canonical h ..)) fun _ _ ht =>
    Got.bind_canonical (readKeys_canonical w n _ ht) fun _ _ hu => hu

theorem State.openSession_canonical {t : State} (ht : MemoriesCanonical t) (d : Reg) (sid : Fin 16) (va : Word) (k : SxDescriptor) :
    MemoriesCanonical (s.openSession t d sid va k) := by
  unfold State.openSession
  grind [onHart_canonical, trapWord_canonical, withGot_canonical, readKeys_canonical, sxTrap_canonical, joinSession_canonical]

theorem execSxopen_canonical (d a : Reg) (sid : Fin 16) : ResultCanonical (execSxopen d a sid s) := by
  refine State.strandOnly_canonical h ?_
  grind [State.trap_canonical, State.withGot_canonical, State.readBlock_canonical, State.onHart_canonical, State.joinSession_canonical,
    State.openSession_canonical]

theorem State.stageSplit_canonical (d : Reg) (x : Session) (q : SxParticipant) (r : SplitRequest) : MemoriesCanonical (s.stageSplit d x q r) := h

theorem execSxsplit_canonical (d a : Reg) (sid : Fin 16) : ResultCanonical (execSxsplit d a sid s) :=
  State.onSession_canonical h sid fun x q => by grind [State.stageSplit_canonical, State.trap_canonical]

theorem execSxclose_canonical (d : Reg) (sid : Fin 16) : ResultCanonical (execSxclose d sid s) :=
  State.onSession_canonical h sid fun x _ => State.onHart_canonical (State.leaveSession_canonical h x _) _

theorem execSxcloseAbort_canonical (d : Reg) (sid : Fin 16) : ResultCanonical (execSxcloseAbort d sid s) :=
  State.onSession_canonical h sid fun x _ => by
    have ended := State.endSession_canonical h x true
    refine State.onHart_canonical ?_ _
    split
    · exact foldl_canonical (fun _ _ ht => State.post_canonical ht ..) _ ended
    · exact ended

theorem State.waitRound_canonical (x : Session) (k : WaitKind) (e : Nat) : MemoriesCanonical (s.waitRound x k e) := by
  grind [State.waitRound, trap_canonical, onHart_canonical, waitFor_canonical]

theorem State.withdrawRound_canonical (i : StrandId) (pc : Word) : MemoriesCanonical (s.withdrawRound i pc) := h

theorem execSxround_canonical (d : Reg) (sid : Fin 16) : ResultCanonical (execSxround d sid s) :=
  State.onSession_canonical h sid fun x q => by
    grind [State.onHart_canonical, State.setSession_canonical, State.waitRound_canonical, State.withdrawRound_canonical]

theorem State.sxSend_canonical (k p : Reg) (sid : Fin 16) (m : Reg) (b : Bool) : ResultCanonical (s.sxSend k p sid m b) :=
  onSession_canonical h sid fun x q => by
    grind [trapWord_canonical, sxTrap_canonical, onHart_canonical, setSession_canonical]

theorem execSxrecv_canonical (k p : Reg) (sid : Fin 16) (f : Reg) : ResultCanonical (execSxrecv k p sid f s) :=
  State.onSession_canonical h sid fun x q => by
    grind [State.trapWord_canonical, State.onHart_canonical, State.setSession_canonical, State.waitRound_canonical]

omit h in
/-- What keeps the form once keeps it along a list. -/
theorem State.mapFree_canonical {α β : Type} {f : State → α → β × State} (hf : ∀ s a, MemoriesCanonical s → MemoriesCanonical (f s a).2) :
    ∀ (l : List α) {s : State}, MemoriesCanonical s → MemoriesCanonical (s.mapFree f l).2
  | [], _, h => h
  | a :: l, _, h => mapFree_canonical hf l (hf _ a h)

theorem State.combineElem_canonical (d : SxDescriptor) (l : List Nat) : MemoriesCanonical (s.combineElem d l).2 := by
  unfold State.combineElem
  grind [sumFree_canonical]

theorem State.combineKey_canonical (d : SxDescriptor) (g : List SxRecord) : MemoriesCanonical (s.combineKey d g).2 := by
  have := mapFree_canonical (f := fun (s : State) i => s.combineElem d (g.map fun r => r.expand d i))
    (fun _ _ ht => combineElem_canonical ht ..) (List.range d.elements) h
  grind [State.combineKey]

theorem State.streamFor_canonical (x : Session) (j : Nat) : MemoriesCanonical (s.streamFor x j).2 :=
  mapFree_canonical (fun _ _ ht => combineKey_canonical ht ..) _ h

omit h in
theorem State.tableKeys_canonical (key : Nat) (c : Ctx) (w : Nat) : ∀ (n : Nat) (va : Word) {s : State}, MemoriesCanonical s →
    (s.tableKeys key c w n va).Canonical
  | 0, _, _, h => h
  | n + 1, va, s, h => by
    have ih := @tableKeys_canonical key c w n (va + BitVec.ofNat 64 w)
    grind [State.tableKeys, Acc.Canonical, unitRead_canonical]

theorem State.nextSplitters_canonical (x : Session) (l : List SplitRequest) (b : Bool) (c : Ctx) : (s.nextSplitters x l b c).Canonical := by
  have draws := @mapFree_canonical Nat Nat (fun (s : State) (_ : Nat) => s.draw) fun _ _ ht => draw_canonical ht
  unfold State.nextSplitters
  grind [Acc.Canonical, tableKeys_canonical, unitDone_canonical]

theorem State.othersDiffer_canonical (x : Session) : MemoriesCanonical (s.othersDiffer x).2 := by
  unfold State.othersDiffer
  split <;> exact h

theorem State.enqueueAll_canonical (x : Session) (n : Nat) : MemoriesCanonical (s.enqueueAll x n).2 :=
  mapFree_canonical (fun _ r ht => streamFor_canonical ht x r.index) _ h

theorem State.samplesDropped_canonical (x : Session) : MemoriesCanonical (s.samplesDropped x).2 := by
  unfold State.samplesDropped
  split
  · exact h
  · split <;> exact h

theorem State.sendRecord_canonical (x : Session) (y : SxRecord × Nat) : MemoriesCanonical (s.sendRecord x y) := post_canonical h ..

theorem State.sendRecords_canonical (x : Session) (l : List (SxRecord × Nat)) : MemoriesCanonical (l.foldl (fun s y => s.sendRecord x y) s) :=
  foldl_canonical (fun _ y ht => sendRecord_canonical ht x y) l h

theorem State.completeRound_canonical (x : Session) (l : List SxParticipant) (k : List Nat) (b : Bool) : MemoriesCanonical (s.completeRound x l k b) := by
  have h2 := enqueueAll_canonical h x (x.completed + 1)
  unfold State.completeRound
  split
  next rx s2 e2 =>
    rw [e2] at h2
    have h3 := samplesDropped_canonical h2 x
    split
    next d s3 e3 =>
      rw [e3] at h3
      refine settleSession_canonical (sendRecords_canonical ?_ x _) _
      exact h3

theorem execSxRoundComplete_canonical (p : Fin 8) (sid : Fin 16) : ResultCanonical (execSxRoundComplete p sid s) := by
  have off : ∀ f, MemoriesCanonical { s with fabric := f } := fun _ => h
  unfold execSxRoundComplete ResultCanonical
  grind [Acc.Canonical, State.othersDiffer_canonical, State.nextSplitters_canonical, State.completeRound_canonical]

theorem execSxRecordDelivery_canonical (p : Fin 8) (sid : Fin 16) (j : Nat) : ResultCanonical (execSxRecordDelivery p sid j s) := by
  unfold execSxRecordDelivery ResultCanonical
  grind [State.freeReceiver_canonical, State.setSession_canonical]

/-! ### Items, streams (R282, R301, R350) -/

theorem execJob_canonical (d a : Reg) : ResultCanonical (execJob d a s) := by
  refine State.strandOnly_canonical h ?_
  have more : ∀ (t : State) l n, MemoriesCanonical t → MemoriesCanonical { t with jobs := l, items := n } := fun _ _ _ ht => ht
  grind [State.trap_canonical, State.withGot_canonical, State.readBlock_canonical, State.onHart_canonical, State.stall_canonical]

theorem execLaunch_canonical (d a : Reg) : ResultCanonical (execLaunch d a s) := by
  refine State.strandOnly_canonical h ?_
  have more : ∀ (t : State) l n q, MemoriesCanonical t → MemoriesCanonical { t with launches := l, items := n, queues := q } :=
    fun _ _ _ _ ht => ht
  grind [State.trap_canonical, State.withGot_canonical, State.readBlock_canonical, State.onHart_canonical, State.stall_canonical]

/-! ### Launch lists of the queues (R355-R361) -/

theorem State.setOwed_canonical (q : Fin 64) (b : Bool) : MemoriesCanonical (s.setOwed q b) := h

theorem State.writeStatus_canonical (q : Fin 64) : MemoriesCanonical (s.writeStatus q) := by
  unfold State.writeStatus
  grind [Acc.Canonical, setOwed_canonical, unitTarget_canonical, unitWrites_canonical]

theorem State.queueWords_canonical (q : Fin 64) (n : Nat) (va : Word) : (s.queueWords q n va).Canonical := unitWords_canonical _ _ _ n va h

theorem State.onQueue_canonical (q : Fin 64) (f : Queue → Queue) : MemoriesCanonical (s.onQueue q f) := writeStatus_canonical (by exact h) q

theorem State.setList_canonical (q : Fin 64) (l : LaunchList) : MemoriesCanonical (s.setList q l) := h

theorem State.stopList_canonical (q : Fin 64) (l : LaunchList) (k c : Nat) (a : Word) : MemoriesCanonical (s.stopList q l k c a) :=
  onQueue_canonical (setList_canonical h ..) ..

theorem State.queueKernel_canonical (q : Fin 64) (l : LaunchList) (n : ListNode) : (s.queueKernel q l n).Canonical := by
  have more : ∀ (t : State) l n, MemoriesCanonical t → MemoriesCanonical { t with launches := l, items := n } := fun _ _ _ ht => ht
  unfold State.queueKernel
  grind [Acc.Canonical, queueWords_canonical, onQueue_canonical]

theorem State.queueJob_canonical (q : Fin 64) (l : LaunchList) (n : ListNode) : (s.queueJob q l n).Canonical := by
  have more : ∀ (t : State) l n, MemoriesCanonical t → MemoriesCanonical { t with jobs := l, items := n } := fun _ _ _ ht => ht
  unfold State.queueJob
  grind [Acc.Canonical, queueWords_canonical, onQueue_canonical]

theorem State.runNode_canonical (q : Fin 64) (l : LaunchList) (n : ListNode) : MemoriesCanonical (s.runNode q l n).2 := by
  have off : ∀ f, MemoriesCanonical { s with fabric := f } := fun _ => h
  unfold State.runNode
  grind [Acc.Canonical, queueKernel_canonical, queueJob_canonical, unitRead_canonical, unitDone_canonical, setList_canonical, onQueue_canonical]

theorem State.resolveNode_canonical (q : Fin 64) (l : LaunchList) (n : ListNode) : MemoriesCanonical (s.resolveNode q l n).2 := by
  grind [State.resolveNode, setList_canonical, runNode_canonical]

theorem State.receiveEdge_canonical (q : Fin 64) (l : LaunchList) (e : Edge) {k : List Edge} {t : State} (ht : s.receiveEdge q l e = .ok (k, t)) :
    MemoriesCanonical t := by
  unfold State.receiveEdge at ht
  grind [Acc.Canonical, queueWords_canonical, stopList_canonical, resolveNode_canonical, setList_canonical, unitDone_canonical]

theorem State.settleList_canonical (q : Fin 64) (i : Nat) : MemoriesCanonical (s.settleList q i) := by
  grind [State.settleList, setList_canonical, onQueue_canonical]

omit h in
theorem State.sendEdges_canonical (q : Fin 64) (i : Nat) : ∀ (n : Nat) (l : List Edge) {s : State}, MemoriesCanonical s →
    MemoriesCanonical (s.sendEdges q i n l)
  | 0, _, _, h => h
  | n + 1, [], _, h => settleList_canonical h q i
  | n + 1, e :: es, s, h => by
    have ih := @sendEdges_canonical q i n
    have off : ∀ f, MemoriesCanonical { s with fabric := f } := fun _ => h
    unfold State.sendEdges
    grind [receiveEdge_canonical, setList_canonical]

theorem State.completeNode_canonical (q : Fin 64) (i : Nat) (a : Word) (b : Bool) : MemoriesCanonical (s.completeNode q i a b) := by
  unfold State.completeNode
  grind [setList_canonical, sendEdges_canonical]

theorem State.startList_canonical (q : Fin 64) (seq a : Word) {t : State} (ht : s.startList q seq a = .ok t) : MemoriesCanonical t := by
  have more : ∀ n v, MemoriesCanonical { s with items := n, queues := v } := fun _ _ => h
  unfold State.startList at ht
  grind [Acc.Canonical, queueWords_canonical, setList_canonical, onQueue_canonical, resolveNode_canonical, sendEdges_canonical]

theorem State.retryNodes_canonical (q : Fin 64) : MemoriesCanonical (s.retryNodes q) := by
  unfold State.retryNodes
  refine foldl_canonical (fun t l ht => foldl_canonical (fun u n hu => ?_) _ ?_) _ ?_
  · grind [runNode_canonical, sendEdges_canonical]
  · grind [setList_canonical, sendEdges_canonical]
  · grind [writeStatus_canonical]

end

/-- A step at a ring answers with states in canonical form. -/
def RingStep.Canonical {α : Type} : RingStep α → Prop
  | .done _ s | .fault _ _ s | .later s => MemoriesCanonical s

section
variable {s : State} (h : MemoriesCanonical s)
include h

/-! ### Jobs (R301-R315): what a run reads goes into no state but the fabric and the draws -/

theorem State.setJob_canonical (j : Job) : MemoriesCanonical (s.setJob j) := h

omit h in
theorem Job.waits_canonical {α : Type} (j : Job) (k : WaitKind) (key : Nat) : (j.waits k key : Acc α).Canonical := by
  unfold Job.waits
  grind [Acc.Canonical]

theorem State.jobRemote_canonical (j : Job) (va : Word) (q off key : Nat) (op : SpanOp) : (s.jobRemote j va q off key op).Canonical := by
  unfold State.jobRemote
  grind [Acc.Canonical, sendRequest_canonical]

theorem State.createDelivery_canonical (j : Job) (d : Delivery) : (s.createDelivery j d).Canonical := by
  have wait := fun k key => Job.waits_canonical (α := Unit) j k key
  unfold State.createDelivery
  grind [Acc.Canonical, jobRemote_canonical, createVersion_canonical]

theorem State.deliverOne_canonical (j : Job) (d : Delivery) : (s.deliverOne j d).Canonical := by
  unfold State.deliverOne
  grind [Acc.Canonical, createDelivery_canonical, jobRemote_canonical, judgeWrite_canonical, performWrite_canonical]

theorem State.holdJob_canonical (j : Job) (k : WaitKind) (key : Nat) (va : Word) (v : Nat) : MemoriesCanonical (s.holdJob j k key va v) := h

omit h in
theorem State.deliver_canonical (r : JobResult) : ∀ (n : Nat) (j : Job) {s : State}, MemoriesCanonical s → MemoriesCanonical (s.deliver j r n)
  | 0, _, _, h => h
  | n + 1, j, s, h => by
    have ih := @deliver_canonical r n
    unfold State.deliver
    grind [Acc.Canonical, deliverOne_canonical, cure_canonical, setJob_canonical, holdJob_canonical]

theorem State.resume_canonical (j : Job) (r : JobResult) : MemoriesCanonical (s.resume j r) := deliver_canonical r _ j h

theorem State.endRun_canonical (j : Job) (r : Run) (b : Bool) (n : Nat) : MemoriesCanonical (s.endRun j r b n) := by
  unfold State.endRun
  grind [memoriesCanonical_iff, holdJob_canonical, setJob_canonical, resume_canonical]

theorem State.copyVersions_canonical (j : Job) : MemoriesCanonical (s.copyVersions j) := by
  unfold State.copyVersions
  grind [memoriesCanonical_iff, holdJob_canonical, setJob_canonical, resume_canonical]

theorem State.engine_canonical (n : Nat) (p : Nat → Bool) {k : Job → State} (hk : ∀ j, MemoriesCanonical (k j)) :
    ResultCanonical (s.engine n p k) := by
  unfold State.engine ResultCanonical
  grind [setJob_canonical, resume_canonical]

theorem execCopy_canonical (n : Nat) : ResultCanonical (execCopy n s) := State.engine_canonical h n _ fun j => by
  grind [State.copyVersions_canonical, State.endRun_canonical]

theorem execTile_canonical (n : Nat) : ResultCanonical (execTile n s) := State.engine_canonical h n _ fun _ => State.endRun_canonical h ..

theorem execGather_canonical (n : Nat) : ResultCanonical (execGather n s) := State.engine_canonical h n _ fun _ => State.endRun_canonical h ..

theorem execScatter_canonical (n : Nat) : ResultCanonical (execScatter n s) := State.engine_canonical h n _ fun _ => State.endRun_canonical h ..

theorem execPagegather_canonical (n : Nat) : ResultCanonical (execPagegather n s) :=
  State.engine_canonical h n _ fun _ => State.endRun_canonical h ..

theorem execFill_canonical (n : Nat) : ResultCanonical (execFill n s) := State.engine_canonical h n _ fun _ => State.endRun_canonical h ..

theorem execDigest_canonical (n : Nat) : ResultCanonical (execDigest n s) := by
  unfold execDigest
  exact State.engine_canonical h n _ fun _ => State.endRun_canonical h ..

theorem State.ringStep_canonical {α : Type} (j : Job) (key : Nat) (va : Word) {a : Acc α} (ha : a.Canonical) :
    (s.ringStep j key va a).Canonical := by
  unfold State.ringStep
  grind [Acc.Canonical, RingStep.Canonical, holdJob_canonical]

theorem State.takeSlot_canonical (j : Job) : (s.takeSlot j).Canonical := by
  have wait := fun k key => Job.waits_canonical (α := Nat) j k key
  unfold State.takeSlot
  grind [Acc.Canonical, jobRemote_canonical, modify_canonical]

theorem State.writeRecord_canonical (j : Job) (r : JobResult) (t : Nat) : (s.writeRecord j r t).Canonical := by
  have wait := fun k key => Job.waits_canonical (α := Unit) j k key
  unfold State.writeRecord
  grind [Acc.Canonical, jobRemote_canonical, judgeWrite_canonical, performWrites_canonical]

theorem State.ringWrite_canonical (j : Job) (r : JobResult) : (s.ringWrite j r).Canonical := by
  unfold State.ringWrite
  grind [RingStep.Canonical, ringStep_canonical, takeSlot_canonical, writeRecord_canonical, setJob_canonical]

theorem State.releaseJob_canonical (j : Job) (n : Nat) (f : Option (Cause × Word)) : MemoriesCanonical (s.releaseJob j n f) := by
  unfold State.releaseJob
  split <;> exact h

theorem State.jobNode_canonical (j : Job) : MemoriesCanonical (s.jobNode j) := by
  grind [State.jobNode, completeNode_canonical]

theorem execJobCompletion_canonical (n : Nat) : ResultCanonical (execJobCompletion n s) := by
  unfold execJobCompletion ResultCanonical
  grind [RingStep.Canonical, State.ringWrite_canonical, State.blame_canonical, State.jobNode_canonical, State.releaseJob_canonical,
    State.setJob_canonical]

theorem resultState_canonical {r : Result} (hr : ResultCanonical r) : MemoriesCanonical (resultState r s) := by
  unfold resultState
  grind [ResultCanonical]

theorem engineStep_canonical (n : Nat) : MemoriesCanonical (engineStep n s) := by
  unfold engineStep
  split
  · exact h
  · split
    · exact resultState_canonical h (execJobCompletion_canonical h n)
    · simp only [List.foldl_cons, List.foldl_nil]
      have run : ∀ {f : State → Result}, (∀ {t}, MemoriesCanonical t → ResultCanonical (f t)) →
          ∀ {t : State}, MemoriesCanonical t → MemoriesCanonical (resultState (f t) t) := fun hf _ ht => resultState_canonical ht (hf ht)
      exact run (execDigest_canonical · n) (run (execFill_canonical · n) (run (execPagegather_canonical · n) (run (execScatter_canonical · n)
        (run (execGather_canonical · n) (run (execTile_canonical · n) (run (execCopy_canonical · n) h))))))

theorem State.expireJob_canonical (n : Nat) (k : WaitKind → Bool) (c : Cause) : MemoriesCanonical (s.expireJob n k c) := by
  grind [State.expireJob, engineStep_canonical, setJob_canonical]

/-! ### Stores, background loads, forked programs, waits (R98, R268, R434-R436) -/

theorem State.onProgram_canonical (i : StrandId) (f : Hart → Hart) : MemoriesCanonical (s.onProgram i f) := h

theorem execStorePerformed_canonical (i : StrandId) : ResultCanonical (execStorePerformed i s) := by
  grind [execStorePerformed, ResultCanonical, State.onProgram_canonical, State.onStrand_canonical]

omit h in
theorem State.vldbElems_canonical (c : Ctx) (v : PendingVldb) : ∀ (l : List (Nat × VldbElem)) {s : State}, MemoriesCanonical s →
    MemoriesCanonical (s.vldbElems c v l).2
  | [], _, h => h
  | x :: l, s, h => by
    have ih := @vldbElems_canonical c v l
    unfold State.vldbElems
    grind [draw_canonical]

theorem execVldbDataWrite_canonical (i : StrandId) : ResultCanonical (execVldbDataWrite i s) := by
  unfold execVldbDataWrite ResultCanonical
  grind [State.vldbElems_canonical, State.onStrand_canonical]

theorem execBarrierRegistration_canonical (i : StrandId) (id : Fin 36) : ResultCanonical (execBarrierRegistration i id s) := by
  grind [execBarrierRegistration, ResultCanonical, State.registerArrival_canonical]

theorem execForkedProgramStart_canonical (c : Fin 64) : ResultCanonical (execForkedProgramStart c s) := by
  unfold execForkedProgramStart ResultCanonical
  grind [memoriesCanonical_iff]

theorem State.focus_canonical (i : StrandId) : MemoriesCanonical (s.focus i) := by
  grind [State.focus, memoriesCanonical_iff]

theorem State.trapWait_canonical (w : Wait) (c : Cause) (v : Word) : MemoriesCanonical (s.trapWait w c v) := by
  grind [State.trapWait, onHart_canonical, withdrawRound_canonical, trap_canonical]

theorem State.takeExpiry_canonical (w : Wait) (c : Cause) : MemoriesCanonical (s.takeExpiry w c) := trapWait_canonical h ..

theorem State.expireStrand_canonical (i : StrandId) (k : WaitKind → Bool) : MemoriesCanonical (s.expireStrand i k) := by
  grind [State.expireStrand, State.expireWait, takeExpiry_canonical, focus_canonical, onStrand_canonical]

theorem State.expireProgram_canonical (i : StrandId) : MemoriesCanonical (s.expireProgram i) := by
  unfold State.expireProgram
  grind [endForkedByFault_canonical]

theorem execWatchdogTimeout_canonical (w : Waiter) : ResultCanonical (execWatchdogTimeout w s) := by
  unfold execWatchdogTimeout ResultCanonical
  grind [State.expireStrand_canonical, State.expireJob_canonical]

theorem execTransitWalkRetry_canonical (i : StrandId) : ResultCanonical (execTransitWalkRetry i s) := h

theorem execTransitTimeout_canonical (w : Waiter) : ResultCanonical (execTransitTimeout w s) := by
  unfold execTransitTimeout ResultCanonical
  grind [State.expireStrand_canonical, State.expireJob_canonical, State.expireProgram_canonical]

/-! ### Fences and barriers (R92-R94) -/

theorem execFence_canonical (m : BitVec 16) (k : Scope) : ResultCanonical (execFence m k s) := by
  grind [execFence, ResultCanonical, State.stall_canonical, State.onHart_canonical]

theorem execBarArrive_canonical (d b : Reg) (id : Fin 36) (k : Scope) : ResultCanonical (execBarArrive d b id k s) := by
  refine State.strandOnly_canonical h ?_
  grind [State.waitFor_canonical, State.onHart_canonical, State.setBarrier_canonical]

theorem execBarWait_canonical (d a : Reg) (id : Fin 36) : ResultCanonical (execBarWait d a id s) := by
  refine State.strandOnly_canonical h ?_
  grind [State.waitFor_canonical, State.onHart_canonical, State.trap_canonical]

theorem execBarInit_canonical (a : Reg) (id : Fin 36) : ResultCanonical (execBarInit a id s) := State.supervisorOnly_canonical h h

theorem execUiret_canonical : ResultCanonical (execUiret s) := by
  refine State.strandOnly_canonical h ?_
  grind [State.onHart_canonical, State.trapWord_canonical]

theorem execWaitc_canonical (l t c k : Fin 16) : ResultCanonical (execWaitc l t c k s) := by
  unfold execWaitc ResultCanonical
  grind [State.onHart_canonical, State.waitFor_canonical]

/-! ### Fetches and visits (R41, R47, R362) -/

theorem State.fetchWait_canonical : MemoriesCanonical s.fetchWait := h

theorem execAniseFetch_canonical (g : GangId) : ResultCanonical (execAniseFetch g s) := h

theorem execPrivateFetch_canonical (i : StrandId) : ResultCanonical (execPrivateFetch i s) := h

theorem execDriftEviction_canonical (i : StrandId) : ResultCanonical (execDriftEviction i s) := by
  unfold execDriftEviction ResultCanonical
  grind [State.onStrand_canonical]

end

/-! ### Banks that come back damaged, gangs that start (R72, R352, R366) -/

/-- Where each of the cells made for a range is its address with a byte, the cells whose byte is listed are in canonical form. -/
theorem Memory.wf_filterMap_range (n : Nat) {f : Nat → Option Host.Cell} (hf : ∀ i c, f i = some c → c.1 = i ∧ c.2 ≠ Memory.unlisted) :
    Memory.wf ((List.range n).filterMap f) := by
  refine ⟨List.pairwise_filterMap.2 (List.pairwise_lt_range.imp fun hlt c hc d hd => ?_), fun c hc => ?_⟩
  · rw [(hf _ _ hc).1, (hf _ _ hd).1]
    exact hlt
  · obtain ⟨i, -, hi⟩ := List.mem_filterMap.1 hc
    exact (hf i c hi).2

theorem Bank.damaged_wf {b : Bank} (hb : Memory.wf b.bytes) (f : Nat → Nat) : Memory.wf (b.damaged f).bytes := by
  unfold Bank.damaged
  split
  · exact hb
  · dsimp only
    refine Memory.wf_filterMap_range _ fun i c hc => ?_
    grind

theorem Launch.gangs_canonical (l : Launch) (ws : List Nat) (n : Nat) : BanksCanonical (l.gangs ws n) := fun g hg b hb => by
  obtain ⟨st, -, hg⟩ := List.mem_flatMap.1 hg
  obtain ⟨k, -, rfl⟩ := List.mem_map.1 hg
  obtain ⟨w, -, rfl⟩ := List.mem_map.1 hb
  exact Memory.wf_nil

section
variable {s : State} (h : MemoriesCanonical s)
include h

/-! ### Visits, reports, notifications (R315, R362, R411) -/

theorem execIssueVisit_canonical (i : StrandId) : ResultCanonical (execIssueVisit i s) := by
  unfold execIssueVisit ResultCanonical
  have seat : ∀ n, MemoriesCanonical { s with seat := n } := fun _ => h
  grind [State.focus_canonical, State.onHart_canonical, State.onStrand_canonical]

theorem State.orphan_canonical : MemoriesCanonical s.orphan := h

theorem State.shelve_canonical : MemoriesCanonical s.shelve := h

theorem State.unshelve_canonical (b : Bool) : MemoriesCanonical (s.unshelve b) := h

theorem State.takeReport_canonical : MemoriesCanonical s.takeReport := by
  grind [State.takeReport, enterTrap_canonical, onHart_canonical, orphan_canonical]

theorem execAsyncReportTaken_canonical (i : StrandId) : ResultCanonical (execAsyncReportTaken i s) := by
  grind [execAsyncReportTaken, ResultCanonical, State.takeReport_canonical, State.focus_canonical]

theorem State.takeNotification_canonical : MemoriesCanonical s.takeNotification := by
  grind [State.takeNotification, onHart_canonical, shelve_canonical, orphan_canonical]

theorem execUserInterruptTaken_canonical (i : StrandId) : ResultCanonical (execUserInterruptTaken i s) := by
  grind [execUserInterruptTaken, ResultCanonical, State.takeNotification_canonical, State.focus_canonical]

/-! ### Saving and placing (R29-R32, R363-R366) -/

theorem execParking_canonical (i : StrandId) : ResultCanonical (execParking i s) := by
  grind [execParking, ResultCanonical, State.onStrand_canonical]

theorem State.noteRunnable_canonical : MemoriesCanonical s.noteRunnable := by
  unfold State.noteRunnable
  dsimp only
  split
  · exact ⟨h.1, BanksCanonical.map_same h.2 fun g => by split <;> rfl⟩
  · exact h

theorem State.swapOut_canonical (g : Gang) : MemoriesCanonical (s.swapOut g) := by
  unfold State.swapOut
  grind [noteRunnable_canonical, onGang_canonical_of_same, writeBackBad_canonical, onMembers_canonical]

theorem execSwapOnWait_canonical (g : GangId) : ResultCanonical (execSwapOnWait g s) := by
  unfold execSwapOnWait ResultCanonical
  grind [State.swapOut_canonical]

theorem State.preempt_canonical (g : Gang) : MemoriesCanonical (s.preempt g) := by
  unfold State.preempt
  grind [State.draw, memoriesCanonical_iff, swapOut_canonical, onMembers_canonical]

theorem execPreEmption_canonical (g : GangId) : ResultCanonical (execPreEmption g s) := by
  unfold execPreEmption ResultCanonical
  grind [State.preempt_canonical]

theorem execTimeSharingExpiry_canonical (g : GangId) : ResultCanonical (execTimeSharingExpiry g s) := by
  unfold execTimeSharingExpiry ResultCanonical
  grind [State.swapOut_canonical]

theorem execStrandRestore_canonical (i : StrandId) : ResultCanonical (execStrandRestore i s) := by
  unfold execStrandRestore
  split
  · exact h
  · dsimp only
    split
    · split <;> exact h
    · exact h

theorem State.returnGang_canonical (x : Gang) : MemoriesCanonical (s.returnGang x) := by
  unfold State.returnGang
  split
  · exact h
  · refine onGang_canonical h x.id fun y hy b hb => ?_
    obtain ⟨p, hp, rfl⟩ := List.mem_map.1 hb
    exact Bank.damaged_wf (hy _ (List.of_mem_zip hp).2) _

theorem execGangResident_canonical (g : GangId) (c : Fin 64) (k : Fin 4) : ResultCanonical (execGangResident g c k s) := by
  have slot := State.onGang_canonical_of_same h g (f := fun x => { x with slot := some (c, k), home := none, runnable := none, started := true }) fun _ => rfl
  unfold execGangResident
  split
  · split
    · dsimp only
      split
      · exact State.returnGang_canonical slot _
      · exact slot
    · exact h
  · exact h

/-! ### CSRs, shape variables, privileged instructions (R160-R164, R208-R215) -/

theorem State.csrRead_canonical (c : Csr) : MemoriesCanonical (s.csrRead c).2 := by
  unfold State.csrRead
  split
  · exact h
  · split
    · exact h
    · split <;> exact h
    · exact h

theorem State.debugWrite_canonical (c : Csr) (v : Word) : MemoriesCanonical (s.debugWrite c v) := h

theorem State.csrAccess_canonical (d : Reg) (c : Csr) (f : Option (Word → Word)) : MemoriesCanonical (s.csrAccess d c f) := by
  have := csrRead_canonical h c
  unfold State.csrAccess
  grind [trapWord_canonical, debugWrite_canonical, onHart_canonical]

theorem execSvset_canonical (a : Reg) (k : Fin 32) : ResultCanonical (execSvset a k s) := by
  refine State.strandOnly_canonical h ?_
  split <;> exact h

theorem execSvget_canonical (d : Reg) (k : Fin 32) : ResultCanonical (execSvget d k s) := by
  refine State.strandOnly_canonical h ?_
  split <;> exact h

theorem execSyscall_canonical : ResultCanonical (execSyscall s) := State.strandOnly_canonical h (State.trapTo_canonical h ..)

theorem execBrk_canonical : ResultCanonical (execBrk s) := State.trapTo_canonical (State.onHart_canonical h _) ..

/-! ### Rings and launches (R349-R361) -/

theorem State.faultEntry_canonical (q : Fin 64) (n : Word) (k c : Nat) (a : Word) : MemoriesCanonical (s.faultEntry q n k c a) :=
  onQueue_canonical h ..

theorem State.takeRecord_canonical (q : Fin 64) (n a : Word) {t : State} (ht : s.takeRecord q n a = .ok t) : MemoriesCanonical t := by
  have more : ∀ (t : State) l n, MemoriesCanonical t → MemoriesCanonical { t with launches := l, items := n } := fun _ _ _ ht => ht
  unfold State.takeRecord at ht
  grind [Acc.Canonical, queueWords_canonical, faultEntry_canonical]

theorem execRingEntryTake_canonical (q : Fin 64) : ResultCanonical (execRingEntryTake q s) := by
  have next : MemoriesCanonical (s.advanceRing q) := h
  have off : ∀ f, MemoriesCanonical { s with fabric := f } := fun _ => h
  unfold execRingEntryTake ResultCanonical
  grind [State.retryNodes_canonical, State.takeRecord_canonical, State.startList_canonical, State.faultEntry_canonical, State.unitDone_canonical]

theorem State.faultLaunch_canonical (l : Launch) (k c : Nat) (e : Option (Nat × Nat)) : MemoriesCanonical (s.faultLaunch l k c e) := by
  have put : ∀ l, MemoriesCanonical { s with launches := l } := fun _ => h
  unfold State.faultLaunch
  grind [onQueue_canonical, completeNode_canonical]

theorem State.startLaunch_canonical (l : Launch) : MemoriesCanonical (s.startLaunch l) := by
  have off : ∀ f, MemoriesCanonical { s with fabric := f } := fun _ => ⟨h.1, h.2⟩
  have placed : ∀ (t : State) (x : Launch) ls ws n, MemoriesCanonical t → MemoriesCanonical { t with launches := ls, gangs := t.gangs ++ x.gangs ws n } :=
    fun t x ls ws n ht => ⟨ht.1, fun g hg => (List.mem_append.1 hg).elim (ht.2 g) (x.gangs_canonical ws n g)⟩
  have words := queueWords_canonical h l.queue (32 + l.nbanks + 5 * l.nexpr) l.tables
  unfold State.startLaunch
  -- A function that the kernel can compute with would be run wherever two forms of the branches are compared.
  obtain ⟨area, named⟩ : ∃ f, f = State.saveArea := ⟨_, rfl⟩
  rw [← named]
  clear named
  grind [Acc.Canonical, unitDone_canonical, onQueue_canonical, faultLaunch_canonical, takeArrivals_canonical]

theorem execItemStart_canonical (n : Nat) : ResultCanonical (execItemStart n s) := by
  unfold execItemStart ResultCanonical
  grind [State.startLaunch_canonical]

theorem State.retryAll_canonical (l : List (Fin 64)) : MemoriesCanonical (l.foldl (fun s q => s.retryNodes q) s) :=
  foldl_canonical (fun _ q ht => retryNodes_canonical ht q) l h

theorem execQueueCreditTick_canonical : ResultCanonical (execQueueCreditTick s) := by
  have ticked : ∀ v, MemoriesCanonical { s with queues := v } := fun _ => ⟨h.1, h.2⟩
  unfold execQueueCreditTick
  dsimp only [ResultCanonical]
  exact State.retryAll_canonical (ticked _) _

theorem execLaunchComplete_canonical (n : Nat) : ResultCanonical (execLaunchComplete n s) := by
  have put : ∀ l, MemoriesCanonical { s with launches := l } := fun _ => h
  unfold execLaunchComplete ResultCanonical
  grind [State.onQueue_canonical, State.completeNode_canonical]

theorem State.latestAt_canonical (key : Nat) (c : Ctx) (va : Word) : (s.latestAt key c va).Canonical := by
  unfold State.latestAt
  grind [Acc.Canonical, unitAsk_canonical]

omit h in
theorem State.rangeReached_canonical (key : Nat) (c : Ctx) (v : Nat) : ∀ (n : Nat) (va : Word) {s : State}, MemoriesCanonical s →
    (s.rangeReached key c v n va).Canonical
  | 0, _, _, h => h
  | n + 1, va, s, h => by
    have ih := @rangeReached_canonical key c v n (va + 128)
    unfold State.rangeReached
    grind [Acc.Canonical, latestAt_canonical]

theorem execVersionWaitNodeComplete_canonical (n : Nat) (a : Word) : ResultCanonical (execVersionWaitNodeComplete n a s) := by
  have off : ∀ f, MemoriesCanonical { s with fabric := f } := fun _ => h
  unfold execVersionWaitNodeComplete
  split
  · exact h
  next q _ =>
    split
    · exact h
    next l _ =>
      have range := fun (n : ListNode) => State.rangeReached_canonical (unitOf q) (s.queueCtx q) n.version n.granules (n.obj &&& ~~~127) h
      grind [ResultCanonical, Acc.Canonical, State.unitDone_canonical, State.completeNode_canonical, State.onQueue_canonical]

end

/-- What a unit of the fabric serves answers with a state in canonical form. -/
def Served.Canonical : Served → Prop
  | .reply _ s | .silent s => MemoriesCanonical s
  | .wait _ | .stall => True

section
variable {s : State} (h : MemoriesCanonical s)
include h

/-! ### Golium's log and limits, bring-up, heat, reset (R388-R396, R459) -/

theorem State.measure_canonical (n : Nat) : MemoriesCanonical (s.measure n) := h

theorem State.advise_canonical : MemoriesCanonical s.advise := by
  unfold State.advise
  split <;> exact h

theorem State.checkLimits_canonical : MemoriesCanonical s.checkLimits := by
  have off : ∀ f, MemoriesCanonical { s with fabric := f } := fun _ => h
  unfold State.checkLimits
  grind [advise_canonical, draw_canonical]

theorem State.sampleErrors_canonical : MemoriesCanonical s.sampleErrors := checkLimits_canonical (s := { s.draw.2 with golium := _ }) h

theorem State.showStage_canonical (n : Nat) : MemoriesCanonical (s.showStage n) := h

theorem State.reachStage_canonical (n : Nat) : MemoriesCanonical (s.reachStage n) := by
  have put : ∀ (t : State) g f, MemoriesCanonical t → MemoriesCanonical { t with golium := g, fabric := f } := fun _ _ _ ht => ht
  unfold State.reachStage
  grind [measure_canonical, checkLimits_canonical, advise_canonical, showStage_canonical]

theorem execBringUpStage_canonical (b : Bool) : ResultCanonical (execBringUpStage b s) := by
  unfold execBringUpStage ResultCanonical
  grind [State.reachStage_canonical, State.showStage_canonical]

theorem execFuseMinimumRaise_canonical (i : Image) : ResultCanonical (execFuseMinimumRaise i s) := by
  unfold execFuseMinimumRaise
  dsimp only
  split <;> exact h

theorem State.moduleReset_canonical : MemoriesCanonical s.moduleReset := ⟨Memory.wf_filter h.1 _, fun _ hg => by cases hg⟩

theorem State.powerOff_canonical : MemoriesCanonical s.powerOff := moduleReset_canonical h

theorem State.setHold_canonical (b : Bool) : MemoriesCanonical (s.setHold b) := by
  unfold State.setHold
  split <;> exact h

theorem execClusterDrain_canonical (c : Fin 64) : ResultCanonical (execClusterDrain c s) := by
  have drain : ∀ t, MemoriesCanonical t → MemoriesCanonical (t.drainCluster c) := fun _ ht => ht
  unfold execClusterDrain ResultCanonical
  grind [State.draw_canonical]

theorem execClusterFence_canonical (c : Fin 64) : ResultCanonical (execClusterFence c s) := by
  have put : ∀ v g, MemoriesCanonical { s with clusters := v, golium := g } := fun _ _ => h
  unfold execClusterFence ResultCanonical
  grind [State.measure_canonical, State.checkLimits_canonical]

theorem execRowSpare_canonical : ResultCanonical (execRowSpare s) := by
  have put : ∀ (t : State) g, MemoriesCanonical t → MemoriesCanonical { t with golium := g } := fun _ _ ht => ht
  unfold execRowSpare
  grind [ResultCanonical, State.draw_canonical, State.sampleErrors_canonical]

theorem execPageRetire_canonical (n : Nat) : ResultCanonical (execPageRetire n s) := by
  have put : ∀ l g, MemoriesCanonical { s with rewritten := l, golium := g } := fun _ _ => h
  unfold execPageRetire ResultCanonical
  grind [State.checkLimits_canonical]

/-! ### Ports and replies (R376-R378, R452-R455) -/

theorem State.onPort_canonical (i : Fin 8) (f : Port → Port) : MemoriesCanonical (s.onPort i f) := h

theorem State.reroute_canonical (i : Fin 8) : MemoriesCanonical (s.reroute i) := h

theorem State.receiveFlit_canonical (f : FlitIn) (n : Nat) : MemoriesCanonical (s.receiveFlit f n).2 := by
  unfold State.receiveFlit
  grind [onPort_canonical, reroute_canonical]

theorem State.trainPort_canonical (i : Fin 8) (p : Fin 4) (b : Bool) : MemoriesCanonical (s.trainPort i p b) :=
  checkLimits_canonical (measure_canonical (s := { s.onPort i _ with fabric := _ }) h 4)

theorem State.answer_canonical (r : FabricRequest) (a : Answer) : MemoriesCanonical (s.answer r a) := by
  unfold State.answer
  dsimp only
  split
  · exact h
  · split <;> exact h
  · exact h

theorem State.sendCancel_canonical (r : FabricRequest) : MemoriesCanonical (s.sendCancel r) := h

theorem execFabricRequestTimeout_canonical (t : Fin 4096) : ResultCanonical (execFabricRequestTimeout t s) := by
  have off : ∀ f, MemoriesCanonical { s with fabric := f } := fun _ => h
  unfold execFabricRequestTimeout ResultCanonical
  grind [State.answer_canonical, State.sendCancel_canonical]

theorem execLockedRouteTimeout_canonical (t : Fin 4096) : ResultCanonical (execLockedRouteTimeout t s) := by
  have off : ∀ f, MemoriesCanonical { s with fabric := f } := fun _ => h
  unfold execLockedRouteTimeout ResultCanonical
  grind [State.answer_canonical, State.sendCancel_canonical]

theorem State.breakRounds_canonical : MemoriesCanonical s.breakRounds := h

theorem State.dropUnreachable_canonical : MemoriesCanonical s.dropUnreachable := by
  have answers := fun t (l : List FabricRequest) ht =>
    foldl_canonical (f := fun (s : State) r => s.answer r (.error 0x2A)) (fun _ r hu => answer_canonical hu r _) l (s := t) ht
  unfold State.dropUnreachable
  exact breakRounds_canonical (answers _ _ h)

theorem State.downPort_canonical (i : Fin 8) : MemoriesCanonical (s.downPort i) :=
  checkLimits_canonical (dropUnreachable_canonical (reroute_canonical (onPort_canonical h ..) i))

theorem execPortUnlock_canonical (i : Fin 8) (p : Fin 4) : ResultCanonical (execPortUnlock i p s) := by
  unfold execPortUnlock ResultCanonical
  grind [State.downPort_canonical, State.trainPort_canonical]

theorem execLinkTraining_canonical (i : Fin 8) (p : Fin 4) (b : Bool) : ResultCanonical (execLinkTraining i p b s) := by
  unfold execLinkTraining ResultCanonical
  grind [State.downPort_canonical, State.trainPort_canonical]

theorem execLinkKeyUpdate_canonical (i : Fin 8) : ResultCanonical (execLinkKeyUpdate i s) := by
  unfold execLinkKeyUpdate ResultCanonical
  grind [State.onPort_canonical]

theorem execLaneFailure_canonical (i : Fin 8) : ResultCanonical (execLaneFailure i s) := by
  unfold execLaneFailure ResultCanonical
  grind [State.checkLimits_canonical, State.onPort_canonical, State.downPort_canonical]

theorem execPeerModuleStopped_canonical (r : Fin 4096) : ResultCanonical (execPeerModuleStopped r s) :=
  State.dropUnreachable_canonical (s := { s with fabric := _ }) h

/-! ### Requests of other ranks (R371-R375) -/

omit h in
theorem State.windowTargets_canonical (p : Fin 8) (k : AccessKind) : ∀ (l : List (Nat × Nat)) {s : State}, MemoriesCanonical s →
    (s.windowTargets p k l).Canonical
  | [], _, h => h
  | x :: l, s, h => by
    have ih := windowTargets_canonical p k l h
    unfold State.windowTargets
    grind [Acc.Canonical]

omit h in
theorem State.readPiecesAt_canonical (c : Ctx) : ∀ (l : List (Nat × Nat)) {s : State}, MemoriesCanonical s → (s.readPiecesAt c l).Canonical
  | [], _, h => h
  | x :: l, s, h => by
    have ih := readPiecesAt_canonical c l h
    unfold State.readPiecesAt
    grind [Acc.Canonical, readTarget_canonical]

theorem State.serveStore_canonical (p : Fin 8) (o : Nat) (d : List Byte) (m : Byte) : (s.serveStore p o d m).Canonical := by
  unfold State.serveStore
  grind [Acc.Canonical, windowTargets_canonical, performWrites_canonical]

theorem State.serveModify_canonical (p : Fin 8) (o n : Nat) (b : Bool) (f : Nat → Nat) : (s.serveModify p o n b f).Canonical := by
  unfold State.serveModify
  grind [Acc.Canonical, modify_canonical]

theorem State.serveGranule_canonical (p : Fin 8) (k : AccessKind) (o : Nat) : (s.serveGranule p k o).Canonical := by
  unfold State.serveGranule
  grind [Acc.Canonical]

omit h in
theorem State.serveRange_canonical (p : Fin 8) : ∀ (n : Nat) (i : Option Nat) (o : Nat) {s : State}, MemoriesCanonical s →
    (s.serveRange p i n o).Canonical
  | 0, _, _, _, h => h
  | n + 1, i, o, s, h => by
    have ih := fun i => serveRange_canonical p n i (o + 128) h
    unfold State.serveRange
    grind [Acc.Canonical, serveGranule_canonical]

theorem State.servePublish_canonical (p : Fin 8) (o : Nat) (n : BitVec 32) (b i t : Nat) : (s.servePublish p o n b i t).Canonical := by
  unfold State.servePublish
  grind [Acc.Canonical, serveRange_canonical, setRegion_canonical]

theorem State.serveArrival_canonical (a : SpanArrival) (q t : Nat) (st : Fin 8) (id : Fin 36) (n : Nat) :
    MemoriesCanonical (s.serveArrival a q t st id n) := by
  unfold State.serveArrival
  split
  · exact h
  · exact notePeer_canonical h ..

theorem State.serveRecord_canonical (p i : Fin 8) (sid : Fin 16) (g : Byte) (r : SxRecord) : MemoriesCanonical (s.serveRecord p i sid g r) := by
  have drop : MemoriesCanonical (s.dropPacket i) := h
  unfold State.serveRecord
  grind [setSession_canonical]

theorem State.serveAbort_canonical (p i : Fin 8) (sid : Fin 16) (g : Byte) : MemoriesCanonical (s.serveAbort p i sid g) := by
  have drop : MemoriesCanonical (s.dropPacket i) := h
  unfold State.serveAbort
  grind [endSession_canonical]

theorem State.replyOf_canonical {α : Type} {a : Acc α} (ha : a.Canonical) (f : α → List Byte) : (s.replyOf a f).Canonical := by
  unfold State.replyOf
  grind [Acc.Canonical, Served.Canonical]

theorem State.serveOp_canonical (a : SpanArrival) (q : Nat) : (s.serveOp a q).Canonical := by
  have granule := serveGranule_canonical h a.part
  have window := fun k l => windowTargets_canonical a.part k l h
  unfold State.serveOp
  dsimp only
  split
  · refine replyOf_canonical h ?_ _
    grind [Acc.Canonical, readPiecesAt_canonical]
  · exact replyOf_canonical h (serveStore_canonical h ..) _
  · exact replyOf_canonical h (serveStore_canonical h ..) _
  · exact replyOf_canonical h (serveModify_canonical h ..) _
  · exact replyOf_canonical h (serveModify_canonical h ..) _
  · exact replyOf_canonical h (serveModify_canonical h ..) _
  · refine replyOf_canonical h ?_ _
    grind [Acc.Canonical]
  · refine replyOf_canonical h ?_ _
    grind [Acc.Canonical, createVersion_canonical]
  · exact replyOf_canonical h (servePublish_canonical h ..) _
  · refine replyOf_canonical h ?_ _
    grind [Acc.Canonical]
  · refine replyOf_canonical h ?_ _
    grind [Acc.Canonical, setRegion_canonical]
  · exact serveArrival_canonical h ..
  · exact serveRecord_canonical h ..
  · exact serveAbort_canonical h ..

theorem State.serve_canonical (a : SpanArrival) : (s.serve a).Canonical := by
  unfold State.serve
  grind [Served.Canonical, serveOp_canonical]

theorem State.hold_canonical (a : SpanArrival) (k : WaitKind) (n : Nat) : MemoriesCanonical (s.hold a k n) := h

theorem State.sendReply_canonical (r : SpanReq) (a : Answer) : MemoriesCanonical (s.sendReply r a) := h

theorem State.perform_canonical (a : SpanArrival) (n : Nat) : MemoriesCanonical (s.perform a n).2 := by
  unfold State.perform
  grind [Served.Canonical, serve_canonical, sendReply_canonical, hold_canonical]

omit h in
theorem State.drain_canonical (src : Fin 4096) (cls : Fin 16) : ∀ (n : Nat) {s : State}, MemoriesCanonical s → MemoriesCanonical (s.drain src cls n)
  | 0, _, h => h
  | n + 1, s, h => by
    have ih := @drain_canonical src cls n
    have off : ∀ (t : State) f, MemoriesCanonical t → MemoriesCanonical { t with fabric := f } := fun _ _ ht => ht
    unfold State.drain
    grind [perform_canonical]

theorem State.drainAll_canonical (src : Fin 4096) (cls : Fin 16) : MemoriesCanonical (s.drainAll src cls) := drain_canonical src cls _ h

theorem State.retrySpan_canonical (w : SpanWait) : MemoriesCanonical (s.retrySpan w) := by
  have off : ∀ (t : State) f, MemoriesCanonical t → MemoriesCanonical { t with fabric := f } := fun _ _ ht => ht
  unfold State.retrySpan
  grind [perform_canonical, drainAll_canonical]

theorem execSpanRequest_canonical (p : Fin 8) (f : FlitIn) (r : SpanReq) : ResultCanonical (execSpanRequest p f r s) := by
  have off : ∀ (t : State) f, MemoriesCanonical t → MemoriesCanonical { t with fabric := f } := fun _ _ ht => ht
  unfold execSpanRequest ResultCanonical
  grind [State.retrySpan_canonical, State.receiveFlit_canonical, State.drainAll_canonical]

theorem State.pass_canonical (src : Fin 4096) (cls : Fin 16) (i : Fin 65536) (n : Nat) : MemoriesCanonical (s.pass src cls i n) := by
  unfold State.pass
  exact drainAll_canonical (by exact h) ..

theorem State.accept_canonical (k : Heading) (n : Nat) : MemoriesCanonical (s.accept k n).1 ∧ ∀ t, (s.accept k n).2 = some t → MemoriesCanonical t := by
  unfold State.accept
  grind [receiveFlit_canonical, pass_canonical]

theorem execFabricReply_canonical (k : Heading) (t : Fin 4096) (i : Fin 16) (a : Answer) : ResultCanonical (execFabricReply k t i a s) := by
  have got := State.accept_canonical h k (bodyFlits (.reply a))
  unfold execFabricReply ResultCanonical
  grind [State.answer_canonical, State.onPort_canonical]

theorem State.cancelRun_canonical (src : Fin 4096) (cls : Fin 16) (r : FlitRun) : MemoriesCanonical (s.cancelRun src cls r) := by
  have off : ∀ f, MemoriesCanonical { s with fabric := f } := fun _ => h
  unfold State.cancelRun
  grind [pass_canonical]

theorem execCancel_canonical (k : Heading) (i : Fin 65536) (n : Fin 17) : ResultCanonical (execCancel k i n s) := by
  have got := State.accept_canonical h k 1
  unfold execCancel ResultCanonical
  grind [State.cancelRun_canonical]

end

/-- An engine answers with a state in canonical form. -/
def EngineAcc.Canonical : EngineAcc State → Prop
  | .ok s => MemoriesCanonical s
  | .fault _ _ | .hold => True

section
variable {s : State} (h : MemoriesCanonical s)
include h

/-! ### The matrix engine (R285-R299) -/

theorem State.issueMatrix_canonical (op : State → MatrixOp) : ResultCanonical (s.issueMatrix op) :=
  controlOnly_canonical h fun c => by dsimp only; split <;> exact h

theorem execMwait_canonical (w : Reg) : ResultCanonical (execMwait w s) :=
  State.controlOnly_canonical h fun c => by split <;> exact h

theorem execMstat_canonical (d : Reg) (b : Bool) : ResultCanonical (execMstat d b s) :=
  State.controlOnly_canonical h fun c => by cases b <;> exact h

theorem State.matrixEffect_canonical (n : Fin 64) (g : GangId) (op : MatrixOp) : (s.matrixEffect n g op).Canonical := by
  have put : ∀ (t : State) c d, MemoriesCanonical t → MemoriesCanonical { t with clusters := c, draws := d } := fun _ _ _ ht => ht
  cases op with
  | drain a stride f =>
    have written := fun r : List (Nat × List Byte) =>
      performWrites_canonical h (((s.gang? g).map (·.part)).getD 0) (some g) (r.flatMap fun r => bankWrites r.1 r.2)
    unfold State.matrixEffect
    grind [EngineAcc.Canonical]
  | _ =>
    unfold State.matrixEffect
    grind [EngineAcc.Canonical]

theorem execMatrixInstructionBegin_canonical (c : Fin 64) : ResultCanonical (execMatrixInstructionBegin c s) := by
  unfold execMatrixInstructionBegin
  dsimp only
  split <;> exact h

theorem State.matrixFault_canonical (c : Fin 64) (op : MatrixOp) (e : Cause) (v : Word) : MemoriesCanonical (s.matrixFault c op e v) := by
  have put : ∀ c, MemoriesCanonical { s with clusters := c } := fun _ => h
  unfold State.matrixFault
  grind [endForkedByFault_canonical, onStrand_canonical]

theorem execMatrixInstructionComplete_canonical (c : Fin 64) : ResultCanonical (execMatrixInstructionComplete c s) := by
  have put : ∀ (t : State) c, MemoriesCanonical t → MemoriesCanonical { t with clusters := c } := fun _ _ ht => ht
  have effect := State.matrixEffect_canonical h
  unfold execMatrixInstructionComplete
  grind [ResultCanonical, EngineAcc.Canonical, State.matrixFault_canonical]

theorem State.atCluster_canonical {k : Fin 64 → State → State} (hk : ∀ c, MemoriesCanonical (k c s)) : MemoriesCanonical (s.atCluster k) := by
  unfold State.atCluster
  split
  · exact h
  · exact onGang_canonical_of_same (hk _) _ fun _ => rfl

theorem execVaccrd_canonical (d x m : Reg) : ResultCanonical (execVaccrd d x m s) :=
  State.vector_canonical h _ (State.atCluster_canonical h fun _ => h)

theorem execVaccwr_canonical (r x m : Reg) : ResultCanonical (execVaccwr r x m s) :=
  State.vector_canonical h _ (State.atCluster_canonical h fun _ => h)

/-! ### The registers of partitions and queues (R380-R387) -/

theorem State.onPart_canonical (p : Fin 8) (f : Partition → Partition) : MemoriesCanonical (s.onPart p f) := h

theorem State.send_canonical (o : Output) : MemoriesCanonical (s.send o) := h

theorem State.setVf_canonical (v : Fin 64) (x : VfState) : MemoriesCanonical (s.setVf v x) := h

theorem State.closePolicy_canonical (p : Fin 8) : MemoriesCanonical (s.closePolicy p) := by
  unfold State.closePolicy
  split <;> exact h

theorem State.vfFails_canonical (v : Fin 64) : MemoriesCanonical (s.vfFails v) := by
  unfold State.vfFails
  split
  · exact setVf_canonical (foldl_canonical (fun _ _ hs => closePolicy_canonical hs _) _ h) v _
  · exact h

theorem State.setPstat_canonical (p : Fin 8) (n : Fin 7) : MemoriesCanonical (s.setPstat p n) := h

/-- A guarded write keeps the form when what it guards does. -/
theorem State.guarded_canonical (f : Caller) (p : Fin 8) (g : LockGroup) {k : State → State} (hk : MemoriesCanonical (k s)) :
    ResultCanonical (s.guarded f p g k) := by
  unfold State.guarded
  grind [ResultCanonical, setPstat_canonical, vfFails_canonical]

theorem State.disable_canonical (p : Fin 8) : MemoriesCanonical (s.disable p) := closePolicy_canonical h p

theorem execPcfgWrite_canonical (f : Caller) (p : Fin 8) (v : Word) : ResultCanonical (execPcfgWrite f p v s) :=
  State.guarded_canonical h f p _ (by grind [State.setPstat_canonical, State.onPart_canonical, State.disable_canonical])

theorem State.zero_canonical (l : List (Nat × Nat)) : MemoriesCanonical (s.zero l) := by
  refine ⟨?_, h.2⟩
  have cleared : ∀ (l : List (Nat × Nat)) (m : Memory), Memory.wf m → Memory.wf (l.foldl (fun m r => m.clear r.1 r.2) m) := by
    intro l
    induction l with
    | nil => exact fun _ hm => hm
    | cons r l ih => exact fun m hm => ih _ (Memory.wf_clear hm _ _)
  exact cleared l s.mem h.1

theorem execPmemWrite_canonical (f : Caller) (p : Fin 8) (i : Fin 16) (v : Word) : ResultCanonical (execPmemWrite f p i v s) := by
  have keys : ∀ (t : State) k, MemoriesCanonical t → MemoriesCanonical { t with unkeyed := k } := fun _ _ ht => ht
  exact State.guarded_canonical h f p _ (by grind [State.setPstat_canonical, State.onPart_canonical, State.zero_canonical])

theorem execPartitionEnableComplete_canonical (p : Fin 8) : ResultCanonical (execPartitionEnableComplete p s) := by
  unfold execPartitionEnableComplete ResultCanonical
  grind [State.zero_canonical, State.onPart_canonical]

theorem execProotWrite_canonical (f : Caller) (p : Fin 8) (v : Word) : ResultCanonical (execProotWrite f p v s) :=
  State.guarded_canonical h f p _ (by dsimp only; split <;> exact h)

theorem execPinvalWrite_canonical (f : Caller) (p : Fin 8) (v : Word) : ResultCanonical (execPinvalWrite f p v s) :=
  State.guarded_canonical h f p _ (by dsimp only; split <;> exact h)

theorem execPjobnWrite_canonical (f : Caller) (p : Fin 8) (v : Word) : ResultCanonical (execPjobnWrite f p v s) :=
  State.guarded_canonical h f p _ h

theorem execPexpnWrite_canonical (f : Caller) (p : Fin 8) (v : Word) : ResultCanonical (execPexpnWrite f p v s) :=
  State.guarded_canonical h f p _ (by dsimp only; split <;> exact h)

theorem execPdeadwordWrite_canonical (f : Caller) (p : Fin 8) (v : Word) : ResultCanonical (execPdeadwordWrite f p v s) :=
  State.guarded_canonical h f p _ h

theorem execQcfgWrite_canonical (f : Caller) (q : Fin 64) (v : Word) : ResultCanonical (execQcfgWrite f q v s) :=
  by unfold execQcfgWrite; exact State.guarded_canonical h f _ _ h

theorem execDoorbell_canonical (b : Bell) (v : Word) : ResultCanonical (execDoorbell b v s) :=
  State.guarded_canonical h _ _ _ (by split <;> exact h)

theorem execRegisterWrite_canonical (f : Caller) (r : PlainReg) (v : Word) : ResultCanonical (execRegisterWrite f r v s) := by
  cases r
  case clmask | health | portstat | pstat => exact h
  case pcap =>
    unfold execRegisterWrite
    dsimp only
    split <;> exact h
  all_goals
    unfold execRegisterWrite
    exact State.guarded_canonical h f _ _ h

/-! ### Interfaces, SPDM and the debug policy (R389-R396, R457-R459) -/

theorem execLockInterface_canonical (v : Fin 64) : ResultCanonical (execLockInterface v s) := by
  unfold execLockInterface
  split
  · exact foldl_canonical (f := fun s (p : Fin 8) => s.measure (16 + p.val)) (fun _ p hs => State.measure_canonical hs _) _ (State.setVf_canonical h ..)
  · exact h

theorem execStartInterface_canonical (v : Fin 64) : ResultCanonical (execStartInterface v s) := by
  unfold execStartInterface
  split <;> exact h

theorem State.abandon_canonical (p : Fin 8) : MemoriesCanonical (s.abandon p) :=
  ⟨h.1, fun g hg => h.2 g (List.mem_filter.1 hg).1⟩

theorem execStopInterface_canonical (v : Fin 64) : ResultCanonical (execStopInterface v s) := by
  unfold execStopInterface
  split
  · exact State.setVf_canonical
      (foldl_canonical (f := fun s p => (s.abandon p).disable p) (fun _ p hs => State.disable_canonical (State.abandon_canonical hs p) p) _ h) v _
  · exact h

theorem execVfError_canonical (v : Fin 64) : ResultCanonical (execVfError v s) := State.vfFails_canonical h v

theorem execHeartbeatTimeout_canonical (v : Fin 64) : ResultCanonical (execHeartbeatTimeout v s) := by
  have gol : ∀ g, MemoriesCanonical { s with golium := g } := fun _ => h
  unfold execHeartbeatTimeout ResultCanonical
  grind [State.vfFails_canonical]

theorem State.overSession_canonical (p : Fin 8) {k : State → State} (hk : MemoriesCanonical (k s)) : ResultCanonical (s.overSession p k) := by
  unfold State.overSession
  grind [ResultCanonical, send_canonical]

theorem execGetDebugNonce_canonical (p : Fin 8) : ResultCanonical (execGetDebugNonce p s) :=
  State.overSession_canonical h p (by dsimp only; split <;> exact h)

theorem execDebugPolicySubmit_canonical (p : Fin 8) (d : DebugPolicy) : ResultCanonical (execDebugPolicySubmit p d s) :=
  State.overSession_canonical h p h

theorem State.setLink_canonical (l : SpdmLink) (x : Spdm) : MemoriesCanonical (s.setLink l x) := by
  cases l <;> exact h

theorem State.spdm_canonical (m : SpdmMsg) (ok : Spdm → Bool) (f : Spdm → Spdm) (code : Nat) (body : List Nat) :
    MemoriesCanonical (s.spdm m ok f code body) := by
  unfold State.spdm
  grind [send_canonical, setLink_canonical]

theorem State.spdmFree_canonical (m : SpdmMsg) (ok : Spdm → Bool) (f : Spdm → Spdm) (code : Nat) : MemoriesCanonical (s.spdmFree m ok f code) :=
  spdm_canonical (draw_canonical h) ..

theorem execEndSession_canonical (m : SpdmMsg) : ResultCanonical (execEndSession m s) := by
  unfold execEndSession
  grind [ResultCanonical, State.spdm_canonical, State.vfFails_canonical]

theorem execMeasurementLogRead_canonical : ResultCanonical (execMeasurementLogRead s) := by
  unfold execMeasurementLogRead
  split <;> exact h

/-! ### Accesses of the host (R380-R382) -/

theorem State.hostAccess_canonical (p : Fin 8) (a : HostAcc) : MemoriesCanonical (s.hostAccess p a) := by
  unfold State.hostAccess
  grind [Acc.Canonical, draw_canonical, send_canonical, readTarget_canonical, judgeWrite_canonical, performWrites_canonical, modify_canonical]

theorem State.barRead_canonical (f : Fin 64) (o : Nat) : MemoriesCanonical (s.barRead f o).2 := by
  unfold State.barRead
  grind [sampleErrors_canonical, draw_canonical]

theorem State.barWrite_canonical (f : Caller) (o : Nat) (v : Word) : ResultCanonical (s.barWrite f o v) := by
  unfold State.barWrite
  grind [ResultCanonical, execPcfgWrite_canonical, execPmemWrite_canonical, execProotWrite_canonical, execPinvalWrite_canonical,
    execPjobnWrite_canonical, execPexpnWrite_canonical, execPdeadwordWrite_canonical, execQcfgWrite_canonical, execDoorbell_canonical,
    execRegisterWrite_canonical]

theorem State.linkRead_canonical (l : SpdmLink) (r : PlainReg) : MemoriesCanonical (s.linkRead l r) := by
  unfold State.linkRead
  grind [sampleErrors_canonical, send_canonical]

theorem execHostAccess_canonical (a : HostAcc) : ResultCanonical (execHostAccess a s) := by
  unfold execHostAccess
  grind [ResultCanonical, State.linkRead_canonical, State.vfFails_canonical, State.send_canonical, State.barRead_canonical,
    State.barWrite_canonical, State.hostAccess_canonical]

end

section
variable {s : State} (h : MemoriesCanonical s)
include h

/-! ### Every instruction and event -/

theorem nextOnHart_canonical (f : Hart → Hart) : ResultCanonical (.next (s.onHart f)) := h

theorem State.strandHart_canonical (f : Hart → Hart) : ResultCanonical (s.strandOnly fun s => s.onHart f) :=
  strandOnly_canonical h (onHart_canonical h f)

theorem execJoinW_canonical : ResultCanonical (execJoinW s) := State.strandOnly_canonical h (State.join_canonical h true)

theorem execJoinN_canonical : ResultCanonical (execJoinN s) := State.strandOnly_canonical h (State.join_canonical h false)

theorem execEret_canonical : ResultCanonical (execEret s) := State.supervisorOnly_canonical h (by exact h)

theorem execInvas_canonical (a b : Reg) (c d : Bool) : ResultCanonical (execInvas a b c d s) := State.supervisorOnly_canonical h (by exact h)

theorem execSxresplit_canonical (d : Reg) (i : Fin 16) : ResultCanonical (execSxresplit d i s) :=
  State.onSession_canonical h i fun _ _ => State.stageSplit_canonical h ..

theorem execSxstat_canonical (d : Reg) (i : Fin 16) : ResultCanonical (execSxstat d i s) := State.strandOnly_canonical h (by exact h)

theorem execVscan_canonical (d a b m : Reg) : ResultCanonical (execVscan d a b m s) := State.reduction_canonical h _ _ _ (by exact h)

theorem execVmvxs_canonical (d a i m : Reg) : ResultCanonical (execVmvxs d a i m s) := State.vectorHart_canonical h ..

theorem execMgather_canonical (a b g : Reg) (n k : Fin 4) : ResultCanonical (execMgather a b g n k s) := State.issueMatrix_canonical h _

theorem execMldb_canonical (a : Reg) : ResultCanonical (execMldb a s) := State.issueMatrix_canonical h _

theorem execMcfg_canonical (a : Reg) : ResultCanonical (execMcfg a s) := State.issueMatrix_canonical h _

theorem execMma_canonical (k : Fin 4) : ResultCanonical (execMma k s) := State.issueMatrix_canonical h _

theorem execMzero_canonical : ResultCanonical (execMzero s) := State.issueMatrix_canonical h _

theorem execMswap_canonical : ResultCanonical (execMswap s) := State.issueMatrix_canonical h _

theorem execMdrain_canonical (a b : Reg) (f : DrainFmt) : ResultCanonical (execMdrain a b f s) := State.issueMatrix_canonical h _

theorem exec_canonical (i : Instr) : ResultCanonical (exec i s) := by
  cases i
  case add | sub | and | or | xor | sll | srl | sra | slt | sltu | min | max | minu | maxu | addw | subw | mul | mulh | mulhu | div |
    divu | rem | remu | clz | ctz | popc | sextb | sexth | sextw | zextw | bswap | addi | andi | ori | xori | slti | sltiu | slli | srli |
    srai | lis | beq | bne | blt | bge | bltu | bgeu => exact nextOnHart_canonical h _
  case li | addpc | tagHoldExpiry => exact h
  case ld | ldu => exact State.scalarLoad_canonical h ..
  case amoadd | amomin | amomax | amominu | amomaxu | amoand | amoor | amoxor | amoswap | amocas | amoaddW | amominW | amomaxW | amominuW |
    amomaxuW | amoandW | amoorW | amoxorW | amoswapW | amocasW => exact State.scalarAmo_canonical h ..
  case csrr | csrw | csrs | csrc => exact State.csrAccess_canonical h ..
  case detach | yield | uimask | setvl | vtag | stream | streamoff => exact State.strandHart_canonical h _
  case loop | loopi => exact State.startLoop_canonical h ..
  case sxsend | sxsendNew => exact State.sxSend_canonical h ..
  case vadd | vsub | vmul | vmin | vmax | vabs | vneg | vmerge | vmv | vbcast | vaddVx | vsubVx | vmulVx | vminVx | vmaxVx | vmergeVx |
    vbcastVx | vand | vor | vxor | vsll | vsrl | vsra | vminu | vmaxu | vmulh | vmulhu | vadc | vsbc | vadds | vsubs | vaddsu | vsubsu |
    vsrar | vsrlr | vdot2 | vabsd | vclz | vpopc | vandVx | vorVx | vxorVx | vsllVx | vsrlVx | vsraVx | vminuVx | vmaxuVx | vmulhVx |
    vmulhuVx | vaddsVx | vsubsVx | vaddsuVx | vsubsuVx | vsrarVx | vsrlrVx | vabsdVx | vandVi | vorVi | vxorVi | vsllVi | vsrlVi | vsraVi |
    vminuVi | vmaxuVi | vaddsVi | vsubsVi | vaddsuVi | vsubsuVi | vsrarVi | vsrlrVi | vfma | vfms | vfnma | vdiv | vsqrt | vrcp | vrsq |
    vexp2 | vlog2 | vtanh | vclass | vfmaVx | vfmsVx | vfnmaVx | vdivVx | vcmpeq | vcmpne | vcmplt | vcmple | vcmpltu | vcmpleu | vcmpun |
    vcmpeqVx | vcmpneVx | vcmpltVx | vcmpleVx | vcmpltuVx | vcmpleuVx | vcmpunVx | pand | por | pxor | pandn | pnot | pshl | pshr | pmv |
    pset | pcnt | pfirst | plast | pmovx | pfromx | vslide1up | vslide1dn | vslideup | vslidedn | vgather | vcompress | vexpand | vrev |
    vhad | vzip | vunzip | vqscale | viota | vmvsx | vsort | vsortd | vmergek | vseghead | vtopk => exact State.vectorHart_canonical h ..
  case vcvts | vrand => exact State.vectorDraw_canonical h ..
  case vredsum | vredmax | vredmin => exact State.reduceOrdered_canonical h ..
  case vld | vlds | vldx | vldseg => exact State.vloadInstr_canonical h ..
  case vst | vsts | vstx | vstxu | vstseg => exact State.vstoreInstr_canonical h ..
  case vamoxAdd | vamoxAddu | vamoxMin | vamoxMax | vamoxAnd | vamoxOr | vamoxXor | vamoxSwap => exact State.vamox_canonical h ..
  case getVersion | getCapabilities | negotiateAlgorithms | getMeasurements | keyUpdate | heartbeat => exact State.spdm_canonical h ..
  case getDigests | getCertificate | challenge | keyExchange | finish => exact State.spdmFree_canonical h ..
  case portDown => exact State.downPort_canonical h ..
  case powerOn | moduleReset => exact State.moduleReset_canonical h
  case powerLoss | thermalTrip => exact State.powerOff_canonical h
  case thermalHold | thermalResume => exact State.setHold_canonical h _
  case st => exact execSt_canonical h ..
  case jal => exact execJal_canonical h ..
  case jalr => exact execJalr_canonical h ..
  case strip => exact execStrip_canonical h ..
  case joinW => exact execJoinW_canonical h
  case joinN => exact execJoinN_canonical h
  case exit => exact execExit_canonical h
  case fork => exact execFork_canonical h ..
  case rendezvous => exact execRendezvous_canonical h ..
  case fence p q => exact execFence_canonical h p q
  case barArrive p q r t => exact execBarArrive_canonical h p q r t
  case barWait => exact execBarWait_canonical h ..
  case barInit => exact execBarInit_canonical h ..
  case uiret => exact execUiret_canonical h
  case svset => exact execSvset_canonical h ..
  case svget => exact execSvget_canonical h ..
  case launch => exact execLaunch_canonical h ..
  case syscall => exact execSyscall_canonical h
  case eret => exact execEret_canonical h
  case invas p q r t => exact execInvas_canonical h p q r t
  case bankcfg => exact execBankcfg_canonical h ..
  case brk => exact execBrk_canonical h
  case ldv => exact execLdv_canonical h ..
  case vrqry => exact execVrqry_canonical h ..
  case vpub => exact execVpub_canonical h ..
  case vretire => exact execVretire_canonical h ..
  case vrdecl => exact execVrdecl_canonical h ..
  case vrfree => exact execVrfree_canonical h ..
  case job => exact execJob_canonical h ..
  case sxopen => exact execSxopen_canonical h ..
  case sxsplit => exact execSxsplit_canonical h ..
  case sxround => exact execSxround_canonical h ..
  case sxresplit => exact execSxresplit_canonical h ..
  case sxclose => exact execSxclose_canonical h ..
  case sxcloseAbort => exact execSxcloseAbort_canonical h ..
  case sxrecv => exact execSxrecv_canonical h ..
  case sxstat => exact execSxstat_canonical h ..
  case topkins => exact execTopkins_canonical h ..
  case waitc => exact execWaitc_canonical h ..
  case vredsumu => exact execVredsumu_canonical h ..
  case vscan => exact execVscan_canonical h ..
  case vscanf => exact execVscanf_canonical h ..
  case vcvt => exact execVcvt_canonical h ..
  case vmvxs p q r t => exact execVmvxs_canonical h p q r t
  case vaccrd => exact execVaccrd_canonical h ..
  case vaccwr => exact execVaccwr_canonical h ..
  case vldb => exact execVldb_canonical h ..
  case vldv => exact execVldv_canonical h ..
  case vstv => exact execVstv_canonical h ..
  case vpush => exact execVpush_canonical h ..
  case vpop p q r t => exact execVpop_canonical h p q r t
  case mgather => exact execMgather_canonical h ..
  case mldb => exact execMldb_canonical h ..
  case mcfg => exact execMcfg_canonical h ..
  case mma => exact execMma_canonical h ..
  case mzero => exact execMzero_canonical h
  case mswap => exact execMswap_canonical h
  case mwait => exact execMwait_canonical h ..
  case mdrain => exact execMdrain_canonical h ..
  case mstat => exact execMstat_canonical h ..
  case aniseFetch => exact execAniseFetch_canonical h ..
  case privateFetch => exact execPrivateFetch_canonical h ..
  case driftEviction => exact execDriftEviction_canonical h ..
  case issueVisit => exact execIssueVisit_canonical h ..
  case asyncReportTaken => exact execAsyncReportTaken_canonical h ..
  case userInterruptTaken => exact execUserInterruptTaken_canonical h ..
  case parking => exact execParking_canonical h ..
  case swapOnWait => exact execSwapOnWait_canonical h ..
  case preEmption => exact execPreEmption_canonical h ..
  case timeSharingExpiry => exact execTimeSharingExpiry_canonical h ..
  case strandRestore => exact execStrandRestore_canonical h ..
  case gangResident => exact execGangResident_canonical h ..
  case bankSwitchBegin => exact execBankSwitchBegin_canonical h ..
  case bankSwitchEnd => exact execBankSwitchEnd_canonical h ..
  case storePerformed => exact execStorePerformed_canonical h ..
  case vldbDataWrite => exact execVldbDataWrite_canonical h ..
  case transitWalkRetry => exact execTransitWalkRetry_canonical h ..
  case transitTimeout => exact execTransitTimeout_canonical h ..
  case versionedStoreStep => exact execVersionedStoreStep_canonical h ..
  case versionWaitWake => exact execVersionWaitWake_canonical h ..
  case waitListRetry => exact execWaitListRetry_canonical h ..
  case horizonPropagation => exact execHorizonPropagation_canonical h ..
  case barrierRegistration => exact execBarrierRegistration_canonical h ..
  case watchdogTimeout => exact execWatchdogTimeout_canonical h ..
  case forkedProgramStart => exact execForkedProgramStart_canonical h ..
  case matrixInstructionBegin => exact execMatrixInstructionBegin_canonical h ..
  case matrixInstructionComplete => exact execMatrixInstructionComplete_canonical h ..
  case copy => exact execCopy_canonical h ..
  case tile => exact execTile_canonical h ..
  case gather => exact execGather_canonical h ..
  case scatter => exact execScatter_canonical h ..
  case pagegather => exact execPagegather_canonical h ..
  case fill => exact execFill_canonical h ..
  case digest => exact execDigest_canonical h ..
  case jobCompletion => exact execJobCompletion_canonical h ..
  case doorbell => exact execDoorbell_canonical h ..
  case ringEntryTake => exact execRingEntryTake_canonical h ..
  case itemStart => exact execItemStart_canonical h ..
  case queueCreditTick => exact execQueueCreditTick_canonical h
  case launchComplete => exact execLaunchComplete_canonical h ..
  case versionWaitNodeComplete => exact execVersionWaitNodeComplete_canonical h ..
  case sxRoundComplete => exact execSxRoundComplete_canonical h ..
  case sxRecordDelivery => exact execSxRecordDelivery_canonical h ..
  case spanRequest => exact execSpanRequest_canonical h ..
  case fabricReply => exact execFabricReply_canonical h ..
  case cancel => exact execCancel_canonical h ..
  case fabricRequestTimeout => exact execFabricRequestTimeout_canonical h ..
  case lockedRouteTimeout => exact execLockedRouteTimeout_canonical h ..
  case portUnlock => exact execPortUnlock_canonical h ..
  case linkTraining => exact execLinkTraining_canonical h ..
  case linkKeyUpdate => exact execLinkKeyUpdate_canonical h ..
  case pcfgWrite => exact execPcfgWrite_canonical h ..
  case pmemWrite => exact execPmemWrite_canonical h ..
  case partitionEnableComplete => exact execPartitionEnableComplete_canonical h ..
  case prootWrite => exact execProotWrite_canonical h ..
  case pinvalWrite => exact execPinvalWrite_canonical h ..
  case pjobnWrite => exact execPjobnWrite_canonical h ..
  case pexpnWrite => exact execPexpnWrite_canonical h ..
  case pdeadwordWrite => exact execPdeadwordWrite_canonical h ..
  case qcfgWrite => exact execQcfgWrite_canonical h ..
  case registerWrite => exact execRegisterWrite_canonical h ..
  case lockInterface => exact execLockInterface_canonical h ..
  case startInterface => exact execStartInterface_canonical h ..
  case stopInterface => exact execStopInterface_canonical h ..
  case vfError => exact execVfError_canonical h ..
  case heartbeatTimeout => exact execHeartbeatTimeout_canonical h ..
  case endSession => exact execEndSession_canonical h ..
  case getDebugNonce => exact execGetDebugNonce_canonical h ..
  case debugPolicySubmit => exact execDebugPolicySubmit_canonical h ..
  case measurementLogRead => exact execMeasurementLogRead_canonical h
  case fuseMinimumRaise => exact execFuseMinimumRaise_canonical h ..
  case bringUpStage => exact execBringUpStage_canonical h ..
  case clusterDrain => exact execClusterDrain_canonical h ..
  case clusterFence => exact execClusterFence_canonical h ..
  case rowSpare => exact execRowSpare_canonical h
  case pageRetire => exact execPageRetire_canonical h ..
  case laneFailure => exact execLaneFailure_canonical h ..
  case peerModuleStopped => exact execPeerModuleStopped_canonical h ..
  case hostAccess => exact execHostAccess_canonical h ..

end

section
variable {s : State} (h : MemoriesCanonical s)
include h

/-! ### Issue of words and convoys (R153-R168) -/

theorem State.begin_canonical (w : BitVec 32) (pos run : Nat) (lim : Option Nat) (draws : Nat) : MemoriesCanonical (s.begin w pos run lim draws) := h

omit h in
theorem State.settleVldbs_canonical (p : State → PendingVldb → Bool) : ∀ (n : Nat) {s : State}, MemoriesCanonical s →
    MemoriesCanonical (s.settleVldbs p n)
  | 0, _, h => h
  | n + 1, s, h => by
    unfold State.settleVldbs
    split
    · exact settleVldbs_canonical p n (resultState_canonical h (execVldbDataWrite_canonical h _))
    · exact h

theorem State.settle_canonical (w : BitVec 32) (i : Option Instr) : MemoriesCanonical (s.settle w i) := by
  unfold State.settle
  split
  · exact h
  · exact settleVldbs_canonical _ _ h

theorem State.reportBad_canonical (b : BadElem) : MemoriesCanonical (s.reportBad b) := trap_canonical (onHart_canonical h _) ..

/-- A word that executes in a convoy, after what it settles. -/
theorem State.exec_begin_canonical (i : Instr) (w : BitVec 32) (pos run : Nat) (lim : Option Nat) (draws : Nat) :
    MemoriesCanonical (resultState (exec i (s.begin w pos run lim draws)) s) :=
  resultState_canonical h (exec_canonical (begin_canonical h w pos run lim draws) i)

omit h in
theorem State.runSlots_canonical (lim : Option Nat) : ∀ (l : List Slot) (draws : Nat) {s : State}, MemoriesCanonical s →
    MemoriesCanonical (s.runSlots lim draws l).2 ∧ ∀ x, (s.runSlots lim draws l).1 = some x → MemoriesCanonical x.state
  | [], _, _, h => ⟨h, fun _ e => nomatch e⟩
  | x :: l, draws, s, h => by
    have ih := @runSlots_canonical lim l
    unfold State.runSlots
    grind [settle_canonical, exec_begin_canonical]

omit h in
theorem State.settleRun_canonical (draws : Nat) (l : List Slot) : ∀ (n : Nat) (lim : Option Nat) (last : Option Halted) {s : State},
    MemoriesCanonical s → (∀ x, last = some x → MemoriesCanonical x.state) →
      MemoriesCanonical (s.settleRun draws l n lim last).2 ∧ ∀ x, (s.settleRun draws l n lim last).1 = some x → MemoriesCanonical x.state
  | 0, lim, _, _, h, hl => ⟨(runSlots_canonical lim l draws h).1, hl⟩
  | n + 1, lim, last, s, h, hl => by
    have run := runSlots_canonical lim l draws h
    have ih := @settleRun_canonical draws l n
    unfold State.settleRun
    grind

omit h in
theorem State.stopRun_canonical {t : State} (ht : MemoriesCanonical t) (draws : Nat) (x : Halted) : MemoriesCanonical (s.stopRun t draws x) := by
  unfold State.stopRun
  have off : ∀ (t : State) f, MemoriesCanonical t → MemoriesCanonical { t with fabric := f } := fun _ _ ht => ht
  grind [begin_canonical, trap_canonical, onHart_canonical]

theorem State.runAlone_canonical (draws : Nat) (x : Slot) : MemoriesCanonical (s.runAlone draws x) := by
  have run := exec_begin_canonical (settle_canonical h x.word (some x.instr)) x.instr x.word x.pos x.pos none draws
  unfold State.runAlone
  grind [onHart_canonical]

theorem State.settleRunLoads_canonical (l : List Slot) : MemoriesCanonical (s.settleRunLoads l) :=
  foldl_canonical (f := fun s (x : Slot) => s.settle x.word (some x.instr)) (fun _ _ hs => settle_canonical hs _ _) l h

theorem State.runElements_canonical (draws : Nat) (l : List Slot) : MemoriesCanonical (s.runElements draws l) := by
  have run := settleRun_canonical draws l (l.length + 1) (s.hart.cutAt l) none h (fun _ e => nomatch e)
  unfold State.runElements
  grind [onHart_canonical, stopRun_canonical]

theorem State.runOne_canonical (draws : Nat) (l : List Slot) : MemoriesCanonical (s.runOne draws l) := by
  unfold State.runOne
  grind [settleRunLoads_canonical, reportBad_canonical, begin_canonical, onHart_canonical, runAlone_canonical, runElements_canonical]

omit h in
theorem State.runAll_canonical : ∀ (l : List (List Slot)) (draws : Nat) {s : State}, MemoriesCanonical s → MemoriesCanonical (s.runAll draws l)
  | [], _, _, h => h
  | x :: l, draws, s, h => by
    have one := runOne_canonical h draws x
    have ih := @runAll_canonical l
    unfold State.runAll
    grind

theorem State.runConvoy_canonical (ws : List (BitVec 32)) : MemoriesCanonical (s.runConvoy ws) := by
  unfold State.runConvoy
  grind [begin_canonical, trap_canonical, trapWord_canonical, onHart_canonical, runAll_canonical]

theorem State.detachPast_canonical (g : GangId) (n : Nat) : MemoriesCanonical (s.detachPast g n) := onMembers_canonical h ..

theorem State.follow_canonical (next seq : Word) : MemoriesCanonical (s.follow next seq) := by
  unfold State.follow
  grind [onHart_canonical, resolve!_canonical, detachPast_canonical]

theorem State.singleStep_canonical (pc : Word) (user : Bool) : MemoriesCanonical (s.singleStep pc user) := by
  unfold State.singleStep
  grind [onHart_canonical, enterTrap_canonical]

omit h in
theorem State.retire_canonical {t : State} (ht : MemoriesCanonical t) (next : Word) (jumped kept eret : Bool) (n draws : Nat) :
    MemoriesCanonical (s.retire t next jumped kept eret n draws) := by
  have put : ∀ k, MemoriesCanonical { t with hart := k } := fun _ => ht
  unfold State.retire
  grind [orphan_canonical, unshelve_canonical, follow_canonical, singleStep_canonical]

omit h in
theorem State.finish_canonical {t : State} (ht : MemoriesCanonical t) (kept eret : Bool) (n draws : Nat) :
    MemoriesCanonical (s.finish t kept eret n draws) := by
  unfold State.finish
  grind [retire_canonical, blame_canonical, orphan_canonical, onHart_canonical]

theorem State.charged_canonical (n : Nat) : MemoriesCanonical (s.charged n) := h

theorem State.reportOrJudge_canonical (w : BitVec 32) (i : Instr) (b : BadElem) : MemoriesCanonical (s.reportOrJudge w i b) := by
  unfold State.reportOrJudge
  grind [begin_canonical, reportBad_canonical, trap_canonical]

theorem State.issueWord_canonical (w : BitVec 32) : ResultCanonical (s.issueWord w) := by
  have put := charged_canonical (settle_canonical h w (instrOf w)) (s.beatsOf [w])
  have run := fun i => exec_canonical (begin_canonical (charged_canonical (settle_canonical h w (instrOf w)) (s.beatsOf [w])) w 0 0 none 0) i
  unfold State.issueWord
  grind [ResultCanonical, finish_canonical, begin_canonical, trapWord_canonical, reportOrJudge_canonical]

theorem State.issueMany_canonical (ws : List (BitVec 32)) : MemoriesCanonical (s.issueMany ws) :=
  finish_canonical (runConvoy_canonical (charged_canonical h _) ws) ..

theorem State.early_canonical (c : Cause) (v : Word) : ResultCanonical (s.early c v) := finish_canonical (trap_canonical (begin_canonical h ..) ..) ..

theorem State.reportParity_canonical (pos : Nat) (w : BitVec 32) (v : Word) : MemoriesCanonical (s.reportParity pos w v) :=
  finish_canonical (trap_canonical (begin_canonical (onHart_canonical h _) ..) ..) ..

theorem State.issueFetch_canonical : MemoriesCanonical s.issueFetch := onHart_canonical (fetchWait_canonical h) _

theorem State.fetchFault_canonical (c : Cause) (a : Word) : ResultCanonical (s.fetchFault c a) := by
  unfold State.fetchFault
  grind [ResultCanonical, early_canonical, onHart_canonical]

theorem State.issue_canonical : ResultCanonical s.issue := by
  unfold State.issue
  grind [ResultCanonical, fetchFault_canonical, issueFetch_canonical, early_canonical, onHart_canonical, reportParity_canonical,
    issueWord_canonical, issueMany_canonical]

theorem State.abortStrand_canonical (c : Nat) (v : Word) : MemoriesCanonical (s.abortStrand c v) := by
  have put : ∀ (t : State) l, MemoriesCanonical t → MemoriesCanonical { t with launches := l } := fun _ _ ht => ht
  unfold State.abortStrand
  grind [orphan_canonical, endStrand_canonical, onHart_canonical, onQueue_canonical]

theorem State.actReady_canonical : ResultCanonical s.actReady := by
  unfold State.actReady
  grind [ResultCanonical, issue_canonical, takeReport_canonical, takeNotification_canonical, onHart_canonical]

theorem State.act_canonical : ResultCanonical s.act := by
  unfold State.act
  grind [ResultCanonical, abortStrand_canonical, issue_canonical, orphan_canonical, takeExpiry_canonical, onHart_canonical, actReady_canonical]

/-! ### The engines' own progress -/

/-- Some steps keep the form. -/
def StepsCanonical (l : List (State → Result)) : Prop := ∀ f ∈ l, ∀ s, MemoriesCanonical s → ResultCanonical (f s)

omit h in
theorem State.firstChange_canonical : ∀ (l : List (State → Result)), StepsCanonical l → ∀ {s t : State}, MemoriesCanonical s →
    s.firstChange l = some t → MemoriesCanonical t
  | [], _, _, _, _, e => nomatch e
  | f :: l, hl, s, t, h, e => by
    have now := hl f (List.mem_cons_self ..) s h
    have ih := @firstChange_canonical l (fun g hg => hl g (List.mem_cons_of_mem _ hg)) s t h
    unfold State.firstChange at e
    grind [ResultCanonical]

omit h

theorem StepsCanonical.append {l m : List (State → Result)} (hl : StepsCanonical l) (hm : StepsCanonical m) : StepsCanonical (l ++ m) :=
  fun f hf => (List.mem_append.1 hf).elim (hl f) (hm f)

theorem StepsCanonical.nil : StepsCanonical [] := fun _ hf => nomatch hf

theorem StepsCanonical.cons {f : State → Result} {l : List (State → Result)} (hf : ∀ s, MemoriesCanonical s → ResultCanonical (f s))
    (hl : StepsCanonical l) : StepsCanonical (f :: l) := List.forall_mem_cons.2 ⟨hf, hl⟩

theorem StepsCanonical.flatMap {α : Type} (l : List α) {f : α → List (State → Result)} (hf : ∀ a, StepsCanonical (f a)) :
    StepsCanonical (l.flatMap f) := fun g hg => by
  obtain ⟨a, -, ha⟩ := List.mem_flatMap.1 hg
  exact hf a g ha

theorem StepsCanonical.map {α : Type} (l : List α) {f : α → State → Result} (hf : ∀ a s, MemoriesCanonical s → ResultCanonical (f a s)) :
    StepsCanonical (l.map f) := fun g hg => by
  obtain ⟨a, -, rfl⟩ := List.mem_map.1 hg
  exact hf a

theorem State.strandSteps_canonical : StepsCanonical s.strandSteps :=
  .flatMap _ fun k => .append
    (.append (by split <;> [exact .nil; exact .cons (fun _ ht => execStorePerformed_canonical ht _) .nil])
      (by split <;> [exact .nil; exact .cons (fun _ ht => execVldbDataWrite_canonical ht _) .nil]))
    (by
      split
      · split
        · exact .nil
        · split
          · exact .cons (fun _ ht => execTransitWalkRetry_canonical ht _) .nil
          · split <;> [exact .cons (fun _ ht => execWaitListRetry_canonical ht _) .nil; exact .nil]
      · exact .nil)

theorem State.versionSteps_canonical : StepsCanonical s.versionSteps := fun f hf => by
  obtain ⟨e, -, he⟩ := List.mem_filterMap.1 hf
  obtain ⟨x, -, rfl⟩ := Option.map_eq_some_iff.1 he
  exact fun _ ht => execVersionWaitWake_canonical ht ..

theorem State.barrierSteps_canonical : StepsCanonical s.barrierSteps :=
  .flatMap _ fun _ => .map _ fun _ _ ht => execBarrierRegistration_canonical ht ..

theorem clusterSteps_canonical : StepsCanonical clusterSteps :=
  .flatMap _ fun _ => .cons (fun _ ht => execForkedProgramStart_canonical ht _) <| .cons (fun _ ht => execMatrixInstructionBegin_canonical ht _) <|
    .cons (fun _ ht => execMatrixInstructionComplete_canonical ht _) .nil

theorem jobSteps_canonical (n : Nat) : StepsCanonical (jobSteps n) :=
  .cons (fun _ ht => execCopy_canonical ht _) <| .cons (fun _ ht => execTile_canonical ht _) <| .cons (fun _ ht => execGather_canonical ht _) <|
    .cons (fun _ ht => execScatter_canonical ht _) <| .cons (fun _ ht => execPagegather_canonical ht _) <|
      .cons (fun _ ht => execFill_canonical ht _) <| .cons (fun _ ht => execDigest_canonical ht _) <|
        .cons (fun _ ht => execJobCompletion_canonical ht _) .nil

theorem State.sessionSteps_canonical (x : Session) : StepsCanonical (s.sessionSteps x) :=
  .append (by split <;> [exact .nil; exact .cons (fun _ ht => execSxRoundComplete_canonical ht ..) .nil])
    (.map _ fun _ _ ht => execSxRecordDelivery_canonical ht ..)

theorem Gang.bankSteps_canonical (g : Gang) : StepsCanonical g.bankSteps :=
  .flatMap _ fun _ => .cons (fun _ ht => execBankSwitchBegin_canonical ht ..) <| .cons (fun _ ht => execBankSwitchEnd_canonical ht ..) .nil

theorem State.queueSteps_canonical : StepsCanonical s.queueSteps :=
  .append
    (.append (.map _ fun _ _ ht => execRingEntryTake_canonical ht _) (.flatMap _ fun l => by
      split
      · exact .cons (fun _ ht => execItemStart_canonical ht _) .nil
      · exact .cons (fun _ ht => execLaunchComplete_canonical ht _) .nil
      · exact .nil))
    (.flatMap _ fun _ => .flatMap _ fun _ => .map _ fun _ _ ht => execVersionWaitNodeComplete_canonical ht ..)

theorem State.placeSteps_canonical : StepsCanonical s.placeSteps :=
  .append
    (.append (.map _ fun _ _ ht => execStrandRestore_canonical ht _)
      (.flatMap _ fun _ => .flatMap _ fun _ => .map _ fun _ _ ht => execGangResident_canonical ht ..))
    (.flatMap _ fun _ => .cons (fun _ ht => execPreEmption_canonical ht _) <| .cons (fun _ ht => execSwapOnWait_canonical ht _) .nil)

theorem State.spanSteps_canonical : StepsCanonical s.spanSteps := .map _ fun _ _ ht => execSpanRequest_canonical ht ..

theorem State.fenceSteps_canonical : StepsCanonical s.fenceSteps :=
  .append (.map _ fun _ _ ht => execClusterDrain_canonical ht _) (.map _ fun _ _ ht => execClusterFence_canonical ht _)

theorem State.healthSteps_canonical : StepsCanonical s.healthSteps :=
  .append (by split <;> [exact .cons (fun _ ht => checkLimits_canonical ht) .nil; exact .nil]) (.map _ fun _ _ ht => execPageRetire_canonical ht _)

theorem State.lateSteps_canonical : StepsCanonical s.lateSteps :=
  .append (.append (.append (.append (.map _ fun _ _ ht => execHorizonPropagation_canonical ht ..)
    (.map _ fun _ _ ht => execPartitionEnableComplete_canonical ht _)) (.map _ fun _ _ ht => execDriftEviction_canonical ht _))
    fenceSteps_canonical) healthSteps_canonical

theorem State.steps_canonical : StepsCanonical s.steps :=
  .append (.append (.append (.append (.append (.append (.append (.append (.append (.append strandSteps_canonical versionSteps_canonical)
    barrierSteps_canonical) clusterSteps_canonical) (.flatMap _ fun _ => jobSteps_canonical _)) (.flatMap _ sessionSteps_canonical))
    (.flatMap _ Gang.bankSteps_canonical)) queueSteps_canonical) placeSteps_canonical) spanSteps_canonical) lateSteps_canonical

include h

theorem State.focusProgram_canonical (k : Hart) : MemoriesCanonical (s.focusProgram k) := h

theorem State.passOver_canonical (m : Nat) : MemoriesCanonical (s.passOver m) := h

theorem State.rotate_canonical : MemoriesCanonical s.rotate := by
  unfold State.rotate
  split
  · exact h
  · dsimp only
    split
    · exact resultState_canonical (passOver_canonical h _) (execIssueVisit_canonical (passOver_canonical h _) _)
    · split
      · exact onHart_canonical (passOver_canonical h _) _
      · exact focusProgram_canonical (passOver_canonical h _) _

theorem State.progress_canonical : MemoriesCanonical s.progress := by
  unfold State.progress
  split
  next t e => exact firstChange_canonical _ steps_canonical h e
  next => exact rotate_canonical h

theorem State.takeAgenda_canonical (i : Instr) (rest : List Instr) : ResultCanonical (s.takeAgenda i rest) := by
  have run := exec_canonical (s := { s with agenda := rest }) h i
  unfold State.takeAgenda
  dsimp only
  split
  · split
    next t e =>
      rw [e] at run
      exact noteRunnable_canonical run
    next => exact run
  · exact h

theorem step_canonical : ResultCanonical (step s) := by
  have run := fun i rest => exec_canonical (s := { s with agenda := rest }) h i
  have put : ∀ l, MemoriesCanonical { s with agenda := l } := fun _ => h
  unfold step
  grind [ResultCanonical, State.takeAgenda_canonical, State.act_canonical, State.noteRunnable_canonical, State.progress_canonical]

end

/-- Settles O56: the form is kept by every function that answers with a state, so by each kind of step. -/
theorem everyStepKeepsTheMemoriesCanonical : Obligations.EveryStepKeepsTheMemoriesCanonical := by
  unfold Obligations.EveryStepKeepsTheMemoriesCanonical
  intro s t h e
  have kept := step_canonical h
  rw [e] at kept
  exact kept

end Sys2Proof.Machine
end

section
/-! Settled here: O50, accesses of the host and of functions, and the registers that lie in the BAR (R65, R82, R380-R383, R393, R456). -/

namespace Sys2Proof.Machine

open Sys2Proof.Safety

/-! ### What a failing interface leaves (R382, R391) -/

/-- A state with other partitions, another Golium and other outputs than `s`, the interfaces and the outputs being those of `s`. -/
def OwnersChanged (s t : State) : Prop := t.mem = s.mem ∧ t.golium.vfs = s.golium.vfs ∧ t.outputs = s.outputs

theorem State.closePolicy_owners (s : State) (p : Fin 8) : OwnersChanged s (s.closePolicy p) := by
  unfold State.closePolicy
  split <;> exact ⟨rfl, rfl, rfl⟩

theorem State.closePolicies_owners (s : State) (l : List (Fin 8)) : OwnersChanged s (l.foldl (fun s p => s.closePolicy p) s) := by
  induction l generalizing s with
  | nil => exact ⟨rfl, rfl, rfl⟩
  | cons p l ih =>
    obtain ⟨mem, vfs, out⟩ := ih (s.closePolicy p)
    obtain ⟨mem', vfs', out'⟩ := s.closePolicy_owners p
    exact ⟨mem.trans mem', vfs.trans vfs', out.trans out'⟩

/-- A running interface that fails is in ERROR, and nothing is sent. -/
theorem State.vfFails_run {s : State} {v : Fin 64} (hv : v ≠ 0) (hr : s.golium.vfs[v] = .run) :
    (s.vfFails v).mem = s.mem ∧ (s.vfFails v).golium.vfs = s.golium.vfs.set v .error ∧ (s.vfFails v).outputs = s.outputs := by
  obtain ⟨mem, vfs, out⟩ := s.closePolicies_owners (s.partsOf v)
  unfold State.vfFails
  rw [if_pos ⟨hv, .inr hr⟩]
  exact ⟨mem, congrArg (·.set v .error) vfs, out⟩

theorem State.ownerState_own {s : State} {p : Fin 8} {f : Fin 64} (hf : f ≠ 0) (hv : f = s.parts[p].vf) : s.ownerState p = s.golium.vfs[f] := by
  subst hv
  exact if_neg hf

/-! ### Accesses to device memory (R65, R380, R381) -/

section
variable {a : HostAcc} {s : State}

/-- What the verdict on an access to memory makes of it. -/
def State.hostOutcome (s : State) (a : HostAcc) : HostVerdict → State
  | .fine p => s.hostAccess p a
  | .abort => s.send .hostAbort
  | .violation v => (s.vfFails v).send .hostAbort

theorem execHostAccess_judged (he : s.golium.enumerable = true) (hr : a.op ≠ .barRead) (hw : ∀ v, a.op ≠ .barWrite v)
    (hl : ∀ l r, a.op ≠ .linkRead l r) : exec (.hostAccess a) s = .next (s.hostOutcome a (s.judgeHost a)) := by
  change execHostAccess a s = _
  unfold execHostAccess
  cases h : a.op with
  | barRead => exact absurd h hr
  | barWrite v => exact absurd h (hw v)
  | linkRead l r => exact absurd h (hl l r)
  | _ =>
    dsimp only
    rw [if_neg (not_not_intro he)]
    cases s.judgeHost a <;> rfl

variable (hh : isHostMemory a.addr = false) (hd : isDeviceMemory a.addr = true)
include hh hd

theorem State.judgeHost_ungranted (hg : s.grantee a.addr = none) :
    s.judgeHost a = if a.function = 0 then .fine 0 else .abort := by
  simp [State.judgeHost, hh, hd, hg]

theorem State.judgeHost_unlocked {p : Fin 8} (hg : s.grantee a.addr = some p) (hu : s.ownerState p = .configUnlocked) :
    s.judgeHost a = if a.function = 0 ∨ a.function = s.parts[p].vf then .fine p else .abort := by
  simp [State.judgeHost, hh, hd, hg, hu]

theorem State.judgeHost_locked {p : Fin 8} (hg : s.grantee a.addr = some p) (hu : s.ownerState p ≠ .configUnlocked) :
    s.judgeHost a = if s.trusts a.function a.tee = false then .violation s.parts[p].vf else if a.function = s.parts[p].vf then .fine p else .abort := by
  simp [State.judgeHost, hh, hd, hg, hu]

end

theorem State.hostRefuses_device {s : State} {a : Nat} (hh : isHostMemory a = false) (p : Fin 8) : s.hostRefuses p a = false := by
  simp [State.hostRefuses, hh]

theorem State.regionAt_nil {s : State} (hr : s.regions = []) (p : Fin 8) (a : Nat) : s.regionAt p a = none := by
  rw [State.regionAt, hr]
  rfl

section
variable {s : State} {a : HostAcc} (hh : isHostMemory a.addr = false) (hr : s.regions = []) (hb : s.badLines = [])
include hh hr hb

/-- A load that goes ahead answers with the bytes of memory. -/
theorem State.hostAccess_load (p : Fin 8) {n : Nat} (hu : s.unreadable a.addr n = false) (ho : a.op = .load n) :
    s.hostAccess p a = s.send (.hostData (s.mem.getBytes a.addr n)) := by
  simp [State.hostAccess, ho, hu, State.readTarget, State.regionAt_nil hr, State.hostRefuses_device hh, hb, State.dirtyBad, State.spanCtx]

/-- A store that goes ahead changes the bytes of memory alone. -/
theorem State.hostAccess_store (p : Fin 8) {d : List Byte} (ho : a.op = .store d) :
    s.hostAccess p a = { s with mem := s.mem.setBytes a.addr d } := by
  simp [State.hostAccess, ho, State.judgeWrite, State.regionAt_nil hr, State.blockedLines, hb, Write.meets, State.performWrites,
    State.performWrite, State.hostRefuses_device hh, Write.merge, State.cure, State.mend]

end

theorem accessesAreJudged : Claim.HostAccessesAreJudged := by
  intro a s hh hd he hr hw hl aborted open_
  have judged := execHostAccess_judged he hr hw hl
  have abort : s.judgeHost a = .abort → aborted := fun hj => by rw [hj] at judged; exact judged
  refine ⟨fun ho hreg hu hb hm => ?_, fun hg hf => abort ?_, fun p hg => ⟨fun hu hf hv => abort ?_, fun hu ht hv => abort ?_, fun hv hrun ht => ?_⟩⟩
  · obtain ⟨p, hp⟩ : ∃ p, s.judgeHost a = .fine p := by
      rcases ho with ⟨hg, hf⟩ | ⟨p, hg, ⟨hu, hf⟩ | ⟨hrun, ht, hf⟩⟩
      · exact ⟨0, by rw [State.judgeHost_ungranted hh hd hg, if_pos hf]⟩
      · exact ⟨p, by rw [State.judgeHost_unlocked hh hd hg hu, if_pos hf]⟩
      · exact ⟨p, by rw [State.judgeHost_locked hh hd hg (by simp [hrun]), if_neg (by simp [ht]), if_pos hf]⟩
    rw [judged, hp]
    exact ⟨fun n ho => congrArg Host.Outcome.next (State.hostAccess_load hh hreg hb p (hu n) ho), fun d ho =>
      ⟨_, congrArg Host.Outcome.next (State.hostAccess_store hh hreg hb p ho), rfl, Memory.getBytes_setBytes hm _ _,
        fun _ hx => Memory.get_setBytes_out d hx⟩⟩
  · rw [State.judgeHost_ungranted hh hd hg, if_neg hf]
  · rw [State.judgeHost_unlocked hh hd hg hu, if_neg (not_or.2 ⟨hf, hv⟩)]
  · rw [State.judgeHost_locked hh hd hg hu, if_neg (by simp [ht]), if_neg hv]
  · have locked : s.ownerState p ≠ .configUnlocked := by rw [State.ownerState_own hv rfl, hrun]; decide
    obtain ⟨mem, vfs, out⟩ := State.vfFails_run hv hrun
    rw [judged, State.judgeHost_locked hh hd hg locked, if_pos ht]
    exact ⟨_, rfl, mem, vfs, congrArg (_ :: ·) out⟩

/-! ### The registers of the BAR (R380, R383, R393) -/

section
variable (s : State)

theorem State.barReg_part (p : Fin 8) {o : Nat} (ho : o < 0x1000) : s.barReg 0 (0x10000 + p.val * 0x1000 + o) = partReg p o := by
  have hp := p.isLt
  have number : Fin.ofNat 8 ((0x10000 + p.val * 0x1000 + o - 0x10000) / 0x1000) = p := Fin.ext (by rw [Fin.val_ofNat]; omega)
  have offset : (0x10000 + p.val * 0x1000 + o) % 0x1000 = o := by omega
  rw [State.barReg, if_pos rfl, if_neg (by omega), if_pos (by omega), number, offset]

theorem State.barReg_queue (q : Fin 64) : s.barReg 0 (0x20000 + q.val * 0x40) = some (.qcfg q) := by
  have hq := q.isLt
  have number : Fin.ofNat 64 ((0x20000 + q.val * 0x40 - 0x20000) / 0x40) = q := Fin.ext (by rw [Fin.val_ofNat]; omega)
  have offset : (0x20000 + q.val * 0x40) % 0x40 = 0 := by omega
  rw [State.barReg, if_pos rfl, if_neg (by omega), if_neg (by omega), if_pos (by omega), number, offset]
  rfl

theorem State.barReg_ownQueue {f : Fin 64} (hf : f ≠ 0) (q : Fin 64) : s.barReg f (0x1000 + q.val * 0x40) = some (.qcfg q) := by
  have hq := q.isLt
  have number : Fin.ofNat 64 ((0x1000 + q.val * 0x40 - 0x1000) / 0x40) = q := Fin.ext (by rw [Fin.val_ofNat]; omega)
  have offset : (0x1000 + q.val * 0x40) % 0x40 = 0 := by omega
  rw [State.barReg, if_neg hf, if_neg (by omega), if_pos (by omega), number, offset]
  rfl

/-- PCFG as it reads: LOCK is set while the owner is locked (R383). -/
theorem State.pcfg_lock (p : Fin 8) : s.pcfg p = s.parts[p].cfg |||
    if s.parts[p].vf ≠ 0 ∧ s.golium.vfs[s.parts[p].vf] ≠ .configUnlocked then 0x4000000000000000 else 0 := by
  unfold State.pcfg State.ownerState
  grind

theorem State.barViolates_pf (tee : Bool) (o : Nat) : s.barViolates { function := 0, tee := tee } o = false := by
  unfold State.barViolates
  split <;> rfl

end

section
variable {s : State} {f : Fin 64} {tee : Bool} {o : Nat}

theorem State.barViolates_ownQueue {q : Fin 64} (hf : f ≠ 0) : s.barViolates { function := f, tee := tee } (0x1000 + q.val * 0x40) =
    (f == s.parts[s.queues[q].part].vf && s.ownerState s.queues[q].part != .configUnlocked && ! s.trusts f tee) := by
  simp [State.barViolates, State.barReg_ownQueue s hf q, State.barLock, LockGroup.shut, bne_iff_ne.2 hf]

/-- What a function's read of a register shows: a queue of another partition reads as 0 (R380). -/
def State.barShows (s : State) (f : Fin 64) (r : BarReg) : Option Word :=
  match s.queuePart r with
  | some p => if f = 0 ∨ f = s.parts[p].vf then s.barValue r else some 0
  | none => s.barValue r

theorem State.barRead_shows {r : BarReg} (hr : s.barReg f o = some r) (hh : r.isHealth = false) {w : Word} (hw : s.barShows f r = some w) :
    s.barRead f o = (w, s) := by
  rw [State.barRead, hr]
  simp only [Option.any_some, hh, Bool.false_eq_true, if_false, hr, Option.bind_some]
  change (match s.barShows f r with | some v => (v, s) | none => _) = _
  rw [hw]

theorem execHostAccess_barRead (he : s.golium.enumerable = true) (hv : s.barViolates { function := f, tee := tee } o = false) :
    exec (.hostAccess { function := f, tee := tee, addr := o, op := .barRead }) s =
      .next ((s.barRead f o).2.send (.hostData (leBytes 8 (s.barRead f o).1.toNat))) := by
  change execHostAccess { function := f, tee := tee, addr := o, op := .barRead } s = _
  rw [execHostAccess]
  simp only [he, not_true_eq_false, if_false, hv, Bool.false_eq_true]

/-- A register that the read does not change, and that the function may see. -/
theorem execHostAccess_shows (he : s.golium.enumerable = true) (hv : s.barViolates { function := f, tee := tee } o = false) {r : BarReg}
    (hr : s.barReg f o = some r) (hh : r.isHealth = false) {w : Word} (hw : s.barShows f r = some w) :
    exec (.hostAccess { function := f, tee := tee, addr := o, op := .barRead }) s =
      .next { s with outputs := .hostData (leBytes 8 w.toNat) :: s.outputs } := by
  rw [execHostAccess_barRead he hv, State.barRead_shows hr hh hw]
  rfl

/-- A read of a locked register without the TEE bit. -/
theorem execHostAccess_violates (he : s.golium.enumerable = true) (hv : s.barViolates { function := f, tee := tee } o = true) :
    exec (.hostAccess { function := f, tee := tee, addr := o, op := .barRead }) s = .next ((s.vfFails f).send .hostAbort) := by
  change execHostAccess { function := f, tee := tee, addr := o, op := .barRead } s = _
  rw [execHostAccess]
  simp only [he, not_true_eq_false, if_false, hv, if_true]

/-- HEALTH is read after the corrected errors have been counted. -/
theorem State.barRead_health : s.barRead 0 8 = (s.sampleErrors.health, s.sampleErrors) := rfl

/-- A register that a management link or a message to the PF carries, where the link is heard. -/
theorem execHostAccess_linkRead {l : SpdmLink} (hl : s.hears l = true) (hm : l = .management ∨ l = .vdm) {r : PlainReg}
    (hr : r = .clmask ∨ r = .health ∨ r = .pcap) {t : State} (ht : t = if r = .health then s.sampleErrors else s) {w : Word}
    (hw : t.barValue (.plain r) = some w) :
    exec (.hostAccess { function := f, tee := tee, addr := o, op := .linkRead l r }) s = .next (t.send (.linkData l (leBytes 8 w.toNat))) := by
  change Host.Outcome.next (s.linkRead l r) = _
  rw [State.linkRead]
  simp only [hl, hm, hr, and_self, if_true, ← ht, hw]

end

theorem registersLieInTheBar : Claim.RegistersAreReachedInTheBar := by
  intro p q f v tee s reads shows locked k own linked
  have seen : ∀ o r w, s.golium.enumerable = true → s.barReg 0 o = some r → r.isHealth = false → s.barValue r = some w → shows 0 o w :=
    fun o r w he hr hh hw => execHostAccess_shows he (s.barViolates_pf tee o) hr hh (by
      rw [State.barShows]
      split <;> simp [hw])
  refine ⟨fun he a hl => ?_, fun he => ⟨?_, ?_, ?_, fun hf hv => ?_, fun ⟨hf, hv⟩ ho => ?_, fun ⟨hf, hv⟩ hrun ht => ?_, ?_, ?_⟩, fun l hl => ?_⟩
  · change execHostAccess a s = _
    unfold execHostAccess
    cases h : a.op with
    | linkRead l r => exact absurd h (hl l r)
    | _ => exact if_pos (by simp [he])
  · exact seen _ (.pcfg p) _ he (s.barReg_part p (o := 0) (by decide)) rfl (congrArg some (s.pcfg_lock p))
  · exact seen _ _ _ he (s.barReg_part p (by decide)) rfl rfl
  · exact seen _ _ _ he (s.barReg_queue q) rfl rfl
  · refine execHostAccess_shows he ?_ (s.barReg_ownQueue hf q) rfl ?_
    · have other : (f == s.parts[s.queues[q].part].vf) = false := beq_eq_false_iff_ne.2 hv
      rw [State.barViolates_ownQueue hf, other]
      rfl
    · exact if_neg (not_or.2 ⟨hf, hv⟩)
  · have owner : s.ownerState s.queues[q].part = s.golium.vfs[f] := State.ownerState_own hf hv
    refine execHostAccess_shows he ?_ (s.barReg_ownQueue hf q) rfl (if_pos (.inr hv))
    rw [State.barViolates_ownQueue hf, owner]
    rcases ho with ho | ho <;> simp [ho]
  · have owner : s.ownerState s.queues[q].part = s.golium.vfs[f] := State.ownerState_own hf hv
    obtain ⟨mem, vfs, out⟩ := State.vfFails_run hf hrun
    refine ⟨_, execHostAccess_violates he ?_, mem, vfs, congrArg (_ :: ·) out⟩
    rw [State.barViolates_ownQueue hf, owner, hrun, ht, hv]
    simp [k]
  · exact ⟨_, execHostAccess_barRead he (s.barViolates_pf tee 8), rfl, s.sampleErrors_judged.mem⟩
  · have reg : s.barReg 0 (0x10000 + p.val * 0x1000) = some (.pcfg p) := s.barReg_part p (o := 0) (by decide)
    change execHostAccess { function := 0, tee := tee, addr := 0x10000 + p.val * 0x1000, op := .barWrite v } s =
      execPcfgWrite { function := 0, tee := tee } p v s
    rw [execHostAccess]
    simp only [he, not_true_eq_false, if_false, State.barWrite, reg]
  · have hears : s.hears l = true := by
      rcases hl with ⟨rfl, hl⟩ | ⟨rfl, hl⟩
      · exact bne_iff_ne.2 hl
      · exact hl
    have either : l = .management ∨ l = .vdm := hl.imp And.left And.left
    exact ⟨execHostAccess_linkRead hears either (.inl rfl) rfl rfl, execHostAccess_linkRead hears either (.inr (.inr rfl)) rfl rfl,
      _, execHostAccess_linkRead hears either (.inr (.inl rfl)) rfl rfl, rfl, s.sampleErrors_judged.mem⟩

/-- Settles O50: a verdict decides what an access to memory does, and an offset which register is reached. -/
theorem hostAccessesAreJudged : Obligations.HostAccessesAreJudged := ⟨accessesAreJudged, registersLieInTheBar⟩

end Sys2Proof.Machine
end

section
/-! Settled here: O25, indexed atomics, VPUSH and VPOP (R74, R98, R269-R272). -/

namespace Sys2Proof.Machine

open Sys2Proof.Safety

/-! ### The operations (R217, R270) -/

/-- What an atomic makes of the old value of an element under a tag. -/
def amoOf (op : AmoOp) (t : Tag) (old b : Nat) : Nat :=
  if t = .fp32 then floatAmo op old b else amoApply op (tagWidth t / 8) old b 0

/-- An operation that works on these tags is `f` on integers of `w` bits and `g` on FP32. -/
def Computes (op : Vamox) (f : Nat → Nat → Nat → Nat) (g : Nat → Nat → Nat) : Prop :=
  ∀ t old b, vamoxTag op t = true →
    amoOf (vamoxAmo op) t old b = if t = .fp32 then g old b else f (8 * (tagWidth t / 8)) old b

/-! ### One element -/

section
variable {s : State} {op : AmoOp} {t : Tag} {n pa : Nat} {va : Word}

theorem State.modify_device {c : Ctx} {ok : Bool} {f : Nat → Nat} (hr : s.regionAt c.part pa = none) (hh : isHostMemory pa = true → ok = true)
    (hg : s.hostRefuses c.part pa = false) (hb : s.badLines.contains (pa / 128 * 128) = false) (hd : s.dirtyBad c.gang (pa / 128 * 128) = false) :
    s.modify c (.device pa) n ok f = .ok (s.mem.getNat pa n) { s with mem := s.mem.setBytes pa (leBytes n (f (s.mem.getNat pa n))) } := by
  have host : ¬ (isHostMemory pa = true ∧ ¬ ok = true) := fun ⟨h, k⟩ => k (hh h)
  simp only [State.modify, hr, host, hg, hb, hd, Option.isSome_none, Bool.false_eq_true, or_self, if_false]

/-- An element led to a device address that holds its line is applied there. -/
theorem State.vamoxElem_device {cls : Fin 16} {base : Word} {r i : Reg} {e : Nat} (hv : va = base + BitVec.ofNat 64 (s.hart.elem i e * (tagWidth t / 8)))
    (ha : va.toNat % (tagWidth t / 8) = 0) (hl : LeadsToDevice .atomic s va pa) (hr : Readable s pa)
    (hh : isHostMemory pa = true → t ≠ .fp32 ∧ hostExecutes op = true) :
    s.vamoxElem op t cls base r i e = .ok () { s with
      mem := s.mem.setBytes pa (leBytes (tagWidth t / 8) (amoOf op t (s.mem.getNat pa (tagWidth t / 8)) (s.hart.elem r e))) } := by
  obtain ⟨lead, region⟩ := hl
  obtain ⟨refuses, bad, dirty⟩ := hr
  have al : aligned va (tagWidth t / 8) = true := beq_iff_eq.2 ha
  unfold State.vamoxElem
  simp only [Hart.indexOf, ← hv, al, not_true_eq_false, if_false]
  by_cases hf : t = .fp32
  · subst hf
    have kept : isHostMemory pa = true → false = true := fun h => absurd rfl (hh h).1
    simp only [ne_eq, not_true_eq_false, if_false, lead, State.modify_device region kept refuses bad dirty]
    rfl
  · have kept : isHostMemory pa = true → hostExecutes op = true := fun h => (hh h).2
    simp only [ne_eq, hf, not_false_eq_true, if_true, State.atomic, lead, State.modify_device region kept refuses bad dirty, amoOf, if_false]
    rfl

end

/-! ### Every active element, in order (R269-R271) -/

/-- A run whose elements each change memory as `upd` says applies them all. -/
theorem State.vamoxRun_all {step : Nat → State → Got Unit} {upd : Memory → Nat → Memory} : ∀ (l : List Nat) {s : State},
    (∀ k e, l[k]? = some e → step e { s with mem := (l.take k).foldl upd s.mem } = .ok () { s with mem := upd ((l.take k).foldl upd s.mem) e }) →
      s.vamoxRun step l = (none, { s with mem := l.foldl upd s.mem })
  | [], _, _ => rfl
  | e :: l, s, h => by
    have now : step e s = .ok () { s with mem := upd s.mem e } := h 0 e rfl
    have rest := vamoxRun_all l (s := { s with mem := upd s.mem e }) fun k x hx => h (k + 1) x hx
    rw [State.vamoxRun, now]
    exact rest

theorem Memory.get_foldl_out {upd : Memory → Nat → Memory} {l : List Nat} {a : Nat} (h : ∀ m, ∀ e ∈ l, (upd m e).get a = m.get a) (m : Memory) :
    (l.foldl upd m).get a = m.get a := by
  induction l generalizing m with
  | nil => rfl
  | cons e l ih => rw [List.foldl_cons, ih (fun m x hx => h m x (List.mem_cons_of_mem _ hx)), h m e (List.mem_cons_self ..)]

/-- An indexed atomic all of whose elements are applied leaves memory as they leave it, and one pending store. -/
theorem State.vamox_applied {s t : State} {op : Vamox} {r i m : Reg} {n : Fin 8} {cls : Fin 16} (hs : s.hart.engine = .strand)
    (hj : s.hart.judge (vamoxTag op (s.hart.tag r) && isIntTag (s.hart.tag i)) (vamoxFree op (s.hart.tag r))
      (min (tagMvl (s.hart.tag r)) (tagMvl (s.hart.tag i))) = none) (hv : s.hart.vlen ≠ 0) (hf : s.hart.storesFull = false)
    (ha : s.hart.active m ≠ []) (hn : op = .addu → s.hart.tag r = .fp32 → ((s.hart.active m).map (s.hart.elem i)).Nodup)
    (hr : s.vamoxRun (fun e u => u.vamoxElem (vamoxAmo op) (s.hart.tag r) cls (s.hart.base n) r i e) (s.hart.active m) = (none, t)) :
    s.vamox op r n i cls m = .next (t.onHart (·.addPending cls)) := by
  rw [State.vamox]
  simp only [hj]
  rw [State.vector_next _ _ hs hv]
  have distinct : ∀ p : Nat → Bool, ¬ (op = .addu ∧ s.hart.tag r = .fp32 ∧ ¬ (((s.hart.active m).filter p).map (s.hart.indexOf i)).Nodup ∧
      ¬ stalled none = true) := fun p ⟨ho, hf, hd, _⟩ => hd ((hn ho hf).sublist (List.Sublist.map _ List.filter_sublist))
  simp only [ha, hf, hr, if_false, Bool.false_eq_true, if_neg (distinct _)]
  rfl

theorem vamoxOn_of {i : Instr} {op : Vamox} {r x m : Reg} {n : Fin 8} {cls : Fin 16} {f : Nat → Nat → Nat → Nat} {g : Nat → Nat → Nat}
    (hi : ∀ s, exec i s = s.vamox op r n x cls m) (hc : Computes op f g) : Claim.VamoxOn i op r n x cls m f g := by
  intro s pa h T z va act put after hs ht hx hdet hv hmost hmostx hfull hact hdup he
  have judged : h.judge (vamoxTag op T && isIntTag (h.tag x)) (vamoxFree op T) (min (tagMvl T) (tagMvl (h.tag x))) = none := by
    have long : ¬ min (tagMvl T) (tagMvl (h.tag x)) < h.vlen := by omega
    have free : ¬ (h.st.det = true ∧ vamoxFree op T = true) := fun ⟨hd, k⟩ => by rw [hdet hd] at k; exact absurd k (by decide)
    simp only [Hart.judge, ht, hx, Bool.and_self, not_true_eq_false, if_false, if_neg free, if_neg long]
  have one : ∀ k e, act[k]? = some e →
      (after k).vamoxElem (vamoxAmo op) T cls (h.base n) r x e = .ok () { s with mem := put ((act.take k).foldl put s.mem) e } := fun k e hk => by
    obtain ⟨al, lead, readable, host⟩ := he k e hk
    have executes : isHostMemory (pa e) = true → T ≠ .fp32 ∧ hostExecutes (vamoxAmo op) = true := fun hh => by
      obtain ⟨hT, ho⟩ := host hh
      exact ⟨hT, by rcases ho with rfl | rfl | rfl <;> rfl⟩
    rw [State.vamoxElem_device (s := after k) (t := T) rfl al lead readable executes, hc T _ _ ht]
  refine ⟨?_, fun a ha => Memory.get_foldl_out (fun mem e hm => Memory.get_setBytes_out _ ?_) s.mem⟩
  · rw [hi, State.vamox_applied hs judged hv hfull hact hdup (State.vamoxRun_all act one)]
    simp only [after, List.take_length]
    rfl
  · rw [length_leBytes]
    exact ha e (List.take_length (l := act) ▸ hm)

theorem indexedAtomicsApply : Claim.IndexedAtomicsApplyTheirOperation := fun r x m n cls => by
  refine ⟨vamoxOn_of (fun _ => rfl) ?_, vamoxOn_of (fun _ => rfl) ?_, vamoxOn_of (fun _ => rfl) ?_, vamoxOn_of (fun _ => rfl) ?_,
    vamoxOn_of (fun _ => rfl) ?_, vamoxOn_of (fun _ => rfl) ?_, vamoxOn_of (fun _ => rfl) ?_, vamoxOn_of (fun _ => rfl) ?_⟩
  all_goals exact fun t old b ht => rfl

/-! ### FIFO banks (R74, R272) -/

section
variable {s : State}

/-- A push or pop finds the bank in FIFO mode, with its entry size and its depth. -/
theorem State.fifoBank_ready {kind : WaitKind} {va : Word} {bytes : Nat} {K : Bank} {w : BitVec 4} {z : BitVec 16} (hl : clusterBase ≤ va.toNat)
    (hu : va.toNat < clusterBase + clusterSize) (hk : s.bank? (some (gangOf s.hart.id)) ((va.toNat - clusterBase) / 0x40000) = some K)
    (hs : K.switching = none) (hm : K.mode = .fifo w z) (hr : K.receive = false) (hb : bytes ≤ 2 ^ w.toNat) :
    s.fifoBank kind va bytes = .ok ((va.toNat - clusterBase) / 0x40000, K, 2 ^ w.toNat, z.toNat + 1) s := by
  have inside : ¬ (va.toNat < clusterBase ∨ clusterBase + clusterSize ≤ va.toNat) := by omega
  have bank : s.bank? s.hart.ctx.gang ((va.toNat - clusterBase) / 0x40000) = some K := hk
  have fits : ¬ (K.receive = true ∨ 2 ^ w.toNat < bytes) := by simp [hr, hb]
  simp only [State.fifoBank, if_neg inside, bank, hs, Option.isSome_none, Bool.false_eq_true, if_false, hm, fifoShape, if_neg fits]

theorem Hart.judge_whole (h : Hart) {most : Nat} (hv : h.vlen ≤ most) : h.judge true false most = none := by
  have short : ¬ most < h.vlen := by omega
  simp [Hart.judge, short]

/-- Nobody is ahead where no strand of the gang waits or keeps a turn. -/
theorem State.fifoAhead_of_idle {h : Hart} (hi : ∀ o ∈ s.allHarts, o.id ≠ h.id → gangOf o.id = gangOf h.id → o.wait = none ∧ o.turn = none)
    (k : WaitKind) (va : Word) : s.fifoAhead h k va = false := by
  refine List.any_eq_false.2 fun o ho => ?_
  by_cases hid : o.id = h.id
  · simp [hid]
  · by_cases hg : gangOf o.id = gangOf h.id
    · obtain ⟨wait, turn⟩ := hi o ho hid hg
      simp [wait, turn]
    · simp [hg]

end

theorem length_entryBytes (w : Nat) (l : List Nat) : (entryBytes w l).length = l.length * (w / 8) := by
  simp [entryBytes, List.length_flatMap]

theorem eight_dvd_tagWidth (t : Tag) : 8 ∣ tagWidth t := by cases t <;> decide

theorem State.setBank_hart (s : State) (g : Option GangId) (b : Nat) (k : Bank) : (s.setBank g b k).hart = s.hart := by
  unfold State.setBank
  split <;> rfl

/-- The entry that a push appends, before it is filled up with zeros. -/
def Hart.pushed (h : Hart) (r m : Reg) : List Byte :=
  entryBytes (tagWidth (h.tag r)) ((List.range h.vlen).map fun e => if (h.getP m).getLsbD e then h.elem r e else 0)

theorem Hart.length_pushed (h : Hart) (r m : Reg) : (h.pushed r m).length = h.vlen * tagWidth (h.tag r) / 8 := by
  rw [Hart.pushed, length_entryBytes, List.length_map, List.length_range, ← Nat.mul_div_assoc _ (eight_dvd_tagWidth _)]

section
variable {s : State} {r m : Reg} {n : Fin 8} {cls : Fin 16} {b size depth : Nat} {K : Bank} (hs : s.hart.engine = .strand) (hv : s.hart.vlen ≠ 0)
  (hmost : s.hart.vlen ≤ tagMvl (s.hart.tag r))
include hs hv hmost

theorem execVpush_appends (hf : s.fifoBank .push (s.hart.base n) (s.hart.vlen * tagWidth (s.hart.tag r) / 8) = .ok (b, K, size, depth) s)
    (hroom : K.entries.length < depth) (hfull : s.hart.storesFull = false) (ha : s.fifoAhead s.hart .push (s.hart.base n) = false) :
    execVpush r n cls m s = .next { s.setBank (some (gangOf s.hart.id)) b { K with
        entries := K.entries ++ [s.hart.pushed r m ++ List.replicate (size - (s.hart.pushed r m).length) 0] } with
      hart := { (if s.hart.wholeActive m = [] then s.hart else s.hart.addPending cls) with turn := none } } := by
  have stored : ¬ (s.hart.wholeActive m ≠ [] ∧ s.hart.storesFull = true) := by simp [hfull]
  have room : ¬ (depth ≤ K.entries.length ∨ s.fifoAhead s.hart .push (s.hart.base n) = true) := by simp [ha, hroom]
  rw [execVpush, Hart.judge_whole _ hmost, State.vector_next _ _ hs hv]
  simp only [if_neg stored, hf, State.withAcc, if_neg room]
  by_cases hw : s.hart.wholeActive m = []
  · rw [if_neg (not_not_intro hw), if_pos hw]
    rw [State.onHart, State.setBank_hart]
    rfl
  · rw [if_pos hw, if_neg hw]
    rw [State.onHart, State.onHart, State.setBank_hart]
    rfl

theorem execVpop_takes {y : List Byte} {rest : List (List Byte)}
    (hf : s.fifoBank .pop (s.hart.base n) (s.hart.vlen * tagWidth (s.hart.tag r) / 8) = .ok (b, K, size, depth) s)
    (hy : K.entries = y :: rest) (ha : s.fifoAhead s.hart .pop (s.hart.base n) = false) (hb : K.bad.contains 0 = false) :
    execVpop r n cls m s = .next (State.onHart { s.setBank (some (gangOf s.hart.id)) b { K with entries := rest, bad := K.bad.map (· - 1) } with
        hart := { s.hart with turn := none } } fun h => h.setV r (s.hart.tag r) (putElems h.v[r] (tagWidth (s.hart.tag r))
          ((s.hart.wholeActive m).map fun e => (e, leNat ((y.drop (e * (tagWidth (s.hart.tag r) / 8))).take (tagWidth (s.hart.tag r) / 8)))))) := by
  rw [execVpop, Hart.judge_whole _ hmost, State.vector_next _ _ hs hv]
  simp only [hf, State.withAcc, hy, ha, hb, Bool.false_eq_true, if_false]
  rw [State.onHart, State.setBank_hart]
  rfl

end

theorem fifoBanksPushAndPop : Claim.FifoBanksPushAndPopEntries := by
  intro r m n cls s b K w z h T va bytes g hs hv hmost hl hu hb hK hsw hm hrc hbytes put entry
  have ready : ∀ kind, s.fifoBank kind (h.base n) bytes = .ok (b, K, 2 ^ w.toNat, z.toNat + 1) s := fun kind => by
    subst hb
    exact State.fifoBank_ready hl hu hK hsw hm hrc hbytes
  refine ⟨fun hroom hfull hahead => ?_, fun y rest hy hahead hbad => ?_, fun k hi => State.fifoAhead_of_idle hi k _⟩
  · have := execVpush_appends (m := m) (cls := cls) hs hv hmost (ready .push) hroom hfull hahead
    rwa [Hart.length_pushed] at this
  · exact ⟨_, execVpop_takes (cls := cls) hs hv hmost (ready .pop) hy hahead hbad, writesV_setV _ r T (h.wholeActive m) _ (h.nodup_wholeActive m)⟩

/-- Settles O25: each element of an indexed atomic is applied to what the lower ones left, and a FIFO bank is used at its two ends. -/
theorem indexedAtomicsAndFifoBanks : Obligations.IndexedAtomicsAndFifoBanks := ⟨indexedAtomicsApply, fifoBanksPushAndPop⟩

end Sys2Proof.Machine
end

section
/-! Settled here: O32, JOB, LAUNCH, STREAM and BANKCFG (R71-R74, R78, R106, R212, R216, R282, R301, R350, R355, R442). -/

namespace Sys2Proof.Machine

open Sys2Proof.Safety

/-! ### Fields of a card, of a header and of a register -/

theorem Queue.part_eq_iff (q : Queue) (p : Fin 8) : q.part = p ↔ q.cfg.toNat / 2 ^ 59 % 8 = p.val := by
  rw [Queue.part, ← Fin.val_inj]
  rfl

/-! ### JOB (R106, R301) -/

theorem Card.refusal_format {v : Nat} (h : ¬ (1 ≤ v % 65536 ∧ v % 65536 ≤ 2)) : (Card.parse v).refusal = some 0x8000000000000001 := by
  have : (Card.parse v).format = v % 65536 := by simp [Card.parse, bits]
  exact if_pos (by omega)

section
variable {v : Nat} (h : 1 ≤ v % 65536 ∧ v % 65536 ≤ 2)
include h

theorem Card.refusal_ring (hr : v / 2 ^ 64 % 2 ^ 64 % 64 ≠ 0 ∨ 16 < v / 2 ^ 27 % 32) : (Card.parse v).refusal = some 0x8000000000000002 := by
  have format : (Card.parse v).format = v % 65536 := by simp [Card.parse, bits]
  rw [Card.refusal, if_neg (by omega)]
  exact if_pos hr

theorem Card.refusal_none (hr : v / 2 ^ 64 % 2 ^ 64 % 64 = 0) (hl : v / 2 ^ 27 % 32 ≤ 16) : (Card.parse v).refusal = none := by
  have format : (Card.parse v).format = v % 65536 := by simp [Card.parse, bits]
  have ring : ¬ (v / 2 ^ 64 % 2 ^ 64 % 64 ≠ 0 ∨ 16 < v / 2 ^ 27 % 32) := by omega
  rw [Card.refusal, if_neg (by omega)]
  exact if_neg ring

end

/-- An address that is not aligned to a block. -/
theorem not_aligned {va : Word} (h : va.toNat % 128 ≠ 0) : ¬ aligned va 128 = true := fun k => h (beq_iff_eq.1 k)

theorem aligned_of {va : Word} (h : va.toNat % 128 = 0) : aligned va 128 = true := beq_iff_eq.2 h

theorem Card.tiles_parse (v : Nat) : (Card.parse v).tiles = v.testBit 21 := by
  rw [Nat.testBit_eq_decide_div_mod_eq]
  rfl

/-- The counter of the class of a job is full (R106). -/
def Hart.jobsFull (h : Hart) (v : Nat) : Bool := if (Card.parse v).tiles then h.cnt.tiles == 0xFFFF else h.cnt.copies == 0xFFFF

/-- The job that the strand in front makes of a card (R106). -/
def State.newJob (s : State) (v : Nat) : Job :=
  { item := s.items, die := s.myDie, ctx := .strand s.hart.id, id := s.hart.nextJob, part := s.hart.part, asid := s.hart.csr.asid
    troot := s.hart.csr.troot, super := s.hart.st.priv, gang := some (gangOf s.hart.id), det := s.hart.st.det, rank := s.hart.rank
    card := leBytes 128 v, waited := false, hold := none, expired := none, begun := false, kept := [], progress := 0
    todo := [], cures := [], ending := none, slot := none, replies := [], result := none, complete := false }

/-- The state with that job queued and counted, its id in a register. -/
def State.withJob (s : State) (d : Reg) (v : Nat) : State :=
  { s with jobs := s.jobs ++ [s.newJob v], items := s.items + 1 }.onHart fun h =>
    { h with
      nextJob := nextId h.nextJob
      cnt := if (Card.parse v).tiles then { h.cnt with tiles := h.cnt.tiles + 1 } else { h.cnt with copies := h.cnt.copies + 1 }
    }.setX d (h.nextJob.zeroExtend 64)

/-- The launch that the strand in front makes of a header (R212). -/
def State.newLaunch (s : State) (va : Word) (v : Nat) : Launch :=
  let q := s.queues[headerQueue v]
  launchOf v s.items s.myDie (headerQueue v) q.part q.asid q.nextSeq va none (some s.hart.id.launch) true

/-- The state with that launch queued, its sequence number in a register. -/
def State.withLaunch (s : State) (d : Reg) (va : Word) (v : Nat) : State :=
  let q := s.queues[headerQueue v]
  { s with
    launches := s.launches ++ [s.newLaunch va v]
    items := s.items + 1
    queues := s.queues.set (headerQueue v) { q with nextSeq := q.nextSeq + 1 } }.onHart fun h => h.setX d q.nextSeq

section
variable {s : State} {d a : Reg} {v : Nat} (hs : s.hart.engine = .strand)
include hs

theorem execJob_misaligned (h : (s.hart.getX a).toNat % 128 ≠ 0) : exec (.job d a) s = .next (s.trap false 0 .misaligned (s.hart.getX a)) := by
  change execJob d a s = _
  rw [execJob, State.strandOnly_strand _ _ hs]
  exact congrArg Host.Outcome.next (if_pos (not_aligned h))

theorem execLaunch_misaligned (h : (s.hart.getX a).toNat % 128 ≠ 0) :
    exec (.launch d a) s = .next (s.trap false 0 .misaligned (s.hart.getX a)) := by
  change execLaunch d a s = _
  rw [execLaunch, State.strandOnly_strand _ _ hs]
  exact congrArg Host.Outcome.next (if_pos (not_aligned h))

variable (ha : (s.hart.getX a).toNat % 128 = 0) (hb : s.readBlock (s.hart.getX a) 128 = .ok v s)
include ha hb

/-- A card that is read decides what JOB does: it is refused, held, or queued (R106, R301). -/
theorem execJob_read : exec (.job d a) s = .next (match (Card.parse v).refusal with
    | some n => s.onHart fun h => h.setX d (BitVec.ofNat 64 n)
    | none => if ¬ s.hasRoom s.myDie ∨ s.hart.jobsFull v then s.stall 0 else s.withJob d v) := by
  change execJob d a s = _
  rw [execJob, State.strandOnly_strand _ _ hs]
  refine congrArg Host.Outcome.next ((if_neg (not_not_intro (aligned_of ha))).trans ?_)
  rw [hb]
  rfl

/-- A header that is read decides what LAUNCH does (R212, R350). -/
theorem execLaunch_read : exec (.launch d a) s = .next (match s.launchRefusal v with
    | some n => s.onHart fun h => h.setX d (BitVec.ofNat 64 n)
    | none => if ¬ s.hasRoom s.myDie then s.stall 0 else s.withLaunch d (s.hart.getX a) v) := by
  change execLaunch d a s = _
  rw [execLaunch, State.strandOnly_strand _ _ hs]
  refine congrArg Host.Outcome.next ((if_neg (not_not_intro (aligned_of ha))).trans ?_)
  rw [hb]
  rfl

end

/-- A full counter holds JOB (R106). -/
theorem Hart.jobsFull_iff {h : Hart} {v : Nat} : h.jobsFull v = true ↔ (if v.testBit 21 then h.cnt.tiles else h.cnt.copies) = 0xFFFF := by
  rw [Hart.jobsFull, Card.tiles_parse]
  split <;> exact beq_iff_eq

theorem State.withJob_eq (s : State) (d : Reg) (v : Nat) : s.withJob d v = { s with
    jobs := s.jobs ++ [s.newJob v], items := s.items + 1
    hart := { s.hart with
      nextJob := if s.hart.nextJob = 0xFFFFFFFF then 1 else s.hart.nextJob + 1
      cnt := if v.testBit 21 then { s.hart.cnt with tiles := s.hart.cnt.tiles + 1 } else { s.hart.cnt with copies := s.hart.cnt.copies + 1 }
      }.setX d (s.hart.nextJob.zeroExtend 64) } := by
  rw [State.withJob, Card.tiles_parse]
  rfl

theorem jobsAreQueuedOrRefused : Claim.JobsAreQueuedOrRefused := by
  intro d a s v hs h va tiles
  refine ⟨execJob_misaligned hs, fun ha hb => ?_⟩
  rw [execJob_read hs ha hb]
  refine ⟨fun hf => ?_, fun hf hr => ?_, fun hf hr hl hroom hcount => ⟨s.newJob v, ?_, rfl, rfl, rfl, rfl⟩, fun hf hr hl hfull => ?_⟩
  · rw [Card.refusal_format hf]
    rfl
  · rw [Card.refusal_ring hf hr]
    rfl
  · have free : ¬ (¬ s.hasRoom s.myDie = true ∨ s.hart.jobsFull v = true) := by
      rw [not_or, not_not, Hart.jobsFull_iff]
      exact ⟨hroom, hcount⟩
    rw [Card.refusal_none hf hr hl]
    exact congrArg Host.Outcome.next ((if_neg free).trans (s.withJob_eq d v))
  · have full : ¬ s.hasRoom s.myDie = true ∨ s.hart.jobsFull v = true := hfull.imp (by simp) Hart.jobsFull_iff.2
    rw [Card.refusal_none hf hr hl]
    exact congrArg Host.Outcome.next (if_pos full)

/-! ### LAUNCH (R212, R350, R355) -/

section
variable {s : State} {v : Nat}

theorem checkHeader_format (h : v % 65536 ≠ 1) : checkHeader v false = some .format := if_pos (by simpa [bits] using h)

theorem checkHeader_field (h : v % 65536 = 1)
    (hf : v / 2 ^ 20 % 32 < 12 ∨ 20 < v / 2 ^ 20 % 32 ∨ 44 < v / 2 ^ 32 % 64 ∨ v / 2 ^ 64 % 4 ≠ 0) : checkHeader v false = some .field := by
  rw [checkHeader, if_neg (by simpa [bits] using h), if_pos]
  simp only [bits]
  omega

theorem State.launchRefusal_format (h : v % 65536 ≠ 1) : s.launchRefusal v = some 0x8000000000000001 := by
  rw [State.launchRefusal, checkHeader_format h]

theorem State.launchRefusal_field (h : v % 65536 = 1)
    (hf : v / 2 ^ 20 % 32 < 12 ∨ 20 < v / 2 ^ 20 % 32 ∨ 44 < v / 2 ^ 32 % 64 ∨ v / 2 ^ 64 % 4 ≠ 0) :
    s.launchRefusal v = some 0x8000000000000002 := by
  rw [State.launchRefusal, checkHeader_field h hf]

theorem State.launchRefusal_queue (h : checkHeader v false = none) (hq : s.queues[headerQueue v].cfg.getLsbD 63 = false ∨
    s.queues[headerQueue v].cfg.toNat / 2 ^ 59 % 8 ≠ s.hart.part.val) : s.launchRefusal v = some 0x8000000000000003 := by
  rw [State.launchRefusal, h]
  exact if_neg fun ⟨he, hp⟩ => hq.elim (fun k => Bool.false_ne_true (k.symm.trans (bit_toNat _ 63 ▸ he))) fun k => k ((Queue.part_eq_iff _ _).1 hp)

theorem State.launchRefusal_none (h : checkHeader v false = none) (he : s.queues[headerQueue v].cfg.getLsbD 63 = true)
    (hp : s.queues[headerQueue v].cfg.toNat / 2 ^ 59 % 8 = s.hart.part.val) : s.launchRefusal v = none := by
  rw [State.launchRefusal, h]
  exact if_pos ⟨(bit_toNat _ 63).trans he, (Queue.part_eq_iff _ _).2 hp⟩

end

theorem launchesAreQueuedOrRefused : Claim.LaunchesAreQueuedOrRefused := by
  intro d a s v hs va n q refused
  refine ⟨execLaunch_misaligned hs, fun ha hb => ?_⟩
  have read := execLaunch_read (d := d) hs ha hb
  refine ⟨fun hf => ?_, fun hf hr => ?_, fun hc hq => ?_, fun hc he hp hroom => ⟨s.newLaunch va v, ?_, rfl, rfl, rfl, rfl, rfl, rfl, ?_⟩,
    fun hc he hp hroom => ?_⟩
  · rw [State.launchRefusal_format hf] at read
    exact read
  · rw [State.launchRefusal_field hf hr] at read
    exact read
  · rw [State.launchRefusal_queue hc hq] at read
    exact read
  · rw [read, State.launchRefusal_none hc he hp]
    exact congrArg Host.Outcome.next (if_neg (not_not_intro hroom))
  · exact Nat.mod_eq_of_lt (Nat.mod_lt _ (by decide))
  · rw [read, State.launchRefusal_none hc he hp]
    exact congrArg Host.Outcome.next (if_pos (by simp [hroom]))

/-! ### STREAM and STREAMOFF (R78, R282) -/

theorem execStream_strand {n : Fin 8} {b : Reg} {z : Size} {s : State} (hs : s.hart.engine = .strand) :
    exec (.stream n b z) s = .next (s.onHart fun h =>
      let rest := h.streams.filter fun x => x.reg != n
      { h with streams := if rest.length < 4 then rest ++ [{ reg := n, base := h.base n, length := h.getX b, size := z, position := h.base n }]
        else rest }) := by
  change execStream n b z s = _
  rw [execStream, State.strandOnly_strand _ _ hs]

theorem execStreamoff_strand {n : Fin 8} {s : State} (hs : s.hart.engine = .strand) :
    exec (.streamoff n) s = .next (s.onHart fun h => { h with streams := h.streams.filter fun x => x.reg != n }) := by
  change execStreamoff n s = _
  rw [execStreamoff, State.strandOnly_strand _ _ hs]

theorem streamsAreBoundAndReleased : Claim.StreamsAreBoundAndReleased := by
  refine fun n b z => ⟨fun s hs => ⟨_, execStream_strand hs, ?_⟩, fun s hs => ⟨_, execStreamoff_strand hs, rfl⟩⟩
  have reg : addrReg n = Fin.ofNat 32 (16 + n.val) := Fin.ext (by simp [addrReg, Fin.ofNat]; omega)
  rw [HartBecomes, ← reg]
  rfl

/-! ### BANKCFG (R71, R72, R216) -/

section
variable {d a b : Reg} {s : State} (hs : s.hart.engine = .strand)
include hs

/-- BANKCFG answers with the configuration the bank will hold, unless it names no bank or no mode. -/
theorem execBankcfg_strand : exec (.bankcfg d a b) s = .next (match s.bank? (some (gangOf s.hart.id)) ((s.hart.getX a).toNat % 64) with
    | none => s.trap false 0 .bank (bankAddr ((s.hart.getX a).toNat % 64))
    | some k =>
      if bit (s.hart.getX b).toNat 63 = true then s.onHart fun h => h.setX d k.configWord
      else
        match bankModeOf (s.hart.getX b).toNat with
        | none => s.trap false 0 .bank (bankAddr ((s.hart.getX a).toNat % 64))
        | some m =>
          if m = k.future then s.onHart fun h => h.setX d k.configWord
          else (s.setBank (some (gangOf s.hart.id)) ((s.hart.getX a).toNat % 64) { k with queued := k.queued ++ [m] }).onHart
            fun h => h.setX d k.configWord) := by
  change execBankcfg d a b s = _
  unfold execBankcfg
  exact State.strandOnly_strand s _ hs

end

theorem bankSwitchesAreQueued : Claim.BankSwitchesAreQueued := by
  intro d a b s hs g n v traps
  have cfg := execBankcfg_strand (d := d) (a := a) (b := b) hs
  refine ⟨fun hk => ?_, fun k hk => ?_⟩
  · rw [show s.bank? (some (gangOf s.hart.id)) ((s.hart.getX a).toNat % 64) = none from hk] at cfg
    exact cfg
  · rw [show s.bank? (some (gangOf s.hart.id)) ((s.hart.getX a).toNat % 64) = some k from hk] at cfg
    have off : (s.hart.getX b).getLsbD 63 = false → ¬ bit (s.hart.getX b).toNat 63 = true := fun h h' =>
      Bool.false_ne_true (h.symm.trans ((bit_toNat _ 63).symm.trans h'))
    refine ⟨fun h63 => cfg.trans (congrArg Host.Outcome.next (if_pos ((bit_toNat _ 63).trans h63))), fun h63 hm => ?_, fun m h63 hm => ?_⟩
    · refine cfg.trans (congrArg Host.Outcome.next ((if_neg (off h63)).trans ?_))
      rw [show bankModeOf (s.hart.getX b).toNat = none from hm]
      rfl
    · refine ⟨fun hf => ?_, fun hf => ?_⟩ <;> refine cfg.trans (congrArg Host.Outcome.next ((if_neg (off h63)).trans ?_)) <;>
        rw [show bankModeOf (s.hart.getX b).toNat = some m from hm]
      · exact if_pos hf
      · refine (if_neg hf).trans ?_
        rw [State.onHart, State.setBank_hart]

/-! ### The switch of a bank (R72-R74, R442) -/

section
variable {g : GangId} {b : Fin 44} {s : State} {k : Bank} (hk : s.bank? (some g) b.val = some k)
include hk

theorem execBankSwitchEnd_switching {m : BankMode} (hs : k.switching = some m) :
    exec (.bankSwitchEnd g b) s = .next (s.setBank (some g) b.val { Bank.fresh m with queued := k.queued }) := by
  change execBankSwitchEnd g b s = _
  rw [execBankSwitchEnd, hk]
  simp only [hs]

theorem execBankSwitchEnd_idle (hs : k.switching = none) : exec (.bankSwitchEnd g b) s = .next s := by
  change execBankSwitchEnd g b s = _
  rw [execBankSwitchEnd, hk]
  simp only [hs]

end

section
variable {s : State} {g : GangId}

theorem State.setBank_frame (b : Nat) (k : Bank) : (s.setBank (some g) b k).badLines = s.badLines ∧ (s.setBank (some g) b k).mem = s.mem := by
  unfold State.setBank
  split <;> exact ⟨rfl, rfl⟩

/-- The uncorrectable dirty lines that a bank writes back: none, or they join the memory's (R442). -/
theorem State.writeBackBad_none {p : Nat × Nat → Bool} (h : ∀ x, s.gang? g = some x → ∀ e ∈ x.dirtyBad, p e = false) : s.writeBackBad g p = s := by
  unfold State.writeBackBad
  split
  · rfl
  next x hx =>
    have out : x.dirtyBad.filter p = [] := List.filter_eq_nil_iff.2 fun e he => by simp [h x hx e he]
    simp [List.partition_eq_filter_filter, out]

theorem State.writeBackBad_lines (p : Nat × Nat → Bool) (n : Nat) :
    n ∈ (s.writeBackBad g p).badLines ↔ n ∈ s.badLines ∨ ∃ x, s.gang? g = some x ∧ ∃ e ∈ x.dirtyBad, p e = true ∧ e.2 = n := by
  unfold State.writeBackBad
  split
  next hx => simp [hx]
  next x hx =>
    simp only [hx, Option.some.injEq, exists_eq_left', List.partition_eq_filter_filter]
    split
    next he =>
      have clean : ∀ e ∈ x.dirtyBad, ¬ p e = true := List.filter_eq_nil_iff.1 (List.isEmpty_iff.1 he)
      exact ⟨.inl, fun h => h.elim id fun ⟨e, he, hp, _⟩ => absurd hp (clean e he)⟩
    next =>
      simp only [List.mem_append, List.mem_filter, List.mem_map, Bool.not_eq_true', List.contains_eq_mem, decide_eq_false_iff_not]
      grind

theorem State.writeBackBad_frame (p : Nat × Nat → Bool) : (s.writeBackBad g p).mem = s.mem ∧ (s.writeBackBad g p).hart = s.hart ∧
    (s.writeBackBad g p).harts = s.harts := by
  unfold State.writeBackBad
  split
  · exact ⟨rfl, rfl, rfl⟩
  · dsimp only
    split <;> exact ⟨rfl, rfl, rfl⟩

end

/-- A strand whose push or pop waits at a bank arrives again when its switch begins. -/
theorem Hart.arriveAgain_eq (h : Hart) (g : GangId) (b : Nat) : h.arriveAgain g b = match h.wait with
    | some w => if decide (gangOf h.id = g ∧ (w.kind = .push ∨ w.kind = .pop) ∧ bankNumber w.addr = b) then
        { h with wait := none, turn := some { kind := w.kind, addr := w.addr, since := w.since } } else h
    | none => h := by
  unfold Hart.arriveAgain
  cases hw : h.wait with
  | none => rfl
  | some w =>
    have same : (gangOf h.id == g && (w.kind == .push || w.kind == .pop) && bankNumber w.addr == b) =
        decide (gangOf h.id = g ∧ (w.kind = .push ∨ w.kind = .pop) ∧ bankNumber w.addr = b) := by
      rw [Bool.eq_iff_iff]
      simp [and_assoc]
    rw [Option.filter_some, same]
    dsimp only
    cases decide (gangOf h.id = g ∧ (w.kind = .push ∨ w.kind = .pop) ∧ bankNumber w.addr = b) <;> rfl

/-- The state in which a bank's switch has begun. -/
def State.switchBegun (s : State) (g : GangId) (b : Fin 44) (k : Bank) (m : BankMode) (l : List BankMode) : State :=
  { s.setBank (some g) b.val { k with switching := some m, queued := l } with
    hart := s.hart.arriveAgain g b.val, harts := s.harts.map fun h => h.arriveAgain g b.val }

theorem execBankSwitchBegin_queued {g : GangId} {b : Fin 44} {s : State} {k : Bank} {m : BankMode} {l : List BankMode}
    (hk : s.bank? (some g) b.val = some k) (hs : k.switching = none) (hq : k.queued = m :: l) (hr : k.receive = false) :
    exec (.bankSwitchBegin g b) s =
      .next ((if k.mode = .cache then s.writeBackBad g (·.1 == b.val) else s).switchBegun g b k m l) := by
  obtain ⟨mode, switching, queued, bytes, entries, receive, bad⟩ := k
  dsimp only at hs hq hr
  subst hs hq hr
  change execBankSwitchBegin g b s = _
  rw [execBankSwitchBegin, hk]
  rfl

theorem bankSwitchesBeginAndEnd : Claim.BankSwitchesBeginAndEnd := by
  intro g b s k m l hk here again lost
  have again_eq : ∀ h : Hart, h.arriveAgain g b.val = again h := fun h => h.arriveAgain_eq g b.val
  have lost_iff : ∀ n, n ∈ (if k.mode = .cache then s.writeBackBad g (·.1 == b.val) else s).badLines ↔ n ∈ s.badLines ∨ lost n := fun n => by
    by_cases hc : k.mode = .cache
    · rw [if_pos hc, State.writeBackBad_lines]
      refine or_congr_right ⟨fun ⟨x, hx, e, he, hb, hn⟩ => ⟨hc, x, hx, ?_⟩, fun ⟨_, x, hx, he⟩ => ⟨x, hx, _, he, beq_self_eq_true _, rfl⟩⟩
      rwa [← beq_iff_eq.1 hb, ← hn]
    · rw [if_neg hc]
      exact ⟨.inl, fun h => h.elim id fun h => absurd h.1 hc⟩
  refine ⟨fun hs hq hr hl => ?_, fun hs hq hr => ?_, execBankSwitchEnd_switching hk, execBankSwitchEnd_idle hk⟩
  · have kept : (if k.mode = .cache then s.writeBackBad g (·.1 == b.val) else s) = s := by
      split
      next hc => exact State.writeBackBad_none fun x hx e he => beq_eq_false_iff_ne.2 fun hb => hl e.2 ⟨hc, x, hx, hb ▸ he⟩
      next => rfl
    rw [execBankSwitchBegin_queued hk hs hq hr, kept]
    simp only [State.switchBegun, again_eq]
  · obtain ⟨mem, hart, harts⟩ : (if k.mode = .cache then s.writeBackBad g (·.1 == b.val) else s).mem = s.mem ∧
        (if k.mode = .cache then s.writeBackBad g (·.1 == b.val) else s).hart = s.hart ∧
        (if k.mode = .cache then s.writeBackBad g (·.1 == b.val) else s).harts = s.harts := by
      split
      · exact State.writeBackBad_frame _
      · exact ⟨rfl, rfl, rfl⟩
    refine ⟨_, execBankSwitchBegin_queued hk hs hq hr, fun n => ?_, (State.setBank_frame ..).2.trans mem, ?_, ?_⟩
    · rw [← lost_iff n]
      exact iff_of_eq (congrArg (n ∈ ·) (State.setBank_frame ..).1)
    · simp only [State.switchBegun, again_eq, hart]
    · simp only [State.switchBegun, again_eq, harts]

/-- Settles O32: what JOB, LAUNCH and BANKCFG read decides which of their ways they go, and a switch of a bank has two steps. -/
theorem itemsStreamsAndBankModes : Obligations.ItemsStreamsAndBankModes :=
  ⟨jobsAreQueuedOrRefused, launchesAreQueuedOrRefused, streamsAreBoundAndReleased, bankSwitchesAreQueued, bankSwitchesBeginAndEnd⟩

end Sys2Proof.Machine
end

section
/-! Settled here: O2, scalar loads and stores (R98, R114, R186, R187), and O3, scalar atomics and TOPKINS (R217-R220, R339, R340). -/

namespace Sys2Proof.Machine

open Sys2Proof.Safety

/-! ### Addresses that are aligned or not (R186) -/

theorem aligned_iff {va : Word} {n : Nat} : aligned va n = true ↔ va.toNat % n = 0 := beq_iff_eq

theorem memOperand_eq (h : Hart) (a : Reg) (sz : Size) (o : BitVec 8) :
    memOperand h a sz o = h.getX a + o.signExtend 64 * BitVec.ofNat 64 sz.bytes := rfl

/-- A strand is no control core. -/
theorem isControl_of_strand {h : Hart} (hs : h.engine = .strand) : h.isControl = false := by simp [Hart.isControl, hs]

/-! ### Where an address leads (R57-R59) -/

/-- Behind another rank's window no bank is reached. -/
theorem State.exportResolve_ne_bank {s : State} {c : Ctx} {k : AccessKind} {o b off : Nat} : s.exportResolve c k o ≠ .ok (.bank b off) := by
  unfold State.exportResolve
  grind

/-- An address that leads to a bank lies in the cluster window, so no access through it leaves the gang out. -/
theorem State.ctxAt_of_bank {s : State} {c : Ctx} {k : AccessKind} {va : Word} {b off : Nat} (h : s.resolve c k va = .ok (.bank b off)) :
    c.at va = c := by
  have cluster : ¬ (spanBase ≤ va.toNat ∧ va.toNat < clusterBase) := fun ⟨hl, hu⟩ => by
    simp only [State.resolve, if_neg (Nat.not_lt.2 hl), if_pos hu] at h
    split at h
    · cases h
    · split at h
      · cases h
      · split at h
        · exact State.exportResolve_ne_bank h
        · cases h
  rw [Ctx.at, if_neg cluster]

theorem Ctx.at_part (c : Ctx) (va : Word) : (c.at va).part = c.part := by unfold Ctx.at; split <;> rfl

/-- A gang without an uncorrectable dirty line holds none through a span window either. -/
theorem State.dirtyBad_at {s : State} {c : Ctx} {l : Nat} (h : s.dirtyBad c.gang l = false) (va : Word) : s.dirtyBad (c.at va).gang l = false := by
  unfold Ctx.at
  split
  · rfl
  · exact h

/-! ### Loads (R114, R186, R187) -/

/-- A plain load of the hart that finds bytes answers with them and changes nothing. -/
theorem State.loadBytes_finds {s : State} {va : Word} {n : Nat} {l : List Byte} (h : Finds s va n l) (cls : Fin 16) (e : Nat) :
    s.loadBytes va n cls e = .ok l s := by
  rcases h with ⟨pa, ⟨lead, region⟩, ⟨refuses, bad, dirty⟩, rfl⟩ | ⟨b, off, K, ⟨lead, bank, still, mode⟩, good, rfl⟩ |
    ⟨pa, i, r, q, lead, region, det, kept, rfl⟩
  · have region' : s.regionAt (s.hart.ctx.at va).part pa = none := by rw [Ctx.at_part]; exact region
    have refuses' : s.hostRefuses (s.hart.ctx.at va).part pa = false := by rw [Ctx.at_part]; exact refuses
    simp only [State.loadBytes, lead, State.readTarget, region', refuses', bad, State.dirtyBad_at dirty, Bool.false_eq_true, if_false]
  · have bank' : s.bank? s.hart.ctx.gang b = some K := bank
    have scratch : K.isScratch = true := beq_iff_eq.2 mode
    simp only [State.loadBytes, lead, State.readTarget, State.ctxAt_of_bank lead, bank', still, scratch, good, Option.isSome_none,
      Bool.false_eq_true, not_true_eq_false, if_false]
  · have region' : s.regionAt (s.hart.ctx.at va).part pa = some (i, r, q) := by rw [Ctx.at_part]; exact region
    simp only [State.loadBytes, lead, State.readTarget, region', det, kept, Bool.false_and, Bool.false_eq_true, if_false]

theorem State.scalarLoad_finds {s : State} {d a : Reg} {cls : Fin 16} {sz : Size} {o : BitVec 8} {l : List Byte}
    (ha : (memOperand s.hart a sz o).toNat % sz.bytes = 0) (hm : s.behindMatrix = false) (hf : Finds s (memOperand s.hart a sz o) sz.bytes l)
    (f : List Byte → Word) : s.scalarLoad d a cls sz o f = .next (s.onHart fun h => h.setX d (f l)) := by
  simp only [State.scalarLoad, aligned_iff.2 ha, hm, State.loadBytes_finds hf, State.withAcc, not_true_eq_false, Bool.false_eq_true, if_false]

theorem loadsWriteWhatMemoryHolds : Claim.LoadsWriteWhatMemoryHolds := by
  intro d a cls sz o l va pre
  exact ⟨fun s ⟨ha, hm, hf⟩ => ⟨_, State.scalarLoad_finds ha hm hf _, writesX_setX s d fun _ => signedOfBytes l⟩,
    fun s ⟨ha, hm, hf⟩ => ⟨_, State.scalarLoad_finds ha hm hf _, writesX_setX s d fun _ => wordOfBytes l⟩⟩

/-! ### Writes shorter than a line (R98, R186, R442) -/

/-- A write that does not fill a line covers none. -/
theorem coversLine_short {w : Write} (h : w.data.length < 128) (line : Nat) : coversLine [w] line = false := by
  by_contra hc
  have all := List.all_eq_true.1 (Bool.of_not_eq_false hc)
  have first := all 0 (by simp)
  have last := all 127 (by simp)
  obtain ⟨target, data, va, mask⟩ := w
  cases target with
  | device pa =>
    simp at first last h
    omega
  | bank b off => simp at first
  | remote q off => simp at first

/-- Lines of which none has been rewritten leave the state as it is. -/
theorem State.cure_nothing {s : State} {l : Nat → Bool} (g : Option GangId) (h : ∀ n, l n = false) : s.cure g l = s := by
  have none : l = fun _ => false := funext h
  subst none
  have same : (fun x : Gang => if some x.id = g then { x with dirtyBad := x.dirtyBad.filter fun _ => ! false } else x) = id :=
    funext fun x => by split <;> simp
  simp only [State.cure, State.mend, same]
  simp

section
variable {s : State} {w : Write} (hw : w.data.length < 128)
include hw

theorem State.performWrites_short (p : Fin 8) (g : Option GangId) : s.performWrites p g [w] = s.performWrite p g s.badLines w := by
  have blocked : s.blockedLines [w] = s.badLines := by simp [State.blockedLines, coversLine_short hw]
  simp only [State.performWrites, blocked, List.foldl_cons, List.foldl_nil, State.cure_nothing g (coversLine_short hw)]

/-- A short store of the hart to a line that reads correctly, or to a bank, is performed and counted. -/
theorem State.commitStore_short {cls : Fin 16} (hb : ∀ pa, w.target = .device pa → s.badLines.contains (pa / 128 * 128) = false) :
    s.commitStore cls [w] = (s.performWrite s.hart.part s.hart.ctx.gang s.badLines w).onHart (·.addPending cls) := by
  have blocked : s.blockedLines [w] = s.badLines := by simp [State.blockedLines, coversLine_short hw]
  have kept : s.droppedWrite [w] = none := by
    rw [State.droppedWrite, blocked, List.find?_cons, List.find?_nil]
    cases ht : w.target with
    | device pa => simp only [hb pa ht]
    | bank b off => rfl
    | remote q off => rfl
  simp only [State.commitStore, State.performStores, State.performWrites_short hw, kept]

end

/-! ### Stores (R98, R186) -/

theorem Write.merge_full (t : Target) (l : List Byte) (va : Word) (old : List Byte) :
    ({ target := t, data := l, va := va, mask := 0xFF } : Write).merge old = l := by simp [Write.merge]

theorem storesDevice_setBytes (s : State) (pa n v : Nat) (h : Hart → Hart) :
    StoresDevice pa n v h s { s with mem := s.mem.setBytes pa (leBytes n v), hart := h s.hart } := by
  refine ⟨rfl, fun x hx => Memory.get_setBytes_out _ ?_, fun wf => ?_⟩
  · rwa [length_leBytes]
  · have := Memory.getBytes_setBytes wf pa (leBytes n v)
    rwa [length_leBytes] at this

theorem storesBank_setBytes (s : State) (b off n v : Nat) (K : Bank) (h : Hart → Hart) :
    StoresBank b off n v K h s { s.setBank (some (gangOf s.hart.id)) b { K with bytes := K.bytes.setBytes off (leBytes n v) } with hart := h s.hart } := by
  refine ⟨_, rfl, fun x hx => Memory.get_setBytes_out _ ?_, fun wf => ?_⟩
  · rwa [length_leBytes]
  · have := Memory.getBytes_setBytes wf off (leBytes n v)
    rwa [length_leBytes] at this

section
variable {s : State} {x a : Reg} {cls : Fin 16} {sz : Size} {o : BitVec 8}

theorem bytes_le (sz : Size) : sz.bytes ≤ 8 := by cases sz <;> decide

/-- The write that a store makes at a target. -/
def Hart.storeWrite (h : Hart) (x a : Reg) (sz : Size) (o : BitVec 8) (t : Target) : Write :=
  { target := t, data := leBytes sz.bytes (h.getX x).toNat, va := memOperand h a sz o, mask := 0xFF }

theorem Hart.storeWrite_short (h : Hart) (t : Target) : (h.storeWrite x a sz o t).data.length < 128 := by
  have := bytes_le sz
  simp only [Hart.storeWrite, length_leBytes]
  omega

/-- A store whose target may be written and lies in this package commits its write. -/
theorem exec_st_local {t : Target} (ha : (memOperand s.hart a sz o).toNat % sz.bytes = 0) (hf : s.hart.storesFull = false)
    (hm : s.behindMatrix = false) (hr : s.resolve s.hart.ctx .store (memOperand s.hart a sz o) = .ok t) (ht : ∀ q off, t ≠ .remote q off)
    (hj : s.judgeWrite s.hart.ctx t = .ok () s) : exec (.st x a cls sz o) s = .next (s.commitStore cls [s.hart.storeWrite x a sz o t]) := by
  have target : s.storeTarget (memOperand s.hart a sz o) (leBytes sz.bytes (s.hart.getX x).toNat) 0xFF = .ok (s.hart.storeWrite x a sz o t) s := by
    simp only [State.storeTarget, hr, hj]
    rfl
  have kept : s.sendStore (s.hart.storeWrite x a sz o t) cls 0 = .ok () s := by
    cases t with
    | remote q off => exact absurd rfl (ht q off)
    | device pa => rfl
    | bank b off => rfl
  have arm : exec (.st x a cls sz o) s = execSt x a cls sz o s := rfl
  rw [arm]
  simp only [execSt, aligned_iff.2 ha, hf, hm, not_true_eq_false, Bool.false_eq_true, or_self, if_false, target, State.withAcc, kept]

end

theorem storesWriteTheirBytes : Claim.StoresWriteTheirBytesAndNoOther := by
  intro x a cls sz o va ready counted
  refine ⟨fun s pa ⟨ha, hf, hm⟩ ⟨lead, region⟩ bad refuses => ?_, fun s b off K ⟨ha, hf, hm⟩ ⟨lead, bank, still, mode⟩ => ?_, fun h hs => ?_⟩
  · have region' : s.regionAt s.hart.ctx.part pa = none := region
    have may : s.judgeWrite s.hart.ctx (.device pa) = .ok () s := by simp [State.judgeWrite, region']
    refine ⟨_, exec_st_local ha hf hm lead (by simp) may, ?_⟩
    rw [State.commitStore_short (s.hart.storeWrite_short _) fun pa' h => by cases h; exact bad]
    have written : s.performWrite s.hart.part s.hart.ctx.gang s.badLines (s.hart.storeWrite x a sz o (.device pa)) =
        { s with mem := s.mem.setBytes pa (leBytes sz.bytes (s.hart.getX x).toNat) } := by
      simp only [State.performWrite, Hart.storeWrite, Write.merge_full, bad, refuses, Bool.false_eq_true, or_self, if_false]
    rw [written]
    exact storesDevice_setBytes s pa sz.bytes _ counted
  · have bank' : s.bank? s.hart.ctx.gang b = some K := bank
    have scratch : K.isScratch = true := beq_iff_eq.2 mode
    have may : s.judgeWrite s.hart.ctx (.bank b off) = .ok () s := by simp [State.judgeWrite, bank', still, scratch]
    refine ⟨_, exec_st_local ha hf hm lead (by simp) may, ?_⟩
    rw [State.commitStore_short (s.hart.storeWrite_short _) fun pa' h => by cases h]
    have word : ¬ (off % 32 = 0 ∧ sz.bytes = 32 ∧ True) := fun ⟨_, h, _⟩ => by have := bytes_le sz; omega
    have written : s.performWrite s.hart.part s.hart.ctx.gang s.badLines (s.hart.storeWrite x a sz o (.bank b off)) =
        s.setBank (some (gangOf s.hart.id)) b { K with bytes := K.bytes.setBytes off (leBytes sz.bytes (s.hart.getX x).toNat) } := by
      simp only [State.performWrite, Hart.storeWrite, Write.merge_full, bank', length_leBytes, if_neg word]
      rfl
    rw [written, State.onHart, State.setBank_hart]
    exact storesBank_setBytes s b off sz.bytes _ K counted
  · simp only [counted, Hart.addPending, isControl_of_strand hs]
    exact ⟨rfl, rfl⟩

/-! ### Misaligned accesses (R186, R190, R198, R212, R217, R220, R273, R301) -/

theorem State.scalarAmo_misaligned {s : State} {d a b : Reg} {cls : Fin 16} {op : AmoOp} {n : Nat} (hs : OnStrand s) (hd : s.hart.st.det = false)
    (ha : (s.hart.getX a).toNat % n ≠ 0) : s.scalarAmo d a b cls op n = .next (s.trap false 0 .misaligned (s.hart.getX a)) := by
  rw [State.scalarAmo, State.strandOnly_strand _ _ hs]
  simp only [hd, mt aligned_iff.1 ha, Bool.false_eq_true, false_and, not_false_eq_true, if_false, if_true]

theorem misalignedScalarAccessesTrap : Claim.MisalignedScalarAccessesTrap := by
  intro d a b cls sz o i s off x jt bad
  refine ⟨fun h => ?_, fun h => ?_, fun hs => ⟨fun h => ?_, fun h hd => ?_, fun h hd => ?_, fun h => ?_, fun h => ?_⟩⟩
  · have no : ¬ aligned (memOperand s.hart a sz o) sz.bytes = true := mt aligned_iff.1 h
    exact ⟨congrArg _ (if_pos no), congrArg _ (if_pos no), congrArg _ (if_pos no)⟩
  · have no : ¬ aligned (s.hart.getX a + signed i) 4 = true := mt aligned_iff.1 h
    exact congrArg _ (if_neg no)
  · have arm : exec (.fork a b) s = execFork a b s := rfl
    rw [arm, execFork, State.strandOnly_strand _ _ hs]
    exact congrArg _ (if_pos (mt aligned_iff.1 h))
  · refine ⟨State.scalarAmo_misaligned hs hd h, State.scalarAmo_misaligned hs hd h, ?_⟩
    have plain : ¬ (s.hart.st.det = true ∧ s.hart.version b = noVersion) := by simp [hd]
    have arm : exec (.ldv d a b cls) s = execLdv d a b cls s := rfl
    rw [arm, execLdv, State.strandOnly_strand _ _ hs]
    exact congrArg _ ((if_neg plain).trans (if_pos (mt aligned_iff.1 h)))
  · exact ⟨State.scalarAmo_misaligned hs hd h, State.scalarAmo_misaligned hs hd h⟩
  · have arm : exec (.topkins a b cls) s = execTopkins a b cls s := rfl
    rw [arm, execTopkins, State.strandOnly_strand _ _ hs]
    exact congrArg _ (if_pos (mt aligned_iff.1 h))
  · exact ⟨execLaunch_misaligned hs h, execJob_misaligned hs h⟩

/-- Settles O2: a load writes what the access finds, a store that is short of a line leaves every other byte, and both are judged for
alignment first. -/
theorem scalarLoadsAndStores : Obligations.ScalarLoadsAndStores :=
  ⟨loadsWriteWhatMemoryHolds, storesWriteTheirBytes, misalignedScalarAccessesTrap⟩

/-! ### Scalar atomics (R217-R219) -/

section
variable {s : State} {d a b : Reg} {cls : Fin 16} {op : AmoOp} {n : Nat}

/-- A gang that holds no uncorrectable dirty line of the address writes none back. -/
theorem State.spilled_clean {va : Word} (h : ∀ pa, s.resolve s.hart.ctx .atomic va = .ok (.device pa) →
    s.dirtyBad s.hart.ctx.gang (pa / 128 * 128) = false) : s.spilled va = s := by
  unfold State.spilled
  split
  next pa lead =>
    refine State.writeBackBad_none fun x hx e he => ?_
    have clean := h pa lead
    simp only [State.dirtyBad, Hart.ctx, Option.bind_some, hx] at clean
    exact Bool.eq_false_iff.2 fun hp => by simpa [List.any_eq_true] using List.any_eq_false.1 clean e he hp
  · rfl

/-- What an atomic leaves to do once its operands have been judged. -/
def State.amoStep (s : State) (d a b : Reg) (cls : Fin 16) (op : AmoOp) (n : Nat) : State :=
  s.withAcc (s.hart.getX a) (s.atomic (s.hart.getX a) n op ((s.hart.getX b).toNat % 2 ^ (8 * n)) ((s.hart.getX d).toNat % 2 ^ (8 * n))
    cls (d == 0) 0) fun r t => t.onHart fun h => (h.addPending cls).setX d (signedOfBytes (leBytes n r))

theorem State.scalarAmo_ready (hs : OnStrand s) (hd : s.hart.st.det = true → d = 0 ∧ op ≠ .cas) (ha : (s.hart.getX a).toNat % n = 0)
    (hf : s.hart.storesFull = false) (hc : ∀ pa, s.resolve s.hart.ctx .atomic (s.hart.getX a) = .ok (.device pa) →
      s.dirtyBad s.hart.ctx.gang (pa / 128 * 128) = false) : s.scalarAmo d a b cls op n = .next (s.amoStep d a b cls op n) := by
  have free : ¬ (s.hart.st.det = true ∧ (d ≠ 0 ∨ op = .cas)) := fun ⟨h, k⟩ => by
    obtain ⟨h0, hop⟩ := hd h
    exact k.elim (· h0) hop
  rw [State.scalarAmo, State.strandOnly_strand _ _ hs]
  simp only [if_neg free, aligned_iff.2 ha, hf, not_true_eq_false, Bool.false_eq_true, if_false, State.spilled_clean hc]
  rfl

theorem State.modify_bank {c : Ctx} {x off : Nat} {K : Bank} {ok : Bool} {f : Nat → Nat} (hk : s.bank? c.gang x = some K)
    (hs : K.switching = none) (hm : K.mode = .scratch) (hb : K.bad.contains (off / 32) = false) :
    s.modify c (.bank x off) n ok f = .ok (K.bytes.getNat off n)
      (s.setBank c.gang x { K with bytes := K.bytes.setBytes off (leBytes n (f (K.bytes.getNat off n))) }) := by
  have scratch : K.isScratch = true := beq_iff_eq.2 hm
  simp only [State.modify, hk, hs, scratch, hb, Option.isSome_none, Bool.false_eq_true, not_true_eq_false, if_false]

theorem State.atomic_local {va : Word} {t : Target} (hr : s.resolve s.hart.ctx .atomic va = .ok t) (ht : ∀ q off, t ≠ .remote q off)
    (x e : Nat) (posted : Bool) (k : Nat) :
    s.atomic va n op x e cls posted k = s.modify s.hart.ctx t n (hostExecutes op) fun old => amoApply op n old x e := by
  cases t with
  | remote q off => exact absurd rfl (ht q off)
  | device pa => simp only [State.atomic, hr]
  | bank b off => simp only [State.atomic, hr]

end

/-- A scalar atomic of the model is the one its claim describes, where its operation is `f`. -/
theorem atomicOn_of {i : Instr} {d a b : Reg} {cls : Fin 16} {op : AmoOp} {n : Nat} {f : Nat → Nat → Nat → Nat}
    (hi : ∀ s, exec i s = s.scalarAmo d a b cls op n) (hf : ∀ old x e, amoApply op n old x e = f old x e) :
    Claim.AtomicOn i d a b cls n (hostExecutes op) (op == .cas) f := by
  unfold Claim.AtomicOn
  intro low new done ready clean
  have begins : ∀ s, ready s → (∀ pa, s.resolve s.hart.ctx .atomic (s.hart.getX a) = .ok (.device pa) → clean s pa) →
      exec i s = .next (s.amoStep d a b cls op n) := fun s ⟨hs, hd, ha, hfull⟩ hc => by
    rw [hi, State.scalarAmo_ready hs (fun h => ⟨(hd h).1, by simpa using (hd h).2⟩) ha hfull hc]
  have device : ∀ s pa, s.resolve s.hart.ctx .atomic (s.hart.getX a) = .ok (.device pa) → clean s pa →
      ∀ pa', s.resolve s.hart.ctx .atomic (s.hart.getX a) = .ok (.device pa') → clean s pa' := fun s pa lead hc pa' h => by
    rw [lead] at h
    cases h
    exact hc
  refine ⟨fun s pa hr ⟨lead, region⟩ host readable => ?_, fun s x off K hr ⟨lead, bank, still, mode⟩ good => ?_,
    fun s pa hr ⟨lead, region⟩ hh host hc => ?_, fun s pa hr lead region hc => ?_, fun s hs hd hdc => ?_⟩
  · obtain ⟨refuses, bad, dirty⟩ := readable
    refine ⟨_, begins s hr (device s pa lead dirty), ?_⟩
    have applied := State.modify_device (s := s) (n := n) (c := s.hart.ctx) (ok := hostExecutes op)
      (f := fun old => f old (low (s.hart.getX b)) (low (s.hart.getX d))) region host refuses bad dirty
    simp only [State.amoStep, State.atomic_local lead (by simp), hf, low, applied, State.withAcc]
    exact storesDevice_setBytes s pa n _ (done (s.mem.getNat pa n))
  · have elsewhere : ∀ pa, s.resolve s.hart.ctx .atomic (s.hart.getX a) = .ok (.device pa) → clean s pa := fun pa h => by rw [lead] at h; cases h
    refine ⟨_, begins s hr elsewhere, ?_⟩
    have applied := State.modify_bank (s := s) (n := n) (c := s.hart.ctx) (off := off) (ok := hostExecutes op)
      (f := fun old => f old (low (s.hart.getX b)) (low (s.hart.getX d))) bank still mode good
    simp only [State.amoStep, State.atomic_local lead (by simp), hf, low, applied, State.withAcc]
    rw [State.onHart, State.setBank_hart]
    exact storesBank_setBytes s x off n _ K (done (K.bytes.getNat off n))
  · have region' : s.regionAt s.hart.ctx.part pa = none := region
    rw [begins s hr (device s pa lead hc)]
    simp only [State.amoStep, State.atomic_local lead (by simp), State.modify, region', hh, host]
    rfl
  · have region' : (s.regionAt s.hart.ctx.part pa).isSome = true := region
    rw [begins s hr (device s pa lead hc)]
    simp only [State.amoStep, State.atomic_local lead (by simp), State.modify, region', if_true]
    rfl
  · have blocked : s.hart.st.det = true ∧ (d ≠ 0 ∨ op = .cas) := ⟨hd, by simpa using hdc⟩
    rw [hi, State.scalarAmo, State.strandOnly_strand _ _ hs]
    simp only [if_pos blocked]

theorem atomicsApplyTheirOperation : Claim.AtomicsApplyTheirOperationInOneStep := by
  intro d a b cls sg
  refine ⟨atomicOn_of (op := .add) (fun _ => rfl) ?_, atomicOn_of (op := .min) (fun _ => rfl) ?_, atomicOn_of (op := .max) (fun _ => rfl) ?_,
    atomicOn_of (op := .minu) (fun _ => rfl) ?_, atomicOn_of (op := .maxu) (fun _ => rfl) ?_, atomicOn_of (op := .and) (fun _ => rfl) ?_,
    atomicOn_of (op := .or) (fun _ => rfl) ?_, atomicOn_of (op := .xor) (fun _ => rfl) ?_, atomicOn_of (op := .swap) (fun _ => rfl) ?_,
    atomicOn_of (op := .cas) (fun _ => rfl) ?_, atomicOn_of (op := .add) (fun _ => rfl) ?_, atomicOn_of (op := .min) (fun _ => rfl) ?_,
    atomicOn_of (op := .max) (fun _ => rfl) ?_, atomicOn_of (op := .minu) (fun _ => rfl) ?_, atomicOn_of (op := .maxu) (fun _ => rfl) ?_,
    atomicOn_of (op := .and) (fun _ => rfl) ?_, atomicOn_of (op := .or) (fun _ => rfl) ?_, atomicOn_of (op := .xor) (fun _ => rfl) ?_,
    atomicOn_of (op := .swap) (fun _ => rfl) ?_, atomicOn_of (op := .cas) (fun _ => rfl) ?_⟩
  all_goals exact fun old x e => rfl

/-! ### TOPKINS (R220, R339, R340) -/

/-- A pair of a dead expert, or of no expert's id, leaves the record as it is. -/
theorem topkInsert_idle {dead : Nat → Bool} {rec pair : Nat} (h : dead (pair % 65536) = true ∨ 0xFFFE ≤ pair % 65536) :
    topkInsert dead rec pair = rec := by
  simp only [topkInsert]
  split
  · rfl
  · split
    · rfl
    next hid =>
      have hdead : dead (pair % 65536) = true := h.elim id fun k => absurd (Or.inl k) hid
      rw [if_pos (Or.inl hdead)]

section
variable {s : State} {a b : Reg} {cls : Fin 16} (hs : OnStrand s) (ha : (s.hart.getX a).toNat % 32 = 0) (hf : s.hart.storesFull = false)
include hs ha hf

theorem exec_topkins_device {pa : Nat} (hl : s.resolve s.hart.ctx .atomic (s.hart.getX a) = .ok (.device pa))
    (hc : s.dirtyBad s.hart.ctx.gang (pa / 128 * 128) = false) : exec (.topkins a b cls) s = .next
      (s.withAcc (s.hart.getX a) (s.modify s.hart.ctx (.device pa) 32 false
        (topkInsert s.parts[s.hart.part].isDead · ((s.hart.getX b).toNat % 2 ^ 32))) fun _ t => t.onHart (·.addPending cls)) := by
  have same : s.spilled (s.hart.getX a) = s := State.spilled_clean fun pa' h => by rw [hl] at h; cases h; exact hc
  have arm : exec (.topkins a b cls) s = execTopkins a b cls s := rfl
  rw [arm, execTopkins, State.strandOnly_strand _ _ hs]
  simp only [aligned_iff.2 ha, hf, hl, same, not_true_eq_false, Bool.false_eq_true, if_false]

theorem exec_topkins_bank {x off : Nat} {K : Bank} (hl : s.resolve s.hart.ctx .atomic (s.hart.getX a) = .ok (.bank x off))
    (hk : s.bank? (some (gangOf s.hart.id)) x = some K) (hw : K.switching = none) : exec (.topkins a b cls) s =
      .next (s.trap false 0 (if K.isScratch then .atomicTarget else .bank) (s.hart.getX a)) := by
  have bank : s.bank? s.hart.ctx.gang x = some K := hk
  have arm : exec (.topkins a b cls) s = execTopkins a b cls s := rfl
  rw [arm, execTopkins, State.strandOnly_strand _ _ hs]
  simp only [aligned_iff.2 ha, hf, hl, bank, hw, Option.isSome_none, not_true_eq_false, Bool.false_eq_true, if_false]
  split <;> rfl

end

/-- The record that a TOPKINS leaves at a device address. -/
def State.topkRecord (s : State) (pa : Nat) (b : Reg) : Nat :=
  topkInsert s.parts[s.hart.part].isDead (s.mem.getNat pa 32) ((s.hart.getX b).toNat % 2 ^ 32)

theorem exec_topkins_inserts {s : State} {a b : Reg} {cls : Fin 16} {pa : Nat} (hs : OnStrand s) (ha : (s.hart.getX a).toNat % 32 = 0)
    (hf : s.hart.storesFull = false) (hl : LeadsToDevice .atomic s (s.hart.getX a) pa) (hh : isHostMemory pa = false) (hr : Readable s pa) :
    exec (.topkins a b cls) s = .next { s with mem := s.mem.setBytes pa (leBytes 32 (s.topkRecord pa b)), hart := s.hart.addPending cls } := by
  obtain ⟨lead, region⟩ := hl
  obtain ⟨refuses, bad, dirty⟩ := hr
  have kept : isHostMemory pa = true → false = true := fun h => absurd h (by simp [hh])
  rw [exec_topkins_device hs ha hf lead dirty, State.modify_device region kept refuses bad dirty]
  simp only [State.withAcc, State.onHart, State.topkRecord]

theorem topkInsertReplacesItsRecord : Claim.TopkInsertReplacesItsRecord := fun _ b cls s pa hs ha hf hl hh hr =>
  ⟨⟨_, exec_topkins_inserts hs ha hf hl hh hr, storesDevice_setBytes s pa 32 (s.topkRecord pa b) (·.addPending cls)⟩, fun h => topkInsert_idle h⟩

theorem topkInsertKeepsToItsTargets : Claim.TopkInsertKeepsToItsTargets := by
  rintro a b cls s _ rfl hs ha hf
  refine ⟨fun x off K ⟨lead, bank, still, mode⟩ => ?_, fun pa ⟨lead, region⟩ hh hc => ?_, fun x off K lead bank still mode => ?_⟩
  · rw [exec_topkins_bank hs ha hf lead bank still, if_pos (show K.isScratch = true from beq_iff_eq.2 mode)]
  · have region' : s.regionAt s.hart.ctx.part pa = none := region
    rw [exec_topkins_device hs ha hf lead hc]
    simp only [State.modify, region', hh]
    rfl
  · rw [exec_topkins_bank hs ha hf lead bank still, if_neg (show ¬ K.isScratch = true from fun h => mode (beq_iff_eq.1 h))]

/-- Settles O3: one read-modify-write of its target, whatever the operation. -/
theorem scalarAtomicsReplaceInOneStep : Obligations.ScalarAtomicsReplaceInOneStep :=
  ⟨atomicsApplyTheirOperation, topkInsertReplacesItsRecord, topkInsertKeepsToItsTargets⟩

end Sys2Proof.Machine
end

section
/-! Settled here: O7, FENCE, WAITC and the barrier instructions (R91-R94, R98, R99, R200-R203, R206, R207). -/

namespace Sys2Proof.Machine

open Sys2Proof.Safety

/-! ### FENCE and WAITC (R91, R99, R200, R206, R207) -/

/-- An instruction that waits enters a wait of its kind that is not met, and nothing else differs. -/
theorem State.waitFor_waits (s : State) {k : WaitKind} (hk : k ≠ .versionLoad) (elem : Nat) (addr : Word) : ∃ w : Wait, w.kind = k ∧ w.met = false ∧
    s.waitFor k elem addr = { s with hart := { s.hart with wait := some w, turn := none, iss := { s.hart.iss with flow := .held elem } } } :=
  ⟨s.newWait k elem addr, if_neg fun h => hk h.1, rfl, rfl⟩

theorem execFence_eq (m : BitVec 16) (sc : Scope) (s : State) : exec (.fence m sc) s = .next
    (if s.hart.vldbs.any (fun v => m.getLsbD v.cls.val) then s.stall 0 else s.onHart (·.setFlow .seq)) := rfl

theorem counterMet_iff {n : BitVec 16} {i : Fin 16} : counterMet n i = true ↔ i = 15 ∨ n.toNat ≤ i.val := by
  simp [counterMet, Fin.ext_iff]

/-- What a WAITC asks, of a strand's counters and of a program's stores. -/
def Hart.waitcDone (h : Hart) (l t c k : Fin 16) : Bool :=
  if h.isControl then t.val == 15 || h.pending.isEmpty
  else counterMet h.cnt.loads l && counterMet h.cnt.stores t && counterMet h.cnt.copies c && counterMet h.cnt.tiles k

theorem execWaitc_eq (l t c k : Fin 16) (s : State) : exec (.waitc l t c k) s = .next
    (if s.hart.waitcDone l t c k then s.onHart (·.setFlow .seq) else s.waitFor .counters 0 0) := rfl

theorem Hart.waitcDone_iff {h : Hart} {l t c k : Fin 16} : h.waitcDone l t c k = true ↔ (if h.engine = .strand
    then (l = 15 ∨ h.cnt.loads.toNat ≤ l.val) ∧ (t = 15 ∨ h.cnt.stores.toNat ≤ t.val) ∧ (c = 15 ∨ h.cnt.copies.toNat ≤ c.val) ∧
      (k = 15 ∨ h.cnt.tiles.toNat ≤ k.val)
    else t = 15 ∨ h.pending = []) := by
  unfold Hart.waitcDone
  cases he : h.engine with
  | strand => simp [isControl_of_strand he, counterMet_iff, and_assoc]
  | control n => simp [Hart.isControl, he, Fin.ext_iff]

theorem fenceAndCounterWaits : Claim.FenceAndCounterWaitsChangeNothing := by
  intro m sc l t c k s go atMost done
  have met : s.hart.waitcDone l t c k = true ↔ done := Hart.waitcDone_iff
  refine ⟨fun h => ?_, fun ⟨v, hv, hm⟩ => ?_, fun h => ?_, fun h => ?_⟩
  · have none : ¬ s.hart.vldbs.any (fun v => m.getLsbD v.cls.val) = true := by simpa using h
    rw [execFence_eq, if_neg none]
    rfl
  · have some : s.hart.vldbs.any (fun v => m.getLsbD v.cls.val) = true := List.any_eq_true.2 ⟨v, hv, hm⟩
    rw [execFence_eq, if_pos some]
    rfl
  · rw [execWaitc_eq, if_pos (met.2 h)]
    rfl
  · obtain ⟨w, kind, unmet, waits⟩ := s.waitFor_waits (k := .counters) (by decide) 0 0
    exact ⟨w, kind, unmet, by rw [execWaitc_eq, if_neg (mt met.1 h), waits]⟩

/-! ### BAR.ARRIVE and BAR.INIT (R93, R201, R203) -/

/-- The arrival that a BAR.ARRIVE leaves to register. -/
def Hart.arrival (h : Hart) (mask : BitVec 16) : Arrival := { strand := h.id, mask := mask, after := h.arrivalAfter mask }

theorem exec_barArrive {d a : Reg} {id : Fin 36} {sc : Scope} {s : State} (hs : OnStrand s)
    (hr : s.hart.id ∉ (s.barrier (barrierKey s.hart.id id)).registered)
    (hp : ∀ e ∈ (s.barrier (barrierKey s.hart.id id)).pending, e.strand ≠ s.hart.id) : exec (.barArrive d a id sc) s = .next
      ((s.setBarrier { s.barrier (barrierKey s.hart.id id) with
        pending := (s.barrier (barrierKey s.hart.id id)).pending ++ [s.hart.arrival ((s.hart.getX a).truncate 16)] }).onHart
          fun h => h.setX d ((s.barrier (barrierKey s.hart.id id)).phase.zeroExtend 64)) := by
  have first : ¬ ((s.barrier (barrierKey s.hart.id id)).registered.contains s.hart.id = true ∨
      (s.barrier (barrierKey s.hart.id id)).pending.any (fun e => e.strand == s.hart.id) = true) := by
    simpa [hr] using hp
  have arm : exec (.barArrive d a id sc) s = execBarArrive d a id sc s := rfl
  rw [arm, execBarArrive, State.strandOnly_strand _ _ hs]
  exact congrArg _ (if_neg first)

/-- A waiting BAR.WAIT judged against a new phase (R94, R203). -/
def Wait.judgedAgain (id : Fin 36) (phase : BitVec 8) (w : Wait) : Wait :=
  if w.kind = .barrier ∧ ¬ w.met ∧ w.addr.toNat / 256 = id.val then w.reevaluate phase else w

theorem Wait.judgedAgain_eq (id : Fin 36) (phase : BitVec 8) (w : Wait) : w.judgedAgain id phase =
    if ¬ (w.kind = .barrier ∧ w.met = false ∧ w.addr.toNat / 256 = id.val) ∨ (phase - BitVec.ofNat 8 w.addr.toNat).toNat = 0 then w
    else if (phase - BitVec.ofNat 8 w.addr.toNat).toNat < 128 then { w with met := true, elem := (phase - BitVec.ofNat 8 w.addr.toNat).toNat }
    else { w with expired := some .phaseToken } := by
  unfold Wait.judgedAgain Wait.reevaluate
  by_cases hw : w.kind = .barrier ∧ w.met = false ∧ w.addr.toNat / 256 = id.val
  · simp [hw]
  · simp [hw]

/-- What BAR.INIT does to a hart: its waits at the barrier are judged again. -/
def Hart.seePhase (k : BarrierKey) (id : Fin 36) (phase : BitVec 8) (h : Hart) : Hart :=
  if participates k h then
    { h with wait := h.wait.map (Wait.judgedAgain id phase), paused := h.paused.map fun p => (p.1, p.2.judgedAgain id phase) } else h

/-- A barrier that BAR.INIT leaves at a phase. -/
def Barrier.atPhase (b : Barrier) (phase : BitVec 8) : Barrier :=
  { b with
    registered := [], phase := phase, announced := false
    peers := b.peers.filter fun e => e.2 != b.phase.toNat && e.2 != phase.toNat }

theorem exec_barInit {a : Reg} {id : Fin 36} {s : State} (hs : Supervisor s) : exec (.barInit a id) s = .next
    ((s.setBarrier ((s.barrier (barrierKey s.hart.id id)).atPhase ((s.hart.getX a).truncate 8))).mapHarts
      (Hart.seePhase (barrierKey s.hart.id id) id ((s.hart.getX a).truncate 8))) := by
  have arm : exec (.barInit a id) s = execBarInit a id s := rfl
  rw [arm, execBarInit, State.supervisorOnly_super _ _ hs.1 hs.2]
  rfl

theorem exec_barInit_user {a : Reg} {id : Fin 36} {s : State} (hs : OnStrand s) (hp : s.hart.st.priv = false) :
    exec (.barInit a id) s = .next (s.trapWord .privilege) := by
  have arm : exec (.barInit a id) s = execBarInit a id s := rfl
  rw [arm, execBarInit, State.supervisorOnly_user _ _ hs hp]

theorem barrierArrivalsAndInitialisation : Claim.BarrierArrivalsAndInitialisation := by
  intro d a id sc key others
  refine ⟨fun s ⟨hs, hr, hp⟩ => ?_, ?_⟩
  · refine ⟨_, exec_barArrive hs hr hp, rfl, fun k hk => State.barrier_setBarrier_ne ?_, s.hart.arrival ((s.hart.getX a).truncate 16), rfl, rfl,
      State.barrier_setBarrier_same (s.barrier_key _)⟩
    rwa [State.barrier_key]
  · intro again see
    refine ⟨fun s hs => ?_, fun s hs hp => exec_barInit_user hs hp⟩
    have judged : Wait.judgedAgain id ((s.hart.getX a).truncate 8) = again ((s.hart.getX a).truncate 8) :=
      funext (Wait.judgedAgain_eq id _)
    have seen : Hart.seePhase (barrierKey s.hart.id id) id ((s.hart.getX a).truncate 8) = see s := by
      funext h
      simp only [Hart.seePhase, see, judged, key]
    refine ⟨_, exec_barInit hs, ?_, fun k hk => State.barrier_setBarrier_ne ?_, State.barrier_setBarrier_same (s.barrier_key _)⟩
    · rw [seen]
      rfl
    · rwa [Barrier.atPhase, State.barrier_key]

/-! ### BAR.WAIT (R94, R202, R203) -/

/-- Distance of a token from a barrier's phase. -/
def State.tokenDistance (s : State) (id : Fin 36) (t : BitVec 8) : Nat := ((s.barrier (barrierKey s.hart.id id)).phase - t).toNat

theorem exec_barWait_first {d a : Reg} {id : Fin 36} {s : State} (hs : OnStrand s) (hw : s.hart.wait = none) : exec (.barWait d a id) s = .next
    (if s.tokenDistance id ((s.hart.getX a).truncate 8) = 0 then
      s.waitFor .barrier 0 (barrierWaitKey id ((s.hart.getX a).truncate 8 : BitVec 8).toNat)
    else if s.tokenDistance id ((s.hart.getX a).truncate 8) < 128 then
      s.onHart fun h => (h.setX d (BitVec.ofNat 64 (s.tokenDistance id ((s.hart.getX a).truncate 8)))).setFlow .seq
    else s.trap false 0 .phaseToken (((s.hart.getX a).truncate 8 : BitVec 8).zeroExtend 64)) := by
  have arm : exec (.barWait d a id) s = execBarWait d a id s := rfl
  rw [arm, execBarWait, State.strandOnly_strand _ _ hs]
  simp only [hw, Bool.false_eq_true, if_false]
  rfl

theorem exec_barWait_met {d a : Reg} {id : Fin 36} {s : State} (hs : OnStrand s) {w : Wait} (hw : s.hart.wait = some w) (hk : w.kind = .barrier)
    (hm : w.met = true) : exec (.barWait d a id) s = .next
      { s with hart := (s.hart.setX d (BitVec.ofNat 64 (if w.elem = 0 then 1 else w.elem))).setFlow .seq } := by
  have distance : s.hart.metDistance = BitVec.ofNat 64 (if w.elem = 0 then 1 else w.elem) := by
    simp only [Hart.metDistance, hw]
    split <;> rfl
  have arm : exec (.barWait d a id) s = execBarWait d a id s := rfl
  rw [arm, execBarWait, State.strandOnly_strand _ _ hs]
  simp only [hw, hk, hm, beq_self_eq_true, Bool.and_self, if_true, State.onHart, distance]

theorem barrierWaitJudgesItsToken : Claim.BarrierWaitJudgesItsToken := by
  intro d a id s hs t dist gives
  have first := fun hw => exec_barWait_first (d := d) (a := a) (id := id) hs hw
  refine ⟨fun hw hl hu => ?_, fun hw hd => ?_, fun hw hd => ?_, fun w hw hk hm => exec_barWait_met hs hw hk hm⟩
  · exact (first hw).trans (congrArg _ ((if_neg (show ¬ dist = 0 by omega)).trans (if_pos (show dist < 128 by omega))))
  · exact (first hw).trans (congrArg _ ((if_neg (show ¬ dist = 0 by omega)).trans (if_neg (show ¬ dist < 128 by omega))))
  · obtain ⟨w, kind, unmet, waits⟩ := s.waitFor_waits (k := .barrier) (by decide) 0 (barrierWaitKey id t.toNat)
    exact ⟨w, kind, unmet, (first hw).trans (congrArg _ ((if_pos (show dist = 0 from hd)).trans waits))⟩

/-- Settles O7, claim by claim. -/
theorem fencesBarriersAndCounterWaits : Obligations.FencesBarriersAndCounterWaits :=
  ⟨fenceAndCounterWaits, barrierArrivalsAndInitialisation, barrierWaitJudgesItsToken⟩

end Sys2Proof.Machine
end

section
/-! Settled here: O8, CSR accesses (R87, R154, R160-R164, R193, R208, R421). -/

namespace Sys2Proof.Machine

open Sys2Proof.Safety

/-! ### Reads (R160, R164, R208) -/

section
variable {s : State} {c : Csr} {d : Reg}

theorem State.csrRead_plain (hd : isDebug c = false) (hc : c ≠ .cycle) : s.csrRead c = (s.hart.csrValue c, s) := by
  have shown : ¬ (isDebug c = true ∧ ¬ s.debugReadable c = true) := by simp [hd]
  unfold State.csrRead
  rw [if_neg shown]
  split
  · exact absurd rfl hc
  · simp [isDebug] at hd
  · rfl

theorem State.csrRead_hidden (hd : isDebug c = true) (hr : s.debugReadable c = false) : s.csrRead c = (0, s) := by
  have hidden : isDebug c = true ∧ ¬ s.debugReadable c = true := by simp [hd, hr]
  unfold State.csrRead
  rw [if_pos hidden]

theorem State.csrRead_debug (hd : isDebug c = true) (hp : ∀ i, c ≠ .perfcnt i) (hr : s.debugReadable c = true) :
    s.csrRead c = (s.hart.csrValue c, s) := by
  have shown : ¬ (isDebug c = true ∧ ¬ s.debugReadable c = true) := by simp [hr]
  unfold State.csrRead
  rw [if_neg shown]
  split
  · simp [isDebug] at hd
  · exact absurd rfl (hp _)
  · rfl

theorem State.csrRead_cycle (s : State) : s.csrRead .cycle = (s.cycle + BitVec.ofNat 64 (Config.free s.draws),
    { s with cycle := s.cycle + BitVec.ofNat 64 (Config.free s.draws), draws := s.draws + 1 }) := rfl

theorem State.csrAccess_refused {e : Cause} {new : Option (Word → Word)} (h : s.hart.csrRefused c new.isSome = some e) :
    s.csrAccess d c new = s.trapWord e := by
  simp only [State.csrAccess, h]

theorem State.csrAccess_read {v : Word} {t : State} (hm : s.hart.csrRefused c false = none) (hr : s.csrRead c = (v, t)) :
    s.csrAccess d c none = t.onHart fun h => h.setX d v := by
  simp only [State.csrAccess, Option.isSome_none, hm, hr]

theorem State.csrAccess_write (hm : s.hart.csrRefused c true = none) (hd : isDebug c = false) (hc : c ≠ .cycle) (f : Word → Word) :
    s.csrAccess d c (some f) = s.onHart fun h => (h.csrWrite c (f (h.csrValue c))).setX d (h.csrValue c) := by
  simp only [State.csrAccess, Option.isSome_some, hm, State.csrRead_plain hd hc, hd, Bool.false_eq_true, if_false]
  rfl

end

theorem exec_csrr (d : Reg) (c : Csr) (s : State) : exec (.csrr d c) s = .next (s.csrAccess d c none) := rfl
theorem exec_csrw (d a : Reg) (c : Csr) (s : State) : exec (.csrw d a c) s = .next (s.csrAccess d c (some fun _ => s.hart.getX a)) := rfl
theorem exec_csrs_x0 (d : Reg) (c : Csr) (s : State) : exec (.csrs d 0 c) s = .next (s.csrAccess d c none) := rfl
theorem exec_csrc_x0 (d : Reg) (c : Csr) (s : State) : exec (.csrc d 0 c) s = .next (s.csrAccess d c none) := rfl

theorem exec_csrs {d a : Reg} (ha : a ≠ 0) (c : Csr) (s : State) :
    exec (.csrs d a c) s = .next (s.csrAccess d c (some fun old => old ||| s.hart.getX a)) :=
  congrArg (fun new => Host.Outcome.next (s.csrAccess d c new)) (if_neg ha)

theorem exec_csrc {d a : Reg} (ha : a ≠ 0) (c : Csr) (s : State) :
    exec (.csrc d a c) s = .next (s.csrAccess d c (some fun old => old &&& ~~~ s.hart.getX a)) :=
  congrArg (fun new => Host.Outcome.next (s.csrAccess d c new)) (if_neg ha)

/-- Where a read changes nothing, the three instructions that read write its value and nothing else. -/
theorem csrReads_write {d : Reg} {c : Csr} {pre : State → Prop} {v : Hart → Word} (hv : ∀ s, pre s → s.csrRead c = (v s.hart, s)) :
    Completes (.csrr d c) (fun s => s.hart.csrRefused c false = none ∧ pre s) (WritesX d v) ∧
    Completes (.csrs d 0 c) (fun s => s.hart.csrRefused c false = none ∧ pre s) (WritesX d v) ∧
    Completes (.csrc d 0 c) (fun s => s.hart.csrRefused c false = none ∧ pre s) (WritesX d v) := by
  have done : ∀ s : State, s.hart.csrRefused c false = none ∧ pre s → s.csrAccess d c none = s.onHart fun h => h.setX d (v s.hart) :=
    fun s ⟨hm, hp⟩ => State.csrAccess_read hm (hv s hp)
  exact ⟨fun s hs => ⟨_, congrArg Host.Outcome.next (done s hs), writesX_setX s d v⟩, fun s hs => ⟨_, congrArg Host.Outcome.next (done s hs), writesX_setX s d v⟩,
    fun s hs => ⟨_, congrArg Host.Outcome.next (done s hs), writesX_setX s d v⟩⟩

theorem csrReadsWriteTheirDestination : Claim.CsrReadsWriteTheirDestination := by
  intro d c may gives
  refine ⟨fun hd hc => csrReads_write fun s _ => State.csrRead_plain hd hc, fun hd => csrReads_write fun s hr => State.csrRead_hidden hd hr,
    fun hd hp => csrReads_write fun s hr => State.csrRead_debug hd hp hr, ?_⟩
  rintro rfl s hm
  exact ⟨_, congrArg Host.Outcome.next (State.csrAccess_read hm s.csrRead_cycle), rfl⟩

/-! ### Writes (R160, R161, R163, R208) -/

/-- The bits of a CSR that a write reaches, for the CSRs that take whatever is written there. -/
def csrMask : Csr → Option Word
  | .bscale | .rngseed | .lcount | .stval | .sscratch | .bump _ => some (BitVec.allOnes 64)
  | .fflags => some 31
  | .rmode | .vconv => some 3
  | .satf => some 1
  | .rngctr | .vdirty => some 0xFFFFFFFF
  | .vstart | .asid => some 1023
  | .lstart | .lend | .uivec | .uiepc | .stvec | .sepc => some (~~~ 3)
  | .troot => some 0xFFFFFFFFF0000
  | .uicause => some 0xFFFFFFFF01FFE1FF
  | .scause => some 0xFFF00CF01FF
  | _ => none

theorem zeroExtend_truncate (v : Word) (n : Nat) : (v.truncate n).zeroExtend 64 = v &&& BitVec.ofNat 64 (2 ^ n - 1) := by
  apply BitVec.eq_of_getLsbD_eq
  intro i hi
  rw [BitVec.getLsbD_and, BitVec.getLsbD_ofNat, Nat.testBit_two_pow_sub_one]
  simp [hi, Bool.and_comm]

theorem boolWord_bit0 (v : Word) : boolWord (v.getLsbD 0) = v &&& 1 := by
  apply BitVec.eq_of_getLsbD_eq
  intro i hi
  by_cases h0 : i = 0
  · subst h0
    have low : (v &&& 1).getLsbD 0 = v.getLsbD 0 := by simp
    rw [low]
    cases v.getLsbD 0 <;> rfl
  · cases v.getLsbD 0 <;> simp [boolWord, h0]

/-- A write outside the debug block reaches the CSRs, and of the status only the loop's bit. -/
theorem Hart.csrWrite_frame {c : Csr} {m : Word} (hm : csrMask c = some m) (h : Hart) (v : Word) :
    h.csrWrite c v = { h with csr := (h.csrWrite c v).csr, st := { h.st with lact := (h.csrWrite c v).st.lact } } := by
  cases c
  all_goals cases hm
  all_goals rfl

theorem Hart.csrValue_csrWrite_same {c : Csr} {m : Word} (hm : csrMask c = some m) (h : Hart) (v : Word) :
    (h.csrWrite c v).csrValue c = v &&& m := by
  cases c
  all_goals cases hm
  case fflags => exact zeroExtend_truncate v 5
  case rmode | vconv => exact zeroExtend_truncate v 2
  case satf => exact boolWord_bit0 v
  case rngctr | vdirty => exact zeroExtend_truncate v 32
  case vstart | asid => exact zeroExtend_truncate v 10
  case bump i => exact (Vector.getElem_set_self _).trans BitVec.and_allOnes.symm
  case bscale | rngseed | lcount | stval | sscratch => exact BitVec.and_allOnes.symm
  all_goals rfl

/-- No CSR shows what is written to another, but STATUS, which shows the loop that LCOUNT ends (R193). -/
theorem Hart.csrValue_csrWrite_ne {c k : Csr} {m : Word} (hm : csrMask c = some m) (hk : k ≠ c) (hl : c = .lcount → k ≠ .status) (h : Hart)
    (v : Word) : (h.csrWrite c v).csrValue k = h.csrValue k := by
  cases c
  all_goals cases hm
  case bump i =>
    cases k
    case bump j =>
      have apart : i.val ≠ j.val := fun e => hk (congrArg Csr.bump (Fin.ext e.symm))
      simp [Hart.csrWrite, Hart.csrValue, apart]
    all_goals rfl
  all_goals cases k <;> first | rfl | exact absurd rfl hk | exact absurd rfl (hl rfl)

theorem Hart.csrValue_setX (h : Hart) (d : Reg) (v : Word) (k : Csr) : (h.setX d v).csrValue k = h.csrValue k := by
  rw [Hart.setX_eq]
  cases k <;> rfl

/-- No CSR that takes what is written lies in the debug block, nor is it CYCLE. -/
theorem csrMask_debug {c : Csr} {m : Word} (hm : csrMask c = some m) : isDebug c = false ∧ c ≠ .cycle := by
  cases c
  all_goals cases hm
  all_goals exact ⟨rfl, nofun⟩

theorem csrWritesReachTheirFields : Claim.CsrWritesReachTheirFieldsOnly := by
  intro d a c m hc post may
  have hm : csrMask c = some m := by cases c <;> first | exact congrArg some hc.symm | exact hc.elim
  obtain ⟨plain, counted⟩ := csrMask_debug hm
  have reaches : ∀ (f : Word → Word → Word) (s : State), may s →
      s.csrAccess d c (some fun old => f old (s.hart.getX a)) = s.onHart (fun h => (h.csrWrite c (f (h.csrValue c) (s.hart.getX a))).setX d (h.csrValue c)) ∧
      post f s (s.onHart fun h => (h.csrWrite c (f (h.csrValue c) (s.hart.getX a))).setX d (h.csrValue c)) := fun f s hs => by
    refine ⟨State.csrAccess_write hs plain counted _, ?_, ?_, fun r hr => ?_, ?_, fun k hk hl => ?_⟩
    · rw [State.onHart, Hart.setX_eq, Hart.csrWrite_frame hm]
    · rw [State.onHart_hart, Hart.getX_setX_same]
    · rw [State.onHart_hart, Hart.getX_setX_ne _ _ hr, Hart.csrWrite_frame hm]
      rfl
    · rw [State.onHart_hart, Hart.csrValue_setX, Hart.csrValue_csrWrite_same hm]
    · rw [State.onHart_hart, Hart.csrValue_setX, Hart.csrValue_csrWrite_ne hm hk hl]
  refine ⟨fun s hs => ⟨_, ?_, (reaches (fun _ x => x) s hs).2⟩, fun ha => ⟨fun s hs => ⟨_, ?_, (reaches (fun old x => old ||| x) s hs).2⟩,
    fun s hs => ⟨_, ?_, (reaches (fun old x => old &&& ~~~ x) s hs).2⟩⟩⟩
  · rw [exec_csrw, (reaches (fun _ x => x) s hs).1]
  · rw [exec_csrs ha, (reaches (fun old x => old ||| x) s hs).1]
  · rw [exec_csrc ha, (reaches (fun old x => old &&& ~~~ x) s hs).1]

/-! ### Fields with a range of their own (R87, R162, R163) -/

theorem bits_eq_extract {n : Nat} (v : BitVec n) (lo k : Nat) : bits v.toNat lo k = (v.extractLsb' lo k).toNat := by
  rw [bits, BitVec.extractLsb'_toNat, Nat.shiftRight_eq_div_pow]

/-- Octal digits added up: the sum stays below the next digit's place, and shows each digit at its own. -/
theorem foldl_octal (f : Nat → Nat) (hf : ∀ c, f c < 8) (n x : Nat) : ∃ r,
    (List.range n).foldl (fun acc c => acc + f c * 2 ^ (3 * c)) x = x + r ∧ r < 2 ^ (3 * n) ∧ ∀ k, k < n → r / 2 ^ (3 * k) % 8 = f k := by
  induction n with
  | zero => exact ⟨0, rfl, by simp, fun k hk => absurd hk (by omega)⟩
  | succ n ih =>
    obtain ⟨r, sum, below, digit⟩ := ih
    have place : 2 ^ (3 * (n + 1)) = 8 * 2 ^ (3 * n) := by rw [Nat.mul_add, Nat.pow_add, Nat.mul_comm]
    have fn := hf n
    refine ⟨r + f n * 2 ^ (3 * n), ?_, ?_, fun k hk => ?_⟩
    · rw [List.range_succ, List.foldl_append, sum]
      simp only [List.foldl_cons, List.foldl_nil, Nat.add_assoc]
    · have : f n * 2 ^ (3 * n) ≤ 7 * 2 ^ (3 * n) := Nat.mul_le_mul_right _ (by omega)
      omega
    · rcases Nat.lt_succ_iff_lt_or_eq.1 hk with hlt | rfl
      · have high : f n * 2 ^ (3 * n) = 8 * (f n * 2 ^ (3 * (n - k - 1))) * 2 ^ (3 * k) := by
          rw [show 3 * n = 3 + 3 * (n - k - 1) + 3 * k by omega, Nat.pow_add, Nat.pow_add]
          ring
        rw [high, Nat.add_mul_div_right _ _ (Nat.two_pow_pos _), Nat.add_mul_mod_self_left]
        exact digit k hlt
      · rw [Nat.add_mul_div_right _ _ (Nat.two_pow_pos _), Nat.div_eq_of_lt below, Nat.zero_add, Nat.mod_eq_of_lt fn]

theorem writeClscope_fields (old : BitVec 48) (v : Word) : (writeClscope old.toNat v.toNat).extractLsb' 45 3 = 6 ∧
    ∀ k, k < 15 → (writeClscope old.toNat v.toNat).extractLsb' (3 * k) 3 =
      if v.extractLsb' (3 * k) 3 = 7 then old.extractLsb' (3 * k) 3 else v.extractLsb' (3 * k) 3 := by
  let f := fun c => if bits v.toNat (3 * c) 3 = 7 then bits old.toNat (3 * c) 3 else bits v.toNat (3 * c) 3
  have small : ∀ c, f c < 8 := fun c => by
    show (if _ then _ else _) < 8
    split <;> exact Nat.mod_lt _ (by decide)
  obtain ⟨r, sum, below, digit⟩ := foldl_octal f small 15 (6 * 2 ^ 45)
  have value : (writeClscope old.toNat v.toNat).toNat = 6 * 2 ^ 45 + r := by
    rw [writeClscope, BitVec.toNat_ofNat, show (List.range 15).foldl _ _ = _ from sum, Nat.mod_eq_of_lt (by omega)]
  refine ⟨BitVec.eq_of_toNat_eq ?_, fun k hk => BitVec.eq_of_toNat_eq ?_⟩
  · rw [← bits_eq_extract, bits, value]
    show (6 * 2 ^ 45 + r) / 2 ^ 45 % 8 = 6
    omega
  · have top : 6 * 2 ^ 45 = 8 * (6 * 2 ^ (3 * (14 - k))) * 2 ^ (3 * k) := by
      rw [show 45 = 3 + 3 * (14 - k) + 3 * k by omega, Nat.pow_add, Nat.pow_add]
      ring
    have shown : (6 * 2 ^ 45 + r) / 2 ^ (3 * k) % 8 = f k := by
      rw [top, Nat.add_comm, Nat.add_mul_div_right _ _ (Nat.two_pow_pos _), Nat.add_mul_mod_self_left]
      exact digit k hk
    rw [← bits_eq_extract, bits, value, show 2 ^ 3 = 8 from rfl, shown]
    simp only [f, bits_eq_extract]
    have seven : (v.extractLsb' (3 * k) 3).toNat = 7 ↔ v.extractLsb' (3 * k) 3 = 7 := by
      rw [← BitVec.toNat_inj]
      rfl
    simp only [seven]
    split <;> rfl

theorem writeTags_get (tags : Vector Tag 32) (lo : Nat) (v : Word) (i : Fin 32) : (writeTags tags lo v.toNat)[i] =
    if lo ≤ i.val ∧ i.val < lo + 16 then (Tag.ofCode (v.extractLsb' (3 * (i.val - lo)) 3).toNat).getD tags[i] else tags[i] := by
  simp [writeTags, bits_eq_extract]

/-- A write that leaves the scalar registers to x0, on a strand that may make it. -/
theorem exec_csrw_x0 {a : Reg} {c : Csr} {s : State} (hm : s.hart.csrRefused c true = none) (hd : isDebug c = false) (hc : c ≠ .cycle) :
    exec (.csrw 0 a c) s = .next { s with hart := s.hart.csrWrite c (s.hart.getX a) } := by
  rw [exec_csrw, State.csrAccess_write hm hd hc]
  rfl

theorem Hart.csrRefused_strand {h : Hart} (hs : h.engine = .strand) (c : Csr) (w : Bool) : h.csrRefused c w =
    if h.st.priv = false ∧ (supervisorCsr c = true ∨ w = true ∧ userReadOnly c = true) then some .privilege
    else if w = true ∧ neverWritten c = true then some .illegal
    else if w = true ∧ h.st.lact = true ∧ (c = .lstart ∨ c = .lend) then some .loopWrite
    else none := by
  simp [Hart.csrRefused, isControl_of_strand hs]

section
variable (h : Hart) (v : Word)

theorem Hart.csrWrite_planes : (h.csrWrite .planes v).x = h.x ∧ (h.csrWrite .planes v).csr.planes.toNat =
    if 2 ≤ v.toNat % 16 ∧ v.toNat % 16 ≤ 8 then v.toNat % 16 else h.csr.planes.toNat := by
  simp only [Hart.csrWrite]
  split
  · exact ⟨rfl, by simp only [BitVec.toNat_ofNat]; omega⟩
  · exact ⟨rfl, rfl⟩

theorem Hart.csrWrite_status : (h.csrWrite .status v).x = h.x ∧ (h.csrWrite .status v).st =
    { h.st with uie := v.getLsbD 2, spriv := if h.st.priv then v.getLsbD 1 else h.st.spriv } := by
  simp only [Hart.csrWrite]
  split <;> exact ⟨rfl, rfl⟩

theorem Hart.csrWrite_vtaga : (h.csrWrite .vtaga v).x = h.x ∧ ∀ i : Fin 32, (h.csrWrite .vtaga v).tags[i] =
    if i.val < 16 then (Tag.ofCode (v.extractLsb' (3 * i.val) 3).toNat).getD h.tags[i] else h.tags[i] := by
  refine ⟨by simp only [Hart.csrWrite], fun i => ?_⟩
  simp only [Hart.csrWrite, writeTags_get, Nat.zero_le, true_and, Nat.zero_add, Nat.sub_zero]

theorem Hart.csrWrite_vtagb : (h.csrWrite .vtagb v).x = h.x ∧ ∀ i : Fin 32, (h.csrWrite .vtagb v).tags[i] =
    if i.val < 16 then h.tags[i] else (Tag.ofCode (v.extractLsb' (3 * (i.val - 16)) 3).toNat).getD h.tags[i] := by
  refine ⟨by simp only [Hart.csrWrite], fun i => ?_⟩
  simp only [Hart.csrWrite, writeTags_get]
  by_cases hi : i.val < 16
  · rw [if_neg (by omega), if_pos hi]
  · rw [if_pos (by omega), if_neg hi]

theorem Hart.clscope_csrWrite : (h.csrWrite .clscope v).csr.clscope = writeClscope h.csr.clscope.toNat v.toNat := by rw [Hart.csrWrite]

theorem Hart.csrWrite_clscope : (h.csrWrite .clscope v).x = h.x ∧ ((h.csrWrite .clscope v).csr.clscope.extractLsb' 45 3 = 6 ∧
    ∀ k, k < 15 → (h.csrWrite .clscope v).csr.clscope.extractLsb' (3 * k) 3 =
      if v.extractLsb' (3 * k) 3 = 7 then h.csr.clscope.extractLsb' (3 * k) 3 else v.extractLsb' (3 * k) 3) := by
  rw [Hart.clscope_csrWrite]
  exact ⟨by rw [Hart.csrWrite], writeClscope_fields h.csr.clscope v⟩

theorem Hart.csrWrite_vl : (h.csrWrite .vl v).x = h.x ∧
    if (v.extractLsb' 0 10).toNat ≤ 512 ∧ v.extractLsb' 10 2 ≠ 3
    then (h.csrWrite .vl v).csr.vl = v.extractLsb' 0 10 ∧ (h.csrWrite .vl v).csr.width = v.extractLsb' 10 2
    else (h.csrWrite .vl v).csr.vl = h.csr.vl ∧ (h.csrWrite .vl v).csr.width = h.csr.width := by
  have width : bits v.toNat 10 2 = 3 ↔ v.extractLsb' 10 2 = 3 := by
    rw [bits_eq_extract, ← BitVec.toNat_inj]
    rfl
  simp only [Hart.csrWrite, ne_eq, width, bits_eq_extract v 0 10]
  split
  · exact ⟨rfl, BitVec.setWidth_eq_extractLsb' (x := v) (w := 10) (by decide), BitVec_ofNat_bits v 10 2⟩
  · exact ⟨rfl, rfl, rfl⟩

end

theorem restrictedCsrFieldsKeepTheirValue : Claim.RestrictedCsrFieldsKeepTheirValue := by
  intro a s hs v leaves
  have free : ∀ c, supervisorCsr c = false → userReadOnly c = false → neverWritten c = false → c ≠ .lstart → c ≠ .lend →
      s.hart.csrRefused c true = none := fun c h1 h2 h3 h4 h5 => by simp [Hart.csrRefused_strand hs, h1, h2, h3, h4, h5]
  have mayVl : s.hart.st.priv = true → s.hart.csrRefused .vl true = none := fun hp => by
    simp [Hart.csrRefused_strand hs, hp, neverWritten]
  refine ⟨?_, ?_, ?_, ?_, ?_, fun hp => ?_⟩
  · exact ⟨_, exec_csrw_x0 (free _ rfl rfl rfl nofun nofun) rfl nofun, (s.hart.csrWrite_planes v).2, (s.hart.csrWrite_planes v).1, rfl⟩
  · exact ⟨_, exec_csrw_x0 (free _ rfl rfl rfl nofun nofun) rfl nofun, (s.hart.csrWrite_status v).2, (s.hart.csrWrite_status v).1, rfl⟩
  · exact ⟨_, exec_csrw_x0 (free _ rfl rfl rfl nofun nofun) rfl nofun, (s.hart.csrWrite_vtaga v).2, (s.hart.csrWrite_vtaga v).1, rfl⟩
  · exact ⟨_, exec_csrw_x0 (free _ rfl rfl rfl nofun nofun) rfl nofun, (s.hart.csrWrite_vtagb v).2, (s.hart.csrWrite_vtagb v).1, rfl⟩
  · exact ⟨_, exec_csrw_x0 (free _ rfl rfl rfl nofun nofun) rfl nofun, (s.hart.csrWrite_clscope v).2, (s.hart.csrWrite_clscope v).1, rfl⟩
  · exact ⟨_, exec_csrw_x0 (mayVl hp) rfl nofun, (s.hart.csrWrite_vl v).2, (s.hart.csrWrite_vl v).1, rfl⟩

/-! ### Accesses that trap (R154, R160, R161, R421) -/

theorem controlCsr_iff {c : Csr} : controlCsr c = true ↔
    c = .cycle ∨ c = .instret ∨ c = .lcount ∨ c = .lstart ∨ c = .lend ∨ c = .fflags ∨ c = .rmode := by
  cases c <;> simp [controlCsr]

theorem forbiddenCsrAccessesTrap : Claim.ForbiddenCsrAccessesTrap := by
  intro d a c s supervisors readOnly readers controls reads writes
  have reads_of : ∀ k, s.hart.csrRefused c false = some k → reads k := fun k h => congrArg Host.Outcome.next (State.csrAccess_refused h)
  have writes_of : ∀ k, s.hart.csrRefused c true = some k → writes k := fun k h =>
    ⟨congrArg Host.Outcome.next (State.csrAccess_refused h), fun ha => ⟨(exec_csrs ha c s).trans (congrArg Host.Outcome.next (State.csrAccess_refused h)),
      (exec_csrc ha c s).trans (congrArg Host.Outcome.next (State.csrAccess_refused h))⟩⟩
  refine ⟨fun hs hp hc => ?_, fun hs hp hc => writes_of _ ?_, fun hs hp hc => writes_of _ ?_, fun hs hl hc => writes_of _ ?_, fun hs hc => ?_⟩
  · have sup : supervisorCsr c = true := by rcases hc with rfl | rfl | rfl | rfl | rfl | rfl | rfl <;> rfl
    exact ⟨reads_of _ (by simp [Hart.csrRefused_strand hs, hp, sup]), writes_of _ (by simp [Hart.csrRefused_strand hs, hp, sup])⟩
  · have ro : userReadOnly c = true := by
      rcases hc with (rfl | rfl | rfl | rfl | rfl | rfl | rfl | rfl) | (rfl | rfl | rfl | rfl) <;> rfl
    simp [Hart.csrRefused_strand hs, hp, ro]
  · have never : neverWritten c = true := by rcases hc with rfl | rfl | rfl | rfl | rfl | rfl | rfl | rfl <;> rfl
    simp [Hart.csrRefused_strand hs, hp, never]
  · rcases hc with rfl | rfl <;> simp [Hart.csrRefused_strand hs, hl, supervisorCsr, userReadOnly, neverWritten]
  · have control : s.hart.isControl = true := by
      cases he : s.hart.engine with
      | strand => exact absurd he hs
      | control n => simp [Hart.isControl, he]
    have none : controlCsr c = false := Bool.eq_false_iff.2 fun h => hc (controlCsr_iff.1 h)
    have refused : ∀ w, s.hart.csrRefused c w = some .illegal := fun w => by simp [Hart.csrRefused, control, none]
    exact ⟨reads_of _ (refused _), writes_of _ (refused _)⟩

/-- Settles O8, claim by claim. -/
theorem csrAccessesReadWriteAndTrap : Obligations.CsrAccessesReadWriteAndTrap :=
  ⟨csrReadsWriteTheirDestination, csrWritesReachTheirFields, restrictedCsrFieldsKeepTheirValue, forbiddenCsrAccessesTrap⟩

end Sys2Proof.Machine
end

section
/-! Settled here: O38, what a strand has begun ends: its stores, its background loads, its waits for a page and for a version. -/

namespace Sys2Proof.Machine

open Sys2Proof.Safety

/-! ### A strand's forked program -/

/-- A change made to the forked programs of a strand. -/
def Hart.ifProgram (i : StrandId) (f : Hart → Hart) (h : Hart) : Hart := if h.isControl ∧ h.id = i then f h else h

theorem State.onProgram_eq (s : State) (i : StrandId) (f : Hart → Hart) : s.onProgram i f = s.mapHarts (Hart.ifProgram i f) := rfl

theorem KeepsIdentity.ifProgram {f : Hart → Hart} (hf : KeepsIdentity f) (i : StrandId) : KeepsIdentity (Hart.ifProgram i f) := by
  intro h
  unfold Hart.ifProgram
  split
  · exact hf h
  · exact ⟨rfl, rfl, rfl⟩

theorem State.strand?_onProgram (s : State) (i j : StrandId) {f : Hart → Hart} (hf : KeepsIdentity f) :
    (s.onProgram i f).strand? j = s.strand? j := by
  rw [State.onProgram_eq, State.strand?_mapHarts _ (hf.ifProgram i)]
  refine (Option.map_congr (g := id) fun h hs => if_neg fun hi => ?_).trans (Option.map_id_apply)
  obtain ⟨heng, -, -⟩ := State.strand?_some hs
  simp [Hart.isControl, heng] at hi

theorem State.program?_onProgram (s : State) (i : StrandId) (c : Fin 64) {f : Hart → Hart} (hf : KeepsIdentity f) :
    (s.onProgram i f).program? c = (s.program? c).map fun h => if h.id = i then f h else h := by
  rw [State.onProgram_eq, State.program?_mapHarts _ (hf.ifProgram i)]
  refine Option.map_congr fun h hs => ?_
  have hc : h.isControl = true := by simp [Hart.isControl, (State.program?_some hs).1]
  unfold Hart.ifProgram
  simp only [hc, true_and]

/-! ### Stores -/

theorem Hart.performStore_keeps : KeepsIdentity Hart.performStore := by
  intro h
  unfold Hart.performStore
  split <;> exact ⟨rfl, rfl, rfl⟩

theorem Hart.performStore_cons {h : Hart} {p : PendingStore} {l : List PendingStore} (hp : h.pending = p :: l) :
    h.performStore = { h with
      pending := l, cnt := { h.cnt with stores := if p.counted then h.cnt.stores - 1 else h.cnt.stores } } := by
  unfold Hart.performStore
  rw [hp]

theorem execStorePerformed_strand {s : State} {i : StrandId} {h : Hart} (hs : s.strand? i = some h) (hp : h.pending ≠ []) :
    execStorePerformed i s = .next (s.onStrand i Hart.performStore) := by
  unfold execStorePerformed
  simp [hs, hp]

theorem execStorePerformed_program {s : State} {i : StrandId} {h : Hart} (hs : s.strand? i = some h) (hp : h.pending = []) :
    execStorePerformed i s = .next (s.onProgram i Hart.performStore) := by
  unfold execStorePerformed
  simp [hs, hp]

/-- The claim on stores. -/
theorem storesReachTheirEventInOrder_holds : Claim.StoresReachTheirEventInOrder := by
  intro i s h p l hs performed
  refine ⟨fun hp => ⟨_, execStorePerformed_strand hs (by simp [hp]), rfl, ?_, ?_, ?_⟩,
    fun c k hk hid hnone hp => ⟨_, execStorePerformed_program hs hnone, rfl, ?_, fun j => ?_⟩⟩
  · rw [State.strand?_onStrand_same _ _ Hart.performStore_keeps, hs, Option.map_some, Hart.performStore_cons hp]
  · exact fun j hj => State.strand?_onStrand_ne _ _ Hart.performStore_keeps hj
  · exact fun c => State.program?_onStrand _ _ Hart.performStore_keeps c
  · rw [State.program?_onProgram _ _ _ Hart.performStore_keeps, hk, Option.map_some, if_pos hid, Hart.performStore_cons hp]
  · exact State.strand?_onProgram _ _ _ Hart.performStore_keeps

/-! ### Waits for a page -/

theorem Hart.walkAgain_eq (h : Hart) : h.walkAgain =
    { h with wait := h.wait.map fun w => if w.kind = .page ∨ w.kind = .fetch then { w with met := true } else w } := by
  have hsame : ∀ o, h.wait = o → h = { h with wait := o } := by rintro _ rfl; rfl
  unfold Hart.walkAgain
  cases hw : h.wait with
  | none => exact hsame _ hw
  | some w =>
    dsimp only [Option.map_some]
    split
    · rfl
    · exact hsame _ hw

theorem Hart.walkAgain_keeps : KeepsIdentity Hart.walkAgain := by
  intro h
  rw [Hart.walkAgain_eq]
  exact ⟨rfl, rfl, rfl⟩

/-- The claim on waits for a page. -/
theorem transitWaitsAreRetried_holds : Claim.TransitWaitsAreRetried := by
  intro i s again
  have hagain : again = Hart.walkAgain := funext fun h => (Hart.walkAgain_eq h).symm
  refine ⟨_, rfl, rfl, fun j => ?_, fun c => ?_⟩
  · rw [State.strand?_onProgram _ _ _ Hart.walkAgain_keeps, hagain]
    by_cases hj : j = i
    · simp [hj, State.strand?_onStrand_same _ _ Hart.walkAgain_keeps]
    · simp [hj, State.strand?_onStrand_ne _ _ Hart.walkAgain_keeps hj]
  · rw [State.program?_onProgram _ _ _ Hart.walkAgain_keeps, State.program?_onStrand _ _ Hart.walkAgain_keeps, hagain]

/-! ### Background loads -/

/-- The positions of a list are its indices. -/
theorem mem_positions {α : Type} {l : List α} {e : Nat} {x : α} : (e, x) ∈ positions l ↔ l[e]? = some x := by
  unfold positions
  rw [List.mem_iff_getElem?]
  constructor
  · rintro ⟨n, hn⟩
    obtain ⟨hr, hx⟩ := List.getElem?_zip_eq_some.1 hn
    obtain ⟨hlt, he⟩ := List.getElem?_eq_some_iff.1 hr
    rw [List.getElem_range] at he
    subst he
    exact hx
  · intro hx
    obtain ⟨hlt, -⟩ := List.getElem?_eq_some_iff.1 hx
    exact ⟨e, List.getElem?_zip_eq_some.2 ⟨by simp [hlt], hx⟩⟩

/-- A load every element of which can be read draws no free bits. -/
theorem State.vldbElems_ok {s : State} {c : Ctx} {v : PendingVldb} {raw : Nat → Nat} : ∀ l : List (Nat × VldbElem),
    (∀ x ∈ l, s.vldbRaw c v x.2 = .ok (raw x.1)) →
    s.vldbElems c v l = (l.map fun x => (x.1, widen v.fmt v.tag (raw x.1) x.2.scale), s)
  | [], _ => rfl
  | (e, x) :: l, hl => by
    unfold State.vldbElems
    rw [hl (e, x) List.mem_cons_self]
    dsimp only
    rw [State.vldbElems_ok l fun y hy => hl y (List.mem_cons_of_mem _ hy)]
    rfl

theorem Hart.putVldb_keeps (v : PendingVldb) (elems : List (Nat × Nat)) (bad : List BadElem) :
    KeepsIdentity (Hart.putVldb · v elems bad) := by
  intro h
  unfold Hart.putVldb Hart.setP
  dsimp only
  split <;> exact ⟨rfl, rfl, rfl⟩

/-- Every tag gives a register 512 elements at most. -/
theorem sixteen_le_tagWidth (t : Tag) : 16 ≤ tagWidth t := by cases t <;> decide

section
variable (h : Hart) (v : PendingVldb) (elems : List (Nat × Nat)) (bad : List BadElem)

theorem Hart.putVldb_v : (h.putVldb v elems bad).v = h.v.set v.dest (putElems h.v[v.dest] (tagWidth v.tag) elems) := by
  unfold Hart.putVldb
  dsimp only
  rw [Hart.setP_v]
  rfl

theorem Hart.putVldb_tags : (h.putVldb v elems bad).tags = h.tags := by
  unfold Hart.putVldb
  dsimp only
  rw [Hart.setP_tags]
  exact Vector.set_getElem_self ..

theorem Hart.getP_putVldb_same (hp : v.pred ≠ 0) : (h.putVldb v elems bad).getP v.pred =
    putBits (h.getP v.pred) ((List.range v.elems.length).map fun e => (e, v.dup.getLsbD e)) := by
  unfold Hart.putVldb Hart.getP Hart.setP
  simp [hp, Hart.setV]

theorem Hart.getP_putVldb_ne {r : Reg} (hr : r ≠ v.pred) : (h.putVldb v elems bad).getP r = h.getP r := by
  unfold Hart.putVldb Hart.getP Hart.setP
  by_cases hp : v.pred = 0
  · simp [hp, Hart.setV]
  · have : v.pred.val ≠ r.val := fun e => hr (Fin.ext e.symm)
    simp [hp, Hart.setV, Vector.getElem_set_ne _ _ this]

end

/-- What completing a background load, all of whose data came, leaves in its strand. -/
theorem Hart.putVldb_written {h : Hart} {v : PendingVldb} {raw : Nat → Nat} (ht : h.tag v.dest = v.tag)
    (hfit : v.elems.length * tagWidth v.tag ≤ 8192) :
    let k := h.putVldb v ((positions v.elems).map fun x => (x.1, widen v.fmt v.tag (raw x.1) x.2.scale)) []
    (∀ e x, v.elems[e]? = some x → k.elem v.dest e = widen v.fmt v.tag (raw e) x.scale % 2 ^ tagWidth v.tag ∧
      (v.pred ≠ 0 → (k.getP v.pred).getLsbD e = v.dup.getLsbD e)) ∧
    ∀ e, v.elems.length ≤ e → (k.getP v.pred).getLsbD e = (h.getP v.pred).getLsbD e := by
  intro k
  have hw := sixteen_le_tagWidth v.tag
  have hlen : v.elems.length ≤ 512 := by nlinarith
  refine ⟨fun e x hx => ⟨?_, fun hp => ?_⟩, fun e he => ?_⟩
  · have hlt : e < v.elems.length := (List.getElem?_eq_some_iff.1 hx).1
    have hin : tagWidth v.tag * e + tagWidth v.tag ≤ 8192 := by nlinarith
    have htag : k.tag v.dest = v.tag := by rw [← ht]; exact congrArg (·[v.dest]) (Hart.putVldb_tags ..)
    unfold Hart.elem
    rw [htag, Hart.putVldb_v]
    refine (congrArg (elemOf · _ _) (Vector.getElem_set_self _)).trans (elemOf_putElems_in _ _ _ _ _ hin ?_ ?_)
    · rw [List.map_map]
      exact (map_fst_positions v.elems).symm ▸ List.nodup_range
    · exact List.mem_map.2 ⟨(e, x), mem_positions.2 hx, rfl⟩
  · have hlt : e < v.elems.length := (List.getElem?_eq_some_iff.1 hx).1
    rw [Hart.getP_putVldb_same _ _ _ _ hp]
    refine getLsbD_putBits_in _ _ _ _ (by omega) ?_ (List.mem_map.2 ⟨e, List.mem_range.2 hlt, rfl⟩)
    rw [List.map_map]
    exact (List.map_id _).symm ▸ List.nodup_range
  · by_cases hp : v.pred = 0
    · unfold Hart.getP
      rw [if_pos hp, if_pos hp]
    rw [Hart.getP_putVldb_same _ _ _ _ hp]
    by_cases h5 : e < 512
    · refine getLsbD_putBits_out _ _ _ h5 fun x hx => ?_
      obtain ⟨n, hn, rfl⟩ := List.mem_map.1 hx
      have := List.mem_range.1 hn
      dsimp only
      omega
    · rw [BitVec.getLsbD_of_ge _ _ (by omega), BitVec.getLsbD_of_ge _ _ (by omega)]

/-- The claim on background loads. -/
theorem backgroundLoadsAreCompleted_holds : Claim.BackgroundLoadsAreCompleted := by
  intro i s h v l raw hs hv ht hfit hraw
  have hall : ∀ x ∈ positions v.elems, s.vldbRaw h.ctx v x.2 = .ok (raw x.1) := fun x hx => hraw _ _ (mem_positions.1 hx)
  have hbad : (positions v.elems).filterMap (fun x =>
      match s.vldbRaw h.ctx v x.2 with
      | .error c => some { reg := v.dest, elem := x.1, va := x.2.va, cause := c : BadElem }
      | .ok _ => none) = [] := by
    rw [List.filterMap_eq_nil_iff]
    intro x hx
    rw [hall x hx]
  have hexec : exec (.vldbDataWrite i) s = .next (s.onStrand i
      (·.putVldb v ((positions v.elems).map fun x => (x.1, widen v.fmt v.tag (raw x.1) x.2.scale)) [])) := by
    have arm : exec (.vldbDataWrite i) s = execVldbDataWrite i s := rfl
    rw [arm]
    unfold execVldbDataWrite
    rw [hs]
    dsimp only
    rw [hv]
    dsimp only
    rw [State.vldbElems_ok _ hall]
    exact congrArg (fun b => Host.Outcome.next (s.onStrand i (·.putVldb v _ b))) hbad
  obtain ⟨hin, hout⟩ := Hart.putVldb_written (raw := raw) ht hfit
  have hkeeps := fun elems => Hart.putVldb_keeps v elems []
  refine ⟨_, _, hexec, rfl, ?_, fun j hj => State.strand?_onStrand_ne _ _ (hkeeps _) hj, ?_, ?_, ?_, ?_, ?_, ?_, ?_, ?_, ?_, hin, hout⟩
  · rw [State.strand?_onStrand_same _ _ (hkeeps _), hs, Option.map_some]
  · unfold Hart.putVldb
    simp [Hart.setV, hv]
  · unfold Hart.putVldb
    simp [Hart.setV]
  · unfold Hart.putVldb
    simp [Hart.setV]
  · unfold Hart.putVldb
    simp [Hart.setV]
  · unfold Hart.putVldb
    simp [Hart.setV]
  · unfold Hart.putVldb
    simp [Hart.setV]
  · intro r hr
    rw [Hart.putVldb_v]
    exact Vector.getElem_set_ne _ _ fun e => hr (Fin.ext e.symm)
  · exact Hart.putVldb_tags ..
  · exact fun r hr => Hart.getP_putVldb_ne _ _ _ _ hr

/-! ### Waits for a version -/

theorem Parked.first_eq_none {l : List Parked} : Parked.first l = none ↔ l = [] := by
  cases l with
  | nil => simp [Parked.first]
  | cons e l =>
    unfold Parked.first
    cases Parked.first l with
    | none => simp
    | some b => dsimp only; split <;> simp

/-- The entry in front is one of the list, and no entry entered it earlier. -/
theorem Parked.first_least : ∀ {l : List Parked} {x : Parked}, Parked.first l = some x → x ∈ l ∧ ∀ e ∈ l, x.since ≤ e.since
  | [], _, h => by simp [Parked.first] at h
  | e :: l, x, h => by
    unfold Parked.first at h
    cases hl : Parked.first l with
    | none =>
      rw [hl] at h
      obtain rfl := Option.some.inj h
      rw [Parked.first_eq_none.1 hl]
      simp
    | some b =>
      obtain ⟨hb, hleast⟩ := Parked.first_least hl
      rw [hl] at h
      dsimp only at h
      split at h
      next hlt =>
        obtain rfl := Option.some.inj h
        exact ⟨List.mem_cons_of_mem _ hb, List.forall_mem_cons.2 ⟨hlt.le, hleast⟩⟩
      next hge =>
        obtain rfl := Option.some.inj h
        exact ⟨List.mem_cons_self, List.forall_mem_cons.2 ⟨le_rfl, fun y hy => (not_lt.1 hge).trans (hleast y hy)⟩⟩

/-- The horizon is a version number, or the number past them all. -/
theorem Region.horizon_lt (x : Region) : x.horizon < 2 ^ 32 := by
  have hle : ∀ (l : List (Option (BitVec 32))) (n : Nat),
      l.foldl (fun h c => match c with | some v => min h v.toNat | none => h) n ≤ n := by
    intro l
    induction l with
    | nil => exact fun n => le_rfl
    | cons c l ih =>
      intro n
      refine (ih _).trans ?_
      cases c with
      | none => exact le_rfl
      | some v => exact Nat.min_le_left _ _
  exact (hle x.cursors noVersion).trans_lt (by decide)

theorem Region.horizonAt_propagate_same (x : Region) (q : Nat) : (x.propagate q).horizonAt q = x.horizon := by
  have hlt := x.horizon_lt
  unfold Region.propagate Region.horizonAt
  by_cases hq : q < x.count <;> simpa [hq] using hlt

theorem Region.horizonAt_propagate_ne {x : Region} {q k : Nat} (hq : q < x.count) (hk : k ≠ q) :
    (x.propagate q).horizonAt k = x.horizonAt k := by
  unfold Region.propagate Region.horizonAt
  dsimp only
  rw [if_pos hq]
  dsimp only
  rw [List.find?_cons_of_neg (by simpa using Ne.symm hk), List.find?_filter]
  congr 2
  funext y
  by_cases hy : y.1 = k <;> simp [hy, hk]

theorem State.firstWoken_none {s : State} {r q : Nat} :
    s.firstWoken r q = none ↔ ∀ e ∈ s.allParked, ¬ (s.waitsAt r (some q) e = true ∧ s.versionCame e = true) := by
  unfold State.firstWoken
  simp [Parked.first_eq_none, List.filter_eq_nil_iff]

theorem State.firstWoken_some {s : State} {r q : Nat} {x : Parked} (h : s.firstWoken r q = some x) :
    x ∈ s.allParked ∧ (s.waitsAt r (some q) x = true ∧ s.versionCame x = true) ∧
      ∀ e ∈ s.allParked, s.waitsAt r (some q) e = true ∧ s.versionCame e = true → x.since ≤ e.since := by
  obtain ⟨hx, hleast⟩ := Parked.first_least h
  simp only [List.mem_filter, Bool.and_eq_true] at hx hleast
  exact ⟨hx.1, hx.2, fun e he hc => hleast e ⟨he, hc⟩⟩

/-- The claim on waits for a version. -/
theorem versionWaitsAreWoken_holds : Claim.VersionWaitsAreWoken := by
  intro r q i s wakes came
  have arm : exec (.versionWaitWake r q) s = execVersionWaitWake r q s := rfl
  refine ⟨fun hnone => ?_, fun ⟨e, he, hcame⟩ => ?_, rfl, fun x hx hq => ?_⟩
  · rw [arm, execVersionWaitWake, State.firstWoken_none.2 hnone]
  · cases hw : s.firstWoken r q with
    | none => exact absurd hcame (State.firstWoken_none.1 hw e he)
    | some x =>
      obtain ⟨hmem, hx, hleast⟩ := State.firstWoken_some hw
      refine ⟨x, hmem, hx, hleast, ?_⟩
      intro mine
      have hwho : (· == x.who) = fun w => decide (x.who = w) := funext fun w =>
        Bool.eq_iff_iff.2 (beq_iff_eq.trans (eq_comm.trans decide_eq_true_iff.symm))
      have hwake : exec (.versionWaitWake r q) s = .next (s.wakeParked fun w => decide (x.who = w)) := by
        rw [arm, execVersionWaitWake, hw, ← hwho]
      rw [hwake]
      unfold State.wakeParked State.wakeAll
      simp only [wakes, mine, decide_eq_true_eq]
      rfl
  · have harm : exec (.horizonPropagation r q) s = .next (s.setRegion r (x.propagate q)) := by
      have arm : exec (.horizonPropagation r q) s = execHorizonPropagation r q s := rfl
      rw [arm, execHorizonPropagation, hx]
    have hlt : r < s.regions.length := (List.getElem?_eq_some_iff.1 hx).1
    refine ⟨_, x.propagate q, harm, rfl, List.getElem?_set_self hlt, fun k hk => List.getElem?_set_ne hk.symm, ?_,
      Region.horizonAt_propagate_same x q, fun k hk => Region.horizonAt_propagate_ne hq hk⟩
    have hq : q < x.count := hq
    unfold Region.propagate
    dsimp only
    rw [if_pos hq]

/-- Settles O38: each step changes only the harts it speaks of, and the granule's list is read in the order of its entries. -/
theorem outstandingWorkEnds : Obligations.OutstandingWorkEnds := by
  unfold Obligations.OutstandingWorkEnds
  exact ⟨storesReachTheirEventInOrder_holds, backgroundLoadsAreCompleted_holds, transitWaitsAreRetried_holds, versionWaitsAreWoken_holds⟩

end Sys2Proof.Machine
end

section
/-! Settled here: O27, versions are published, retired and queried, and regions declared and freed. -/

namespace Sys2Proof.Machine

open Sys2Proof.Safety

/-! ### The granules of a region -/

theorem Region.index_granule (r : Region) (q : Nat) : (r.granule q).index = q := by
  unfold Region.granule
  split
  next g hg => simpa using List.find?_some hg
  next => rfl

theorem Region.granule_setGranule (r : Region) (g : Granule) (k : Nat) :
    (r.setGranule g).granule k = if k = g.index then g else r.granule k := by
  unfold Region.granule Region.setGranule
  dsimp only
  by_cases hk : k = g.index
  · rw [if_pos hk, List.find?_cons_of_pos (by simp [hk])]
  · have hfind : (r.granules.filter fun x => x.index != g.index).find? (fun x => x.index == k) = r.granules.find? fun x => x.index == k := by
      rw [List.find?_filter]
      congr 1
      funext x
      by_cases hx : x.index = k <;> simp [hx, hk]
    rw [if_neg hk, List.find?_cons_of_neg (by simpa using Ne.symm hk), hfind]
    rfl

/-- An access that leads to a granule of a region here. -/
theorem State.versionedAt_here {k : AccessKind} {s : State} {va : Word} {pa i q : Nat} {r : Region} (hg : Claim.LeadsToGranule k s va pa i r q) :
    s.versionedAt k va = .ok (.here i r q pa) s := by
  obtain ⟨hres, hreg⟩ := hg
  unfold State.versionedAt
  rw [hres]
  dsimp only
  rw [hreg]

/-! ### VPUB -/

theorem Region.granule_publish (r : Region) (q k : Nat) (n : BitVec 32) :
    (r.publish q n).granule k = if k = q ∧ (r.granule k).latest < n then { r.granule k with latest := n } else r.granule k := by
  unfold Region.publish
  dsimp only
  by_cases hk : k = q
  · subst hk
    by_cases hn : (r.granule k).latest < n
    · rw [if_pos hn, if_pos ⟨rfl, hn⟩, Region.granule_setGranule]
      exact if_pos (r.index_granule k).symm
    · rw [if_neg hn, if_neg fun h => hn h.2]
  · rw [if_neg (c := k = q ∧ (r.granule k).latest < n) fun h => hk h.1]
    by_cases hn : (r.granule q).latest < n
    · rw [if_pos hn, Region.granule_setGranule]
      exact if_neg fun h => hk (h.trans (r.index_granule q))
    · rw [if_neg hn]

theorem Region.publish_same (r : Region) (q : Nat) (n : BitVec 32) : r.publish q n = { r with granules := (r.publish q n).granules } := by
  unfold Region.publish Region.setGranule
  dsimp only
  split <;> rfl

/-- Publishing a list of granules: each raises its own LATEST, and nothing but granules changes. -/
theorem Region.publish_all (n : BitVec 32) : ∀ (qs : List Nat) (r : Region),
    let r1 := qs.foldl (fun r q => r.publish q n) r
    (∀ k, r1.granule k = if k ∈ qs ∧ (r.granule k).latest < n then { r.granule k with latest := n } else r.granule k) ∧
      r1 = { r with granules := r1.granules }
  | [], r => ⟨fun k => (if_neg (by simp)).symm, rfl⟩
  | q :: qs, r => by
    intro r1
    obtain ⟨hgran, hsame⟩ := Region.publish_all n qs (r.publish q n)
    refine ⟨fun k => (hgran k).trans ?_, hsame.trans ?_⟩
    · rw [Region.granule_publish]
      by_cases hn : (r.granule k).latest < n
      · by_cases hk : k = q
        · simp [hk, hk ▸ hn]
        · simp [hk, hn]
      · simp [hn]
    · have hfirst := Region.publish_same r q n
      exact congrArg (fun x : Region => { x with granules := r1.granules }) hfirst

theorem exec_vpub_local {v a b : Reg} {cls : Fin 16} {s : State} {pa i q : Nat} {r : Region} {qs : List Nat} (hs : OnStrand s)
    (hbase : (s.hart.getX a).toNat % 128 = 0) (hlen : (s.hart.getX b).toNat % 128 = 0) (hnz : (s.hart.getX b).toNat ≠ 0)
    (hn : s.hart.version v ≠ noVersion) (hfull : s.hart.storesFull = false) (hcls : s.hart.classPending cls = false)
    (hg : Claim.LeadsToGranule .store s (s.hart.getX a) pa i r q)
    (hr : s.rangeRegion none ((s.hart.getX b).toNat / 128) (s.hart.getX a) = .ok qs) :
    exec (.vpub v a b cls) s =
      .next ((s.setRegion i (qs.foldl (fun r q => r.publish q (BitVec.ofNat 32 (s.hart.version v))) r)).onHart (·.addPending cls)) := by
  have arm : exec (.vpub v a b cls) s = execVpub v a b cls s := rfl
  rw [arm, execVpub, State.strandOnly_strand _ _ hs]
  refine congrArg Host.Outcome.next ?_
  dsimp only
  rw [if_neg (not_not.2 (aligned_iff.2 hbase)), if_neg (not_not.2 hlen), if_neg hnz, if_neg (by simp [hfull, hcls]),
    State.versionedAt_here hg]
  dsimp only
  rw [hr]
  dsimp only
  rw [if_neg hn]

/-! ### VRETIRE and VRQRY -/

theorem Region.horizonAt_zero_of_ahead {r : Region} {h : BitVec 32} {l : List (Nat × BitVec 32)} (ha : r.ahead = (0, h) :: l) :
    r.horizonAt 0 = h.toNat := by
  unfold Region.horizonAt
  rw [ha, List.find?_cons_of_pos (by simp)]

theorem exec_vretire_local {a b : Reg} {slot : Fin 16} {s : State} {pa i q : Nat} {r : Region} (hs : OnStrand s)
    (hg : Claim.LeadsToGranule .load s (s.hart.getX a) pa i r q) :
    exec (.vretire a b slot) s = .next (if r.cursors.length ≤ slot.val then s.trap false 0 .notVersioned (BitVec.ofNat 64 r.base)
      else s.setRegion i (r.retire slot.val (BitVec.ofNat 32 (s.hart.version b)))) := by
  have arm : exec (.vretire a b slot) s = execVretire a b slot s := rfl
  rw [arm, execVretire, State.strandOnly_strand _ _ hs]
  dsimp only
  rw [State.versionedAt_here hg]
  rfl

theorem exec_vrqry_local {d a : Reg} {w : Fin 5} {s : State} {pa i q : Nat} {r : Region} (hs : OnStrand s)
    (hg : Claim.LeadsToGranule .load s (s.hart.getX a) pa i r q) :
    exec (.vrqry d a w) s = .next (s.onHart fun h => h.setX d (r.query q w)) := by
  have arm : exec (.vrqry d a w) s = execVrqry d a w s := rfl
  rw [arm, execVrqry, State.strandOnly_strand _ _ hs]
  dsimp only
  rw [State.versionedAt_here hg]
  rfl

/-- A version number is the one past them all in its word and in its bits alike. -/
theorem toNat_eq_noVersion {n : BitVec 32} : n.toNat = noVersion ↔ n = BitVec.allOnes 32 := by
  rw [← BitVec.toNat_inj]
  exact Iff.rfl

theorem version_eq_noVersion {h : Hart} {x : Reg} : h.version x = noVersion ↔ BitVec.ofNat 32 ((h.getX x).toNat % 2 ^ 32) = BitVec.allOnes 32 := by
  rw [← toNat_eq_noVersion, BitVec.toNat_ofNat, Nat.mod_mod]
  rfl

theorem Region.cursors_retire (r : Region) (slot : Nat) (n : BitVec 32) (old : Option (BitVec 32)) : r.cursors[slot]? = some old →
    (r.retire slot n).cursors = r.cursors.set slot (match old with
      | none => none
      | some k => if n = BitVec.allOnes 32 then none else some (if k < n then n else k)) := by
  intro ho
  unfold Region.retire
  dsimp only
  rw [ho]
  cases old with
  | none => rfl
  | some k =>
    dsimp only
    simp only [toNat_eq_noVersion]

/-- The horizon looks at the cursors alone. -/
theorem Region.horizon_of_cursors {r x : Region} (h : x.cursors = r.cursors) : x.horizon = r.horizon := by
  unfold Region.horizon
  rw [h]

/-- The directory sees a new horizon at once. -/
theorem Region.horizonAt_zero_retire (r : Region) (slot : Nat) (n : BitVec 32) :
    (r.retire slot n).horizonAt 0 = (r.retire slot n).horizon % 2 ^ 32 := by
  unfold Region.retire
  rw [Region.horizonAt_zero_of_ahead rfl, BitVec.toNat_ofNat]
  exact congrArg (· % 2 ^ 32) (Region.horizon_of_cursors rfl)

theorem extract_low_word (v : BitVec 32) (n : Nat) : (BitVec.ofNat 64 (v.toNat + n * 2 ^ 32)).extractLsb' 0 32 = v := by
  have := v.isLt
  apply BitVec.eq_of_toNat_eq
  rw [BitVec.extractLsb'_toNat, BitVec.toNat_ofNat, Nat.shiftRight_zero]
  omega

theorem toNat_low_word (h a b c : Nat) : (BitVec.ofNat 64 (h + a * 2 ^ 32 + b * 2 ^ 36 + c * 2 ^ 40)).toNat % 2 ^ 32 = h % 2 ^ 32 := by
  rw [BitVec.toNat_ofNat]
  omega

/-- The claim on VPUB, VRETIRE and VRQRY. -/
theorem publishRetireAndQuery_holds : Claim.PublishRetireAndQuery := by
  intro d a b v cls slot w s pa i q r h va size n c hs
  refine ⟨fun qs hbase hlen hnz hn hfull hcls hg hr => ?_, fun hg => ⟨fun old hold => ?_, fun hout => ?_, ?_⟩, ?_, ?_⟩
  · obtain ⟨hgran, hsame⟩ := Region.publish_all n qs r
    exact ⟨_, _, exec_vpub_local hs hbase hlen hnz (mt version_eq_noVersion.1 hn) hfull hcls hg hr, rfl, hgran, hsame⟩
  · have hin : ¬ r.cursors.length ≤ slot.val := not_le.2 (List.getElem?_eq_some_iff.1 hold).1
    refine ⟨_, r.retire slot.val c, (exec_vretire_local hs hg).trans (congrArg _ (if_neg hin)), rfl, rfl,
      Region.horizonAt_zero_retire .., Region.cursors_retire r slot.val c old hold⟩
  · exact (exec_vretire_local hs hg).trans (congrArg _ (if_pos hout))
  · exact ⟨_, exec_vrqry_local hs hg, writesX_setX s d _⟩
  · exact extract_low_word _ _
  · exact toNat_low_word _ _ _ _

/-! ### Cells of a memory -/

theorem Memory.get_unlisted {m : Memory} {x : Nat} (h : ∀ c ∈ m, c.1 ≠ x) : m.get x = Memory.unlisted := by
  induction m with
  | nil => rfl
  | cons c m ih =>
    rw [Memory.get, if_neg (h c List.mem_cons_self)]
    exact ih fun d hd => h d (List.mem_cons_of_mem _ hd)

theorem Memory.get_append_right {m l : Memory} {x : Nat} (h : ∀ c ∈ m, c.1 ≠ x) : Memory.get (m ++ l) x = l.get x := by
  induction m with
  | nil => rfl
  | cons c m ih =>
    rw [List.cons_append, Memory.get, if_neg (h c List.mem_cons_self)]
    exact ih fun d hd => h d (List.mem_cons_of_mem _ hd)

theorem Memory.get_append_left {m l : Memory} {x : Nat} (h : ∀ c ∈ l, c.1 ≠ x) : Memory.get (m ++ l) x = m.get x := by
  induction m with
  | nil => exact Memory.get_unlisted h
  | cons c m ih => rw [List.cons_append, Memory.get, Memory.get, ih]

theorem Memory.get_filter {m : Memory} {f : Host.Cell → Bool} {x : Nat} (h : ∀ c : Host.Cell, c.1 = x → f c = true) :
    Memory.get (m.filter f) x = m.get x := by
  induction m with
  | nil => rfl
  | cons c m ih =>
    by_cases hf : f c = true
    · rw [List.filter_cons_of_pos hf, Memory.get, Memory.get, ih]
    · rw [List.filter_cons_of_neg hf, Memory.get, if_neg (mt (h c) hf), ih]

theorem Memory.get_of_mem {m : Memory} (hm : Memory.wf m) {x : Nat} {b : Byte} (h : (x, b) ∈ m) : m.get x = b := by
  obtain ⟨hrise, -⟩ := hm
  induction m with
  | nil => cases h
  | cons c m ih =>
    obtain ⟨hfirst, hrest⟩ := List.pairwise_cons.1 hrise
    rw [Memory.get]
    rcases List.mem_cons.1 h with rfl | h
    · exact if_pos rfl
    · rw [if_neg (hfirst _ h).ne]
      exact ih h hrest

theorem Memory.getBytes_of_get {m : Memory} : ∀ {l : List Byte} {a : Nat}, (∀ j b, l[j]? = some b → m.get (a + j) = b) →
    m.getBytes a l.length = l
  | [], _, _ => rfl
  | b :: l, a, h => by
    have hrest : m.getBytes (a + 1) l.length = l := Memory.getBytes_of_get fun j c hj => by
      have := h (j + 1) c (by simpa using hj)
      rwa [show a + 1 + j = a + (j + 1) by omega]
    exact congrArg₂ List.cons (h 0 b rfl) hrest

section
variable {m cells : Memory} {a n x : Nat} (hin : ∀ c ∈ cells, a ≤ c.1 ∧ c.1 < a + n)
include hin

theorem Memory.get_replace_out (hx : x < a ∨ a + n ≤ x) : (m.replace a n cells).get x = m.get x := by
  have hcells : ∀ c ∈ cells, c.1 ≠ x := fun c hc => by have := hin c hc; omega
  unfold Memory.replace
  rcases hx with hx | hx
  · rw [Memory.get_append_left, Memory.get_append_left hcells]
    · exact Memory.get_filter fun c hc => decide_eq_true (hc ▸ hx)
    · intro c hc
      have := of_decide_eq_true (List.mem_filter.1 hc).2
      omega
  · rw [Memory.get_append_right]
    · exact Memory.get_filter fun c hc => decide_eq_true (hc ▸ hx)
    · intro c hc
      rcases List.mem_append.1 hc with hc | hc
      · have := of_decide_eq_true (List.mem_filter.1 hc).2
        omega
      · exact hcells c hc

omit hin in
theorem Memory.get_replace_in (hx : a ≤ x ∧ x < a + n) : (m.replace a n cells).get x = cells.get x := by
  obtain ⟨hl, hr⟩ := hx
  unfold Memory.replace
  rw [Memory.get_append_left, Memory.get_append_right]
  · intro c hc
    have := of_decide_eq_true (List.mem_filter.1 hc).2
    omega
  · intro c hc
    have := of_decide_eq_true (List.mem_filter.1 hc).2
    omega

end

/-! ### A region's data in its pages -/

theorem length_flatMap_range {α : Type} {f : Nat → List α} {c : Nat} (hf : ∀ k, (f k).length = c) (n : Nat) :
    ((List.range n).flatMap f).length = n * c := by
  rw [List.length_flatMap, List.map_congr_left fun k _ => hf k, List.map_const', List.sum_replicate, List.length_range, smul_eq_mul]

theorem getElem?_flatMap_range {α : Type} {f : Nat → List α} {c : Nat} (hf : ∀ k, (f k).length = c) {k b : Nat} (hb : b < c) :
    ∀ {n : Nat}, k < n → ((List.range n).flatMap f)[c * k + b]? = (f k)[b]?
  | n + 1, hk => by
    have hlen := length_flatMap_range hf n
    rw [List.range_succ, List.flatMap_append]
    rcases Nat.lt_succ_iff_lt_or_eq.1 hk with hlt | rfl
    · have hin : c * k + b < n * c := by nlinarith
      rw [List.getElem?_append_left (by rw [hlen]; exact hin)]
      exact getElem?_flatMap_range hf hb hlt
    · rw [List.getElem?_append_right (by rw [hlen]; nlinarith), hlen, Nat.mul_comm c k, Nat.add_sub_cancel_left]
      simp

/-- A page holds the newest version of each of its granules. -/
theorem Region.get_pageCells (r : Region) (i pa : Nat) {k j : Nat} (hk : k < 512) {b : Byte}
    (hb : (leBytes 128 (r.granule (512 * i + k)).newest.toNat)[j]? = some b) : (r.pageCells i pa).get (pa + 128 * k + j) = b := by
  have hj : j < 128 := by simpa using (List.getElem?_eq_some_iff.1 hb).1
  have hmem : (128 * k + j, b) ∈ positions ((List.range 512).flatMap fun k => leBytes 128 (r.granule (i * 512 + k)).newest.toNat) := by
    refine mem_positions.2 ((getElem?_flatMap_range (fun _ => length_leBytes ..) hj hk).trans ?_)
    rwa [Nat.mul_comm i 512]
  by_cases hz : b = Memory.unlisted
  · rw [hz]
    refine Memory.get_unlisted fun c hc hx => ?_
    obtain ⟨⟨e, v⟩, he, hv⟩ := List.mem_filterMap.1 hc
    split at hv
    · cases hv
    next hne =>
      obtain rfl := Option.some.inj hv
      have hex : e = 128 * k + j := by dsimp only at hx; omega
      subst hex
      exact hne ((Option.some.inj ((mem_positions.1 he).symm.trans (mem_positions.1 hmem))).trans hz)
  · refine Memory.get_of_mem (r.pageCells_wf i pa) (List.mem_filterMap.2 ⟨_, hmem, ?_⟩)
    rw [if_neg hz, Nat.add_assoc]

/-- The pages of a region are written one after another. -/
def Region.writePages (r : Region) (l : List (Nat × Nat)) (m : Memory) : Memory :=
  l.foldl (fun m x => m.replace x.2 65536 (r.pageCells x.1 x.2)) m

theorem Region.get_writePages_out (r : Region) {x : Nat} : ∀ {l : List (Nat × Nat)} {m : Memory},
    (∀ p ∈ l, x < p.2 ∨ p.2 + 65536 ≤ x) → (r.writePages l m).get x = m.get x
  | [], _, _ => rfl
  | p :: _, _, h => (Region.get_writePages_out r fun q hq => h q (List.mem_cons_of_mem _ hq)).trans
      (Memory.get_replace_out (fun _ hc => Region.mem_pageCells hc) (h p List.mem_cons_self))

theorem Region.get_writePages_in (r : Region) {x : Nat} {p : Nat × Nat} (hx : p.2 ≤ x ∧ x < p.2 + 65536) :
    ∀ {l : List (Nat × Nat)} {m : Memory}, l.Pairwise (fun p q => p.2 + 65536 ≤ q.2 ∨ q.2 + 65536 ≤ p.2) → p ∈ l →
      (r.writePages l m).get x = (r.pageCells p.1 p.2).get x
  | q :: l, m, hd, hp => by
    obtain ⟨hfirst, hrest⟩ := List.pairwise_cons.1 hd
    change (r.writePages l (m.replace q.2 65536 (r.pageCells q.1 q.2))).get x = _
    rcases List.mem_cons.1 hp with rfl | hp
    · refine (Region.get_writePages_out r fun y hy => ?_).trans (Memory.get_replace_in hx)
      have := hfirst y hy
      omega
    · exact Region.get_writePages_in r hx hrest hp

theorem map_snd_positions {α : Type} (l : List α) : (positions l).map (·.2) = l := by
  rw [positions, List.map_snd_zip (by simp)]

/-! ### VRDECL and VRFREE -/

theorem State.withGot_ok {α : Type} {s t : State} {x : Got α} {v : α} (hx : x = .ok v t) (k : α → State → State) : s.withGot x k = k v t := by
  rw [hx]
  rfl

section
variable {d a : Reg} {s : State} {v : Nat} (hs : Supervisor s) (ha : (s.hart.getX a).toNat % 64 = 0)
  (hv : s.readBlock (s.hart.getX a) 64 = .ok v s)
include hs ha hv

/-- A descriptor that is refused before its pool is read. -/
theorem exec_vrdecl_refused {n : Nat} (hn : s.declareStatus (.parse v) = .error n) :
    exec (.vrdecl d a) s = .next (s.onHart fun h => h.setX d (BitVec.ofNat 64 n)) := by
  have arm : exec (.vrdecl d a) s = execVrdecl d a s := rfl
  rw [arm, execVrdecl, State.supervisorOnly_super _ _ hs.1 hs.2]
  dsimp only
  rw [if_neg (not_not.2 (aligned_iff.2 ha)), State.withGot_ok hv]
  rw [hn]

variable {pages l : List Nat} (hp : s.declareStatus (.parse v) = .ok pages)
  (hl : s.readEntries 8 (RegionDescriptor.parse v).poolCount (BitVec.ofNat 64 (RegionDescriptor.parse v).poolList) = .ok l s)
include hp hl

theorem exec_vrdecl_badPool (hpool : s.poolPages (.parse v) l = none) :
    exec (.vrdecl d a) s = .next (s.onHart fun h => h.setX d (BitVec.ofNat 64 6)) := by
  have arm : exec (.vrdecl d a) s = execVrdecl d a s := rfl
  rw [arm, execVrdecl, State.supervisorOnly_super _ _ hs.1 hs.2]
  dsimp only
  rw [if_neg (not_not.2 (aligned_iff.2 ha)), State.withGot_ok hv]
  rw [hp]
  dsimp only
  rw [State.withGot_ok hl, hpool]

/-- A descriptor that is accepted adds its region, all of whose slots 0 are written. -/
theorem exec_vrdecl_declared {pool : List Nat} (hpool : s.poolPages (.parse v) l = some pool) :
    let k := RegionDescriptor.parse v
    let r : Region :=
      { part := s.hart.part, base := k.base, pages := pages, pool := pool, depth := k.depth
        cursors := List.replicate k.cursors (some 0), scope := Fin.ofNat 7 k.scope
        fill := k.start s.mem pages, granules := [], ahead := [], seen := 0 }
    exec (.vrdecl d a) s = .next ((({ s with regions := s.regions ++ [r] } : State).mend (r.slotLines 0).contains).onHart
      fun h => h.setX d (BitVec.ofNat 64 0)) := by
  intro k r
  have arm : exec (.vrdecl d a) s = execVrdecl d a s := rfl
  rw [arm, execVrdecl, State.supervisorOnly_super _ _ hs.1 hs.2]
  dsimp only
  rw [if_neg (not_not.2 (aligned_iff.2 ha)), State.withGot_ok hv]
  rw [hp]
  dsimp only
  rw [State.withGot_ok hl, hpool]

end

/-- The live region of the hart's partition with a base. -/
def Region.hasBase (part : Fin 8) (base : Nat) (r : Region) : Bool := decide (r.part = part ∧ r.base = base)

theorem exec_vrfree_unknown {d a : Reg} {s : State} (hs : Supervisor s)
    (hnone : ∀ r ∈ s.regions, r.part = s.hart.part → r.base ≠ (s.hart.getX a).toNat) :
    exec (.vrfree d a) s = .next (s.onHart fun h => h.setX d 1) := by
  have arm : exec (.vrfree d a) s = execVrfree d a s := rfl
  have hfind : s.regions.find? (Region.hasBase s.hart.part (s.hart.getX a).toNat) = none := by
    rw [List.find?_eq_none]
    exact fun r hr hb => hnone r hr (of_decide_eq_true hb).1 (of_decide_eq_true hb).2
  rw [arm, execVrfree, State.supervisorOnly_super _ _ hs.1 hs.2]
  unfold Region.hasBase at hfind
  dsimp only
  rw [hfind]

/-- A region that is freed: its loads wake, its data is written back, and it is gone. -/
theorem exec_vrfree_live {d a : Reg} {s : State} {r : Region} {pre post : List Region} (hs : Supervisor s) (hregions : s.regions = pre ++ r :: post)
    (hr : r.part = s.hart.part ∧ r.base = (s.hart.getX a).toNat)
    (hpre : ∀ u ∈ pre, u.part = s.hart.part → u.base ≠ (s.hart.getX a).toNat) :
    let s1 := s.wakeParked ((s.allParked.filter fun e => s.waitsAt pre.length none e).map (·.who)).contains
    exec (.vrfree d a) s = .next { s1 with
      mem := r.writeBack s.mem, badLines := s.writtenBack r, regions := pre ++ post, hart := s1.hart.setX d 0 } := by
  intro s1
  have arm : exec (.vrfree d a) s = execVrfree d a s := rfl
  have hhead : Region.hasBase s.hart.part (s.hart.getX a).toNat r = true := decide_eq_true hr
  have hnone : ∀ u ∈ pre, Region.hasBase s.hart.part (s.hart.getX a).toNat u = false :=
    fun u hu => decide_eq_false fun hb => hpre u hu hb.1 hb.2
  have hfind : s.regions.find? (Region.hasBase s.hart.part (s.hart.getX a).toNat) = some r := by
    rw [hregions, List.find?_append, List.find?_eq_none.2 fun u hu => by simp [hnone u hu], Option.none_or, List.find?_cons_of_pos hhead]
  have hidx : s.regions.findIdx (Region.hasBase s.hart.part (s.hart.getX a).toNat) = pre.length := by
    rw [hregions, List.findIdx_append, if_neg (by simpa using hnone), List.findIdx_cons, hhead, cond_true, Nat.zero_add]
  have herase : s.regions.eraseIdx pre.length = pre ++ post := by
    rw [hregions, List.eraseIdx_append_of_length_le le_rfl]
    simp
  unfold Region.hasBase at hfind hidx
  rw [arm, execVrfree, State.supervisorOnly_super _ _ hs.1 hs.2]
  dsimp only
  rw [hfind]
  dsimp only
  rw [hidx, herase]

/-- The claim on VRDECL and VRFREE. -/
theorem regionsAreDeclaredAndFreed_holds : Claim.RegionsAreDeclaredAndFreed := by
  intro d a s v h k hs
  refine ⟨fun ha hv => ⟨fun n hn => ?_, fun hf => ?_, fun hf hk => ?_, fun pages l hp hl => ⟨fun hpool => ?_, fun pool hpool => ?_⟩⟩,
    fun hnone => ?_, ?_⟩
  · exact ⟨_, exec_vrdecl_refused hs ha hv hn, writesX_setX s d _⟩
  · unfold State.declareStatus
    exact if_pos hf
  · unfold State.declareStatus
    rw [if_neg (not_not.2 hf), if_pos (by simp [hk])]
  · exact ⟨_, exec_vrdecl_badPool hs ha hv hp hl hpool, writesX_setX s d _⟩
  · exact ⟨_, exec_vrdecl_declared hs ha hv hp hl hpool, rfl, rfl, rfl, rfl, rfl, rfl, rfl, rfl⟩
  · exact ⟨_, exec_vrfree_unknown hs hnone, writesX_setX s d _⟩
  · intro r pre post hregions hpart hbase hpre waits woken
    have hwaits : waits = ((s.allParked.filter fun e => s.waitsAt pre.length none e).map (·.who)).contains := by
      funext w
      rw [Bool.eq_iff_iff, List.any_eq_true, List.contains_iff_mem, List.mem_map]
      simp [and_assoc]
    refine ⟨_, exec_vrfree_live hs hregions ⟨hpart, hbase⟩ hpre, ?_, fun hbad => ?_, fun x hx => ?_, fun _ hd i pa n hpa hn => ?_⟩
    · rw [← hwaits]
      rfl
    · dsimp only
      unfold State.writtenBack
      rw [hbad]
      rfl
    · exact r.get_writePages_out fun p hp => hx _ (map_snd_positions r.pages ▸ List.mem_map_of_mem hp)
    · have hpages : (positions r.pages).Pairwise (fun p q => p.2 + 65536 ≤ q.2 ∨ q.2 + 65536 ≤ p.2) :=
        List.pairwise_map.1 ((map_snd_positions r.pages).symm ▸ hd)
      have hget : ∀ j b, (leBytes 128 (r.granule (512 * i + n)).newest.toNat)[j]? = some b → (r.writeBack s.mem).get (pa + 128 * n + j) = b := by
        intro j b hb
        have hj : j < 128 := by simpa using (List.getElem?_eq_some_iff.1 hb).1
        exact (r.get_writePages_in (p := (i, pa)) (by dsimp only; omega) hpages (mem_positions.2 hpa)).trans (r.get_pageCells i pa hn hb)
      simpa using Memory.getBytes_of_get hget

/-- Settles O27: what a granule's record holds after each of its updates, and the memory a freed region's pages are written back to. -/
theorem versionsAreManaged : Obligations.VersionsAreManaged := by
  unfold Obligations.VersionsAreManaged
  exact ⟨publishRetireAndQuery_holds, regionsAreDeclaredAndFreed_holds⟩

end Sys2Proof.Machine
end

section
/-! Settled here: O26, versioned loads read the greatest version at or below theirs, and versioned stores create one version. -/

namespace Sys2Proof.Machine

open Sys2Proof.Safety

/-! ### The greatest created version -/

/-- Of the best version at or below `v` so far and a slot, the better. -/
def betterVersion {α : Type} (v : Nat) (best sl : Option (BitVec 32 × α)) : Option (BitVec 32 × α) :=
  match sl, best with
  | some (n, d), none => if n.toNat ≤ v then some (n, d) else none
  | some (n, d), some (m, e) => if n.toNat ≤ v ∧ m.toNat < n.toNat then some (n, d) else some (m, e)
  | none, b => b

theorem Granule.created_eq (g : Granule) (v : Nat) : g.created v = g.slots.foldl (betterVersion v) none := by
  unfold Granule.created
  congr 1
  funext b sl
  rcases sl with _ | ⟨n, d⟩ <;> rcases b with _ | ⟨m, e⟩ <;> rfl

section
variable {α : Type} {v : Nat} {n : BitVec 32} {x : α}

theorem foldl_betterVersion_greatest : ∀ {l : List (Option (BitVec 32 × α))},
    (∀ k y, some (k, y) ∈ l → k.toNat ≤ v → (k.toNat < n.toNat ∨ (k, y) = (n, x))) →
    l.foldl (betterVersion v) (some (n, x)) = some (n, x)
  | [], _ => rfl
  | sl :: l, h => by
    have hfirst : betterVersion v (some (n, x)) sl = some (n, x) := by
      rcases sl with _ | ⟨k, y⟩
      · rfl
      · refine if_neg fun ⟨hv, hlt⟩ => ?_
        rcases h k y List.mem_cons_self hv with hk | hk
        · omega
        · rw [(Prod.mk.inj hk).1] at hlt
          exact lt_irrefl _ hlt
    rw [List.foldl_cons, hfirst]
    exact foldl_betterVersion_greatest fun k y hy => h k y (List.mem_cons_of_mem _ hy)

theorem foldl_betterVersion_of_mem (hn : n.toNat ≤ v) : ∀ {l : List (Option (BitVec 32 × α))} {b : Option (BitVec 32 × α)},
    some (n, x) ∈ l → (∀ k y, some (k, y) ∈ l → k.toNat ≤ v → (k.toNat < n.toNat ∨ (k, y) = (n, x))) →
    (∀ p, b = some p → p.1.toNat < n.toNat) → l.foldl (betterVersion v) b = some (n, x)
  | sl :: l, b, hmem, h, hb => by
    have hrest : ∀ k y, some (k, y) ∈ l → k.toNat ≤ v → (k.toNat < n.toNat ∨ (k, y) = (n, x)) :=
      fun k y hy => h k y (List.mem_cons_of_mem _ hy)
    rw [List.foldl_cons]
    by_cases hsl : sl = some (n, x)
    · have hfirst : betterVersion v b sl = some (n, x) := by
        subst hsl
        rcases b with _ | ⟨m, e⟩
        · exact if_pos hn
        · exact if_pos ⟨hn, hb _ rfl⟩
      rw [hfirst]
      exact foldl_betterVersion_greatest hrest
    · refine foldl_betterVersion_of_mem hn ((List.mem_cons.1 hmem).resolve_left (Ne.symm hsl)) hrest fun p hp => ?_
      rcases sl with _ | ⟨k, y⟩
      · exact hb p hp
      · have hk : k.toNat ≤ v → k.toNat < n.toNat := fun hv =>
          (h k y List.mem_cons_self hv).resolve_right fun e => hsl (congrArg some e)
        rcases b with _ | ⟨m, e⟩
        · change (if k.toNat ≤ v then some (k, y) else none) = some p at hp
          split at hp
          next hv => exact Option.some.inj hp ▸ hk hv
          next => cases hp
        · change (if k.toNat ≤ v ∧ m.toNat < k.toNat then some (k, y) else some (m, e)) = some p at hp
          split at hp
          next hv => exact Option.some.inj hp ▸ hk hv.1
          next => exact Option.some.inj hp ▸ hb _ rfl

end

theorem Granule.created_greatest {v : Nat} {n : BitVec 32} {x : BitVec 1024} {g : Granule} (hmem : some (n, x) ∈ g.slots) (hn : n.toNat ≤ v)
    (h : ∀ k y, some (k, y) ∈ g.slots → k.toNat ≤ v → (k.toNat < n.toNat ∨ (k, y) = (n, x))) : g.created v = some (n, x) :=
  (g.created_eq v).trans (foldl_betterVersion_of_mem hn hmem h (by simp))

/-! ### Versioned loads -/

section
variable {s : State} {va : Word} {pa i q : Nat} {r : Region} {v n : Nat} {cls : Fin 16} {key : Nat} (hg : Claim.LeadsToGranule .load s va pa i r q)
include hg

theorem State.versionedBytes_read {d : BitVec 1024} (hd : r.readVersion q v = .ok d) (hl : s.versionLost r q v = false) :
    s.versionedBytes va v n cls key = .ok (((leBytes 128 d.toNat).drop (pa % 128)).take n) s := by
  unfold State.versionedBytes
  rw [State.versionedAt_here hg]
  dsimp only
  rw [hd]
  simp [hl]

theorem State.versionedBytes_fault {c : Cause} (hd : r.readVersion q v = .error (some c)) : s.versionedBytes va v n cls key = .fault c := by
  unfold State.versionedBytes
  rw [State.versionedAt_here hg]
  dsimp only
  rw [hd]

theorem State.versionedBytes_wait (hd : r.readVersion q v = .error none) : s.versionedBytes va v n cls key = .wait .versionLoad := by
  unfold State.versionedBytes
  rw [State.versionedAt_here hg]
  dsimp only
  rw [hd]

end

theorem State.versionedBytes_outside {s : State} {va : Word} {pa v n : Nat} {cls : Fin 16} {key : Nat} (hd : LeadsToDevice .load s va pa) :
    s.versionedBytes va v n cls key = .fault .notVersioned := by
  unfold State.versionedBytes State.versionedAt
  rw [hd.1]
  dsimp only
  rw [hd.2]

section
variable {r : Region} {q v : Nat}

theorem Region.readVersion_snapshot : r.readVersion q noVersion = .ok (r.granule q).newest := by
  unfold Region.readVersion
  exact if_pos rfl

theorem Region.readVersion_missing (hv : v ≠ noVersion) (hlow : v < r.horizon) : r.readVersion q v = .error (some .versionMissing) := by
  unfold Region.readVersion
  dsimp only
  rw [if_neg hv, if_pos hlow]

theorem Region.readVersion_above (hv : v ≠ noVersion) (hlow : r.horizon ≤ v) (hhigh : (r.granule q).latest.toNat < v) :
    r.readVersion q v = .error none := by
  unfold Region.readVersion
  dsimp only
  rw [if_neg hv, if_neg (not_lt.2 hlow), if_pos hhigh]

theorem Region.readVersion_created (hv : v ≠ noVersion) (hlow : r.horizon ≤ v) (hhigh : v ≤ (r.granule q).latest.toNat) {n : BitVec 32}
    {x : BitVec 1024} (hc : (r.granule q).created v = some (n, x)) : r.readVersion q v = .ok x := by
  unfold Region.readVersion
  dsimp only
  rw [if_neg hv, if_neg (not_lt.2 hlow), if_neg (not_lt.2 hhigh), hc]
  rfl

end

section
variable {s : State} {a b : Reg} (hs : OnStrand s) (ha : (s.hart.getX a).toNat % 8 = 0)
  (hdet : ¬ (s.hart.st.det = true ∧ s.hart.version b = noVersion))
include hs ha hdet

/-- LDV, once its checks at issue are passed. -/
theorem exec_ldv_checked (d : Reg) (cls : Fin 16) : exec (.ldv d a b cls) s =
    .next (s.withVersioned (s.hart.getX a) (s.hart.version b) (s.versionedBytes (s.hart.getX a) (s.hart.version b) 8 cls 0)
      fun l s' => s'.onHart fun h => h.setX d (wordOfBytes l)) := by
  have arm : exec (.ldv d a b cls) s = execLdv d a b cls s := rfl
  rw [arm, execLdv, State.strandOnly_strand _ _ hs]
  dsimp only
  rw [if_neg hdet, if_neg (not_not.2 (aligned_iff.2 ha))]

theorem exec_ldv_reads {d : Reg} {cls : Fin 16} {l : List Byte}
    (hl : s.versionedBytes (s.hart.getX a) (s.hart.version b) 8 cls 0 = .ok l s) :
    exec (.ldv d a b cls) s = .next (s.onHart fun h => h.setX d (wordOfBytes l)) := by
  rw [exec_ldv_checked hs ha hdet, hl]
  rfl

theorem exec_ldv_faults {d : Reg} {cls : Fin 16} {c : Cause} (hc : c ≠ .deterministic ∧ c ≠ .bankError)
    (hl : s.versionedBytes (s.hart.getX a) (s.hart.version b) 8 cls 0 = .fault c) :
    exec (.ldv d a b cls) s = .next (s.trap false 0 c (s.hart.getX a)) := by
  rw [exec_ldv_checked hs ha hdet, hl]
  unfold State.withVersioned State.withAcc faultAddr
  simp [hc.1, hc.2]

theorem exec_ldv_waits {d : Reg} {cls : Fin 16}
    (hl : s.versionedBytes (s.hart.getX a) (s.hart.version b) 8 cls 0 = .wait .versionLoad) (hdue : s.hart.due = none) :
    exec (.ldv d a b cls) s = .next (s.waitFor .versionLoad 0 (s.hart.getX a)) := by
  rw [exec_ldv_checked hs ha hdet, hl]
  unfold State.withVersioned State.withAcc State.waitEnds
  simp only [hdue]

theorem exec_ldv_expired {d : Reg} {cls : Fin 16} {c : Cause}
    (hl : s.versionedBytes (s.hart.getX a) (s.hart.version b) 8 cls 0 = .wait .versionLoad) (hdue : s.hart.due = some c) :
    exec (.ldv d a b cls) s = .next (s.trap false 0 c (s.hart.getX a)) := by
  rw [exec_ldv_checked hs ha hdet, hl]
  unfold State.withVersioned State.withAcc State.waitEnds
  simp only [hdue]

end

/-- A versioned load that must wait enters its slice's list, or none where that is full. -/
theorem State.newWait_listed (s : State) (e : Nat) (va : Word) : (s.newWait .versionLoad e va).kind =
    if s.listFull (s.resolve s.hart.ctx .load va) then .versionRefused else .versionLoad := by
  unfold State.newWait State.listed
  simp

/-- The claim on versioned loads. -/
theorem versionedLoadsReadTheGreatestVersionBelow_holds : Claim.VersionedLoadsReadTheGreatestVersionBelow := by
  intro d a b cls s pa i q r h va v snapshot g at_ hs ha
  have plain : ¬ snapshot → ¬ (s.hart.st.det = true ∧ s.hart.version b = noVersion) := fun hn hd => hn hd.2
  refine ⟨fun hg => ⟨fun hsnap hdet hl => ?_, fun hsnap hdet => ?_, fun hsnap hlow hhigh n x hmem hn hgreat hl => ?_,
    fun hsnap hlow => ?_, fun hsnap hlow hhigh hdue => ?_, fun hsnap hlow hhigh c hdue => ?_⟩, fun hd hdet => ?_⟩
  · have hread := State.versionedBytes_read (n := 8) (cls := cls) (key := 0) hg (v := v)
      ((congrArg (r.readVersion q) hsnap).trans Region.readVersion_snapshot) hl
    exact ⟨_, exec_ldv_reads hs ha (fun hx => by simp [h] at hdet; simp [hdet] at hx) hread, writesX_setX s d _⟩
  · have arm : exec (.ldv d a b cls) s = execLdv d a b cls s := rfl
    rw [arm, execLdv, State.strandOnly_strand _ _ hs]
    exact congrArg _ (if_pos ⟨hdet, hsnap⟩)
  · have hread := State.versionedBytes_read (n := 8) (cls := cls) (key := 0) hg
      (Region.readVersion_created hsnap hlow hhigh (Granule.created_greatest hmem hn hgreat)) hl
    exact ⟨_, exec_ldv_reads hs ha (plain hsnap) hread, writesX_setX s d _⟩
  · exact exec_ldv_faults hs ha (plain hsnap) (by decide) (State.versionedBytes_fault hg (Region.readVersion_missing hsnap hlow))
  · exact ⟨s.newWait .versionLoad 0 va, rfl, State.newWait_listed s 0 va,
      exec_ldv_waits hs ha (plain hsnap) (State.versionedBytes_wait hg (Region.readVersion_above hsnap hlow hhigh)) hdue⟩
  · exact exec_ldv_expired hs ha (plain hsnap) (State.versionedBytes_wait hg (Region.readVersion_above hsnap hlow hhigh)) hdue
  · exact exec_ldv_faults hs ha (fun hx => hdet.elim (fun hf => by rw [hf] at hx; exact absurd hx.1 (by decide)) fun hn => hn hx.2) (by decide)
      (State.versionedBytes_outside hd)

/-! ### Versioned stores -/

/-- Slot `k` may take a new version: it is empty, or holds a version below the one kept (R118). -/
def Granule.slotFree (g : Granule) (horizon k : Nat) : Prop :=
  ∃ o, g.slots[k]? = some o ∧ (o = none ∨ ∃ y, o = some y ∧ y.1.toNat < g.keep horizon)

theorem Granule.mem_freeSlots {g : Granule} {horizon k : Nat} : k ∈ g.freeSlots horizon ↔ g.slotFree horizon k := by
  unfold Granule.freeSlots Granule.slotFree
  rw [List.mem_filter, List.mem_range]
  cases hk : g.slots[k]? with
  | none => simp
  | some o =>
    have hlt := (List.getElem?_eq_some_iff.1 hk).1
    rcases o with _ | ⟨n, x⟩ <;> simp [hlt]

/-- The slot picked is one of the free ones, and picking it draws free values at most. -/
theorem State.pick_mem (s : State) : ∀ {l : List Nat}, l ≠ [] → (s.pick l).1 ∈ l ∧ ∃ n, (s.pick l).2 = { s with draws := n }
  | [_], _ => ⟨List.mem_singleton_self _, s.draws, rfl⟩
  | j :: k :: l, _ => by
    refine ⟨?_, s.draws + 1, rfl⟩
    have hlt : Config.free s.draws % (j :: k :: l).length < (j :: k :: l).length := Nat.mod_lt _ (by simp)
    change (j :: k :: l).getD _ 0 ∈ _
    rw [List.getD_eq_getElem _ _ hlt]
    exact List.getElem_mem hlt

section
variable {s : State} {i q : Nat} {r : Region} {n : BitVec 32} {x : BitVec 1024}

theorem State.createVersion_exhausted (hn : n = BitVec.allOnes 32) : s.createVersion i r q n x = .fault .versionExhausted :=
  if_pos (toNat_eq_noVersion.2 hn)

theorem State.createVersion_collision (hn : n ≠ BitVec.allOnes 32) (he : n = (r.granule q).latest) :
    s.createVersion i r q n x = .fault .versionCollision :=
  (if_neg (mt toNat_eq_noVersion.1 hn)).trans (if_pos he)

theorem State.createVersion_order (hn : n ≠ BitVec.allOnes 32) (hlt : n < (r.granule q).latest) :
    s.createVersion i r q n x = .fault .versionOrder :=
  (if_neg (mt toNat_eq_noVersion.1 hn)).trans ((if_neg (BitVec.ne_of_lt hlt)).trans (if_pos hlt))

variable (hn : n ≠ BitVec.allOnes 32) (hgt : (r.granule q).latest < n)
include hn hgt

theorem State.createVersion_above : s.createVersion i r q n x = match (r.granule q).freeSlots (r.horizonAt q) with
    | [] => .wait .versionStore
    | l => .ok () (((s.pick l).2.setRegion i (r.setGranule ((r.granule q).create (s.pick l).1 n x))).mend (· == r.dataLine q (s.pick l).1)) := by
  have hne : n ≠ (r.granule q).latest := (BitVec.ne_of_lt hgt).symm
  have hge : ¬ n < (r.granule q).latest := fun h => absurd (BitVec.lt_def.1 h) (BitVec.lt_def.1 hgt).not_gt
  exact (if_neg (mt toNat_eq_noVersion.1 hn)).trans ((if_neg hne).trans (if_neg hge))

theorem State.createVersion_full (hfull : ∀ k, ¬ (r.granule q).slotFree (r.horizonAt q) k) : s.createVersion i r q n x = .wait .versionStore := by
  have hnil : (r.granule q).freeSlots (r.horizonAt q) = [] :=
    List.eq_nil_iff_forall_not_mem.2 fun k hk => hfull k (Granule.mem_freeSlots.1 hk)
  rw [State.createVersion_above hn hgt, hnil]

/-- A version above LATEST takes one free slot, whose line is then rewritten. -/
theorem State.createVersion_free (hfree : ∃ k, (r.granule q).slotFree (r.horizonAt q) k) : ∃ k m, (r.granule q).slotFree (r.horizonAt q) k ∧
    s.createVersion i r q n x =
      .ok () ((({ s with draws := m } : State).setRegion i (r.setGranule ((r.granule q).create k n x))).mend (· == r.dataLine q k)) := by
  obtain ⟨k, hk⟩ := hfree
  have hne : (r.granule q).freeSlots (r.horizonAt q) ≠ [] := List.ne_nil_of_mem (Granule.mem_freeSlots.2 hk)
  obtain ⟨hmem, m, hdraw⟩ := s.pick_mem hne
  refine ⟨_, m, Granule.mem_freeSlots.1 hmem, ?_⟩
  rw [State.createVersion_above hn hgt, ← hdraw]
  split
  next h => exact absurd h hne
  next => rfl

end

/-- The claim on versioned stores. -/
theorem versionedStoresCreateOneVersion_holds : Claim.VersionedStoresCreateOneVersion := by
  intro s i q r n x hr hq g free
  have arm : exec (.versionedStoreStep i q n x) s = .next (match s.createVersion i r q n x with
      | .ok () s' => s'
      | _ => s) := by
    have arm : exec (.versionedStoreStep i q n x) s = execVersionedStoreStep i q n x s := rfl
    rw [arm, execVersionedStoreStep, hr]
    exact congrArg _ (if_pos hq)
  refine ⟨fun hn hgt hfree => ?_, fun hnone => ?_, State.createVersion_collision, State.createVersion_order, State.createVersion_exhausted⟩
  · obtain ⟨k, m, hk, hc⟩ := State.createVersion_free (s := s) (i := i) (x := x) hn hgt hfree
    refine ⟨_, k, arm, hk, ?_⟩
    rw [hc]
    have hline : ∀ l : Nat, (!(l == r.dataLine q k)) = decide (l ≠ r.dataLine q k) := fun l => by
      rw [decide_not]
      exact congrArg (!·) (beq_eq_decide ..)
    simp only [State.mend, State.setRegion, Granule.create, hline]
    rfl
  · rw [arm]
    by_cases hn : n = BitVec.allOnes 32
    · rw [State.createVersion_exhausted hn]
    by_cases hgt : g.latest < n
    · rw [State.createVersion_full hn hgt ((hnone.resolve_left hn).resolve_left (not_not.2 hgt))]
    by_cases he : n = g.latest
    · rw [State.createVersion_collision hn he]
    · have hlt : n < g.latest := by bv_omega
      rw [State.createVersion_order hn hlt]

/-! ### Vector versioned loads -/

/-- A sweep every step of which gives its value and changes nothing. -/
theorem sweep_ok {α : Type} {f : Nat → State → Got α} {val : Nat → α} {s : State} : ∀ {l : List Nat},
    (∀ e ∈ l, f e s = .ok (val e) s) → sweep f l s = { done := l.map fun e => (e, val e), stop := none, state := s }
  | [], _ => rfl
  | e :: l, h => by
    unfold sweep
    rw [h e List.mem_cons_self]
    dsimp only
    rw [sweep_ok fun x hx => h x (List.mem_cons_of_mem _ hx)]
    rfl

/-- Two elements lie in one granule. -/
def SameGranule (addr : Nat → Word) (e f : Nat) : Prop := (addr e).toNat / 128 = (addr f).toNat / 128

/-- Grouping keeps the elements and their order, and each group lies in the granule of its first element. -/
theorem granuleGroups_spec (addr : Nat → Word) : ∀ l : List Nat, (granuleGroups addr l).flatten = l ∧
    ∀ g ∈ granuleGroups addr l, g ≠ [] ∧ ∀ e ∈ g, SameGranule addr e (g.headD 0)
  | [] => ⟨rfl, by simp [granuleGroups]⟩
  | e :: l => by
    obtain ⟨hflat, hgroups⟩ := granuleGroups_spec addr l
    have hself : ∀ x ∈ [e], SameGranule addr x ([e].headD 0) := fun x hx => by rw [List.mem_singleton.1 hx]; rfl
    unfold granuleGroups
    split
    next f g rest hl =>
      rw [hl] at hflat hgroups
      split
      next hsame =>
        refine ⟨congrArg (e :: ·) hflat, List.forall_mem_cons.2 ⟨⟨by simp, List.forall_mem_cons.2 ⟨rfl, fun x hx => ?_⟩⟩,
          fun y hy => hgroups y (List.mem_cons_of_mem _ hy)⟩⟩
        exact ((hgroups _ List.mem_cons_self).2 x hx).trans hsame.symm
      next => exact ⟨congrArg (e :: ·) hflat, List.forall_mem_cons.2 ⟨⟨by simp, hself⟩, hgroups⟩⟩
    next => exact ⟨congrArg (e :: ·) hflat, List.forall_mem_cons.2 ⟨⟨by simp, hself⟩, hgroups⟩⟩

/-- Of groups without a common element, the one with a given first element is found by it. -/
theorem find?_head_of_nodup : ∀ {gs : List (List Nat)} {g : List Nat}, gs.flatten.Nodup → (∀ x ∈ gs, x ≠ []) → g ∈ gs →
    gs.find? (fun x => x.head? == some (g.headD 0)) = some g
  | x :: gs, g, hn, hne, hg => by
    rw [List.flatten_cons, List.nodup_append'] at hn
    obtain ⟨-, hrest, hdisj⟩ := hn
    have hhead : ∀ y : List Nat, y ≠ [] → y.head? = some (y.headD 0) ∧ y.headD 0 ∈ y := fun y hy => by
      cases y with
      | nil => exact absurd rfl hy
      | cons a y => exact ⟨rfl, List.mem_cons_self⟩
    rcases List.mem_cons.1 hg with rfl | hmem
    · exact List.find?_cons_of_pos (beq_iff_eq.2 (hhead g (hne g List.mem_cons_self)).1)
    · have hin : g.headD 0 ∈ gs.flatten := List.mem_flatten.2 ⟨g, hmem, (hhead g (hne g (List.mem_cons_of_mem _ hmem))).2⟩
      obtain ⟨hx, hmemx⟩ := hhead x (hne x List.mem_cons_self)
      rw [List.find?_cons_of_neg]
      · exact find?_head_of_nodup hrest (fun y hy => hne y (List.mem_cons_of_mem _ hy)) hmem
      · rw [hx]
        exact fun he => hdisj hmemx (Option.some.inj (beq_iff_eq.1 he) ▸ hin)

/-- The granule's base address, of every element in it. -/
theorem granuleBase_same {x y : Word} (h : x.toNat / 128 = y.toNat / 128) :
    x - BitVec.ofNat 64 (x.toNat % 128) = y - BitVec.ofNat 64 (y.toNat % 128) := by
  bv_omega

section
variable {s : State} {addr : Nat → Word} {v n : Nat} {cls : Fin 16} {act : List Nat} {x8 : Nat → BitVec 1024}

/-- What an element of a versioned load takes from its granule. -/
def granuleValue (addr : Nat → Word) (n : Nat) (x8 : Nat → BitVec 1024) (e : Nat) : Nat :=
  leNat (((leBytes 128 (x8 e).toNat).drop ((addr e).toNat % 128)).take n)

variable (hread : ∀ e ∈ act, ∀ key,
  s.versionedBytes (addr e - BitVec.ofNat 64 ((addr e).toNat % 128)) v 128 cls key = .ok (leBytes 128 (x8 e).toNat) s)
include hread

/-- One group reads the granule of each of its elements. -/
theorem State.vldvGroup_reads {g : List Nat} (hne : g ≠ []) (hact : ∀ e ∈ g, e ∈ act) (hsame : ∀ e ∈ g, SameGranule addr e (g.headD 0)) :
    s.vldvGroup n v cls addr g = .ok (g.map fun e => (e, granuleValue addr n x8 e)) s := by
  have hhead : g.headD 0 ∈ g := by
    cases g with
    | nil => exact absurd rfl hne
    | cons e g => exact List.mem_cons_self
  have hbytes : ∀ e ∈ g, leBytes 128 (x8 (g.headD 0)).toNat = leBytes 128 (x8 e).toNat := fun e he => by
    have h1 := hread _ (hact _ hhead) 0
    rw [← granuleBase_same (hsame e he), hread _ (hact e he) 0] at h1
    exact (Acc.ok.inj h1).1.symm
  unfold State.vldvGroup
  dsimp only
  rw [hread _ (hact _ hhead)]
  refine congrArg (Got.ok · s) (List.map_congr_left fun e he => ?_)
  rw [hbytes e he]
  rfl

/-- All groups of a versioned load together read every active element once, in order. -/
theorem sweep_vldv (hn : act.Nodup) :
    let groups := granuleGroups addr act
    let r := sweep (fun e s => s.vldvGroup n v cls addr ((groups.find? (·.head? == some e)).getD [])) (groups.map (·.headD 0)) s
    r.stop = none ∧ r.state = s ∧ r.done.flatMap (fun x => x.2) = act.map fun e => (e, granuleValue addr n x8 e) := by
  intro groups r
  obtain ⟨hflat, hgroups⟩ := granuleGroups_spec addr act
  have hnodup : groups.flatten.Nodup := hflat.symm ▸ hn
  have hfind : ∀ g ∈ groups, groups.find? (·.head? == some (g.headD 0)) = some g :=
    fun g hg => find?_head_of_nodup hnodup (fun x hx => (hgroups x hx).1) hg
  have hr : r = { done := (groups.map (·.headD 0)).map fun e => (e, ((groups.find? (·.head? == some e)).getD []).map
      fun e => (e, granuleValue addr n x8 e)), stop := none, state := s } := by
    refine sweep_ok fun e he => ?_
    obtain ⟨g, hg, rfl⟩ := List.mem_map.1 he
    rw [hfind g hg]
    exact State.vldvGroup_reads hread (hgroups g hg).1 (fun e he => hflat ▸ List.mem_flatten.2 ⟨g, hg, he⟩) (hgroups g hg).2
  refine ⟨by rw [hr], by rw [hr], ?_⟩
  rw [hr]
  dsimp only
  rw [List.map_map, List.flatMap_map, ← hflat, List.map_flatten, ← List.flatMap_def]
  refine congrArg List.flatten (List.map_congr_left fun g hg => ?_)
  dsimp only [Function.comp_apply]
  rw [hfind g hg]
  rfl

end

/-- Elements below vl lie in a register. -/
theorem Hart.active_lt {h : Hart} {m : Reg} {e : Nat} (he : e ∈ h.active m) : e < h.vlen := by
  refine (Hart.mem_active.1 he).1.trans_le ?_
  unfold Hart.endElem
  split
  · exact Nat.min_le_right _ _
  · exact le_rfl

/-- Outside deterministic mode a vector instruction whose vl fits is judged well. -/
theorem Hart.judge_free {h : Hart} (hdet : h.st.det = false) (b : Bool) {most : Nat} (hv : h.vlen ≤ most) : h.judge true b most = none := by
  simp [Hart.judge, hdet, not_lt.2 hv]

theorem tagMvl_le (t : Tag) : tagMvl t ≤ 512 := by cases t <;> decide

/-- A vector versioned load whose granules are all read. -/
theorem exec_vldv_reads {d x m : Reg} {n : Fin 8} {cls : Fin 16} {s : State} {x8 : Nat → BitVec 1024} (hs : OnStrand s)
    (hvl : s.hart.vlen ≠ 0) (hmax : s.hart.vlen ≤ tagMvl (s.hart.tag d)) (hdet : s.hart.st.det = false)
    (hbase : (s.hart.base n).toNat % (tagWidth (s.hart.tag d) / 8) = 0) :
    let w := tagWidth (s.hart.tag d)
    let addr := fun e => s.hart.base n + BitVec.ofNat 64 (e * (w / 8))
    (∀ e ∈ s.hart.active m, ∀ key, s.versionedBytes (addr e - BitVec.ofNat 64 ((addr e).toNat % 128)) (s.hart.version x) 128 cls key =
      .ok (leBytes 128 (x8 e).toNat) s) →
    exec (.vldv d n x cls m) s = .next (s.onHart fun h => if s.hart.range.isEmpty then h else
      h.setV d (s.hart.tag d) (putElems h.v[d] w ((s.hart.active m).map fun e => (e, granuleValue addr (w / 8) x8 e)))) := by
  intro w addr hread
  have arm : exec (.vldv d n x cls m) s = execVldv d n x cls m s := rfl
  obtain ⟨hstop, hstate, hdone⟩ := sweep_vldv (n := w / 8) hread (s.hart.nodup_active m)
  have hbelow : ((s.hart.active m).map fun e => (e, granuleValue addr (w / 8) x8 e)).filter (fun p => decide (p.1 < 512)) =
      (s.hart.active m).map fun e => (e, granuleValue addr (w / 8) x8 e) := by
    refine List.filter_eq_self.2 fun p hp => ?_
    obtain ⟨e, he, rfl⟩ := List.mem_map.1 hp
    exact decide_eq_true ((Hart.active_lt he).trans_le (hmax.trans (tagMvl_le _)))
  rw [arm, execVldv, Hart.judge_free hdet _ hmax, State.vector_next _ _ hs hvl]
  refine congrArg Host.Outcome.next ?_
  dsimp only
  rw [if_neg fun hx => hx.2 (aligned_iff.2 hbase)]
  generalize sweep _ _ s = r0 at hstop hstate hdone ⊢
  obtain ⟨done, stop, u⟩ := r0
  obtain rfl : stop = none := hstop
  obtain rfl : s = u := hstate.symm
  have hplain : (if s.hart.version x = noVersion then (⟨done, none, s⟩ : Swept (List (Nat × Nat))) else
      { done := done, stop := Option.map (fun y : Nat × Stop => (y.1, s.heldThere .versionLoad y.1 (addr y.1) y.2)) none, state := s }) =
      ⟨done, none, s⟩ := ite_self _
  dsimp only at hdone ⊢
  rw [hplain]
  dsimp only
  rw [hdone, hbelow]
  rfl

/-- A vector versioned store all of whose granules are created counts as one store. -/
theorem exec_vstv_stored {d x : Reg} {n : Fin 8} {cls : Fin 16} {s u : State} (hs : OnStrand s)
    (hvl : s.hart.vlen ≠ 0) (hmax : s.hart.vlen ≤ tagMvl (s.hart.tag d)) (hbase : (s.hart.base n).toNat % 128 = 0)
    (hlen : s.hart.vlen * tagWidth (s.hart.tag d) / 8 % 128 = 0) (hfull : s.hart.storesFull = false) (hcls : s.hart.classPending cls = false)
    (hfirst : s.hart.firstElem = 0) :
    let w := tagWidth (s.hart.tag d)
    let todo := List.range (s.hart.vlen * w / 8 / 128)
    s.vstvRun (fun q t => t.vstvGranule (s.hart.base n + BitVec.ofNat 64 (128 * q)) (s.hart.version x) cls
      (leBytes 128 (s.hart.v[d].extractLsb' (1024 * q) 1024).toNat) (q * (1024 / w))) todo = (todo.length, none, u) →
    exec (.vstv d n x cls) s = .next (u.onHart (·.addPending cls)) := by
  intro w todo hrun
  have arm : exec (.vstv d n x cls) s = execVstv d n x cls s := rfl
  have hall : todo.filter (fun q => decide (s.hart.firstElem ≤ q * (1024 / w))) = todo :=
    List.filter_eq_self.2 fun q _ => by simp [hfirst]
  have hmade : todo.length ≠ 0 := by
    have hw := sixteen_le_tagWidth (s.hart.tag d)
    have hbits : 16 ≤ s.hart.vlen * w := hw.trans (Nat.le_mul_of_pos_left w (Nat.pos_of_ne_zero hvl))
    change (List.range (s.hart.vlen * w / 8 / 128)).length ≠ 0
    have : s.hart.vlen * w / 8 % 128 = 0 := hlen
    rw [List.length_range]
    omega
  rw [arm, execVstv, Hart.judge_whole _ hmax, State.vector_next _ _ hs hvl]
  refine congrArg Host.Outcome.next ?_
  dsimp only
  rw [if_neg (not_or.2 ⟨not_not.2 (aligned_iff.2 hbase), not_not.2 hlen⟩), if_neg (by simp [hfull, hcls])]
  dsimp only [todo, w] at hall hrun
  rw [hall, hrun]
  exact if_neg (not_or.2 ⟨hmade, by simp [stalled]⟩)

/-- The claim on VLDV and VSTV. -/
theorem vectorVersionedAccesses_holds : Claim.VectorVersionedAccesses := by
  intro d x m n cls s h T w v addr hs hvl hmax hdet
  refine ⟨fun x8 hbase hread => ⟨_, exec_vldv_reads hs hvl hmax hdet hbase hread, ?_⟩, ?_⟩
  · by_cases hr : h.range = []
    · rw [if_pos hr]
      simp only [show s.hart.range = [] from hr]
      rfl
    · rw [if_neg hr]
      have hne : s.hart.range.isEmpty = false := by simpa using hr
      simp only [hne]
      exact writesV_setV s d T (h.active m) _ (h.nodup_active m)
  · intro u hbase hlen hfull hcls hfirst todo hrun
    exact exec_vstv_stored hs hvl hmax hbase hlen hfull hcls hfirst hrun

/-- Settles O26: the greatest version a granule's slots hold at or below a number, and the free slot a new one takes. -/
theorem versionedAccesses : Obligations.VersionedAccesses := by
  unfold Obligations.VersionedAccesses
  exact ⟨versionedLoadsReadTheGreatestVersionBelow_holds, versionedStoresCreateOneVersion_holds, vectorVersionedAccesses_holds⟩

end Sys2Proof.Machine
end

section
/-! Settled here: O24, vector stores write their active elements, and background loads are written later. -/

namespace Sys2Proof.Machine

open Sys2Proof.Safety

/-! ### Writes to device memory (R98, R442) -/

/-- Memory after a write to device memory. -/
def Memory.written (m : Memory) (w : Write) : Memory :=
  match w.target with
  | .device pa => m.setBytes pa (w.merge (m.getBytes pa w.data.length))
  | _ => m

theorem Write.length_merge (w : Write) {old : List Byte} (h : old.length = w.data.length) : (w.merge old).length = w.data.length := by
  unfold Write.merge
  split
  · rfl
  · simp [h]

/-- A byte outside every write stays. -/
theorem Memory.get_written_out {a : Nat} : ∀ {ws : List Write} {m : Memory},
    (∀ w ∈ ws, ∀ pa, w.target = .device pa → a < pa ∨ pa + w.data.length ≤ a) → (ws.foldl Memory.written m).get a = m.get a
  | [], _, _ => rfl
  | w :: ws, m, h => by
    rw [List.foldl_cons, Memory.get_written_out fun x hx => h x (List.mem_cons_of_mem _ hx)]
    unfold Memory.written
    split
    next pa ht =>
      refine Memory.get_setBytes_out _ ?_
      rw [w.length_merge (Memory.length_getBytes ..)]
      exact h w List.mem_cons_self pa ht
    next => rfl

section
variable {s : State} (hbad : s.badLines = []) (hgaps : s.hostGaps = []) (hdirty : ∀ g ∈ s.gangs, g.dirtyBad = [])

include hbad hdirty in
/-- Where no line holds an error, rewriting lines changes nothing. -/
theorem State.cure_clean (g : Option GangId) (l : Nat → Bool) : s.cure g l = s := by
  have hgangs : (s.gangs.map fun x => if some x.id = g then { x with dirtyBad := x.dirtyBad.filter fun e => ! l e.2 } else x) = s.gangs := by
    refine (List.map_congr_left fun x hx => ?_).trans (List.map_id _)
    have hself : { x with dirtyBad := x.dirtyBad.filter fun e => ! l e.2 } = x := by
      rw [hdirty x hx, List.filter_nil, ← hdirty x hx]
    rw [hself]
    exact ite_self _
  unfold State.cure State.mend
  dsimp only
  rw [hgangs, hbad, List.filter_nil, List.filter_nil, List.nil_append, ← hbad]

include hgaps in
theorem State.performWrite_device {w : Write} {pa : Nat} (ht : w.target = .device pa) (p : Fin 8) (g : Option GangId) :
    s.performWrite p g [] w = { s with mem := s.mem.written w } := by
  have hrefuse : ¬ (([] : List Nat).contains (pa / 128 * 128) = true ∨ s.hostRefuses p pa = true) := by
    simp [State.hostRefuses, hgaps]
  unfold State.performWrite Memory.written
  rw [ht]
  exact if_neg hrefuse

theorem State.foldl_performWrite (p : Fin 8) (g : Option GangId) : ∀ {ws : List Write} {s : State}, s.hostGaps = [] →
    (∀ w ∈ ws, ∃ pa, w.target = .device pa) →
    ws.foldl (fun s w => s.performWrite p g [] w) s = { s with mem := ws.foldl Memory.written s.mem }
  | [], _, _, _ => rfl
  | w :: ws, s, hgaps, hws => by
    obtain ⟨pa, ht⟩ := hws w List.mem_cons_self
    rw [List.foldl_cons, State.performWrite_device hgaps ht,
      State.foldl_performWrite p g (s := { s with mem := s.mem.written w }) hgaps fun x hx => hws x (List.mem_cons_of_mem _ hx)]
    rfl

include hbad hgaps hdirty in
/-- A store instruction whose writes all go to device memory without an error performs them in order and is counted. -/
theorem State.commitStore_clean {ws : List Write} (hws : ∀ w ∈ ws, ∃ pa, w.target = .device pa) (cls : Fin 16) :
    s.commitStore cls ws = { s with mem := ws.foldl Memory.written s.mem, hart := s.hart.addPending cls } := by
  have hblocked : s.blockedLines ws = [] := by simp [State.blockedLines, hbad]
  have hdropped : s.droppedWrite ws = none := by
    unfold State.droppedWrite
    rw [hblocked, List.find?_eq_none]
    intro w _
    split <;> simp
  unfold State.commitStore State.performStores State.performWrites
  dsimp only
  rw [hblocked, hdropped, State.foldl_performWrite _ _ hgaps hws, State.cure_clean (s := { s with mem := ws.foldl Memory.written s.mem }) hbad hdirty]
  rfl

end

/-! ### Sweeps -/

/-- Steps that all give their values and change nothing. -/
theorem gather_ok {α β : Type} {f : α → State → Got β} {val : α → β} {s : State} : ∀ {l : List α},
    (∀ x ∈ l, f x s = .ok (val x) s) → gather f l s = .ok (l.map val) s
  | [], _ => rfl
  | x :: l, h => by
    unfold gather
    rw [h x List.mem_cons_self]
    change (gather f l s).bind _ = _
    rw [gather_ok fun y hy => h y (List.mem_cons_of_mem _ hy)]
    rfl

theorem Swept.carry_none {α : Type} {r : Swept α} {s : State} (hstop : r.stop = none) (hstate : r.state = s) : r.carry s = s := by
  subst hstate
  unfold Swept.carry
  rw [hstop]

/-- Writes of which none leads to another rank send nothing. -/
theorem State.sendAll_local (s : State) (cls : Fin 16) {l : List (Nat × List Write)} (h : ∀ x ∈ l, ∀ w ∈ x.2, w.isLocal = true) :
    s.sendAll cls l = { done := [], stop := none, state := s } := by
  have hall : ((positions (numbered l)).map (·.2.2.2)).all (·.isLocal) = true := by
    rw [List.all_eq_true]
    intro w hw
    obtain ⟨⟨e, y⟩, hy, rfl⟩ := List.mem_map.1 hw
    obtain ⟨x, hx, hin⟩ := List.mem_flatMap.1 (List.mem_of_getElem? (mem_positions.1 hy))
    obtain ⟨z, hz, rfl⟩ := List.mem_map.1 hin
    exact h x hx _ (List.mem_of_getElem? (mem_positions.1 hz))
  unfold State.sendAll
  dsimp only
  rw [if_pos hall]
  rfl

/-- An order of free choice is an order of the same items, and choosing it draws free values at most. -/
theorem State.shuffle_perm {α : Type} : ∀ (n : Nat) (l : List α) (s : State),
    (s.shuffle n l).1.Perm l ∧ ∃ d, (s.shuffle n l).2 = { s with draws := d }
  | 0, l, s => ⟨.refl l, s.draws, rfl⟩
  | _ + 1, [], s => ⟨.refl [], s.draws, rfl⟩
  | n + 1, x :: xs, s => by
    have hlt : Config.free s.draws % (x :: xs).length < (x :: xs).length := Nat.mod_lt _ (by simp)
    obtain ⟨hperm, d, hd⟩ := State.shuffle_perm n ((x :: xs).eraseIdx (Config.free s.draws % (x :: xs).length)) { s with draws := s.draws + 1 }
    refine ⟨?_, d, hd⟩
    change ((x :: xs).getD _ x :: _).Perm _
    rw [List.getD_eq_getElem _ _ hlt]
    exact (hperm.cons _).trans (List.getElem_cons_eraseIdx_perm hlt)

/-! ### Scale bytes -/

/-- In deterministic mode a load that finds its bytes does not read a versioned region. -/
theorem State.inRegion_of_loadBytes {s t : State} {va : Word} {n e : Nat} {cls : Fin 16} {l : List Byte}
    (hdet : (s.hart.st.det && ! s.hart.iss.judging) = true) (h : s.loadBytes va n cls e = .ok l t) : s.inRegion va = false := by
  unfold State.inRegion
  unfold State.loadBytes at h
  split
  next pa hres =>
    rw [hres, hdet] at h
    cases hreg : s.regionAt s.hart.part pa with
    | none => rfl
    | some x =>
      have hreg' : s.regionAt (s.hart.ctx.at va).part pa = some x := by rw [Ctx.at_part]; exact hreg
      simp only [State.readTarget, hreg', if_true] at h
      cases h
  next => rfl

/-- A field that can be stored has read its scale byte. -/
theorem State.inRegion_of_storeField {s t : State} {f : MemFmt} {cls : Fin 16} {base sa : Word} {e k : Nat} {x : VField} {r : List Write × Bool}
    (hdet : (s.hart.st.det && ! s.hart.iss.judging) = true) (hsa : s.hart.scaleAddr f x.scale = some sa)
    (h : s.storeField f cls base e k x = .ok r t) : s.inRegion sa = false := by
  unfold State.storeField State.readScale State.byteAt at h
  rw [hsa] at h
  dsimp only at h
  cases hl : s.loadBytes sa 1 cls (e * 128 + 64 + k) with
  | ok l u => exact State.inRegion_of_loadBytes hdet hl
  | fault c => rw [hl] at h; cases h
  | wait w => rw [hl] at h; cases h
  | stall u => rw [hl] at h; cases h

/-- Stores whose fields can all be written are not forbidden in deterministic mode. -/
theorem State.forbidden_of_storeField {s : State} {v : VShape} {act : List Nat} {r : Nat → VField → List Write × Bool}
    (h : ∀ e ∈ act, ∀ x ∈ positions (v.fields e), s.storeField v.fmt v.cls v.base e x.1 x.2 = .ok (r e x.2) s) :
    s.forbidden v false act = false := by
  unfold State.forbidden
  by_cases hdet : (s.hart.st.det && ! s.hart.iss.judging) = true
  · rw [hdet, Bool.true_and, List.any_eq_false]
    intro e he
    rw [Bool.not_eq_true, List.any_eq_false]
    intro sa hsa
    obtain ⟨x, hx, hin⟩ := List.mem_flatMap.1 (show sa ∈ v.scalesAt s.hart false e from hsa)
    obtain ⟨k, hk⟩ := List.mem_iff_getElem?.1 hx
    have hscale : s.hart.scaleAddr v.fmt x.scale = some sa := by simpa using hin
    rw [State.inRegion_of_storeField hdet hscale (h e he (k, x) (mem_positions.2 hk))]
    decide
  · rw [Bool.not_eq_true] at hdet
    rw [hdet, Bool.false_and]

/-! ### Vector stores -/

theorem map_positions_snd {α β : Type} (l : List α) (f : α → β) : (positions l).map (fun x => f x.2) = l.map f := by
  calc (positions l).map (fun x => f x.2) = ((positions l).map (·.2)).map f := (List.map_map ..).symm
    _ = l.map f := by rw [map_snd_positions]

/-- What the elements `act` of a store give, when field `x` of element `e` gives `r e x`. -/
def VShape.given (v : VShape) (act : List Nat) (r : Nat → VField → List Write × Bool) : List (Nat × List (List Write × Bool)) :=
  act.map fun e => (e, (v.fields e).map (r e))

section
variable {s : State} {v : VShape} {act : List Nat} {r : Nat → VField → List Write × Bool}
  (hfield : ∀ e ∈ act, ∀ x ∈ positions (v.fields e), s.storeField v.fmt v.cls v.base e x.1 x.2 = .ok (r e x.2) s)

include hfield in
theorem sweep_storeField :
    sweep (fun e s => gather (fun (x : Nat × VField) (s : State) => s.storeField v.fmt v.cls v.base e x.1 x.2) (positions (v.fields e)) s)
      act s = { done := v.given act r, stop := none, state := s } := by
  refine sweep_ok (val := fun e => (v.fields e).map (r e)) fun e he => ?_
  rw [gather_ok fun x hx => hfield e he x hx, map_positions_snd]

/-- The writes of each element of a store. -/
theorem VShape.given_writes : (v.given act r).map (fun x => x.2.flatMap (·.1)) = act.map fun e => (v.fields e).flatMap fun x => (r e x).1 := by
  unfold VShape.given
  rw [List.map_map]
  exact List.map_congr_left fun e _ => List.flatMap_map ..

theorem VShape.given_saturated : (v.given act r).any (fun x => x.2.any (·.2)) = act.any fun e => (v.fields e).any fun x => (r e x).2 := by
  unfold VShape.given
  rw [List.any_map]
  congr 1
  funext e
  exact List.any_map ..

end

/-- The order in which the writes of elements are performed: their own, or one of free choice (R102). -/
def State.storeOrder (s : State) (free : Bool) (all : List (List Write)) : List (List Write) × State :=
  if free ∧ ¬ (all.map fun g => g.map (·.va)).Nodup then s.shuffle all.length all else (all, s)

theorem State.storeOrder_perm (s : State) (free : Bool) (all : List (List Write)) : ∃ (l : List (List Write)) (d : Nat),
    l.Perm all ∧ (free = false → l = all ∧ d = s.draws) ∧ s.storeOrder free all = (l, { s with draws := d }) := by
  unfold State.storeOrder
  split
  next hc =>
    obtain ⟨hp, d, hd⟩ := State.shuffle_perm all.length all s
    exact ⟨_, d, hp, fun hf => by simp [hf] at hc, Prod.ext rfl hd⟩
  next => exact ⟨all, s.draws, .refl _, fun _ => ⟨rfl, rfl⟩, rfl⟩

/-- A store all of whose fields can be written here commits the writes of its elements. -/
theorem State.vstore_commits {s : State} {v : VShape} {r : Nat → VField → List Write × Bool} (free : Bool)
    (hmis : v.misaligned s.hart = false) (hfull : s.hart.storesFull = false) (hact : s.hart.active v.mask ≠ [])
    (hfield : ∀ e ∈ s.hart.active v.mask, ∀ x ∈ positions (v.fields e), s.storeField v.fmt v.cls v.base e x.1 x.2 = .ok (r e x.2) s)
    (hlocal : ∀ e ∈ s.hart.active v.mask, ∀ x ∈ v.fields e, ∀ w ∈ (r e x).1, w.isLocal = true) :
    let o := s.storeOrder free ((s.hart.active v.mask).map fun e => (v.fields e).flatMap fun x => (r e x).1)
    s.vstore v free = (o.2.commitStore v.cls o.1.flatten).onHart fun h =>
      h.raise { sat := (s.hart.active v.mask).any fun e => (v.fields e).any fun x => (r e x).2 } := by
  intro o
  have hsend : s.sendAll v.cls ((v.given (s.hart.active v.mask) r).map fun x => (x.1, x.2.flatMap (·.1))) =
      { done := [], stop := none, state := s } := by
    refine s.sendAll_local v.cls fun x hx w hw => ?_
    obtain ⟨y, hy, rfl⟩ := List.mem_map.1 hx
    obtain ⟨e, he, rfl⟩ := List.mem_map.1 hy
    obtain ⟨z, hz, hwz⟩ := List.mem_flatMap.1 hw
    obtain ⟨f, hf, rfl⟩ := List.mem_map.1 hz
    exact hlocal e he f hf w hwz
  have hsome : v.given (s.hart.active v.mask) r ≠ [] := mt List.map_eq_nil_iff.1 hact
  have hkeep : (v.given (s.hart.active v.mask) r).filter
      (fun x => (none : Option (Nat × Stop)).all fun y => decide (x.1 < y.1)) = v.given (s.hart.active v.mask) r :=
    List.filter_eq_self.2 fun _ _ => rfl
  unfold State.vstore
  dsimp only
  rw [if_neg hact, State.forbidden_of_storeField hfield, if_neg (by decide), hmis, if_neg (by decide), hfull, if_neg (by decide),
    sweep_storeField hfield, Swept.carry_none rfl rfl]
  unfold Swept.committed
  dsimp only
  rw [hsend, Swept.carry_none rfl rfl]
  dsimp only [Option.orElse_none]
  simp only [hkeep, VShape.given_writes, VShape.given_saturated, if_neg hsome]
  rfl

/-- The claim on each vector store, whatever the shape of its elements. -/
theorem storesBy_of {i : Instr} {shape : Hart → VShape} {index : Option Reg} {free : Bool}
    (hi : ∀ s, exec i s = s.vstoreInstr (shape s.hart) index free) : Claim.StoresBy i shape index free := by
  intro s ws sat h v act of hs hjudge hvl hmis hfull hbad hgaps hdirty hact hfield
  have hdevice : ∀ e ∈ act, ∀ w ∈ of e, ∃ pa, w.target = .device pa := by
    intro e he w hw
    obtain ⟨y, hy, hwy⟩ := List.mem_flatMap.1 hw
    obtain ⟨k, hk⟩ := List.mem_iff_getElem?.1 hy
    exact (hfield e he (k, y) (mem_positions.2 hk)).2 w hwy
  have hcommit : s.vstore v free = ((s.storeOrder free (act.map of)).2.commitStore v.cls (s.storeOrder free (act.map of)).1.flatten).onHart
      fun h => h.raise { sat := act.any fun e => (v.fields e).any (sat e) } := State.vstore_commits (r := fun e x => (ws e x, sat e x)) free hmis hfull hact (fun e he x hx => (hfield e he x hx).1)
    fun e he x hx w hw => by
      obtain ⟨pa, ht⟩ := hdevice e he w (List.mem_flatMap.2 ⟨x, hx, hw⟩)
      unfold Write.isLocal
      rw [ht]
  obtain ⟨l, d, hperm, hfree, horder⟩ := s.storeOrder_perm free (act.map of)
  have hmem : ∀ w ∈ l.flatten, ∃ e ∈ act, w ∈ of e := by
    intro w hw
    obtain ⟨x, hx, hin⟩ := List.mem_flatten.1 hw
    obtain ⟨e, he, rfl⟩ := List.mem_map.1 (hperm.mem_iff.1 hx)
    exact ⟨e, he, hin⟩
  have hclean := State.commitStore_clean (s := { s with draws := d }) hbad hgaps hdirty
    (fun w hw => by obtain ⟨e, he, hin⟩ := hmem w hw; exact hdevice e he w hin) v.cls (ws := l.flatten)
  rw [horder, hclean] at hcommit
  have hexec : exec i s = .next (s.vstore v free) := by
    rw [hi, State.vstoreInstr, hjudge, State.vector_next _ _ hs hvl]
  rw [hcommit] at hexec
  exact ⟨_, l, hexec, hperm, hfree, rfl, fun a ha => Memory.get_written_out fun w hw => by
    obtain ⟨e, he, hin⟩ := hmem w hw
    exact ha e he w hin⟩

theorem State.judgeWrite_plain {s : State} {c : Ctx} {pa : Nat} (h : s.regionAt c.part pa = none) : s.judgeWrite c (.device pa) = .ok () s := by
  unfold State.judgeWrite
  dsimp only
  rw [h]
  rfl

/-- The write of a native field at a device address. -/
def Hart.nativeWrite (h : Hart) (base : Word) (e pa : Nat) (y : VField) : Write where
  target := .device pa
  data := leBytes (tagWidth (h.tag y.reg) / 8) (h.elem y.reg e)
  va := base + BitVec.ofInt 64 (y.j * tagWidth (h.tag y.reg) / 8)

/-- A native field goes as it stands to its place above the base. -/
theorem storeField_native {s : State} {cls : Fin 16} {base : Word} {e k pa : Nat} {y : VField}
    (hd : LeadsToDevice .store s (base + BitVec.ofInt 64 (y.j * tagWidth (s.hart.tag y.reg) / 8)) pa) :
    s.storeField .native cls base e k y = .ok ([s.hart.nativeWrite base e pa y], false) s := by
  obtain ⟨hlead, hregion⟩ := hd
  have hm : memWidth .native (s.hart.tag y.reg) ≠ 4 := by
    have := sixteen_le_tagWidth (s.hart.tag y.reg)
    change tagWidth _ ≠ 4
    omega
  have hraw : ∀ (va : Word) (sub raw : Nat), rawWrites .native (memWidth .native (s.hart.tag y.reg)) va sub raw =
      [(va, leBytes (tagWidth (s.hart.tag y.reg) / 8) raw, 0xFF)] := fun _ _ _ => if_neg hm
  have htarget : s.storeTarget (base + BitVec.ofInt 64 (y.j * tagWidth (s.hart.tag y.reg) / 8))
      (leBytes (tagWidth (s.hart.tag y.reg) / 8) (s.hart.elem y.reg e)) 0xFF = .ok (s.hart.nativeWrite base e pa y) s := by
    unfold State.storeTarget
    rw [hlead]
    dsimp only
    rw [State.judgeWrite_plain hregion]
    rfl
  unfold State.storeField
  change (State.readScale s none _ _ _).bind _ = _
  unfold State.readScale
  dsimp only [Got.bind]
  rw [hraw]
  rw [gather_ok (val := fun _ => s.hart.nativeWrite base e pa y)]
  · rfl
  · intro x hx
    rw [List.mem_singleton.1 hx]
    exact congrArg (gotAt _) htarget

/-- The claim on vector stores. -/
theorem vectorStoresWriteTheirActiveElements_holds : Claim.VectorStoresWriteTheirActiveElements := by
  intro r x i c m n cls f
  refine ⟨storesBy_of fun _ => rfl, storesBy_of fun _ => rfl, storesBy_of fun _ => rfl, storesBy_of fun _ => rfl, storesBy_of fun _ => rfl, ?_⟩
  rintro s e k pa y rfl w va hd
  exact storeField_native hd

/-! ### Background loads -/

/-- The duplicate mask marks the elements whose index a later element has too. -/
theorem getLsbD_dupMask (h : Hart) (i : Reg) {e : Nat} (he : e < 512) :
    (putBits 0 (h.dupMask i)).getLsbD e = true ↔ ∃ k, e < k ∧ k < h.vlen ∧ h.elem i k = h.elem i e := by
  have hfst : (h.dupMask i).map (·.1) = List.range h.vlen := by
    unfold Hart.dupMask
    dsimp only
    rw [List.map_map]
    exact (map_fst_positions _).trans (by rw [List.length_map, List.length_range])
  by_cases hlt : e < h.vlen
  · have hget : ((List.range h.vlen).map (h.indexOf i))[e]? = some (h.elem i e) := by
      rw [List.getElem?_map, List.getElem?_range hlt]
      rfl
    have hmem : (e, (((List.range h.vlen).map (h.indexOf i)).drop (e + 1)).contains (h.elem i e)) ∈ h.dupMask i :=
      List.mem_map.2 ⟨(e, h.elem i e), mem_positions.2 hget, rfl⟩
    rw [getLsbD_putBits_in _ _ _ _ he (hfst ▸ List.nodup_range) hmem, List.contains_iff_mem, List.mem_drop_iff_getElem]
    constructor
    · rintro ⟨j, hj, hx⟩
      rw [List.length_map, List.length_range] at hj
      rw [List.getElem_map, List.getElem_range] at hx
      exact ⟨e + 1 + j, by omega, by omega, hx⟩
    · rintro ⟨k, hk, hkv, hx⟩
      refine ⟨k - (e + 1), by simp; omega, ?_⟩
      rw [List.getElem_map, List.getElem_range, show e + 1 + (k - (e + 1)) = k by omega]
      exact hx
  · have hout : ∀ x ∈ h.dupMask i, x.1 ≠ e := fun x hx hxe => by
      have hin : x.1 ∈ List.range h.vlen := hfst ▸ List.mem_map_of_mem hx
      exact hlt (hxe ▸ List.mem_range.1 hin)
    rw [getLsbD_putBits_out _ _ _ he hout]
    simp only [BitVec.ofNat_eq_ofNat, BitVec.getLsbD_zero, Bool.false_eq_true, false_iff]
    rintro ⟨k, hk, hkv, -⟩
    omega

/-- The claim on VLDB. -/
theorem backgroundLoadsAreWrittenLater_holds : Claim.BackgroundLoadsAreWrittenLater := by
  intro d p i n cls f s el h all hs hjudge hvl hdet halign hloads helem
  have arm : exec (.vldb d n i cls f p) s = execVldb d n i cls f p s := rfl
  have hforbidden : s.forbidden (indexedShape h d n i cls f 0) true all = false := by
    unfold State.forbidden
    rw [show s.hart.st.det = false from hdet]
    rfl
  have haligned : ¬ (f ≠ .nested ∧ 16 ≤ memWidth f (h.tag d) ∧ ¬ aligned (h.base n) (memWidth f (h.tag d) / 8) = true) := by
    rintro ⟨hf, hw, ha⟩
    rcases halign with hn | hn | hn
    · exact hf hn
    · omega
    · exact ha (aligned_iff.2 hn)
  refine ⟨{ cls := cls, dest := d, pred := p, tag := h.tag d, fmt := f, planes := h.csr.planes.toNat, elems := all.map el,
            dup := putBits 0 (h.dupMask i) }, rfl, rfl, rfl, rfl,
    fun e he => getLsbD_dupMask h i he, ?_⟩
  rw [arm, execVldb, hjudge, State.vector_next _ _ hs hvl]
  dsimp only
  rw [hforbidden, if_neg (by decide), if_neg haligned, if_neg hloads, sweep_ok helem, Swept.carry_none rfl rfl]
  dsimp only
  rw [List.map_map]
  rfl

/-- Settles O24: the writes of a store's elements are performed in one order of theirs; a background load is put on a list. -/
theorem vectorStoresAndBackgroundLoads : Obligations.VectorStoresAndBackgroundLoads := by
  unfold Obligations.VectorStoresAndBackgroundLoads
  exact ⟨vectorStoresWriteTheirActiveElements_holds, backgroundLoadsAreWrittenLater_holds⟩

end Sys2Proof.Machine
end

section
/-! Settled here: O42, jobs are judged, complete, write their record and notify. -/

namespace Sys2Proof.Machine

open Sys2Proof.Safety

theorem State.job?_item {s : State} {n : Nat} {j : Job} (h : s.job? n = some j) : j.item = n := by
  simpa using List.find?_some h

/-! ### Rejected cards (R304) -/

/-- A job whose queue does not hold it back may begin. -/
theorem State.mayBegin_of_mayRun {n : Nat} {j : Job} {s : State} (h : Claim.JobMayRun n j s) : s.mayBegin j = true := by
  obtain ⟨-, -, -, hbegun | ⟨hedges, hqueue⟩⟩ := h
  · unfold State.mayBegin
    rw [hbegun, Bool.true_or]
  · unfold State.mayBegin
    rw [hedges, Bool.true_and]
    cases hc : j.ctx with
    | strand i => simp
    | queue q l a =>
      have hs : s.queues[q].suspended = false := by
        unfold Queue.suspended
        rw [bit_toNat]
        exact hqueue q l a hc
      exact Bool.or_eq_true_iff.2 (.inr (congrArg (!·) hs))

theorem State.engine_rejects {n o : Nat} {s : State} {j : Job} {kind : Nat → Bool} (k : Job → State) (hrun : Claim.JobMayRun n j s)
    (hkind : kind j.fields.kind = true) (hrej : j.fields.rejected = some o) : s.engine n kind k = .next (s.setJob (j.reject o)) := by
  have hbegin := State.mayBegin_of_mayRun hrun
  obtain ⟨hjob, hres, hlist, -⟩ := hrun
  unfold State.engine
  rw [hjob]
  dsimp only
  rw [if_neg (by simp [hres, hkind, hbegin, hlist]), hrej]

/-- The claim on rejected cards. -/
theorem unsoundCardsAreRejected_holds : Claim.UnsoundCardsAreRejected := by
  intro n s j o hrun hrej event
  have hset : s.setJob (j.reject o) = { s with
      jobs := s.jobs.map fun x => if x.item = n then { j with result := (j.reject o).result } else x } := by
    unfold State.setJob
    rw [show (j.reject o).item = n from State.job?_item (j := j) hrun.1]
    rfl
  refine ⟨_, rfl, rfl, rfl, Eq.trans ?_ (congrArg Host.Outcome.next hset)⟩
  unfold event
  split
  next h =>
    change execTile n s = _
    unfold execTile
    exact State.engine_rejects _ hrun (beq_iff_eq.2 h) hrej
  next h =>
    change execGather n s = _
    unfold execGather
    exact State.engine_rejects _ hrun (beq_iff_eq.2 h) hrej
  next h =>
    change execScatter n s = _
    unfold execScatter
    exact State.engine_rejects _ hrun (beq_iff_eq.2 h) hrej
  next h =>
    change execPagegather n s = _
    unfold execPagegather
    exact State.engine_rejects _ hrun (beq_iff_eq.2 h) hrej
  next h =>
    change execFill n s = _
    unfold execFill
    exact State.engine_rejects _ hrun (beq_iff_eq.2 h) hrej
  next h =>
    change execDigest n s = _
    unfold execDigest
    exact State.engine_rejects _ hrun (beq_iff_eq.2 h) hrej
  next h1 h2 h3 h4 h5 h6 =>
    change execCopy n s = _
    unfold execCopy
    refine State.engine_rejects _ hrun ?_ hrej
    simp only [Bool.or_eq_true, beq_iff_eq, decide_eq_true_eq]
    have hne : j.fields.kind ≠ 1 ∧ j.fields.kind ≠ 2 ∧ j.fields.kind ≠ 3 ∧ j.fields.kind ≠ 4 ∧ j.fields.kind ≠ 5 ∧ j.fields.kind ≠ 6 :=
      ⟨h1, h2, h3, h4, h5, h6⟩
    omega

/-! ### Completion (R312, R313, R315) -/

theorem Hart.notify_eq (h : Hart) (n : Word) : h.notify n = { h with
    notifs := if h.notifs.length < 16 then h.notifs ++ [n] else h.notifs
    notifLost := h.notifLost || decide (16 ≤ h.notifs.length) } := by
  unfold Hart.notify
  by_cases hl : h.notifs.length < 16
  · simp [hl, not_le.2 hl]
  · simp [hl, not_lt.1 hl]

theorem Hart.addReport_eq (h : Hart) (r : Report) : h.addReport r = { h with
    reports := if h.reports.length < 16 then h.reports ++ [r] else h.reports
    reportLost := h.reportLost || decide (16 ≤ h.reports.length) } := by
  unfold Hart.addReport
  by_cases hl : h.reports.length < 16
  · simp [hl, not_le.2 hl]
  · simp [hl, not_lt.1 hl]

/-- What a completion of job `j` leaves in its strand: its counter and its notification. -/
def Job.tell (j : Job) (status : Nat) (h : Hart) : Hart := { h with
  cnt := if j.fields.tiles then { h.cnt with tiles := h.cnt.tiles - 1 } else { h.cnt with copies := h.cnt.copies - 1 }
  notifs := if j.fields.notify ∧ h.notifs.length < 16 then h.notifs ++ [notification j.id status] else h.notifs
  notifLost := h.notifLost || (j.fields.notify && decide (16 ≤ h.notifs.length)) }

/-- What a completion leaves in its strand where its record could not be written, too. -/
def Job.tellFault (j : Job) (status : Nat) (fault : Option (Cause × Word)) (h : Hart) : Hart :=
  match fault with
  | some (c, va) => (j.tell status h).addReport { src := 2, pos := 0, cause := c.code, stval := va }
  | none => j.tell status h

theorem Job.tellFault_keeps (j : Job) (status : Nat) (fault : Option (Cause × Word)) : KeepsIdentity (j.tellFault status fault) := by
  intro h
  unfold Job.tellFault
  split
  · simp [Job.tell]
  · exact ⟨rfl, rfl, rfl⟩

theorem State.releaseJob_strand {s : State} {j : Job} {i : StrandId} (hctx : j.ctx = .strand i) (status : Nat) (fault : Option (Cause × Word)) :
    s.releaseJob j status fault = s.onStrand i (j.tellFault status fault) := by
  unfold State.releaseJob
  rw [hctx]
  dsimp only
  congr 1
  funext h
  have htell : (if j.fields.notify then (if j.fields.tiles then { h with cnt := { h.cnt with tiles := h.cnt.tiles - 1 } }
      else { h with cnt := { h.cnt with copies := h.cnt.copies - 1 } }).notify (notification j.id status)
      else if j.fields.tiles then { h with cnt := { h.cnt with tiles := h.cnt.tiles - 1 } }
      else { h with cnt := { h.cnt with copies := h.cnt.copies - 1 } }) = j.tell status h := by
    unfold Job.tell
    by_cases hn : j.fields.notify = true <;> by_cases ht : j.fields.tiles = true <;> simp [hn, ht, Hart.notify_eq]
  rw [htell]
  rfl

/-- Blame changes the counts of a cluster at most. -/
theorem State.blame_clusters (s : State) (c : Option (Fin 64)) (code : Nat) : ∃ l, s.blame c code = { s with clusters := l } ∧
    (code ≠ 0x31 → code ≠ 0x32 → l = s.clusters) ∧
    ∀ k, code = 0x31 → c = some k → l[k].bankFaults = s.clusters[k].bankFaults + 1 := by
  unfold State.blame
  cases c with
  | none => exact ⟨s.clusters, rfl, fun _ _ => rfl, fun k _ h => by cases h⟩
  | some c =>
    dsimp only
    by_cases h32 : code = 0x32
    · rw [if_pos h32]
      exact ⟨_, rfl, fun _ h => absurd h32 h, fun k h31 _ => by omega⟩
    by_cases h31 : code = 0x31
    · rw [if_neg h32, if_pos h31]
      refine ⟨_, rfl, fun h _ => absurd h31 h, fun k _ hk => ?_⟩
      obtain rfl := Option.some.inj hk
      exact congrArg Cluster.bankFaults (Vector.getElem_set_self _)
    · rw [if_neg h32, if_neg h31]
      exact ⟨s.clusters, rfl, fun _ _ => rfl, fun k h _ => absurd h h31⟩

/-- The state a completion leaves once the ring's part is over in `u`. -/
def State.completed (u : State) (j : Job) (r : JobResult) (f : Option (Cause × Word)) : State :=
  (((u.setJob { j with complete := true, replies := [], hold := none }).releaseJob j r.status f).jobNode j).blame
    ((j.gang.bind u.gang?).bind (·.slot.map (·.1))) r.fault

section
variable {n : Nat} {s u : State} {j : Job} {r : JobResult} (hjob : s.job? n = some j) (hres : j.result = some r) (hopen : j.complete = false)
include hjob hres hopen

theorem exec_jobCompletion_done (hring : s.ringWrite j r = .done () u) : exec (.jobCompletion n) s = .next (u.completed j r none) := by
  have arm : exec (.jobCompletion n) s = execJobCompletion n s := rfl
  rw [arm, execJobCompletion, hjob]
  dsimp only
  rw [hres]
  dsimp only
  rw [if_neg (by simp [hopen]), hring]
  unfold State.completed
  rw [hres]

theorem exec_jobCompletion_fault {c : Cause} {va : Word} (hring : s.ringWrite j r = .fault c va u) :
    exec (.jobCompletion n) s = .next (u.completed j r (some (c, va))) := by
  have arm : exec (.jobCompletion n) s = execJobCompletion n s := rfl
  rw [arm, execJobCompletion, hjob]
  dsimp only
  rw [hres]
  dsimp only
  rw [if_neg (by simp [hopen]), hring]
  unfold State.completed
  rw [hres]

theorem exec_jobCompletion_later (hring : s.ringWrite j r = .later u) : exec (.jobCompletion n) s = .next u := by
  have arm : exec (.jobCompletion n) s = execJobCompletion n s := rfl
  rw [arm, execJobCompletion, hjob]
  dsimp only
  rw [hres]
  dsimp only
  rw [if_neg (by simp [hopen]), hring]

end

/-- What a completion changes: its job, its strand, and the counts of its cluster. -/
theorem State.completed_of_strand {n : Nat} {s u : State} {j : Job} {r : JobResult} {i : StrandId} {h : Hart} (hitem : j.item = n) (hctx : j.ctx = .strand i)
    (hs : s.strand? i = some h) (hhart : u.hart = s.hart) (hharts : u.harts = s.harts) (f : Option (Cause × Word)) :
    let t := u.completed j r f
    t = { u with hart := t.hart, harts := t.harts, jobs := t.jobs, clusters := t.clusters } ∧
    (r.fault ≠ 0x31 → r.fault ≠ 0x32 → t.clusters = u.clusters) ∧
    (∀ c, r.fault = 0x31 → (j.gang.bind u.gang?).bind (·.slot.map (·.1)) = some c → t.clusters[c].bankFaults = u.clusters[c].bankFaults + 1) ∧
    t.jobs = (u.jobs.map fun x => if x.item = n then { j with complete := true, replies := [], hold := none } else x) ∧
    t.strand? i = some (j.tellFault r.status f h) ∧ ∀ m, m ≠ i → t.strand? m = s.strand? m := by
  intro t
  subst hitem
  have hsame : ∀ m, u.strand? m = s.strand? m := fun m => by
    unfold State.strand? State.allHarts
    rw [hhart, hharts]
  have hfirst : ((u.setJob { j with complete := true, replies := [], hold := none }).releaseJob j r.status f).jobNode j =
      (u.setJob { j with complete := true, replies := [], hold := none }).onStrand i (j.tellFault r.status f) := by
    rw [State.releaseJob_strand hctx]
    unfold State.jobNode
    rw [hctx]
  obtain ⟨l, hblame, hkept, hcount⟩ := State.blame_clusters
    ((u.setJob { j with complete := true, replies := [], hold := none }).onStrand i (j.tellFault r.status f))
    ((j.gang.bind u.gang?).bind (·.slot.map (·.1))) r.fault
  have ht : t = { (u.setJob { j with complete := true, replies := [], hold := none }).onStrand i (j.tellFault r.status f) with clusters := l } := by
    change State.blame _ _ _ = _
    rw [hfirst, hblame]
  have hkeeps := Job.tellFault_keeps j r.status f
  rw [ht]
  refine ⟨rfl, hkept, fun c => hcount c, rfl, ?_, fun m hm => ?_⟩
  · refine (State.strand?_onStrand_same (u.setJob _) i hkeeps).trans ?_
    rw [show (u.setJob _).strand? i = s.strand? i from hsame i, hs]
    rfl
  · exact (State.strand?_onStrand_ne (u.setJob _) i hkeeps hm).trans (hsame m)

/-- The claim on completion. -/
theorem jobsComplete_holds : Claim.JobsComplete := by
  intro n s u j r i h hjob hres hopen hctx hs hhart hharts told completes
  refine ⟨fun hring => ?_, fun c va hring => ?_, fun hring => exec_jobCompletion_later hjob hres hopen hring⟩
  · have hdone := State.completed_of_strand (r := r) (State.job?_item hjob) hctx hs hhart hharts none
    exact ⟨_, exec_jobCompletion_done hjob hres hopen hring, hdone⟩
  · have hdone := State.completed_of_strand (r := r) (State.job?_item hjob) hctx hs hhart hharts (some (c, va))
    refine ⟨_, exec_jobCompletion_fault hjob hres hopen hring, ?_⟩
    have htell : j.tellFault r.status (some (c, va)) h = { told h with
        reports := if h.reports.length < 16 then h.reports ++ [{ src := 2, pos := 0, cause := c.code, stval := va }] else h.reports
        reportLost := h.reportLost || decide (16 ≤ h.reports.length) } := by
      change (j.tell r.status h).addReport _ = _
      rw [Hart.addReport_eq]
      rfl
    rw [htell] at hdone
    exact hdone

/-! ### The ring (R312) -/

/-- Other jobs; memory, tables and the gangs' banks as they are. -/
theorem State.translate_withJobs (s : State) (l : List Job) (c : Ctx) (k : AccessKind) (u : Bool) (a : Nat) :
    ({ s with jobs := l } : State).translate c k u a = s.translate c k u a := by
  have hread : ({ s with jobs := l } : State).readTableEntry = s.readTableEntry := funext fun _ => rfl
  have hwalk : ({ s with jobs := l } : State).walkPartition = s.walkPartition := by
    unfold State.walkPartition
    rw [hread]
  have hguest : ({ s with jobs := l } : State).readGuestEntry = s.readGuestEntry := by
    unfold State.readGuestEntry
    rw [hread, hwalk]
  have hp : ({ s with jobs := l } : State).parts = s.parts := rfl
  unfold State.translate
  rw [hp, hguest, hwalk]

theorem State.resolve_withJobs (s : State) (l : List Job) (c : Ctx) (k : AccessKind) (a : Word) :
    ({ s with jobs := l } : State).resolve c k a = s.resolve c k a := by
  have hf : ({ s with jobs := l } : State).fabricRank = s.fabricRank := rfl
  have hr : ({ s with jobs := l } : State).rootOf = s.rootOf := rfl
  unfold State.resolve State.exportResolve
  simp only [hf, hr, State.translate_withJobs]

/-- An address that leads to device memory lies outside the cluster window. -/
theorem inClusterWindow_of_device {s : State} {c : Ctx} {k : AccessKind} {va : Word} {pa : Nat} (h : s.resolve c k va = .ok (.device pa)) :
    inClusterWindow va = false := by
  by_contra hin
  obtain ⟨hl, hu⟩ := of_decide_eq_true (Bool.of_not_eq_false hin)
  have hspan : ¬ va.toNat < spanBase := not_lt.2 (le_trans (by decide) hl)
  unfold State.resolve at h
  dsimp only at h
  rw [if_neg hspan, if_neg (not_lt.2 hl), if_pos hu] at h
  split at h <;> cases h

section
variable {s : State} {j : Job} {r : JobResult} {pr ps tail : Nat} (hbad : s.badLines = [])
include hbad

theorem State.takeSlot_device (hroom : s.hostRefuses j.part pr = false) (hdirty : s.dirtyBad j.gang (pr / 128 * 128) = false)
    (hres : s.resolve j.reach .atomic (BitVec.ofNat 64 j.fields.ring) = .ok (.device pr)) (hreg : s.regionAt j.part pr = none) :
    s.takeSlot j = .ok (s.mem.getNat pr 8) { s with mem := s.mem.setBytes pr (leBytes 8 ((s.mem.getNat pr 8 + 1) % 2 ^ 64)) } := by
  unfold State.takeSlot
  dsimp only
  rw [if_neg fun h => by rw [inClusterWindow_of_device hres] at h; exact absurd h.2 (by decide), hres]
  exact State.modify_device hreg (fun _ => rfl) hroom (by rw [hbad]; rfl) hdirty

omit hbad in
/-- A record's 32 bytes. -/
theorem JobResult.length_record (r : JobResult) (j : Job) : (r.record j).length = 32 := by
  unfold JobResult.record
  simp only [List.length_append, length_leBytes]

theorem State.writeRecord_device (hroom : s.hostRefuses j.part ps = false)
    (hres : s.resolve j.reach .store (j.slotAddr tail) = .ok (.device ps)) (hreg : s.regionAt j.part ps = none) :
    s.writeRecord j r tail = .ok () { s with mem := s.mem.setBytes ps (r.record j) } := by
  have hlen := JobResult.length_record r j
  have hshort : ({ target := .device ps, data := r.record j, va := j.slotAddr tail } : Write).data.length < 128 := by
    change (r.record j).length < 128
    omega
  have hblocked : s.blockedLines [{ target := .device ps, data := r.record j, va := j.slotAddr tail }] = [] := by
    simp [State.blockedLines, hbad]
  have hperform : s.performWrites j.part j.gang [{ target := .device ps, data := r.record j, va := j.slotAddr tail }] =
      { s with mem := s.mem.setBytes ps (r.record j) } := by
    rw [State.performWrites_short hshort]
    unfold State.performWrite
    dsimp only
    rw [Write.merge_full]
    exact if_neg (by rw [hbad]; simp [hroom])
  unfold State.writeRecord
  dsimp only
  rw [if_neg fun h => by rw [inClusterWindow_of_device hres] at h; exact absurd h.2 (by decide), hres]
  dsimp only
  rw [State.judgeWrite_plain (c := j.reach) hreg]
  dsimp only
  rw [hblocked, hperform]
  exact if_neg (by simp [Write.meets])

/-- A completion whose ring lies in device memory takes the slot that TAIL names and writes its record there. -/
theorem State.ringWrite_device (hslot : j.slot = none) (hroomr : s.hostRefuses j.part pr = false) (hrooms : s.hostRefuses j.part ps = false)
    (hdirty : s.dirtyBad j.gang (pr / 128 * 128) = false)
    (hres : s.resolve j.reach .atomic (BitVec.ofNat 64 j.fields.ring) = .ok (.device pr)) (hreg : s.regionAt j.part pr = none)
    (hres2 : ({ s with mem := s.mem.setBytes pr (leBytes 8 ((s.mem.getNat pr 8 + 1) % 2 ^ 64)) } : State).resolve j.reach .store
      (j.slotAddr (s.mem.getNat pr 8)) = .ok (.device ps)) (hreg2 : s.regionAt j.part ps = none) :
    s.ringWrite j r = .done () { s with
      mem := (s.mem.setBytes pr (leBytes 8 ((s.mem.getNat pr 8 + 1) % 2 ^ 64))).setBytes ps (r.record j)
      jobs := s.jobs.map fun x => if x.item = j.item then { j with slot := some (s.mem.getNat pr 8), hold := none } else x } := by
  have htake := State.takeSlot_device (j := j) hbad hroomr hdirty hres hreg
  generalize s.mem.setBytes pr (leBytes 8 ((s.mem.getNat pr 8 + 1) % 2 ^ 64)) = m1 at hres2 htake ⊢
  generalize s.mem.getNat pr 8 = tail at hres2 htake ⊢
  have hwrite := State.writeRecord_device (s := ({ s with mem := m1 } : State).setJob { j with slot := some tail, hold := none })
    (j := { j with slot := some tail, hold := none }) (r := r) (tail := tail) hbad hrooms ((State.resolve_withJobs ..).trans hres2) hreg2
  unfold State.ringWrite
  rw [hslot, htake]
  dsimp only [State.ringStep]
  rw [hwrite]
  rfl

end

/-- What a counter of 8 bytes and a record, written to disjoint places, read as afterwards. -/
theorem Memory.counter_and_record {m : Memory} (hwf : Memory.wf m) {pr ps v : Nat} {l : List Byte} (hv : v < 256 ^ 8)
    (hdisj : pr + 8 ≤ ps ∨ ps + l.length ≤ pr) :
    let t := (m.setBytes pr (leBytes 8 v)).setBytes ps l
    t.getNat pr 8 = v ∧ t.getBytes ps l.length = l ∧
      ∀ a, (a < pr ∨ pr + 8 ≤ a) → (a < ps ∨ ps + l.length ≤ a) → t.get a = m.get a := by
  intro t
  have hlen : (leBytes 8 v).length = 8 := length_leBytes ..
  have hcounter : t.getBytes pr 8 = leBytes 8 v := by
    rw [← hlen]
    refine Memory.getBytes_of_get fun k b hb => ?_
    obtain ⟨hk, rfl⟩ := List.getElem?_eq_some_iff.1 hb
    rw [Memory.get_setBytes_out _ (by omega)]
    exact Memory.get_setBytes_in hwf pr _ k hk
  refine ⟨?_, Memory.getBytes_setBytes (Memory.wf_setBytes hwf ..) ps l, fun a hr hs => ?_⟩
  · unfold Memory.getNat
    rw [hcounter, leNat_leBytes _ _ hv]
  · rw [Memory.get_setBytes_out _ hs, Memory.get_setBytes_out _ (by rwa [hlen])]

/-- The claim on completion rings. -/
theorem recordsTakeTheNextRingSlot_holds : Claim.RecordsTakeTheNextRingSlot := by
  unfold Claim.RecordsTakeTheNextRingSlot
  intro s j r pr ps
  dsimp only
  intro hwf hbad hslot hroomr hrooms hdirty hres hreg hres2 hreg2 hdisj
  have hlen := JobResult.length_record r j
  have hwrite := State.ringWrite_device (r := r) hbad hslot hroomr hrooms hdirty hres hreg hres2 hreg2
  have hv : (s.mem.getNat pr 8 + 1) % 2 ^ 64 < 256 ^ 8 := (Nat.mod_lt _ (by norm_num)).trans_eq (by norm_num)
  obtain ⟨hcounter, hrecord, hframe⟩ := Memory.counter_and_record (ps := ps) (l := r.record j) hwf hv (by rwa [hlen])
  rw [hlen] at hrecord hframe
  generalize (s.mem.setBytes pr (leBytes 8 ((s.mem.getNat pr 8 + 1) % 2 ^ 64))).setBytes ps (r.record j) = m at hwrite hcounter hrecord hframe
  exact ⟨_, hwrite, rfl, hcounter, hrecord, hframe⟩

/-- Settles O42: the engine's check of a card, what a completion leaves in its strand, and the two accesses to its ring. -/
theorem jobsAreJudgedAndComplete : Obligations.JobsAreJudgedAndComplete := by
  unfold Obligations.JobsAreJudgedAndComplete
  exact ⟨unsoundCardsAreRejected_holds, jobsComplete_holds, recordsTakeTheNextRingSlot_holds⟩

end Sys2Proof.Machine
end

section
/-! Settled here: O43, ring entries are taken, launches start and complete, nodes that wait for versions complete. -/

namespace Sys2Proof.Machine

open Sys2Proof.Safety

/-! ### What a write of a status block leaves (R359) -/

/-- `t` is `s` but for its memory, its fabric, and whether the status block of queue `q` is owed. -/
def StatusWritten (q : Fin 64) (s t : State) : Prop := ∃ m f b, t = { s with
  mem := m, fabric := f, queues := s.queues.set q { s.queues[q] with owed := b } }

theorem State.queue_set (s : State) (q : Fin 64) (k : Queue) : (s.queues.set q k)[q] = k := Vector.getElem_set_self _

/-- A write of a unit that belongs to no gang reaches device memory only. -/
theorem State.performWrite_ungrouped (s : State) (p : Fin 8) (blocked : List Nat) (w : Write) :
    ∃ m, s.performWrite p none blocked w = { s with mem := m } := by
  cases ht : w.target with
  | device pa =>
    simp only [State.performWrite, ht]
    split <;> exact ⟨_, rfl⟩
  | bank b off =>
    simp only [State.performWrite, ht]
    exact ⟨_, rfl⟩
  | remote q off =>
    simp only [State.performWrite, ht]
    exact ⟨_, rfl⟩

theorem State.sendRequest_fabric {s t : State} {p : Fin 8} {q off : Nat} {cls : Fin 16} {op : SpanOp} {r : Requester} {va : Word} {x : Fin 4096}
    (h : s.sendRequest p q off cls op r va = some (x, t)) : t = { s with fabric := t.fabric } := by
  unfold State.sendRequest at h
  split at h
  · cases h
    rfl
  · cases h

/-- One short write of such a unit. -/
theorem State.unitWrites_short (s : State) {c : Ctx} (hc : c.gang = none) (r : Requester) {w : Write} (hw : w.data.length < 128) :
    ∃ m f, s.unitWrites c r [w] = { s with mem := m, fabric := f } := by
  obtain ⟨m, hm⟩ := s.performWrite_ungrouped c.part s.badLines w
  simp only [State.unitWrites, hc, State.performWrites_short hw, hm, List.foldl_cons, List.foldl_nil]
  split
  · rename_i q off ht
    cases hs : State.sendRequest { s with mem := m } c.part q off 0 (.store w.data) r w.va with
    | none => exact ⟨m, s.fabric, rfl⟩
    | some x => exact ⟨m, x.2.fabric, State.sendRequest_fabric hs⟩
  · exact ⟨m, s.fabric, rfl⟩

theorem State.judgeWrite_same {s t : State} {c : Ctx} {g : Target} (h : s.judgeWrite c g = .ok () t) : t = s := by
  unfold State.judgeWrite at h
  split at h
  · split at h
    · cases h
    · cases h
      rfl
  · split at h
    · cases h
    · split at h
      · cases h
      · split at h
        · cases h
        · cases h
          rfl
  · cases h
    rfl

theorem State.unitTarget_ok {s t : State} {c : Ctx} {va : Word} {data : List Byte} {w : Write} (h : s.unitTarget c va data = .ok w t) :
    t = s ∧ w.data = data := by
  unfold State.unitTarget at h
  split at h
  · cases h
  · cases h
  · split at h
    · split at h
      · cases h
      · cases h
        exact ⟨rfl, rfl⟩
    · split at h
      · rename_i hj
        cases h
        exact ⟨State.judgeWrite_same hj, rfl⟩
      · cases h
      · cases h
      · cases h

theorem Queue.statusBytes_length (k : Queue) : k.statusBytes.length = 64 := by
  simp [Queue.statusBytes, leBytes]

theorem State.setOwed_written (s : State) (q : Fin 64) (b : Bool) : StatusWritten q s (s.setOwed q b) := ⟨_, _, _, rfl⟩

theorem State.writeStatus_written (s : State) (q : Fin 64) : StatusWritten q s (s.writeStatus q) := by
  unfold State.writeStatus
  dsimp only
  split
  · exact s.setOwed_written q false
  · split
    · rename_i w s1 ht
      obtain ⟨rfl, hd⟩ := State.unitTarget_ok ht
      have short : w.data.length < 128 := by rw [hd, Queue.statusBytes_length]; decide
      obtain ⟨m, f, h⟩ := State.unitWrites_short (s1.setOwed q false) (c := s1.queueCtx q) rfl (.unit 0) short
      exact ⟨m, f, false, h⟩
    · exact s.setOwed_written q false
    · exact s.setOwed_written q true

/-- A change of a queue's registers changes nothing else but what the write of its status block does. -/
theorem State.onQueue_eq (s : State) (q : Fin 64) (g : Queue → Queue) : ∃ m f b, s.onQueue q g = { s with
    mem := m, fabric := f, queues := s.queues.set q { g s.queues[q] with owed := b } } := by
  obtain ⟨m, f, b, h⟩ := State.writeStatus_written { s with queues := s.queues.set q (g s.queues[q]) } q
  refine ⟨m, f, b, h.trans ?_⟩
  simp only [State.queue_set, Vector.set_set]

theorem State.onQueue_launches (s : State) (q : Fin 64) (g : Queue → Queue) : (s.onQueue q g).launches = s.launches := by
  obtain ⟨m, f, b, h⟩ := s.onQueue_eq q g
  rw [h]

theorem State.onQueue_jobs (s : State) (q : Fin 64) (g : Queue → Queue) : (s.onQueue q g).jobs = s.jobs := by
  obtain ⟨m, f, b, h⟩ := s.onQueue_eq q g
  rw [h]

theorem State.queue_onQueue (s : State) (q : Fin 64) (g : Queue → Queue) : ∃ b, (s.onQueue q g).queues[q] = { g s.queues[q] with owed := b } := by
  obtain ⟨m, f, b, h⟩ := s.onQueue_eq q g
  exact ⟨b, by rw [h]; exact State.queue_set _ _ _⟩

theorem State.onQueue_without_status {s : State} {q : Fin 64} {g : Queue → Queue} (h : (g s.queues[q]).status = 0) :
    s.onQueue q g = { s with queues := s.queues.set q { g s.queues[q] with owed := false } } := by
  unfold State.onQueue State.writeStatus State.setOwed
  simp only [State.queue_set, Vector.set_set]
  exact if_pos h

/-! ### Doorbells and ring entries (R355, R357) -/

theorem Golium.ready_iff (g : Golium) : g.ready = true ↔ g.stage = 7 := beq_iff_eq

theorem Queue.enabled_eq (k : Queue) : k.enabled = k.cfg.getLsbD 63 := bit_toNat _ _

theorem Queue.suspended_eq (k : Queue) : k.suspended = k.cfg.getLsbD 62 := bit_toNat _ _

/-- A register that is never locked is written by the module's own function and by that of the partition. -/
theorem State.permit_never (s : State) (f : Caller) (p : Fin 8) :
    s.permit f p .never = if f.function = 0 ∨ f.function = s.parts[p].vf then .yes else .ignored := by
  unfold State.permit
  by_cases h0 : f.function = 0
  · rw [if_pos h0, if_pos (Or.inl h0)]
    rfl
  · rw [if_neg h0]
    by_cases hv : f.function = s.parts[p].vf
    · rw [if_neg (not_not.2 hv), if_pos (Or.inr hv)]
      rfl
    · rw [if_pos hv, if_neg (not_or.2 ⟨h0, hv⟩)]

theorem State.guarded_never (s : State) (f : Caller) (p : Fin 8) (g : State → State) : s.guarded f p .never g = .next (
    if s.golium.stage = 7 ∧ (f.function = 0 ∨ f.function = s.parts[p].vf) then g s else s) := by
  simp only [State.guarded, Golium.ready_iff, State.permit_never]
  by_cases hr : s.golium.stage = 7
  · rw [if_neg (not_not.2 hr)]
    by_cases hf : f.function = 0 ∨ f.function = s.parts[p].vf
    · rw [if_pos hf, if_pos ⟨hr, hf⟩]
    · rw [if_neg hf, if_neg fun h => hf h.2]
  · rw [if_pos hr, if_neg fun h => hr h.1]

theorem doorbell_eq (q : Fin 64) (s : State) (f : Caller) (tail : Word) :
    exec (.doorbell { by_ := f, queue := q } tail) s = .next (if
      s.golium.stage = 7 ∧ (f.function = 0 ∨ f.function = s.parts[s.queues[q].part].vf) ∧ s.queues[q].cfg.getLsbD 63 = true ∧
        s.queues[q].head.toNat ≤ tail.toNat ∧ tail.toNat ≤ s.queues[q].head.toNat + 2 ^ (s.queues[q].cfg.toNat / 2 ^ 44 % 32)
      then { s with queues := s.queues.set q { s.queues[q] with tail := tail } } else s) := by
  have arm : exec (.doorbell { by_ := f, queue := q } tail) s = execDoorbell { by_ := f, queue := q } tail s := rfl
  rw [arm, execDoorbell, State.guarded_never, ← ite_and, Queue.enabled_eq]
  simp only [and_assoc, BitVec.le_def]
  rfl

theorem State.mayTake_iff (s : State) (q : Fin 64) : s.mayTake q = true ↔ s.golium.verified[1] = true ∧ s.queues[q].cfg.getLsbD 63 = true ∧
    s.queues[q].cfg.getLsbD 62 = false ∧ s.accepts s.queues[q].part = true ∧ s.queues[q].head.toNat < s.queues[q].tail.toNat := by
  simp only [State.mayTake, Queue.enabled_eq, Queue.suspended_eq, BitVec.lt_def, Bool.and_eq_true, Bool.not_eq_true', decide_eq_true_eq, and_assoc]
  rfl

/-- A queue that owes nothing and holds no list has nothing to try again. -/
theorem State.retryNodes_idle {s : State} {q : Fin 64} (hl : s.queues[q].lists = []) (ho : s.queues[q].owed = false) : s.retryNodes q = s := by
  have unowed : (if s.queues[q].owed = true then s.writeStatus q else s) = s := if_neg (by rw [ho]; exact Bool.false_ne_true)
  simp only [State.retryNodes, unowed, hl, List.filter_nil, List.foldl_nil]

theorem ringEntryTake_idle {q : Fin 64} {s : State} (h : ¬ s.queues[q].cfg.getLsbD 63 = true ∨ s.queues[q].cfg.getLsbD 62 = true ∨
    s.queues[q].tail.toNat ≤ s.queues[q].head.toNat ∨ s.golium.verified[1] = false) (hl : s.queues[q].lists = [])
    (ho : s.queues[q].owed = false) : exec (.ringEntryTake q) s = .next s := by
  have arm : exec (.ringEntryTake q) s = execRingEntryTake q s := rfl
  have closed : ¬ s.mayTake q = true := by
    rw [State.mayTake_iff]
    rintro ⟨hrun, hon, hsus, -, hlt⟩
    rcases h with h | h | h | h
    · exact h hon
    · exact Bool.noConfusion (h.symm.trans hsus)
    · exact Nat.not_lt.2 h hlt
    · exact Bool.noConfusion (h.symm.trans hrun)
  rw [arm, execRingEntryTake, if_pos closed, State.retryNodes_idle hl ho]

/-- A taken entry that names a record. -/
theorem ringEntryTake_record {q : Fin 64} {s v u : State} {a w : Nat} (hm : s.mayTake q = true)
    (hr : s.queueWords q 2 s.queues[q].entryAddr = .ok [a, w] v) (hw : w % 16 = 0)
    (hu : (s.advanceRing q).takeRecord q s.queues[q].nextSeq (BitVec.ofNat 64 a) = .ok u) :
    exec (.ringEntryTake q) s = .next (u.unitDone (unitOf q)) := by
  have arm : exec (.ringEntryTake q) s = execRingEntryTake q s := rfl
  have kind : bits w 0 4 = 0 := by simpa [bits] using hw
  rw [arm, execRingEntryTake, if_neg (not_not.2 hm)]
  simp only [hr, kind, hu]

theorem aligned_ofNat {a : Nat} (ha : a < 2 ^ 64) : aligned (BitVec.ofNat 64 a) 128 = true ↔ a % 128 = 0 := by
  rw [aligned_iff, BitVec.toNat_ofNat, Nat.mod_eq_of_lt ha]

theorem ringEntriesAreTaken : Claim.RingEntriesAreTaken := by
  intro q s k on done
  refine ⟨fun f tail => doorbell_eq q s f tail, fun h hl ho => ringEntryTake_idle h hl ho, ?_⟩
  intro hon hsus hrun hacc hlt u a w v hr hw ha
  have hm : s.mayTake q = true := (s.mayTake_iff q).2 ⟨hrun, hon, hsus, hacc, hlt⟩
  refine ⟨fun ws hal hws hgood => ?_, fun hal hst => ?_⟩
  · have taken : (s.advanceRing q).takeRecord q k.nextSeq (BitVec.ofNat 64 a) = .ok { u with
        launches := s.launches ++ [launchOf (ofWords ws) s.items (u.queueDie q) q u.queues[q].part u.queues[q].asid k.nextSeq
          (BitVec.ofNat 64 a) none none false]
        items := s.items + 1 } := by
      change u.takeRecord q k.nextSeq (BitVec.ofNat 64 a) = _
      rw [State.takeRecord, if_neg (not_not.2 ((aligned_ofNat ha).2 hal)), hws]
      dsimp only
      rw [hgood]
      rfl
    exact ⟨_, ringEntryTake_record hm hr hw taken, rfl, rfl, rfl, rfl, rfl, rfl⟩
  · have same : u.queues[q] = { k with head := k.head + 1, nextSeq := k.nextSeq + 1 } := State.queue_set _ _ _
    refine ringEntryTake_record hm hr hw ?_
    change u.takeRecord q k.nextSeq (BitVec.ofNat 64 a) = _
    rw [State.takeRecord, if_pos (fun h => hal ((aligned_ofNat ha).1 h)), State.faultEntry, State.onQueue_without_status]
    · rw [same]
      rfl
    · rw [same]
      exact hst

/-! ### The start of a launch (R349, R351, R355, R358, R366) -/

theorem State.unitWords_length {s t : State} {key : Nat} {c : Ctx} {cls : Fin 16} : ∀ {n : Nat} {va : Word} {l : List Nat},
    s.unitWords key c cls n va = .ok l t → l.length = n := by
  intro n
  induction n generalizing s with
  | zero =>
    intro va l h
    cases h
    rfl
  | succ n ih =>
    intro va l h
    unfold State.unitWords at h
    split at h
    · split at h
      · rename_i hrest
        cases h
        rw [List.length_cons, ih hrest]
      · rename_i hrest
        exact (hrest _ _ h).elim
    · cases h
    · cases h
    · split at h
      · cases h
      · rename_i hrest
        exact (hrest _ _ h).elim

/-- A message that leaves does not touch the arrivals of other ranks that are kept. -/
theorem Fabric.leave_arrivals (cycle : Nat) : ∀ (n : Nat) (f : Fabric) (m : Message), (f.leave cycle n m).arrivals = f.arrivals := by
  intro n
  induction n with
  | zero => exact fun f m => rfl
  | succ n ih =>
    intro f m
    have all : ∀ (l : List Message) (f : Fabric), (l.foldl (Fabric.leave cycle n) f).arrivals = f.arrivals := fun l => by
      induction l with
      | nil => exact fun f => rfl
      | cons a l ihl => exact fun f => (ihl _).trans (ih f a)
    unfold Fabric.leave
    split
    · rfl
    · dsimp only
      split
      · exact all _ _
      · rfl

theorem State.post_arrivals (s : State) (p : Fin 8) (q off : Nat) (op : SpanOp) : (s.post p q off op).fabric.arrivals = s.fabric.arrivals := by
  unfold State.post
  split
  · exact Fabric.leave_arrivals _ _ _ _
  · rfl

theorem foldl_arrivals {α : Type} {f : State → α → State} (hf : ∀ s a, (f s a).fabric.arrivals = s.fabric.arrivals) (l : List α) (s : State) :
    (l.foldl f s).fabric.arrivals = s.fabric.arrivals := by
  induction l generalizing s with
  | nil => rfl
  | cons a l ih => exact (ih _).trans (hf s a)

theorem State.announce_arrivals (s : State) (b : Barrier) : (s.announce b).fabric.arrivals = s.fabric.arrivals := by
  unfold State.announce
  split
  · split
    · rfl
    · exact foldl_arrivals (fun s q => s.post_arrivals _ q _ _) _ _
  · rfl

theorem State.settleBarrier_arrivals (s : State) (k : BarrierKey) : (s.settleBarrier k).fabric.arrivals = s.fabric.arrivals := by
  have first := s.announce_arrivals (s.barrier k)
  unfold State.settleBarrier
  dsimp only
  split
  · split
    · exact first
    · split
      · exact (State.announce_arrivals _ _).trans first
      · exact first
  · rfl

/-- What taking one kept arrival does. -/
def State.takeArrival (l : Launch) (s : State) (a : SpanArrival) : State :=
  match a.req.op, s.parts[a.part].rankOf a.req.src with
  | .barrierArrival st id n, some q => s.notePeer l q st id n
  | _, _ => s

theorem State.takeArrival_settled (l : Launch) (s : State) (a : SpanArrival) : BarriersSettled s (s.takeArrival l a) := by
  unfold State.takeArrival
  split
  · exact (s.setBarrier_settled _).trans (State.settleBarrier_settled _ _)
  · exact .refl s

theorem State.takeArrival_arrivals (l : Launch) (s : State) (a : SpanArrival) : (s.takeArrival l a).fabric.arrivals = s.fabric.arrivals := by
  unfold State.takeArrival
  split
  · exact State.settleBarrier_arrivals _ _
  · rfl

theorem State.takeArrivals_eq (s : State) (l : Launch) : s.takeArrivals l =
    (s.fabric.arrivals.filter fun a => a.part == l.part && a.req.offset == l.spanTag.toNat).foldl (State.takeArrival l)
      { s with fabric := { s.fabric with
        arrivals := s.fabric.arrivals.filter fun a => ! (a.part == l.part && a.req.offset == l.spanTag.toNat) } } := by
  simp only [State.takeArrivals, List.partition_eq_filter_filter]
  rfl

theorem State.takeArrivals_settled (s : State) (l : Launch) : BarriersSettled s (s.takeArrivals l) := by
  rw [State.takeArrivals_eq]
  exact .trans ⟨_, _, _, _, _, _, rfl⟩ (.foldl (State.takeArrival_settled l) _ _)

theorem State.takeArrivals_arrivals (s : State) (l : Launch) : (s.takeArrivals l).fabric.arrivals =
    s.fabric.arrivals.filter fun a => ! (a.part == l.part && a.req.offset == l.spanTag.toNat) := by
  rw [State.takeArrivals_eq]
  exact foldl_arrivals (State.takeArrival_arrivals l) _ _

theorem State.takeArrivals_none {s : State} {l : Launch}
    (h : ∀ a ∈ s.fabric.arrivals, (a.part == l.part && a.req.offset == l.spanTag.toNat) = false) : s.takeArrivals l = s := by
  have rest : (s.fabric.arrivals.filter fun a => ! (a.part == l.part && a.req.offset == l.spanTag.toNat)) = s.fabric.arrivals :=
    List.filter_eq_self.2 fun a ha => by rw [h a ha]; rfl
  have mine : (s.fabric.arrivals.filter fun a => a.part == l.part && a.req.offset == l.spanTag.toNat) = [] :=
    List.filter_eq_nil_iff.2 fun a ha => by rw [h a ha]; exact Bool.false_ne_true
  rw [State.takeArrivals_eq, mine, rest]
  rfl

theorem BarriersSettled.eq {s t : State} (h : BarriersSettled s t) :
    t = { s with hart := t.hart, harts := t.harts, barriers := t.barriers, fabric := t.fabric, outputs := t.outputs } := by
  obtain ⟨_, _, _, _, _, _, rfl⟩ := h
  rfl

/-- The stages of a launch, of which it has at most eight. -/
theorem length_stages (n : Nat) : ((List.finRange 8).filter fun st => decide (st.val < n)).length = min 8 n := by
  have small : ∀ m : Fin 9, ((List.finRange 8).filter fun st => decide (st.val < m.val)).length = m.val := by decide
  have capped : ((List.finRange 8).filter fun st => decide (st.val < n)) = (List.finRange 8).filter fun st => decide (st.val < min 8 n) :=
    List.filter_congr fun st _ => decide_eq_decide.2 (by omega)
  rw [capped]
  exact small ⟨min 8 n, by omega⟩

theorem Launch.gangs_length (l : Launch) (banks : List Nat) (order : Nat) : (l.gangs banks order).length = 64 * min 8 l.stages := by
  simp only [Launch.gangs, List.length_flatMap, List.length_map, List.length_finRange, List.map_const', List.sum_replicate, length_stages,
    smul_eq_mul, Nat.mul_comm]

theorem Launch.mem_gangs {l : Launch} {banks : List Nat} {order : Nat} {g : Gang} (h : g ∈ l.gangs banks order) :
    g.id.launch = l.id ∧ g.started = false ∧ g.slot = none ∧ g.banks.length = banks.length ∧ g.runnable = some order := by
  simp only [Launch.gangs, List.mem_flatMap, List.mem_map] at h
  obtain ⟨st, -, i, -, rfl⟩ := h
  exact ⟨rfl, rfl, rfl, List.length_map _, rfl⟩

theorem le_foldl_began (l : List Launch) : ∀ k : Nat, k ≤ l.foldl (fun n x => max n (x.began + 1)) k := by
  induction l with
  | nil => exact fun k => Nat.le_refl k
  | cons a l ih => exact fun k => (Nat.le_max_left k _).trans (ih _)

/-- The next place among the launches that have started lies behind every other. -/
theorem began_lt_foldl {l : List Launch} {m : Launch} (h : m ∈ l) : ∀ k : Nat, m.began < l.foldl (fun n x => max n (x.began + 1)) k := by
  induction l with
  | nil => exact absurd h List.not_mem_nil
  | cons a l ih =>
    intro k
    rcases List.mem_cons.1 h with rfl | hm
    · exact (Nat.le_max_right k (m.began + 1)).trans (le_foldl_began l _)
    · exact ih hm _

/-- A launch as it starts in `u` (R352, R355, R366). -/
def State.begun (u : State) (l : Launch) (sv : Vector Word 32) (area : List (Option Nat)) : Launch :=
  { l with
    state := .running, sv := sv, stvec := u.queues[l.queue].stvec, sscratch := u.queues[l.queue].sscratch
    troot := u.rootOf l.part l.asid.toNat, rank := Fin.ofNat 4096 u.parts[l.part].jobSelf.toNat
    area := area, began := u.launches.foldl (fun n x => max n (x.began + 1)) 0 }

/-- A launch whose tail, shape and save area are good starts. -/
theorem State.startLaunch_good {s u : State} {l : Launch} {ws : List Nat} {sv : Vector Word 32} {area : List (Option Nat)}
    (hws : s.queueWords l.queue (32 + l.nbanks + 5 * l.nexpr) l.tables = .ok ws s)
    (hu : (s.unitDone (unitOf l.queue)).onQueue l.queue (fun k => k.start l.seq) = u)
    (hbanks : ((ws.drop 32).take l.nbanks).any badBankWord = false)
    (hsv : shapeAll (tailEntries (ws.drop (32 + l.nbanks)) l.nexpr) 0 (u.initialShape l ws) = .ok sv)
    (harea : u.saveArea (u.queueCtx l.queue) l.savePages l.ctxBase = .ok area u) :
    s.startLaunch l = State.takeArrivals { u with
      launches := u.launches.map fun x : Launch => if x.id = l.id then u.begun l sv area else x
      gangs := u.gangs ++ (u.begun l sv area).gangs ((ws.drop 32).take l.nbanks) u.nextRunnable } (u.begun l sv area) := by
  unfold State.startLaunch
  extract_lets q
  split
  case h_1 h => cases hws.symm.trans h
  case h_2 h => cases hws.symm.trans h
  case h_3 h => cases hws.symm.trans h
  case h_4 h =>
    cases hws.symm.trans h
    have started : (s.unitDone (unitOf q)).onQueue q (fun k => k.start l.seq) = u := hu
    rw [started]
    refine (if_neg (by rw [hbanks]; exact Bool.false_ne_true)).trans ?_
    rw [hsv, harea]
    rfl

/-- An item that is ready starts where no other of its die comes before it. -/
theorem itemStart_first {n : Nat} {s : State} {l : Launch} (hl : s.launches.find? (fun l => l.item == n) = some l)
    (hready : s.itemReady l = true)
    (hfirst : ∀ m ∈ s.launches, m.item ≠ n → m.die = l.die → s.itemReady m = true → s.startsBefore m l = false) :
    exec (.itemStart n) s = .next (s.startLaunch l) := by
  have arm : exec (.itemStart n) s = execItemStart n s := rfl
  have first : (s.launches.all fun m => m.item == n || m.die != l.die || ! (s.itemReady m && s.startsBefore m l)) = true := by
    rw [List.all_eq_true]
    intro m hm
    by_cases hi : m.item = n
    · simp [hi]
    · by_cases hd : m.die = l.die
      · cases hr : s.itemReady m with
        | false => simp
        | true => simp [hfirst m hm hi hd hr]
      · simp [hd]
  rw [arm, execItemStart, hl]
  exact congrArg Host.Outcome.next (if_pos ⟨hready, first⟩)

theorem launchesStartTheirGangs : Claim.LaunchesStartTheirGangs := by
  intro n s l ws sv u hl hready hfirst hws hbanks hsv area harea mine
  have hmine : ∀ a : SpanArrival, (a.part == l.part && a.req.offset == l.spanTag.toNat) = decide (mine a) := fun a =>
    (Bool.decide_and _ _).symm
  have hlaunches : u.launches = s.launches := State.onQueue_launches _ _ _
  have hlen : ((ws.drop 32).take l.nbanks).length = l.nbanks := by
    rw [List.length_take, List.length_drop, State.unitWords_length hws]
    omega
  let x := u.begun l sv area
  let gs := x.gangs ((ws.drop 32).take l.nbanks) u.nextRunnable
  let b : State := { u with launches := u.launches.map fun y : Launch => if y.id = l.id then x else y, gangs := u.gangs ++ gs }
  have settled := (b.takeArrivals_settled x).eq
  have hstart : exec (.itemStart n) s = .next (b.takeArrivals x) :=
    (itemStart_first hl hready hfirst).trans (congrArg Host.Outcome.next (State.startLaunch_good hws rfl hbanks hsv harea))
  refine ⟨b.takeArrivals x, x, gs, hstart, ?_, ?_, fun hnone => ?_, ?_, rfl, fun m hm => ?_,
    x.gangs_length _ _, fun g hg => ?_⟩
  · generalize b.takeArrivals x = t at settled ⊢
    rw [settled]
  · rw [b.takeArrivals_arrivals x]
    exact List.filter_congr fun a _ => congrArg (!·) (hmine a)
  · have same : b.takeArrivals x = b := State.takeArrivals_none fun a ha => (hmine a).trans (decide_eq_false (hnone a ha))
    rw [same]
    exact ⟨rfl, rfl, rfl, rfl, rfl⟩
  · exact congrArg State.launches settled
  · exact began_lt_foldl (hlaunches ▸ hm) 0
  · obtain ⟨hid, hs, hslot, hb, hr⟩ := Launch.mem_gangs hg
    exact ⟨hid, hs, hslot, hb.trans hlen, hr⟩

/-! ### Credits (R358) -/

theorem State.foldl_retryNodes_idle {s : State} (h : ∀ q : Fin 64, s.queues[q].lists = [] ∧ s.queues[q].owed = false) (l : List (Fin 64)) :
    l.foldl (fun s q => s.retryNodes q) s = s := by
  induction l with
  | nil => rfl
  | cons q l ih => rw [List.foldl_cons, State.retryNodes_idle (h q).1 (h q).2, ih]

/-- A queue after a tick: it gains its weight, and loses one credit for each slot its gangs hold. -/
def State.ticked (s : State) (q : Fin 64) : Queue :=
  { s.queues[q] with credits := max (-65536) (min 65536 (s.queues[q].credits + (s.queues[q].cfg.toNat / 2 ^ 49 % 256 : Nat) -
    ((s.gangs.filter fun g => g.slot.isSome && g.queue == q).length : Nat))) }

theorem creditsFollowTheWeights : Claim.CreditsFollowTheWeights := by
  intro s h
  let t : State := { s with queues := Vector.ofFn s.ticked }
  have ticks : ∀ q : Fin 64, t.queues[q] = s.ticked q := fun q => Vector.getElem_ofFn q.isLt
  have idle : ∀ q : Fin 64, t.queues[q].lists = [] ∧ t.queues[q].owed = false := fun q => by
    rw [ticks q]
    exact h q
  have arm : exec .queueCreditTick s = .next ((List.finRange 64).foldl (fun s q => s.retryNodes q) t) := rfl
  exact ⟨t, arm.trans (congrArg Host.Outcome.next (State.foldl_retryNodes_idle idle _)), rfl, ticks⟩

/-! ### The end of a launch (R106, R355) -/

theorem launchesComplete : Claim.LaunchesComplete := by
  intro n s l hl
  have arm : exec (.launchComplete n) s = execLaunchComplete n s := rfl
  refine ⟨fun hrun hover hnode => ?_, fun h => ?_⟩
  · let u : State := { s with launches := s.launches.map fun x : Launch => if x.id = n then { x with state := .complete } else x }
    have ended : exec (.launchComplete n) s = .next (u.onQueue l.queue Queue.finish) := by
      rw [arm, execLaunchComplete, hl]
      dsimp only
      rw [if_pos ⟨hrun, hover⟩, hnode]
    obtain ⟨m, f, b, ht⟩ := u.onQueue_eq l.queue Queue.finish
    rw [ht] at ended
    refine ⟨_, ended, rfl, rfl, rfl, rfl, ?_⟩
    simp only [State.queue_set]
    rfl
  · have stays : ¬ (l.state = .running ∧ s.launchOver l = true) := by
      rintro ⟨hrun, hover⟩
      exact h.elim (fun hn => Bool.noConfusion (hn.symm.trans hover)) (fun hn => hn hrun)
    rw [arm, execLaunchComplete, hl]
    exact congrArg Host.Outcome.next (if_neg stays)

/-! ### Nodes of launch lists (R361) -/

theorem Queue.list?_id {k : Queue} {id : Nat} {l : LaunchList} (h : k.list? id = some l) : l.id = id := by
  simpa using List.find?_some h

theorem LaunchList.node?_addr {l : LaunchList} {a : Word} {n : ListNode} (h : l.node? a = some n) : n.addr = a := by
  simpa using List.find?_some h

theorem LaunchList.node?_setNode (l : LaunchList) (n : ListNode) : (l.setNode n).node? n.addr = some n :=
  List.find?_cons_of_pos (beq_self_eq_true n.addr)

/-- A list with the nodes of one whose node at `a` was replaced has the new node there. -/
theorem LaunchList.node?_of_nodes {k l : LaunchList} {a : Word} {n m : ListNode} (hn : l.node? a = some n)
    (h : k.nodes = (l.setNode m).nodes) (hm : m.addr = n.addr) : k.node? a = some m := by
  rw [← LaunchList.node?_addr hn, ← hm, LaunchList.node?, h]
  exact l.node?_setNode m

/-- A list that takes the place of the one with its number is found under that number. -/
theorem find?_replaced {id : Nat} {m : LaunchList} (hm : m.id = id) : ∀ {ls : List LaunchList} {l : LaunchList},
    ls.find? (fun x => x.id == id) = some l → (ls.map fun x => if x.id = m.id then m else x).find? (fun x => x.id == id) = some m := by
  intro ls
  induction ls with
  | nil => exact fun h => nomatch h
  | cons a ls ih =>
    intro l h
    rw [List.map_cons]
    by_cases ha : a.id = id
    · rw [if_pos (ha.trans hm.symm)]
      exact List.find?_cons_of_pos (beq_iff_eq.2 hm)
    · have skip : ¬ (a.id == id) = true := fun e => ha (beq_iff_eq.1 e)
      rw [if_neg fun e => ha (e.trans hm)]
      rw [List.find?_cons_of_neg (p := fun x : LaunchList => x.id == id) skip] at h ⊢
      exact ih h

theorem State.list?_setList {s : State} {q : Fin 64} {l m : LaunchList} (h : s.queues[q].list? m.id = some l) :
    (s.setList q m).queues[q].list? m.id = some m := by
  unfold State.setList
  simp only [State.queue_set]
  exact find?_replaced rfl h

/-- What a queue's status says of the last fault (R359). -/
def Queue.lastFault (k : Queue) : Nat × Nat × Word × Word := (k.kind, k.fcode, k.faddr, k.fseq)

theorem Queue.lastFault_iff {j k : Queue} :
    j.lastFault = k.lastFault ↔ j.kind = k.kind ∧ j.fcode = k.fcode ∧ j.faddr = k.faddr ∧ j.fseq = k.fseq := by
  simp only [Queue.lastFault, Prod.mk.injEq]

theorem State.lastFault_setList (s : State) (q : Fin 64) (m : LaunchList) : (s.setList q m).queues[q].lastFault = s.queues[q].lastFault := by
  unfold State.setList
  simp only [State.queue_set]
  rfl

/-- The nodes of list `id` of queue `q` are `ns`; the fault that the queue's status reports, the launches and the jobs are those of `s`. -/
def ListHolds (q : Fin 64) (id : Nat) (ns : List ListNode) (s t : State) : Prop :=
  t.launches = s.launches ∧ t.jobs = s.jobs ∧ t.queues[q].lastFault = s.queues[q].lastFault ∧
    ∃ k, t.queues[q].list? id = some k ∧ k.nodes = ns

theorem State.settleList_holds {s : State} {q : Fin 64} {id : Nat} {l : LaunchList} (h : s.queues[q].list? id = some l) :
    ListHolds q id l.nodes s (s.settleList q id) := by
  have hid := Queue.list?_id h
  subst hid
  unfold State.settleList
  rw [h]
  dsimp only
  split
  · obtain ⟨m, f, b, ht⟩ := (s.setList q { l with done := true }).onQueue_eq q Queue.finish
    rw [ht]
    refine ⟨rfl, rfl, ?_, { l with done := true }, ?_, rfl⟩
    · simp only [State.queue_set]
      exact s.lastFault_setList q { l with done := true }
    · simp only [State.queue_set]
      exact State.list?_setList (m := { l with done := true }) h
  · exact ⟨rfl, rfl, rfl, l, h, rfl⟩

/-- An edge to no node is received by nothing. -/
theorem State.sendEdges_nowhere {s : State} {q : Fin 64} {id : Nat} {l : LaunchList} (h : s.queues[q].list? id = some l) (b : Bool) (n : Nat)
    (es : List Edge) : s.sendEdges q id (n + 1) ((0, b) :: es) = s.sendEdges q id n es := by
  have none : s.receiveEdge q l (0, b) = .ok ([], s) := by
    unfold State.receiveEdge
    exact if_pos (Or.inl rfl)
  rw [State.sendEdges, h]
  dsimp only
  rw [none]
  rfl

theorem State.sendEdges_end (s : State) (q : Fin 64) (id n : Nat) : s.sendEdges q id (n + 1) [] = s.settleList q id := by
  rw [State.sendEdges]
  exact Nat.noConfusion

/-- A node without successors completes; no other node of its list changes, and nothing outside its queue but what a write of the status
block does. -/
theorem State.completeNode_leaf {s : State} {q : Fin 64} {id : Nat} {a : Word} {l : LaunchList} {n : ListNode} (h : s.queues[q].list? id = some l)
    (hn : l.node? a = some n) (h0 : n.next0 = 0) (h1 : n.next1 = 0) (b : Bool) :
    ListHolds q id (l.setNode { n with state := .complete }).nodes s (s.completeNode q id a b) := by
  have hid := Queue.list?_id h
  subst hid
  let m := l.setNode { n with state := .complete }
  let u := s.setList q m
  have found : u.queues[q].list? l.id = some m := State.list?_setList (m := m) h
  have settled : s.completeNode q l.id a b = u.settleList q l.id := by
    obtain ⟨k, hk⟩ : ∃ k, edgeBound = k + 3 := ⟨2 ^ 32 - 3, by norm_num [edgeBound]⟩
    rw [State.completeNode, h]
    dsimp only
    rw [hn]
    dsimp only
    rw [hk]
    split
    · exact u.sendEdges_end q l.id (k + 2)
    · rw [ListNode.sends, h0, h1]
      exact (State.sendEdges_nowhere found b (k + 2) _).trans ((State.sendEdges_nowhere found b (k + 1) _).trans (u.sendEdges_end q l.id k))
  obtain ⟨hl, hj, hf, hk⟩ := State.settleList_holds found
  rw [settled]
  exact ⟨hl, hj, hf.trans (s.lastFault_setList q m), hk⟩

section
variable {id : Nat} {a : Word} {s : State} {q : Fin 64} {l : LaunchList} {n : ListNode}
  (hq : (List.finRange 64).find? (fun q => (s.queues[q].list? id).isSome) = some q) (hl : s.queues[q].list? id = some l)
  (hn : l.node? a = some n) (hk : n.kind = 2) (hr : n.state = .running)
include hq hl hn hk hr

/-- What becomes of a running version-wait node is up to the read of its range. -/
theorem versionWaitNodeComplete_eq : exec (.versionWaitNodeComplete id a) s = .next (
    match s.rangeReached (unitOf q) (s.queueCtx q) n.version n.granules (n.obj &&& ~~~ 127) with
    | .ok true s1 => (s1.unitDone (unitOf q)).completeNode q id a true
    | .ok false s1 => s1.unitDone (unitOf q)
    | .stall s1 => { s with fabric := s1.fabric }
    | .fault c => ((s.unitDone (unitOf q)).onQueue q fun k => k.fault 2 c.code a l.seq).completeNode q id a false
    | _ => s) := by
  have arm : exec (.versionWaitNodeComplete id a) s = execVersionWaitNodeComplete id a s := rfl
  rw [arm, execVersionWaitNodeComplete, hq]
  dsimp only
  rw [hl]
  dsimp only
  rw [hn]
  dsimp only
  exact congrArg Host.Outcome.next (if_pos ⟨hk, hr⟩)

theorem versionWaitNodeComplete_reached
    (hw : s.rangeReached (unitOf q) (s.queueCtx q) n.version n.granules (n.obj &&& ~~~ 127) = .ok true s) (h0 : n.next0 = 0) (h1 : n.next1 = 0) :
    ∃ t k m, exec (.versionWaitNodeComplete id a) s = .next t ∧ t.launches = s.launches ∧ t.jobs = s.jobs ∧
      t.queues[q].list? id = some k ∧ k.node? a = some m ∧ m = { n with state := .complete } := by
  obtain ⟨hlaunches, hjobs, -, k, hlist, hnodes⟩ := State.completeNode_leaf (s := s.unitDone (unitOf q)) hl hn h0 h1 true
  refine ⟨_, k, _, ?_, hlaunches, hjobs, hlist, LaunchList.node?_of_nodes hn hnodes rfl, rfl⟩
  rw [versionWaitNodeComplete_eq hq hl hn hk hr, hw]

theorem versionWaitNodeComplete_faulted {c : Cause}
    (hw : s.rangeReached (unitOf q) (s.queueCtx q) n.version n.granules (n.obj &&& ~~~ 127) = .fault c) (h0 : n.next0 = 0) (h1 : n.next1 = 0) :
    ∃ t k m, exec (.versionWaitNodeComplete id a) s = .next t ∧ t.launches = s.launches ∧ t.jobs = s.jobs ∧
      t.queues[q].kind = 2 ∧ t.queues[q].fcode = c.code ∧ t.queues[q].faddr = a ∧ t.queues[q].fseq = l.seq ∧
      t.queues[q].list? id = some k ∧ k.node? a = some m ∧ m = { n with state := .complete } := by
  let u := (s.unitDone (unitOf q)).onQueue q fun k => k.fault 2 c.code a l.seq
  obtain ⟨b, noted⟩ : ∃ b, u.queues[q] = { s.queues[q].fault 2 c.code a l.seq with owed := b } := State.queue_onQueue _ _ _
  have found : u.queues[q].list? id = some l := by rw [noted]; exact hl
  obtain ⟨hlaunches, hjobs, hfault, k, hlist, hnodes⟩ := State.completeNode_leaf found hn h0 h1 false
  rw [noted] at hfault
  obtain ⟨hkind, hcode, haddr, hseq⟩ := Queue.lastFault_iff.1 hfault
  refine ⟨u.completeNode q id a false, k, _, ?_, hlaunches.trans (State.onQueue_launches _ _ _), hjobs.trans (State.onQueue_jobs _ _ _),
    hkind, hcode, haddr, hseq, hlist, LaunchList.node?_of_nodes hn hnodes rfl, rfl⟩
  rw [versionWaitNodeComplete_eq hq hl hn hk hr, hw]

end

section
variable {s : State} {q : Fin 64} {l : LaunchList} {m : ListNode} (hm : m.kind = 3)
include hm

/-- A conditional node sends run on the edge that its predicate names, and skip on the other. -/
theorem State.runNode_conditional {d : List Byte} (hd : s.unitRead (unitOf q) (s.queueCtx q) 15 m.obj 4 = .ok d s) :
    (s.runNode q l m).1 = [(m.next0, leNat d != 0), (m.next1, leNat d == 0)] := by
  have other : (! (leNat d != 0)) = (leNat d == 0) := Bool.not_not _
  rw [State.runNode, hm, hd]
  exact congrArg (fun b => [(m.next0, leNat d != 0), (m.next1, b)]) other

/-- One whose predicate cannot be read sends skip on both, and the queue's status says why. -/
theorem State.runNode_faulted {c : Cause} (hd : s.unitRead (unitOf q) (s.queueCtx q) 15 m.obj 4 = .fault c) :
    ∃ t : State, s.runNode q l m = (m.sends false, t.onQueue q fun k => k.fault 2 c.code m.addr l.seq) := by
  rw [State.runNode, hm, hd]
  exact ⟨_, rfl⟩

end

theorem versionWaitNodesComplete : Claim.VersionWaitNodesComplete := by
  intro id a s q l n yes hq hl hn hk hr
  refine ⟨fun hw => ⟨fun hy => ?_, fun hy h0 h1 => ?_⟩, fun c =>
    ⟨fun hw h0 h1 => versionWaitNodeComplete_faulted hq hl hn hk hr hw h0 h1, fun m hm =>
      ⟨fun d hd => State.runNode_conditional hm hd, fun hd => ?_⟩⟩⟩
  · subst hy
    rw [versionWaitNodeComplete_eq hq hl hn hk hr, hw]
  · subst hy
    exact versionWaitNodeComplete_reached hq hl hn hk hr hw h0 h1
  · obtain ⟨t, ht⟩ := State.runNode_faulted (l := l) hm hd
    obtain ⟨b, hb⟩ := t.queue_onQueue q fun k => k.fault 2 c.code m.addr l.seq
    rw [ht]
    dsimp only
    rw [hb]
    exact ⟨rfl, rfl, rfl, rfl⟩

/-- Settles O43: a write of a status block leaves all but memory, the fabric and what is owed as it was, and nodes without successors end
the delivery of edges. -/
theorem queuesAndLaunches : Obligations.QueuesAndLaunches := by
  unfold Obligations.QueuesAndLaunches
  exact ⟨ringEntriesAreTaken, launchesStartTheirGangs, creditsFollowTheWeights, launchesComplete, versionWaitNodesComplete⟩

end Sys2Proof.Machine
end

section
/-! Settled here: O15, vector integer arithmetic, saturation and carry chains (R129, R228-R232). -/

namespace Sys2Proof.Machine

open Sys2Proof.Safety

/-! ### Results that are the same elements -/

theorem any_congr_mem {α : Type} {l : List α} {p q : α → Bool} (h : ∀ x ∈ l, p x = q x) : l.any p = l.any q := by
  rw [Bool.eq_iff_iff, List.any_eq_true, List.any_eq_true]
  exact exists_congr fun x => and_congr_right fun hx => by rw [h x hx]

/-- Results that agree in the bits an element holds, and in what they raise, are written alike. -/
theorem writesV_congr {d : Reg} {T : Tag} {act : List Nat} {f g : Nat → Nat × Raised} {s t : State}
    (hfg : ∀ e ∈ act, (f e).1 % 2 ^ tagWidth T = (g e).1 % 2 ^ tagWidth T ∧ (f e).2 = (g e).2) (h : WritesV d T act f s t) :
    WritesV d T act g s t := by
  obtain ⟨hframe, htag, hother, helem, hflags, hsat⟩ := h
  refine ⟨hframe, htag, hother, fun e he => ?_, fun k => ?_, ?_⟩
  · rw [helem e he]
    split
    next hm => exact (hfg e hm).1
    next => rfl
  · rw [hflags k, any_congr_mem fun e he => by rw [(hfg e he).2]]
  · rw [hsat, any_congr_mem fun e he => by rw [(hfg e he).2]]

/-- The two-operand skeleton, with the elements' meaning given modulo 2^w for operands of its tag. -/
theorem elementOp_of_mod {i : Instr} {d a m : Reg} {o : Src2} {accepts : Tag → Bool} {f g : Hart → Tag → Nat → Nat → Nat × Raised}
    (hfg : ∀ h t p q, p < 2 ^ tagWidth t → q < 2 ^ tagWidth t →
      (g h t p q).1 % 2 ^ tagWidth t = (f h t p q).1 % 2 ^ tagWidth t ∧ (g h t p q).2 = (f h t p q).2)
    (h : ∀ s, exec i s = s.vec2 d a o m accepts (g s.hart)) : ElementOp i d a o m accepts f := by
  obtain ⟨htag, hlen, hzero, hdone⟩ := elementOp_of (f := g) h
  refine ⟨htag, hlen, hzero, fun s hs => ?_⟩
  obtain ⟨t, ht, hp⟩ := hdone s hs
  obtain ⟨-, ho, -, -⟩ := hs
  refine ⟨t, ht, ?_⟩
  unfold ElementWise at hp ⊢
  split
  next hr => rwa [if_pos hr] at hp
  next hr =>
    rw [if_neg hr] at hp
    exact writesV_congr (fun e _ => hfg _ _ _ _ (elemOf_lt _ _ _) (Hart.src2_lt (Bool.and_eq_true_iff.1 ho).2 e)) hp

/-! ### Integer instructions (R228, R229, R231) -/

theorem wrap_eq_bitsOfInt (w : Nat) (i : Int) : wrap w i = Claim.bitsOfInt w i := BitVec.toNat_ofInt i

theorem bitsOfInt_natCast (w n : Nat) : Claim.bitsOfInt w n = n % 2 ^ w := by
  rw [Claim.bitsOfInt, ← Int.natCast_emod, Int.toNat_natCast]

theorem srarElem_eq (w p q : Nat) : srarElem w p q % 2 ^ w = Claim.bitsOfInt w
    (if q % w = 0 then sgn w p else (sgn w p + (2 ^ (q % w - 1) : Nat)) / (2 ^ (q % w) : Nat)) % 2 ^ w := by
  unfold srarElem vecShift
  dsimp only
  split
  next => rw [← wrap_eq_bitsOfInt, wrap_sgn, Nat.mod_mod]
  next => rw [wrap_eq_bitsOfInt]

theorem srlrElem_eq (w p q : Nat) : srlrElem w p q =
    (if q % w = 0 then (p : Int) else ((p : Int) + (2 ^ (q % w - 1) : Nat)) / (2 ^ (q % w) : Nat)).toNat := by
  unfold srlrElem vecShift
  dsimp only
  split
  next => rw [Int.toNat_natCast]
  next => rw [← Nat.cast_add, ← Int.natCast_ediv, Int.toNat_natCast]

theorem absdElem_eq (w p q : Nat) : absdElem w p q % 2 ^ w = Claim.bitsOfInt w
    (if sgn w p < sgn w q then sgn w q - sgn w p else sgn w p - sgn w q) % 2 ^ w := by
  have habs : (if sgn w p < sgn w q then sgn w q - sgn w p else sgn w p - sgn w q) = ((sgn w p - sgn w q).natAbs : Int) := by
    split <;> omega
  rw [habs, bitsOfInt_natCast, Nat.mod_mod, absdElem]

theorem bit_eq_testBit (x i : Nat) : bit x i = x.testBit i := by
  rw [bit, Nat.testBit_eq_decide_div_mod_eq]
  rfl

/-- An integer instruction on unsigned values means what agrees with it modulo 2^w. -/
theorem vecU_elementOp {i : Instr} {d a m : Reg} {o : Src2} {g f : Nat → Nat → Nat → Nat}
    (hgf : ∀ w p q, g w p q % 2 ^ w = f w p q % 2 ^ w) (h : ∀ s, exec i s = s.vecU d a o m g) :
    ElementOp i d a o m isIntTag fun _ t p q => (f (tagWidth t) p q, .none) :=
  elementOp_of_mod (g := fun _ t p q => (g (tagWidth t) p q % 2 ^ tagWidth t, .none))
    (fun _ _ _ _ _ _ => ⟨(Nat.mod_mod ..).trans (hgf ..), rfl⟩) h

/-- The forms with a vector and with a scalar as second operand. -/
theorem vecU_two {v vx : Instr} {d a b x m : Reg} {g f : Nat → Nat → Nat → Nat} (hgf : ∀ w p q, g w p q % 2 ^ w = f w p q % 2 ^ w)
    (hv : ∀ s, exec v s = s.vecU d a (.v b) m g) (hx : ∀ s, exec vx s = s.vecU d a (.x x) m g) :
    ElementOp v d a (.v b) m isIntTag (fun _ t p q => (f (tagWidth t) p q, .none)) ∧
    ElementOp vx d a (.x x) m isIntTag (fun _ t p q => (f (tagWidth t) p q, .none)) :=
  ⟨vecU_elementOp hgf hv, vecU_elementOp hgf hx⟩

/-- The forms with a vector, a scalar and an immediate. -/
theorem vecU_three {v vx vi : Instr} {d a b x m : Reg} {i : BitVec 5} {g f : Nat → Nat → Nat → Nat}
    (hgf : ∀ w p q, g w p q % 2 ^ w = f w p q % 2 ^ w) (hv : ∀ s, exec v s = s.vecU d a (.v b) m g)
    (hx : ∀ s, exec vx s = s.vecU d a (.x x) m g) (hi : ∀ s, exec vi s = s.vecU d a (.i i) m g) :
    (ElementOp v d a (.v b) m isIntTag (fun _ t p q => (f (tagWidth t) p q, .none)) ∧
      ElementOp vx d a (.x x) m isIntTag (fun _ t p q => (f (tagWidth t) p q, .none))) ∧
    ElementOp vi d a (.i i) m isIntTag (fun _ t p q => (f (tagWidth t) p q, .none)) :=
  ⟨vecU_two hgf hv hx, vecU_elementOp hgf hi⟩

/-- A bitwise instruction in its three forms. -/
theorem vecBitwise_elementOp {v vx vi : Instr} {d a b x m : Reg} {i : BitVec 5} {f : Nat → Nat → Nat}
    (hv : ∀ s, exec v s = s.vecBitwise d a (.v b) m f) (hx : ∀ s, exec vx s = s.vecBitwise d a (.x x) m f)
    (hi : ∀ s, exec vi s = s.vecBitwise d a (.i i) m f) (k : Src2) :
    ElementOp (match k with | .v _ => v | .x _ => vx | .i _ => vi) d a (match k with | .v _ => .v b | .x _ => .x x | .i _ => .i i) m
      (fun t => isIntTag t || t == .i16p) (fun _ _ p q => (f p q, .none)) := by
  cases k with
  | v => exact elementOp_of hv
  | x => exact elementOp_of hx
  | i => exact elementOp_of hi

theorem vectorIntegerArithmetic : Claim.VectorIntegerArithmetic := by
  intro d a b x m i
  have same : ∀ (g : Nat → Nat → Nat → Nat) w p q, g w p q % 2 ^ w = g w p q % 2 ^ w := fun _ _ _ _ => rfl
  have sra : ∀ w p q, sraElem w p q % 2 ^ w = Claim.bitsOfInt w (sgn w p / (2 ^ (q % w) : Nat)) % 2 ^ w :=
    fun w p q => by rw [sraElem, wrap_eq_bitsOfInt, vecShift]
  have mulh : ∀ w p q, mulhElem w p q % 2 ^ w = Claim.bitsOfInt w (sgn w p * sgn w q / (2 ^ w : Nat)) % 2 ^ w :=
    fun w p q => by rw [mulhElem, wrap_eq_bitsOfInt]
  have srlr := fun w p q => congrArg (· % 2 ^ w) (srlrElem_eq w p q)
  have popc : ∀ w p, popcElem w p = (List.range w).countP fun k => p.testBit k := fun w p => by
    unfold popcElem
    exact List.countP_congr fun k _ => by rw [bit_eq_testBit]
  refine ⟨vecBitwise_elementOp (fun _ => rfl) (fun _ => rfl) fun _ => rfl, vecBitwise_elementOp (fun _ => rfl) (fun _ => rfl) fun _ => rfl,
    vecBitwise_elementOp (fun _ => rfl) (fun _ => rfl) fun _ => rfl,
    vecU_three (same sllElem) (fun _ => rfl) (fun _ => rfl) fun _ => rfl,
    vecU_three (same srlElem) (fun _ => rfl) (fun _ => rfl) fun _ => rfl,
    vecU_three sra (fun _ => rfl) (fun _ => rfl) fun _ => rfl,
    vecU_three (same minuElem) (fun _ => rfl) (fun _ => rfl) fun _ => rfl,
    vecU_three (same maxuElem) (fun _ => rfl) (fun _ => rfl) fun _ => rfl,
    vecU_two mulh (fun _ => rfl) fun _ => rfl,
    vecU_two (same mulhuElem) (fun _ => rfl) fun _ => rfl,
    vecU_two absdElem_eq (fun _ => rfl) fun _ => rfl,
    vecU_three srarElem_eq (fun _ => rfl) (fun _ => rfl) fun _ => rfl,
    vecU_three srlr (fun _ => rfl) (fun _ => rfl) fun _ => rfl,
    elementOp_of fun _ => rfl,
    elementOp_of_lt (g := fun _ t p _ => (popcElem (tagWidth t) p, .none)) (fun _ _ _ _ _ _ => by rw [popc]) fun _ => rfl⟩

/-! ### Saturation (R129, R231, R232) -/

theorem clampTo_eq {lo hi : Int} (h : lo ≤ hi) (w : Nat) (i : Int) : clampTo w lo hi i = Claim.clampedTo w lo hi i := by
  have hc : max lo (min hi i) = if i < lo then lo else if hi < i then hi else i := by omega
  have hsat : (max lo (min hi i) ≠ i) = (i < lo ∨ hi < i) := propext (by omega)
  unfold clampTo Claim.clampedTo
  dsimp only
  rw [wrap_eq_bitsOfInt, ← hc]
  simp only [hsat]

theorem clampSigned_eq : clampSigned = Claim.clampedSigned := by
  funext w i
  have hpos : 0 < 2 ^ (w - 1) := by positivity
  exact clampTo_eq (by omega) w i

theorem clampUnsigned_eq : clampUnsigned = Claim.clampedUnsigned := by
  funext w i
  have hpos : 0 < 2 ^ w := by positivity
  exact clampTo_eq (by omega) w i

theorem sgn_mod (w x : Nat) : sgn w (x % 2 ^ w) = sgn w x := by
  rw [sgn, sgn]
  congr 1
  exact BitVec.eq_of_toNat_eq (by simp)

theorem saturatingArithmeticClampsAndSetsSatf : Claim.SaturatingArithmeticClampsAndSetsSatf := by
  intro d a b x m i
  dsimp only
  rw [← clampSigned_eq, ← clampUnsigned_eq]
  refine ⟨⟨elementOp_of fun _ => rfl, elementOp_of fun _ => rfl, elementOp_of fun _ => rfl⟩,
    ⟨elementOp_of fun _ => rfl, elementOp_of fun _ => rfl, elementOp_of fun _ => rfl⟩,
    ⟨elementOp_of fun _ => rfl, elementOp_of fun _ => rfl, elementOp_of fun _ => rfl⟩,
    ⟨elementOp_of fun _ => rfl, elementOp_of fun _ => rfl, elementOp_of fun _ => rfl⟩, ?_⟩
  have hdot : ∀ p q r : Nat, clampSigned 32 (Claim.signedOfBits 32 r + Claim.signedOfBits 16 (p % 65536) * Claim.signedOfBits 16 (q % 65536) +
      Claim.signedOfBits 16 (p / 65536) * Claim.signedOfBits 16 (q / 65536)) = dot2Elem r p q := fun p q r => by
    rw [dot2Elem, ← sgn_mod 16 p, ← sgn_mod 16 q]
    rfl
  simp only [hdot]
  refine judged_of (k := fun _ u => u.onHart fun h => h.elementWise d m .i32 fun e => dot2Elem (h.elem d e) (h.elem a e) (h.elem b e))
    (fun s => ?_) fun s => elementWise_writes s d m .i32 fun h e => dot2Elem (h.elem d e) (h.elem a e) (h.elem b e)
  have hok : decide (s.hart.tag a = .i16p ∧ s.hart.tag b = .i16p ∧ s.hart.tag d = .i32) =
      (s.hart.tag a == .i16p && s.hart.tag b == .i16p && s.hart.tag d == .i32) := by
    rw [Bool.eq_iff_iff]
    simp [and_assoc]
  rw [hok]
  rfl

/-! ### Carry chains (R230) -/

theorem Hart.getP_commit (h : Hart) (d r : Reg) (t : Tag) (l : List (Nat × (Nat × Raised))) : (h.commit d t l).getP r = h.getP r := by
  rw [h.commit_eq d t l]
  rfl

/-- A judged vector instruction whose effect is known where the judgement lets it pass. -/
theorem judged_of_ok {i : Instr} {ok : Hart → Bool} {most : Hart → Nat} {k : State → State → State} {post : State → State → Prop}
    (h : ∀ s, exec i s = s.vector (s.hart.judge (ok s.hart) false (most s.hart)) (k s))
    (hp : ∀ s, ok s.hart = true → s.hart.vlen ≤ most s.hart → s.hart.vlen ≠ 0 → post s (k s s)) : Judged i ok most post := by
  obtain ⟨htag, hlen, hzero, hdone⟩ := judged_of (post := fun s t => ok s.hart = true → s.hart.vlen ≤ most s.hart → s.hart.vlen ≠ 0 → post s t) h hp
  refine ⟨htag, hlen, hzero, fun s hs => ?_⟩
  obtain ⟨t, ht, hpost⟩ := hdone s hs
  obtain ⟨-, hok, hle, hpos⟩ := hs
  exact ⟨t, ht, hpost hok hle hpos⟩

/-- The elements of a run and a predicate's bits, written together. -/
def Hart.writeCarried (h : Hart) (d p : Reg) (t : Tag) (f : Nat → Nat × Bool) : Hart :=
  (h.commit d t (h.range.map fun e => (e, ((f e).1, .none)))).setP p (putBits (h.getP p) (h.range.map fun e => (e, (f e).2)))

theorem writeCarried_writes (s : State) (d p : Reg) (t : Tag) (f : Nat → Nat × Bool) : ∃ u,
    Claim.RunWrites d (fun _ => t) (·.range) (fun _ e => ((f e).1, .none)) s u ∧
      WritesP p s.hart.range (fun e => ((f e).2, .none)) u (s.onHart fun h => h.writeCarried d p t f) := by
  refine ⟨_, runWrites_commit s d t fun _ e => ((f e).1, .none), ?_⟩
  have hput := writesP_put (s.onHart fun h => h.commit d t (h.range.map fun e => (e, ((f e).1, .none)))) p s.hart.range
    (fun e => (f e).2) s.hart.nodup_range
  simpa only [State.onHart, Hart.writeCarried, Hart.getP_commit] using hput

/-- A carry chain, with its sum and its carry out given for operands of the tag. -/
theorem vecCarry_judged {i : Instr} {d a b p : Reg} {sum : Int → Int → Int → Int} {out : Nat → Int → Bool} {f : Nat → Nat → Nat → Nat → Nat × Bool}
    (hf : ∀ w x y c : Nat, x < 2 ^ w → y < 2 ^ w → c ≤ 1 → f w x y c = (wrap w (sum x y c), out w (sum x y c)))
    (h : ∀ s, exec i s = s.vecCarry d a b p sum out) :
    Judged i (fun h => isIntTag (h.tag a) && h.tag b == h.tag a) (fun h => tagMvl (h.tag a)) fun s t =>
      let r := fun e => f (tagWidth (s.hart.tag a)) (s.hart.elem a e) (s.hart.elem b e) ((s.hart.getP p).getLsbD e).toNat
      ∃ u, Claim.RunWrites d (·.tag a) (·.range) (fun _ e => ((r e).1, .none)) s u ∧
        WritesP p s.hart.range (fun e => ((r e).2, .none)) u t := by
  refine judged_of_ok (k := fun s u => u.onHart fun h => h.writeCarried d p (s.hart.tag a) fun e =>
    (wrap (tagWidth (s.hart.tag a)) (sum (h.elem a e) (h.elem b e) ((h.getP p).getLsbD e).toNat),
      out (tagWidth (s.hart.tag a)) (sum (h.elem a e) (h.elem b e) ((h.getP p).getLsbD e).toNat)))
    (fun s => by rw [h, State.vecCarry, State.vectorHart]; rfl) fun s hok _ _ => ?_
  have htag : s.hart.tag b = s.hart.tag a := beq_iff_eq.1 (Bool.and_eq_true_iff.1 hok).2
  have hr : ∀ e, f (tagWidth (s.hart.tag a)) (s.hart.elem a e) (s.hart.elem b e) ((s.hart.getP p).getLsbD e).toNat = _ := fun e =>
    hf _ _ _ _ (elemOf_lt _ _ _) (htag ▸ elemOf_lt _ _ _) (Bool.toNat_le _)
  simp only [hr]
  exact writeCarried_writes s d p (s.hart.tag a) fun e =>
    (wrap (tagWidth (s.hart.tag a)) (sum (s.hart.elem a e) (s.hart.elem b e) ((s.hart.getP p).getLsbD e).toNat),
      out (tagWidth (s.hart.tag a)) (sum (s.hart.elem a e) (s.hart.elem b e) ((s.hart.getP p).getLsbD e).toNat))

theorem vadc_carry {w x y c : Nat} : ((x + y + c) % 2 ^ w, decide (2 ^ w ≤ x + y + c)) =
    (wrap w ((x : Int) + y + c), decide (((2 ^ w : Nat) : Int) ≤ (x : Int) + y + c)) := by
  rw [wrap_eq_bitsOfInt, ← Nat.cast_add, ← Nat.cast_add, bitsOfInt_natCast]
  simp only [Nat.cast_le]

theorem vsbc_borrow {w x y c : Nat} (hy : y < 2 ^ w) (hc : c ≤ 1) : ((2 ^ w + x - y - c) % 2 ^ w, decide (x < y + c)) =
    (wrap w ((x : Int) - y - c), decide ((x : Int) - y - c < 0)) := by
  have hmod : (x : Int) - y - c ≡ (2 ^ w + x - y - c : Nat) [ZMOD (2 ^ w : Nat)] :=
    Int.modEq_iff_dvd.2 ⟨1, by omega⟩
  have hlt : (x < y + c) = ((x : Int) - y - c < 0) := propext (by omega)
  rw [wrap_eq_of_modEq hmod]
  simp only [hlt]

theorem carryChainsReadAndWriteThePredicate : Claim.CarryChainsReadAndWriteThePredicate := fun d a b p =>
  ⟨vecCarry_judged (i := .vadc d a b p) (sum := fun x y c => x + y + c) (out := fun w i => decide (((2 ^ w : Nat) : Int) ≤ i))
      (f := fun w x y c => ((x + y + c) % 2 ^ w, decide (2 ^ w ≤ x + y + c))) (fun _ _ _ _ _ _ _ => vadc_carry) fun _ => rfl,
    vecCarry_judged (i := .vsbc d a b p) (sum := fun x y c => x - y - c) (out := fun _ i => decide (i < 0))
      (f := fun w x y c => ((2 ^ w + x - y - c) % 2 ^ w, decide (x < y + c))) (fun _ _ _ _ _ hy hc => vsbc_borrow hy hc) fun _ => rfl⟩

/-- Settles O15, claim by claim. -/
theorem vectorIntegerArithmeticSaturationAndCarries : Obligations.VectorIntegerArithmeticSaturationAndCarries :=
  ⟨vectorIntegerArithmetic, saturatingArithmeticClampsAndSetsSatf, carryChainsReadAndWriteThePredicate⟩

end Sys2Proof.Machine
end

section
/-! Settled here: O16, vector floating point and compares (R125, R138, R233-R236). -/

namespace Sys2Proof.Machine

open Sys2Proof.Safety

/-! ### Floating point (R233-R235) -/

/-- A multiply-add form, whose addend is vd. -/
theorem vecFma_judged {i : Instr} {d a m : Reg} {o : Src2} {f : Fmt → Rounding → Val → Val → Val → Nat × Raised}
    (h : ∀ s, exec i s = s.vecFma d a o m fun k => f k s.hart.rounding) :
    Judged i (fun h => isFpTag (h.tag a) && h.sameTag (h.tag a) o && h.tag d == h.tag a) (fun h => tagMvl (h.tag a))
      (ElementWise d m (·.tag a) fun h e =>
        let k := tagFmt (h.tag a)
        f k h.rounding (k.decode (h.elem a e)) (k.decode (h.src2 (h.tag a) o e)) (k.decode (h.elem d e))) :=
  judged_of (k := fun s u => u.onHart fun h => h.elementWise d m (s.hart.tag a) fun e =>
      let k := tagFmt (s.hart.tag a)
      f k s.hart.rounding (k.decode (h.elem a e)) (k.decode (h.src2 (s.hart.tag a) o e)) (k.decode (h.elem d e)))
    (fun s => by rw [h, State.vecFma, State.vectorHart]) fun s => elementWise_writes s d m (s.hart.tag a) fun h e =>
      let k := tagFmt (s.hart.tag a)
      f k s.hart.rounding (k.decode (h.elem a e)) (k.decode (h.src2 (s.hart.tag a) o e)) (k.decode (h.elem d e))

/-- A multiply-add in both of its forms. -/
theorem vecFma_forms {v vx : Instr} {d a b x m : Reg} {f : Fmt → Rounding → Val → Val → Val → Nat × Raised}
    (hv : ∀ s, exec v s = s.vecFma d a (.v b) m fun k => f k s.hart.rounding)
    (hx : ∀ s, exec vx s = s.vecFma d a (.x x) m fun k => f k s.hart.rounding) (vector : Bool) :
    let o : Src2 := if vector then .v b else .x x
    Judged (if vector then v else vx) (fun h => isFpTag (h.tag a) && h.sameTag (h.tag a) o && h.tag d == h.tag a) (fun h => tagMvl (h.tag a))
      (ElementWise d m (·.tag a) fun h e =>
        let k := tagFmt (h.tag a)
        f k h.rounding (k.decode (h.elem a e)) (k.decode (h.src2 (h.tag a) o e)) (k.decode (h.elem d e))) := by
  cases vector with
  | true => exact vecFma_judged hv
  | false => exact vecFma_judged hx

theorem vclass_judged (d a m : Reg) : Judged (.vclass d a m) (fun h => isFpTag (h.tag a)) (fun h => tagMvl (h.tag a))
    (ElementWise d m (fun h => if h.tag a = .bf16 then .i16 else .i32) fun h e => (classOf (tagFmt (h.tag a)) (h.elem a e), .none)) := by
  refine judged_of (k := fun s u => u.onHart fun h => h.elementPure d m (if s.hart.tag a = .bf16 then .i16 else .i32) fun e =>
    classOf (tagFmt (s.hart.tag a)) (h.elem a e)) (fun s => ?_) fun s => ?_
  · change execVclass d a m s = _
    rw [execVclass, State.vectorHart]
  · exact elementWise_writes s d m (if s.hart.tag a = .bf16 then .i16 else .i32) fun h e =>
      (classOf (tagFmt (s.hart.tag a)) (h.elem a e), .none)

theorem vectorFloatingPoint : Claim.VectorFloatingPoint := fun _ _ _ _ _ =>
  ⟨vecFma_forms (f := fun k r p q c => k.fma r p q c) (fun _ => rfl) fun _ => rfl,
    vecFma_forms (f := fun k r p q c => k.fma r p q c.negate) (fun _ => rfl) fun _ => rfl,
    vecFma_forms (f := fun k r p q c => k.fma r p.negate q c) (fun _ => rfl) fun _ => rfl,
    elementOp_of fun _ => rfl, elementOp_of fun _ => rfl, elementOp_of fun _ => rfl, elementOp_of fun _ => rfl, elementOp_of fun _ => rfl,
    elementOp_of fun _ => rfl, elementOp_of fun _ => rfl, elementOp_of fun _ => rfl, vclass_judged _ _ _⟩

/-! ### Compares (R236) -/

/-- A write of predicate bits named once each, with exceptions raised. -/
theorem writesP_raise (s : State) (p : Reg) (act : List Nat) (f : Nat → Bool × Raised) (hn : act.Nodup) :
    WritesP p act f s (s.onHart fun h => (h.setP p (putBits (h.getP p) (act.map fun e => (e, (f e).1)))).raise
      ((act.map fun e => (e, f e)).foldl (fun r x => r.or x.2.2) .none)) := by
  obtain ⟨-, hother, hbits, -, -⟩ := writesP_put s p act (fun e => (f e).1) hn
  obtain ⟨hflags, hsat⟩ := foldl_or (act.map fun e => (e, (0, (f e).2))) .none
  have hraised : (act.map fun e => (e, f e)).foldl (fun r x => r.or x.2.2) Raised.none =
      (act.map fun e => (e, ((0 : Nat), (f e).2))).foldl (fun r x => r.or x.2.2) .none := by
    rw [List.foldl_map, List.foldl_map]
  rw [hraised]
  refine ⟨?_, hother, hbits, fun k => ?_, ?_⟩
  · rw [State.onHart, Hart.setP_eq]
    rfl
  · have hnone : Raised.none.bits = 0 := rfl
    simp only [State.onHart_hart, Hart.raise, Hart.setP_csr, BitVec.getLsbD_or, hflags k, hnone, List.any_map]
    simp [Function.comp_def]
  · simp only [State.onHart_hart, Hart.raise, Hart.setP_csr, hsat, List.any_map]
    simp [Function.comp_def, Raised.none]

/-- A compare, with its condition given for the tags it accepts. -/
theorem vecCompare_judged {i : Instr} {p a m : Reg} {o : Src2} {c : Cond} {ok : Tag → Bool} {f : Tag → Nat → Nat → Bool × Raised}
    (hok : condTag c = ok) (hf : ∀ t y z, ok t = true → compareElem c t y z = f t y z) (h : ∀ s, exec i s = s.vecCompare p a o m c) :
    Judged i (fun h => ok (h.tag a) && h.sameTag (h.tag a) o) (fun h => tagMvl (h.tag a)) fun s t =>
      WritesP p (s.hart.active m) (fun e => f (s.hart.tag a) (s.hart.elem a e) (s.hart.src2 (s.hart.tag a) o e)) s t := by
  subst hok
  refine judged_of_ok (k := fun s u => u.onHart fun h =>
      let l := (h.active m).map fun e => (e, compareElem c (s.hart.tag a) (h.elem a e) (h.src2 (s.hart.tag a) o e))
      (h.setP p (putBits (h.getP p) (l.map fun x => (x.1, x.2.1)))).raise (l.foldl (fun r x => r.or x.2.2) .none))
    (fun s => by rw [h, State.vecCompare, State.vectorHart]) fun s hok _ _ => ?_
  have hput := writesP_raise s p (s.hart.active m)
    (fun e => compareElem c (s.hart.tag a) (s.hart.elem a e) (s.hart.src2 (s.hart.tag a) o e)) (s.hart.nodup_active m)
  simpa only [State.onHart, List.map_map, Function.comp_def, hf _ _ _ (Bool.and_eq_true_iff.1 hok).1] using hput

/-- What a compare of two elements writes and raises, from the integer and the FP meaning of its condition. -/
def compared (fi : Nat → Nat → Nat → Bool) (ff : Val → Val → Bool) (loud : Bool) (t : Tag) (y z : Nat) : Bool × Raised :=
  if isFpTag t then
    let u := (tagFmt t).decode y
    let w := (tagFmt t).decode z
    (ff u w, { nv := if loud then u.isNan || w.isNan else u.isSignalling || w.isSignalling })
  else (fi (tagWidth t) y z, .none)

/-- A compare in both of its forms. -/
theorem vecCompare_forms {v vx : Instr} {p a b x m : Reg} {c : Cond} {ok : Tag → Bool} {fi : Nat → Nat → Nat → Bool} {ff : Val → Val → Bool}
    {loud : Bool} (hok : condTag c = ok) (hf : ∀ t y z, ok t = true → compareElem c t y z = compared fi ff loud t y z)
    (hv : ∀ s, exec v s = s.vecCompare p a (.v b) m c) (hx : ∀ s, exec vx s = s.vecCompare p a (.x x) m c) (vector : Bool) :
    let o : Src2 := if vector then .v b else .x x
    Judged (if vector then v else vx) (fun h => ok (h.tag a) && h.sameTag (h.tag a) o) (fun h => tagMvl (h.tag a)) fun s t =>
      WritesP p (s.hart.active m) (fun e => compared fi ff loud (s.hart.tag a) (s.hart.elem a e) (s.hart.src2 (s.hart.tag a) o e)) s t := by
  cases vector with
  | true => exact vecCompare_judged hok hf hv
  | false => exact vecCompare_judged hok hf hx

theorem condTagArith_eq : condTag.arithTagOf = fun t => decide (t ≠ .i16p) := by
  funext t
  cases t <;> rfl

theorem isFpTag_of_isIntTag {t : Tag} (h : isIntTag t = true) : isFpTag t = false := by
  revert h
  cases t <;> decide

theorem compareElem_eq (t : Tag) (y z : Nat) : compareElem .eq t y z = compared (fun _ y z => decide (y = z)) (fun u w => u.eq w) false t y z := rfl

theorem compareElem_ne (t : Tag) (y z : Nat) : compareElem .ne t y z = compared (fun _ y z => decide (y ≠ z)) (fun u w => ! u.eq w) false t y z := by
  have hne : (y != z) = decide (y ≠ z) := (decide_not (p := y = z)).symm
  rw [compareElem, compared, intCompare, hne]
  rfl

theorem compareElem_lt (t : Tag) (y z : Nat) : compareElem .lt t y z =
    compared (fun n y z => decide (Claim.signedOfBits n y < Claim.signedOfBits n z)) (fun u w => u.lt w) true t y z := rfl

theorem compareElem_le (t : Tag) (y z : Nat) : compareElem .le t y z =
    compared (fun n y z => decide (Claim.signedOfBits n y ≤ Claim.signedOfBits n z)) (fun u w => u.lt w || u.eq w) true t y z := rfl

/-- A condition that takes integer tags only. -/
theorem compareElem_int {c : Cond} {fi : Nat → Nat → Nat → Bool} (hi : ∀ w y z, intCompare c w y z = fi w y z) (ff : Val → Val → Bool) (loud : Bool)
    (t : Tag) (y z : Nat) (ht : isIntTag t = true) : compareElem c t y z = compared fi ff loud t y z := by
  rw [compareElem, compared, isFpTag_of_isIntTag ht]
  exact congrArg (·, Raised.none) (hi _ _ _)

theorem vectorComparesWriteAPredicate : Claim.VectorComparesWriteAPredicate := fun _ _ _ _ _ =>
  ⟨vecCompare_forms (c := .eq) condTagArith_eq (fun t y z _ => compareElem_eq t y z) (fun _ => rfl) fun _ => rfl,
    vecCompare_forms (c := .ne) condTagArith_eq (fun t y z _ => compareElem_ne t y z) (fun _ => rfl) fun _ => rfl,
    vecCompare_forms (c := .lt) condTagArith_eq (fun t y z _ => compareElem_lt t y z) (fun _ => rfl) fun _ => rfl,
    vecCompare_forms (c := .le) condTagArith_eq (fun t y z _ => compareElem_le t y z) (fun _ => rfl) fun _ => rfl,
    vecCompare_forms (c := .ltu) rfl (compareElem_int (fi := fun _ y z => decide (y < z)) (fun _ _ _ => rfl) (fun _ _ => false) true)
      (fun _ => rfl) fun _ => rfl,
    vecCompare_forms (c := .leu) rfl (compareElem_int (fi := fun _ y z => decide (y ≤ z)) (fun _ _ _ => rfl) (fun _ _ => false) true)
      (fun _ => rfl) fun _ => rfl,
    vecCompare_forms (c := .un) (fi := fun _ _ _ => false) (ff := fun u w => u.isNan || w.isNan) (loud := false) rfl
      (fun _ _ _ _ => rfl) (fun _ => rfl) fun _ => rfl⟩

/-- Settles O16, claim by claim. -/
theorem vectorFloatingPointAndCompares : Obligations.VectorFloatingPointAndCompares :=
  ⟨vectorFloatingPoint, vectorComparesWriteAPredicate⟩

end Sys2Proof.Machine
end

section
/-! Settled here: O17, an FP result that is a NaN is the canonical one (R126, R226, R233, R234). -/

namespace Sys2Proof.Machine

/-! ### What a rounding delivers is a number -/

/-- An encoding up to that of infinity, with a sign. -/
theorem Fmt.decode_withSign {k : Fmt} (hk : k = fp32 ∨ k = bf16) (neg : Bool) {b : Nat} (hb : b ≤ k.infBits) :
    (k.decode (k.withSign neg b)).isNan = false := by
  have hfield : bits (k.withSign neg b) (k.prec - 1) k.ebits = 2 ^ k.ebits - 1 → bits (k.withSign neg b) 0 (k.prec - 1) = 0 := by
    obtain rfl | rfl := hk <;> cases neg <;>
      simp only [bits, Fmt.withSign, Fmt.signBit, Fmt.width, Fmt.infBits, fp32, bf16] at hb ⊢ <;> simp at hb ⊢ <;> omega
  unfold Fmt.decode
  dsimp only
  split
  next hexp =>
    rw [if_pos (hfield hexp)]
    rfl
  next => split <;> rfl

theorem Fmt.decode_overflow {k : Fmt} (hk : k = fp32 ∨ k = bf16) (neg : Bool) (r : Rounding) : (k.decode (k.overflow neg r)).isNan = false := by
  have hle : ∀ toInf : Bool, (if toInf then k.infBits else k.infBits - 1) ≤ k.infBits := fun toInf => by
    split
    · exact le_rfl
    · exact Nat.sub_le _ _
  exact Fmt.decode_withSign hk neg (hle _)

theorem Fmt.decode_round {k : Fmt} (hk : k = fp32 ∨ k = bf16) (r : Rounding) (x : Exact) : (k.decode (k.round r x).1).isNan = false := by
  unfold Fmt.round
  split
  · exact Fmt.decode_withSign hk _ (Nat.zero_le _)
  · dsimp only
    generalize max (_ : Int) _ = q
    split
    next => exact Fmt.decode_overflow hk _ _
    next hlt => exact Fmt.decode_withSign hk _ (not_le.1 hlt).le

/-! ### The canonical NaN (R126) -/

/-- A result that is canonical where it is a NaN, and where an operand is one; a signalling operand raises NV. -/
def CanonicalNan (k : Fmt) (v : Nat × Raised) (ops : List Val) : Prop :=
  ((k.decode v.1).isNan = true → v.1 = k.nanBits) ∧ (ops.any (·.isSignalling) = true → v.1 = k.nanBits ∧ v.2.nv = true) ∧
    (ops.any (·.isNan) = true → v.1 = k.nanBits)

section
variable {k : Fmt} {ops : List Val}

theorem canonicalNan_invalid : CanonicalNan k k.invalid ops := ⟨fun _ => rfl, fun _ => ⟨rfl, rfl⟩, fun _ => rfl⟩

theorem canonicalNan_nanOf {sg : Bool} (h : ops.any (·.isSignalling) = sg) : CanonicalNan k (k.nanOf sg) ops :=
  ⟨fun _ => rfl, fun hs => ⟨rfl, h.symm.trans hs⟩, fun _ => rfl⟩

theorem Val.isNan_of_isSignalling {v : Val} (h : v.isSignalling = true) : v.isNan = true := by
  cases v with
  | nan => rfl
  | inf => cases h
  | fin => cases h

theorem canonicalNan_number {v : Nat × Raised} (hv : (k.decode v.1).isNan = false) (hops : ops.any (·.isNan) = false) : CanonicalNan k v ops := by
  refine ⟨fun h => absurd h (by rw [hv]; decide), fun h => ?_, fun h => absurd h (by rw [hops]; decide)⟩
  obtain ⟨x, hx, hs⟩ := List.any_eq_true.1 h
  exact absurd (List.any_eq_true.2 ⟨x, hx, Val.isNan_of_isSignalling hs⟩) (by rw [hops]; decide)

theorem CanonicalNan.of_any {v : Nat × Raised} {ops' : List Val} (h : CanonicalNan k v ops)
    (hs : ops'.any (·.isSignalling) = ops.any (·.isSignalling)) (hn : ops'.any (·.isNan) = ops.any (·.isNan)) : CanonicalNan k v ops' := by
  unfold CanonicalNan
  rw [hs, hn]
  exact h

end

/-! ### The operations -/

section
variable {k : Fmt} (hk : k = fp32 ∨ k = bf16) (r : Rounding)
include hk

theorem canonicalNan_deliver {v : Val} (hv : v.isNan = false) {ops : List Val} (hops : ops.any (·.isNan) = false) :
    CanonicalNan k (k.deliver r v) ops := by
  cases v with
  | nan => cases hv
  | inf n => exact canonicalNan_number (Fmt.decode_withSign hk n le_rfl) hops
  | fin x => exact canonicalNan_number (Fmt.decode_round hk r x) hops

theorem canonicalNan_add (a b : Val) : CanonicalNan k (k.add r a b) [a, b] := by
  have number : ∀ {v : Nat × Raised}, (k.decode v.1).isNan = false → a.isNan = false → b.isNan = false → CanonicalNan k v [a, b] :=
    fun hv ha hb => canonicalNan_number hv (by simp [ha, hb])
  cases a with
  | nan s => exact canonicalNan_nanOf (by simp [Val.isSignalling])
  | inf n =>
    cases b with
    | nan s => exact canonicalNan_nanOf (by simp [Val.isSignalling])
    | inf m =>
      unfold Fmt.add
      dsimp only
      split
      · exact number (Fmt.decode_withSign hk n le_rfl) rfl rfl
      · exact canonicalNan_invalid
    | fin y => exact number (Fmt.decode_withSign hk n le_rfl) rfl rfl
  | fin x =>
    cases b with
    | nan s => exact canonicalNan_nanOf (by simp [Val.isSignalling])
    | inf n => exact number (Fmt.decode_withSign hk n le_rfl) rfl rfl
    | fin y => exact number (Fmt.decode_round hk r _) rfl rfl

omit hk in
theorem Val.negate_isNan (v : Val) : v.negate.isNan = v.isNan := by cases v <;> rfl

omit hk in
theorem Val.negate_isSignalling (v : Val) : v.negate.isSignalling = v.isSignalling := by cases v <;> rfl

theorem canonicalNan_sub (a b : Val) : CanonicalNan k (k.sub r a b) [a, b] :=
  (canonicalNan_add hk r a b.negate).of_any (by simp [Val.negate_isSignalling]) (by simp [Val.negate_isNan])

omit hk in
/-- A product is a NaN, or a signalling one, where a factor is. -/
theorem Val.mul_nan {a b p : Val} (h : a.mul b = some p) :
    p.isNan = (a.isNan || b.isNan) ∧ p.isSignalling = (a.isSignalling || b.isSignalling) := by
  cases a with
  | nan s =>
    cases h
    exact ⟨rfl, rfl⟩
  | inf n =>
    cases b with
    | nan s => cases h; exact ⟨rfl, rfl⟩
    | inf m => cases h; exact ⟨rfl, rfl⟩
    | fin y =>
      unfold Val.mul at h
      dsimp only at h
      split at h
      · cases h
      · cases h; exact ⟨rfl, rfl⟩
  | fin x =>
    cases b with
    | nan s => cases h; exact ⟨rfl, rfl⟩
    | inf m =>
      unfold Val.mul at h
      dsimp only at h
      split at h
      · cases h
      · cases h; exact ⟨rfl, rfl⟩
    | fin y => cases h; exact ⟨rfl, rfl⟩

theorem canonicalNan_mul (a b : Val) : CanonicalNan k (k.mul r a b) [a, b] := by
  cases h : a.mul b with
  | none =>
    rw [Fmt.mul, h]
    exact canonicalNan_invalid
  | some p =>
    obtain ⟨hn, hs⟩ := Val.mul_nan h
    have hsig : [a, b].any (·.isSignalling) = p.isSignalling := by simp [hs]
    have hnan : [a, b].any (·.isNan) = p.isNan := by simp [hn]
    rw [Fmt.mul, h]
    cases p with
    | nan sg => exact canonicalNan_nanOf hsig
    | inf n => exact canonicalNan_deliver hk r (v := .inf n) rfl hnan
    | fin x => exact canonicalNan_deliver hk r (v := .fin x) rfl hnan

theorem canonicalNan_fma (a b c : Val) : CanonicalNan k (k.fma r a b c) [a, b, c] := by
  cases h : a.mul b with
  | none =>
    rw [Fmt.fma, h]
    exact canonicalNan_invalid
  | some p =>
    obtain ⟨hn, hs⟩ := Val.mul_nan h
    rw [Fmt.fma, h]
    exact (canonicalNan_add hk r p c).of_any (by simp [hs, Bool.or_assoc]) (by simp [hn, Bool.or_assoc])

theorem canonicalNan_div (a b : Val) : CanonicalNan k (k.div r a b) [a, b] := by
  have number : ∀ {v : Nat × Raised}, (k.decode v.1).isNan = false → a.isNan = false → b.isNan = false → CanonicalNan k v [a, b] :=
    fun hv ha hb => canonicalNan_number hv (by simp [ha, hb])
  cases a with
  | nan s => exact canonicalNan_nanOf (by simp [Val.isSignalling])
  | inf n =>
    cases b with
    | nan s => exact canonicalNan_nanOf (by simp [Val.isSignalling])
    | inf m => exact canonicalNan_invalid
    | fin y => exact number (Fmt.decode_withSign hk _ le_rfl) rfl rfl
  | fin x =>
    cases b with
    | nan s => exact canonicalNan_nanOf (by simp [Val.isSignalling])
    | inf n => exact number (Fmt.decode_withSign hk _ (Nat.zero_le _)) rfl rfl
    | fin y =>
      unfold Fmt.div
      dsimp only
      split
      · split
        · exact canonicalNan_invalid
        · exact number (Fmt.decode_withSign hk _ le_rfl) rfl rfl
      · exact number (Fmt.decode_round hk r _) rfl rfl

theorem canonicalNan_sqrt (a : Val) : CanonicalNan k (k.sqrt r a) [a] := by
  have number : ∀ {v : Nat × Raised}, (k.decode v.1).isNan = false → a.isNan = false → CanonicalNan k v [a] :=
    fun hv ha => canonicalNan_number hv (by simp [ha])
  cases a with
  | nan s => exact canonicalNan_nanOf (by simp [Val.isSignalling])
  | inf n =>
    cases n with
    | true => exact canonicalNan_invalid
    | false => exact number (Fmt.decode_withSign hk false le_rfl) rfl
  | fin x =>
    unfold Fmt.sqrt
    dsimp only
    split
    · exact number (Fmt.decode_withSign hk _ (Nat.zero_le _)) rfl
    · split
      · exact canonicalNan_invalid
      · exact number (Fmt.decode_round hk r _) rfl

end

/-- Settles O17, operation by operation. -/
theorem floatingResultsHaveTheCanonicalNan : Obligations.FloatingResultsHaveTheCanonicalNan := by
  unfold Obligations.FloatingResultsHaveTheCanonicalNan
  intro k r x y z hk
  exact ⟨canonicalNan_add hk r x y, canonicalNan_sub hk r x y, canonicalNan_mul hk r x y, canonicalNan_fma hk r x y z,
    canonicalNan_div hk r x y, canonicalNan_sqrt hk r x⟩

end Sys2Proof.Machine
end

section
/-! Settled here: O19, permutes, block scales, VIOTA and scalar moves (R127, R136, R139, R223, R241-R245, R251-R253). -/

namespace Sys2Proof.Machine

open Sys2Proof.Safety

/-! ### Writes of a whole register (R37, R223) -/

/-- The same elements named in another order. -/
theorem writesV_of_mem {d : Reg} {T : Tag} {act act' : List Nat} {f : Nat → Nat × Raised} {s t : State}
    (hmem : ∀ e, e ∈ act ↔ e ∈ act') (h : WritesV d T act f s t) : WritesV d T act' f s t := by
  obtain ⟨hframe, htag, hother, helem, hflags, hsat⟩ := h
  have hany : ∀ p : Nat → Bool, act.any p = act'.any p := fun p => by
    rw [Bool.eq_iff_iff, List.any_eq_true, List.any_eq_true]
    exact exists_congr fun e => and_congr_left fun _ => hmem e
  refine ⟨hframe, htag, hother, fun e he => ?_, fun k => by rw [hflags k, hany], by rw [hsat, hany]⟩
  rw [helem e he]
  simp only [hmem]

/-- A whole write of a list of elements named once each, with their exceptions. -/
theorem writesV_whole {s : State} {d : Reg} {T : Tag} {act : List Nat} {f : Nat → Nat × Raised} {l : List (Nat × (Nat × Raised))}
    (hn : (l.map (·.1)).Nodup) (hmem : ∀ e, e ∈ act ↔ e ∈ l.map (·.1)) (hf : ∀ x ∈ l, x.2 = f x.1) :
    WritesV d T act f s (s.onHart fun h => (h.whole d T (l.map fun x => (x.1, x.2.1))).raise (raisedOf l)) := by
  have hl : l = (l.map (·.1)).map fun e => (e, f e) := by
    rw [List.map_map]
    exact (List.map_id l).symm.trans (List.map_congr_left fun x hx => by rw [Function.comp_apply, ← hf x hx, id_eq])
  have hput := writesV_put s d T (l.map (·.1)) f hn
  rw [← hl] at hput
  refine writesV_of_mem (fun e => (hmem e).symm) ?_
  have hpairs : (l.map (·.1)).map (fun e => (e, (f e).1)) = l.map fun x => (x.1, x.2.1) := by
    rw [List.map_map]
    exact List.map_congr_left fun x hx => by rw [Function.comp_apply, ← hf x hx]
  rw [hpairs] at hput
  exact hput

/-! ### Permutes (R241-R244) -/

/-- A permute, with the elements it writes and what each takes. -/
theorem permute_judged {i : Instr} {d a m : Reg} {ok : Hart → Bool} {act : Hart → List Nat} {f : Hart → Nat → Option Nat} {g : Hart → Nat → Nat}
    (hi : ∀ s, exec i s = s.permute d a m (ok s.hart) f) (hn : ∀ h, (act h).Nodup)
    (hf : ∀ h, ((h.wholeActive m).filterMap fun e => (f h e).map fun x => (e, x)) = (act h).map fun e => (e, g h e)) :
    Judged i ok (fun h => tagMvl (h.tag a)) (WholeWrite d (·.tag a) act fun h e => (g h e, .none)) := by
  refine judged_of (k := fun s u => u.onHart fun h => h.whole d (s.hart.tag a)
    ((h.wholeActive m).filterMap fun e => (f h e).map fun x => (e, x))) (fun s => by rw [hi, State.permute, State.vectorHart]) fun s => ?_
  have hput := writesV_setV s d (s.hart.tag a) (act s.hart) (g s.hart) (hn s.hart)
  rw [State.onHart, ← hf s.hart] at hput
  exact hput

/-- A permute whose every active element takes a value. -/
theorem permute_some_judged {i : Instr} {d a m : Reg} {ok : Hart → Bool} {g : Hart → Nat → Nat}
    (hi : ∀ s, exec i s = s.permute d a m (ok s.hart) fun h e => some (g h e)) :
    Judged i ok (fun h => tagMvl (h.tag a)) (WholeWrite d (·.tag a) (·.wholeActive m) fun h e => (g h e, .none)) :=
  permute_judged hi (fun h => h.nodup_wholeActive m) fun _ => congrFun List.filterMap_eq_map' _

theorem vslideup_judged (d a x m : Reg) : Judged (.vslideup d a x m) (fun _ => true) (fun h => tagMvl (h.tag a))
    (WholeWrite d (·.tag a) (fun h => (h.wholeActive m).filter fun e => decide ((h.getX x).toNat ≤ e)) fun h e =>
      (h.elem a (e - (h.getX x).toNat), .none)) := by
  refine permute_judged (f := fun h e => if (h.getX x).toNat ≤ e then some (h.elem a (e - (h.getX x).toNat)) else none)
    (fun _ => rfl) (fun h => (h.nodup_wholeActive m).filter _) fun h => ?_
  rw [← List.filterMap_eq_map, List.filterMap_filter]
  refine List.filterMap_congr fun e _ => ?_
  by_cases he : (h.getX x).toNat ≤ e <;> simp [he]

/-- A whole instruction that puts a list of elements named once each, raising nothing. -/
theorem whole_judged {i : Instr} {d a : Reg} {ok : Hart → Bool} {most : Hart → Nat} {act : Hart → List Nat} {g : Hart → Nat → Nat}
    {l : Hart → List (Nat × Nat)} (hn : ∀ h, (act h).Nodup) (hl : ∀ h, l h = (act h).map fun e => (e, g h e))
    (hi : ∀ s, exec i s = s.vectorHart (s.hart.judge (ok s.hart) false (most s.hart)) fun h => h.whole d (s.hart.tag a) (l h)) :
    Judged i ok most (WholeWrite d (·.tag a) act fun h e => (g h e, .none)) := by
  refine judged_of (k := fun s u => u.onHart fun h => h.whole d (s.hart.tag a) (l h)) (fun s => by rw [hi, State.vectorHart]) fun s => ?_
  have hput := writesV_setV s d (s.hart.tag a) (act s.hart) (g s.hart) (hn s.hart)
  rw [State.onHart, ← hl s.hart] at hput
  exact hput

theorem positions_eq_map_getD (l : List Nat) : positions l = (List.range l.length).map fun e => (e, l.getD e 0) := by
  refine List.ext_getElem (by simp [positions]) fun k h1 h2 => ?_
  have hk : k < l.length := by simpa [positions] using h1
  simp [positions, hk]

/-- In an ascending list each item's position is the number of smaller ones. -/
theorem positions_eq_map_countP {l : List Nat} (hl : l.Pairwise (· < ·)) : positions l = l.map fun e => (l.countP fun q => decide (q < e), e) := by
  refine List.ext_getElem (by simp [positions]) fun k h1 h2 => ?_
  have hk : k < l.length := by simpa [positions] using h1
  have hlow : (l.take k).countP (fun q => decide (q < l[k])) = k := by
    rw [List.countP_eq_length.2 fun q hq => ?_, List.length_take, min_eq_left hk.le]
    obtain ⟨j, hj, rfl⟩ := List.mem_take_iff_getElem.1 hq
    exact decide_eq_true (List.pairwise_iff_getElem.1 hl _ _ _ hk (by omega))
  have hhigh : (l.drop k).countP (fun q => decide (q < l[k])) = 0 := by
    refine List.countP_eq_zero.2 fun q hq => ?_
    obtain ⟨j, hj, rfl⟩ := List.mem_drop_iff_getElem.1 hq
    rw [decide_eq_true_eq, not_lt]
    rcases Nat.eq_zero_or_pos j with rfl | hpos
    · exact le_rfl
    · exact (List.pairwise_iff_getElem.1 hl k (k + j) hk (by omega) (by omega)).le
  have hcount : l.countP (fun q => decide (q < l[k])) = k := by
    have happ := congrArg (List.countP fun q => decide (q < l[k])) (List.take_append_drop k l)
    rw [List.countP_append, hlow, hhigh] at happ
    exact happ.symm
  simp [positions, hcount]

theorem Hart.pairwise_wholeActive (h : Hart) (m : Reg) : (h.wholeActive m).Pairwise (· < ·) := List.pairwise_lt_range.filter _

theorem vcompress_judged (d a m : Reg) : Judged (.vcompress d a m) (fun _ => true) (fun h => tagMvl (h.tag a))
    (WholeWrite d (·.tag a) (fun h => List.range (h.wholeActive m).length) fun h e => (h.elem a ((h.wholeActive m).getD e 0), .none)) := by
  refine whole_judged (l := fun h => (positions (h.wholeActive m)).map fun x => (x.1, h.elem a x.2)) (fun _ => List.nodup_range)
    (fun h => ?_) fun _ => rfl
  rw [positions_eq_map_getD, List.map_map]
  rfl

theorem vexpand_judged (d a m : Reg) : Judged (.vexpand d a m) (fun _ => true) (fun h => tagMvl (h.tag a))
    (WholeWrite d (·.tag a) (·.wholeActive m) fun h e => (h.elem a ((h.wholeActive m).countP fun q => decide (q < e)), .none)) := by
  refine whole_judged (l := fun h => (positions (h.wholeActive m)).map fun x => (x.2, h.elem a x.1)) (fun h => h.nodup_wholeActive m)
    (fun h => ?_) fun _ => rfl
  rw [positions_eq_map_countP (h.pairwise_wholeActive m), List.map_map]
  rfl

theorem vgather_judged (d a b m : Reg) : Judged (.vgather d a b m) (fun h => isIntTag (h.tag b))
    (fun h => min (tagMvl (h.tag a)) (tagMvl (h.tag b)))
    (WholeWrite d (·.tag a) (·.wholeActive m) fun h e => (if h.elem b e < h.vlen then h.elem a (h.elem b e) else 0, .none)) :=
  whole_judged (fun h => h.nodup_wholeActive m) (fun _ => rfl) fun _ => rfl

/-! ### The Hadamard stage (R139, R245) -/

/-- The partner of an element at distance 2^k. -/
def hadPartner (k e : Nat) : Nat := if e.testBit k then e - 2 ^ k else e + 2 ^ k

/-- The elements that a stage writes from the lower ones of its pairs. -/
def hadPairs (k : Nat) (act : List Nat) (lo hi : Nat → Nat × Raised) : List (Nat × (Nat × Raised)) :=
  (act.filter fun e => ! bit e k && act.contains (e + 2 ^ k)).flatMap fun e => [(e, lo e), (e + 2 ^ k, hi (e + 2 ^ k))]

section
variable {k : Nat} {act : List Nat} {lo hi : Nat → Nat × Raised}

theorem testBit_add_partner (k e : Nat) : (e + 2 ^ k).testBit k = ! e.testBit k := by
  rw [Nat.add_comm, Nat.testBit_two_pow_add_eq]

/-- The lower elements of the pairs that a stage takes. -/
theorem mem_hadLows {e : Nat} : (e ∈ act.filter fun e => ! bit e k && act.contains (e + 2 ^ k)) ↔
    e ∈ act ∧ e.testBit k = false ∧ e + 2 ^ k ∈ act := by
  simp [bit_eq_testBit]

theorem mem_hadPairs {e : Nat} {y : Nat × Raised} : (e, y) ∈ hadPairs k act lo hi ↔
    (e ∈ act ∧ hadPartner k e ∈ act) ∧ y = if e.testBit k then hi e else lo e := by
  unfold hadPairs hadPartner
  rw [List.mem_flatMap]
  constructor
  · rintro ⟨z, hz, hx⟩
    obtain ⟨hin, hlow, hhigh⟩ := mem_hadLows.1 hz
    rw [List.mem_cons, List.mem_singleton] at hx
    obtain hx | hx := hx
    · cases hx
      simp [hin, hlow, hhigh]
    · cases hx
      simp [hin, hlow, hhigh, testBit_add_partner]
  · rintro ⟨⟨hin, hpartner⟩, rfl⟩
    by_cases hb : e.testBit k = true
    · have hle : e - 2 ^ k + 2 ^ k = e := Nat.sub_add_cancel (Nat.ge_two_pow_of_testBit hb)
      have hlow : (e - 2 ^ k).testBit k = false := by
        rw [← Bool.not_eq_true', ← testBit_add_partner, hle, hb]
      rw [if_pos hb] at hpartner
      exact ⟨e - 2 ^ k, mem_hadLows.2 ⟨hpartner, hlow, by rwa [hle]⟩, by simp [hle, hb]⟩
    · rw [if_neg hb] at hpartner
      exact ⟨e, mem_hadLows.2 ⟨hin, Bool.eq_false_iff.2 hb, hpartner⟩, by simp [hb]⟩

theorem hadPairs_nodup (h : act.Nodup) : ((hadPairs k act lo hi).map (·.1)).Nodup := by
  have hpos : 0 < 2 ^ k := by positivity
  unfold hadPairs
  rw [List.map_flatMap, List.nodup_flatMap]
  refine ⟨fun e _ => by simp, ((h.filter _).imp_of_mem ?_)⟩
  intro x y hx hy hne
  obtain ⟨-, hxl, -⟩ := mem_hadLows.1 hx
  obtain ⟨-, hyl, -⟩ := mem_hadLows.1 hy
  have hxy : x + 2 ^ k ≠ y := fun he => by
    rw [← he, testBit_add_partner, hxl] at hyl
    cases hyl
  have hyx : y + 2 ^ k ≠ x := fun he => by
    rw [← he, testBit_add_partner, hyl] at hxl
    cases hxl
  simp [Function.onFun, List.disjoint_left, hne, hxy, hyx.symm]

end

/-- What VHAD writes: the sum to the lower element of a pair, the difference to the higher. -/
def hadElem (h : Hart) (t : Tag) (a : Reg) (k e : Nat) : Nat × Raised :=
  if e.testBit k
  then Claim.byTag (fun w p q => p + 2 ^ w - q) (fun f r p q => f.sub r (f.decode p) (f.decode q)) h t (h.elem a (e - 2 ^ k)) (h.elem a e)
  else Claim.byTag (fun _ p q => p + q) (fun f r p q => f.add r (f.decode p) (f.decode q)) h t (h.elem a e) (h.elem a (e + 2 ^ k))

theorem vaddElem_eq_byTag (h : Hart) (t : Tag) (p q : Nat) : vaddElem h.rounding t p q =
    Claim.byTag (fun _ p q => p + q) (fun f r p q => f.add r (f.decode p) (f.decode q)) h t p q := by
  unfold vaddElem dual Claim.byTag
  split
  · rfl
  · rw [← wrap_add]

theorem vsubElem_eq_byTag (h : Hart) (t : Tag) {p q : Nat} (hq : q < 2 ^ tagWidth t) : vsubElem h.rounding t p q =
    Claim.byTag (fun w p q => p + 2 ^ w - q) (fun f r p q => f.sub r (f.decode p) (f.decode q)) h t p q := by
  unfold vsubElem dual Claim.byTag
  split
  · rfl
  · rw [← wrap_sub hq.le]

/-- The elements of the pairs below vl, as VHAD computes them. -/
theorem hadPairs_eq (h : Hart) (a : Reg) (k : Nat) (act : List Nat) {t : Tag} (ht : h.tag a = t) :
    hadPairs k act (hadElem h t a k) (hadElem h t a k) = (act.filter fun e => ! bit e k && act.contains (e + 2 ^ k)).flatMap fun e =>
      [(e, vaddElem h.rounding t (h.elem a e) (h.elem a (e + 2 ^ k))),
        (e + 2 ^ k, vsubElem h.rounding t (h.elem a e) (h.elem a (e + 2 ^ k)))] := by
  refine List.flatMap_congr fun e he => ?_
  obtain ⟨-, hlow, -⟩ := mem_hadLows.1 he
  have hhigh : (e + 2 ^ k).testBit k = true := by rw [testBit_add_partner, hlow, Bool.not_false]
  have hlt : h.elem a (e + 2 ^ k) < 2 ^ tagWidth t := ht ▸ elemOf_lt ..
  rw [hadElem, hadElem, hlow, hhigh, if_pos rfl, if_neg Bool.false_ne_true, Nat.add_sub_cancel, vaddElem_eq_byTag,
    vsubElem_eq_byTag _ _ hlt]

theorem vhad_judged (d a : Reg) (k : Fin 9) (m : Reg) : Judged (.vhad d a k m) (fun h => decide (h.tag a ≠ .i16p)) (fun h => tagMvl (h.tag a))
    fun s t => (tagMvl (s.hart.tag a) ≤ 2 ^ k.val → t = s) ∧
      (2 ^ k.val < tagMvl (s.hart.tag a) → (WholeWrite d (·.tag a) (fun h => (h.wholeActive m).filter fun e =>
        decide (hadPartner k.val e ∈ h.wholeActive m)) fun h e => hadElem h (h.tag a) a k.val e) s t) := by
  refine judged_of (k := fun s u => u.onHart fun h =>
      let l := ((h.wholeActive m).filter fun e => ! bit e k.val && (h.wholeActive m).contains (e + 2 ^ k.val)).flatMap fun e =>
        [(e, vaddElem h.rounding (s.hart.tag a) (h.elem a e) (h.elem a (e + 2 ^ k.val))),
          (e + 2 ^ k.val, vsubElem h.rounding (s.hart.tag a) (h.elem a e) (h.elem a (e + 2 ^ k.val)))]
      if tagMvl (s.hart.tag a) ≤ 2 ^ k.val then h else (h.whole d (s.hart.tag a) (l.map fun x => (x.1, x.2.1))).raise (raisedOf l))
    (fun s => ?_) fun s => ⟨fun hle => ?_, fun hlt => ?_⟩
  · change execVhad d a k m s = _
    rw [execVhad, State.vectorHart, arithTag_eq]
  · rw [State.onHart, if_pos hle]
  · rw [State.onHart, if_neg (not_le.2 hlt), ← hadPairs_eq s.hart a k.val (s.hart.wholeActive m) rfl]
    refine writesV_whole (hadPairs_nodup (s.hart.nodup_wholeActive m)) (fun e => ?_) fun ⟨e, y⟩ hx => ?_
    · rw [List.mem_filter, decide_eq_true_eq, List.mem_map]
      constructor
      · intro he
        exact ⟨(e, _), mem_hadPairs.2 ⟨he, rfl⟩, rfl⟩
      · rintro ⟨⟨e, y⟩, hx, rfl⟩
        exact (mem_hadPairs.1 hx).1
    · obtain ⟨-, hy⟩ := mem_hadPairs.1 hx
      rw [hy, ite_self]

theorem permutesMoveWholeElements : Claim.PermutesMoveWholeElements := fun d a b x m k =>
  ⟨permute_some_judged fun _ => rfl, permute_some_judged fun _ => rfl, vslideup_judged d a x m, permute_some_judged fun _ => rfl,
    permute_some_judged fun _ => rfl, permute_some_judged fun _ => rfl, permute_some_judged fun _ => rfl, vcompress_judged d a m,
    vexpand_judged d a m, vgather_judged d a b m, vhad_judged d a k m⟩

/-! ### Block scales (R127, R136, R251) -/

theorem elemValue_signalling (v : Val) : (v == .nan true) = v.isSignalling := by
  cases v with
  | nan s => cases s <;> decide
  | inf n => rfl
  | fin x => rfl

/-- An E8M0 code is a byte. -/
theorem blockCode_lt (q : QFmt) (l : List Val) : blockCode q l < 256 := by
  unfold blockCode
  dsimp only
  split
  · decide
  · split
    · decide
    · omega

theorem Raised.or_self (r : Raised) : r.or r = r := by
  cases r
  simp [Raised.or]

theorem Raised.none_or (r : Raised) : Raised.none.or r = r := by
  cases r
  simp [Raised.or, Raised.none]

theorem raisedOf_const {l : List Nat} (hl : l ≠ []) (f : Nat → Nat) (r : Raised) : raisedOf (l.map fun e => (e, (f e, r))) = r := by
  have hfold : ∀ l : List Nat, (l.map fun e => (e, (f e, r))).foldl (fun a x => a.or x.2.2) r = r := fun l => by
    induction l with
    | nil => rfl
    | cons e l ih => rwa [List.map_cons, List.foldl_cons, Raised.or_self]
  cases l with
  | nil => exact absurd rfl hl
  | cons e l =>
    rw [raisedOf, List.map_cons, List.foldl_cons, Raised.none_or]
    exact hfold l

/-- A whole write of some element, after exceptions have been raised. -/
theorem writesV_raised {s : State} {d : Reg} {T : Tag} {act : List Nat} {f : Nat → Nat} {r : Raised} (hn : act.Nodup) (ha : act ≠ []) :
    WritesV d T act (fun e => (f e, r)) s (s.onHart fun h => (h.raise r).whole d T (act.map fun e => (e, f e))) := by
  have hput := writesV_put s d T act (fun e => (f e, r)) hn
  rw [raisedOf_const ha] at hput
  exact hput

/-- The code of block j below vl, and 0 from there on (R251). -/
def scaleCode (f : QFmt) (h : Hart) (t : Tag) (a m : Reg) (j : Nat) : Nat :=
  if j < (h.vlen + 31) / 32 then
    blockCode f (((h.wholeActive m).filter fun e => e / 32 == j).map fun e => elemValue t (h.elem a e))
  else 0

/-- Four codes in a word (R251). -/
def scaleWord (c : Nat → Nat) (i : Nat) : Nat := c (4 * i) + c (4 * i + 1) * 2 ^ 8 + c (4 * i + 2) * 2 ^ 16 + c (4 * i + 3) * 2 ^ 24

theorem scaleCode_lt (f : QFmt) (h : Hart) (t : Tag) (a m : Reg) (j : Nat) : scaleCode f h t a m j < 256 := by
  unfold scaleCode
  split
  · exact blockCode_lt _ _
  · decide

theorem blockScalesAreWrittenFourToAWord : Claim.BlockScalesAreWrittenFourToAWord := by
  intro d a m f
  refine judged_of_ok (k := fun s u => u.onHart fun h =>
      (h.raise { nv := (h.wholeActive m).any fun e => elemValue (s.hart.tag a) (h.elem a e) == .nan true }).whole d .i32
        ((List.range (((h.vlen + 31) / 32 + 3) / 4)).map fun i => (i, scaleWord (scaleCode f h (s.hart.tag a) a m) i)))
    (fun s => ?_) fun s _ _ hpos => ⟨scaleCode f s.hart (s.hart.tag a) a m, fun j hj => ?_, fun j hj => ?_, scaleCode_lt f s.hart _ a m, ?_⟩
  · change execVqscale d a f m s = _
    have hok : (s.hart.tag a != .i64 && s.hart.tag a != .i16p) = decide (s.hart.tag a ≠ .i64 ∧ s.hart.tag a ≠ .i16p) := by
      cases s.hart.tag a <;> rfl
    rw [execVqscale, State.vectorHart, hok]
    simp only [scaleWord, scaleCode]
  · exact if_neg (not_lt.2 hj)
  · exact if_pos hj
  · have hne : List.range (((s.hart.vlen + 31) / 32 + 3) / 4) ≠ [] := by
      rw [ne_eq, List.range_eq_nil]
      omega
    have hput := writesV_raised (s := s) (d := d) (T := .i32) (f := scaleWord (scaleCode f s.hart (s.hart.tag a) a m))
      (r := { nv := (s.hart.wholeActive m).any fun e => (elemValue (s.hart.tag a) (s.hart.elem a e)).isSignalling }) List.nodup_range hne
    simp only [State.onHart, elemValue_signalling, scaleWord] at hput ⊢
    exact hput

/-! ### VIOTA and scalar moves (R252, R253) -/

theorem Hart.widthTag_eq (h : Hart) : h.widthTag = if h.csr.width = 0 then .i16 else if h.csr.width = 1 then .i32 else .i64 := by
  unfold Hart.widthTag
  generalize h.csr.width = w
  revert w
  decide

theorem viota_judged (d m : Reg) : Judged (.viota d m) (fun _ => true) (fun h => tagMvl h.widthTag)
    (WholeWrite d Hart.widthTag (fun h => List.range h.vlen) fun h e => ((List.range e).countP fun j => (h.getP m).getLsbD j, .none)) := by
  refine judged_of (k := fun s u => u.onHart fun h => h.whole d s.hart.widthTag
    ((List.range h.vlen).map fun e => (e, (List.range e).countP fun j => (h.getP m).getLsbD j))) (fun s => ?_) fun s => ?_
  · change execViota d m s = _
    rw [execViota, State.vectorHart]
  · exact writesV_setV s d s.hart.widthTag _ (fun e => (List.range e).countP fun j => (s.hart.getP m).getLsbD j) List.nodup_range

theorem vmvxs_completes (d a i m : Reg) : Completes (.vmvxs d a i m) (fun s => OnStrand s ∧ s.hart.vlen ≠ 0) (WritesX d fun h =>
    if isFpTag (h.tag a) then BitVec.ofNat 64 (h.elem a i.val)
    else BitVec.ofInt 64 (Claim.signedOfBits (tagWidth (h.tag a)) (h.elem a i.val))) := by
  rintro s ⟨hs, hpos⟩
  refine ⟨_, ?_, writesX_setX s d _⟩
  change execVmvxs d a i m s = _
  rw [execVmvxs, State.vectorHart, State.vector_next _ _ hs hpos]
  rfl

theorem vmvsx_judged (d x m : Reg) : Judged (.vmvsx d x m) (fun _ => true) (fun h => tagMvl (h.tag d)) fun s t =>
    if 0 ∈ s.hart.active m
    then WritesV d (s.hart.tag d) [0] (fun _ => ((s.hart.getX x).toNat % 2 ^ tagWidth (s.hart.tag d), .none)) s t
    else t = s := by
  refine judged_of (k := fun s u => u.onHart fun h =>
    if (h.active m).contains 0 then h.whole d (s.hart.tag d) [(0, h.scalar x (s.hart.tag d))] else h) (fun s => ?_) fun s => ?_
  · change execVmvsx d x m s = _
    rw [execVmvsx, State.vectorHart]
  · simp only [State.onHart, List.contains_iff_mem]
    split
    · exact writesV_setV s d (s.hart.tag d) [0] (fun _ => s.hart.scalar x (s.hart.tag d)) (List.nodup_singleton 0)
    · rfl

theorem iotaAndScalarMoves : Claim.IotaAndScalarMoves := by
  intro d a i m x
  dsimp only
  simp only [← Hart.widthTag_eq]
  exact ⟨viota_judged d m, vmvxs_completes d a i m, vmvsx_judged d x m⟩

/-- Settles O19, claim by claim. -/
theorem permutesScalesAndScalarMoves : Obligations.PermutesScalesAndScalarMoves :=
  ⟨permutesMoveWholeElements, blockScalesAreWrittenFourToAWord, iotaAndScalarMoves⟩

end Sys2Proof.Machine
end

section
/-! Settled here: O20, reductions and scans (R145, R146, R149, R246, R247). -/

namespace Sys2Proof.Machine

open Sys2Proof.Safety

/-! ### Exceptions together -/

theorem Raised.or_none (r : Raised) : r.or .none = r := by
  cases r
  simp [Raised.or, Raised.none]

theorem Raised.or_assoc (p q r : Raised) : (p.or q).or r = p.or (q.or r) := by
  simp only [Raised.or, Bool.or_assoc]

theorem Raised.or_comm (p q : Raised) : p.or q = q.or p := by
  simp only [Raised.or, Bool.or_comm]

/-! ### Ordered reductions (R145, R246) -/

theorem vmaxElem_eq_byTag (h : Hart) (t : Tag) (p q : Nat) : vmaxElem t p q =
    Claim.byTag (fun w p q => if Claim.signedOfBits w p < Claim.signedOfBits w q then q else p) (fun k _ p q => k.minmax true p q) h t p q := by
  unfold vmaxElem dual Claim.byTag
  split
  · rfl
  · exact congrArg (·, Raised.none) (wrap_max ..)

theorem vminElem_eq_byTag (h : Hart) (t : Tag) (p q : Nat) : vminElem t p q =
    Claim.byTag (fun w p q => if Claim.signedOfBits w q < Claim.signedOfBits w p then q else p) (fun k _ p q => k.minmax false p q) h t p q := by
  unfold vminElem dual Claim.byTag
  split
  · rfl
  · exact congrArg (·, Raised.none) (wrap_min ..)

/-- The operands `g e` of elements taken one after another, with the exceptions of each step. -/
def foldedFrom (f : Nat → Nat → Nat × Raised) (g : Nat → Nat) (init : Nat × Raised) (l : List Nat) : Nat × Raised :=
  l.foldl (fun acc e => stepElem f acc (g e)) init

theorem Hart.foldl_operands (h : Hart) (a m : Reg) (f : Nat → Nat → Nat × Raised) (init : Nat × Raised) :
    (h.operands a m).foldl (stepElem f) init = foldedFrom f (h.elem a) init (h.wholeActive m) := List.foldl_map ..

/-- A whole write of element 0 alone. -/
theorem writesV_first (s : State) (d : Reg) (T : Tag) (v : Nat × Raised) :
    WritesV d T [0] (fun _ => v) s (s.onHart fun h => (h.whole d T [(0, v.1)]).raise v.2) := by
  have hput := writesV_whole (s := s) (d := d) (T := T) (act := [0]) (f := fun _ => v) (l := [(0, v)]) (List.nodup_singleton 0)
    (fun _ => Iff.rfl) fun x hx => by rw [List.mem_singleton.1 hx]
  rwa [raisedOf, List.foldl_cons, List.foldl_nil, Raised.none_or] at hput

/-- An ordered reduction, with the meaning of a step. -/
theorem reduceOrdered_judged {i : Instr} {d a b m : Reg} {f : Hart → Tag → Nat → Nat → Nat × Raised}
    (hi : ∀ s, exec i s = s.reduceOrdered d a b m (f s.hart)) :
    Judged i (fun h => decide (h.tag a ≠ .i16p) && h.tag b == h.tag a) (fun h => tagMvl (h.tag a))
      (WholeWrite d (·.tag a) (fun _ => [0]) fun h _ =>
        foldedFrom (f h (h.tag a)) (h.elem a) (canonElem (h.tag a) (h.elem b 0)) (h.wholeActive m)) := by
  refine judged_of (k := fun s u => u.onHart fun h =>
      let r := (h.operands a m).foldl (stepElem (f s.hart (h.tag a))) (canonElem (h.tag a) (h.elem b 0))
      (h.whole d (h.tag a) [(0, r.1)]).raise r.2) (fun s => ?_) fun s => ?_
  · rw [hi, State.reduceOrdered, State.reduction, arithTag_eq]
  · have hput := writesV_first s d (s.hart.tag a)
      (foldedFrom (f s.hart (s.hart.tag a)) (s.hart.elem a) (canonElem (s.hart.tag a) (s.hart.elem b 0)) (s.hart.wholeActive m))
    simp only [State.onHart, Hart.foldl_operands] at hput ⊢
    exact hput

/-- The value of a fold does not depend on the exceptions. -/
theorem foldedFrom_fst (f : Nat → Nat → Nat × Raised) (g : Nat → Nat) (init : Nat × Raised) (l : List Nat) :
    (foldedFrom f g init l).1 = l.foldl (fun acc e => (f acc (g e)).1) init.1 := by
  induction l generalizing init with
  | nil => rfl
  | cons e l ih => exact ih (stepElem f init (g e))

/-! ### The ordered scan (R247) -/

theorem filter_lt_cons_self {e : Nat} {l : List Nat} (h : (e :: l).Pairwise (· < ·)) : (e :: l).filter (fun q => decide (q < e)) = [] := by
  obtain ⟨hhead, -⟩ := List.pairwise_cons.1 h
  refine List.filter_eq_nil_iff.2 fun q hq => ?_
  rw [decide_eq_true_eq, not_lt]
  rcases List.mem_cons.1 hq with rfl | hq
  · exact le_rfl
  · exact (hhead q hq).le

/-- Each partial sum of a scan over an ascending list adds an element to the fold of those below it. -/
theorem scanElems_eq (f : Nat → Nat → Nat × Raised) (g : Nat → Nat) : ∀ {l : List Nat} (acc : Nat), l.Pairwise (· < ·) →
    scanElems f acc (l.map fun e => (e, g e)) =
      l.map fun e => (e, f ((l.filter fun q => decide (q < e)).foldl (fun acc q => (f acc (g q)).1) acc) (g e))
  | [], _, _ => rfl
  | e :: l, acc, h => by
    obtain ⟨hhead, htail⟩ := List.pairwise_cons.1 h
    rw [List.map_cons, scanElems, scanElems_eq f g _ htail, List.map_cons, filter_lt_cons_self h]
    refine congrArg _ (List.map_congr_left fun q hq => ?_)
    rw [List.filter_cons_of_pos (by simpa using hhead q hq), List.foldl_cons]

theorem vscan_judged (d a b m : Reg) : Judged (.vscan d a b m) (fun h => decide (h.tag a ≠ .i16p) && h.tag b == h.tag a)
    (fun h => tagMvl (h.tag a)) (WholeWrite d (·.tag a) (·.wholeActive m) fun h e => vaddElem h.rounding (h.tag a)
      (foldedFrom (vaddElem h.rounding (h.tag a)) (h.elem a) (h.elem b 0, .none) ((h.wholeActive m).filter fun q => decide (q < e))).1
      (h.elem a e)) := by
  refine judged_of (k := fun s u => u.onHart fun h =>
      let l := scanElems (vaddElem h.rounding (h.tag a)) (h.elem b 0) ((h.wholeActive m).map fun e => (e, h.elem a e))
      (h.whole d (h.tag a) (l.map fun x => (x.1, x.2.1))).raise (raisedOf l)) (fun s => ?_) fun s => ?_
  · change execVscan d a b m s = _
    rw [execVscan, State.reduction, arithTag_eq]
  · have hput := writesV_put s d (s.hart.tag a) (s.hart.wholeActive m) (fun e => vaddElem s.hart.rounding (s.hart.tag a)
      (foldedFrom (vaddElem s.hart.rounding (s.hart.tag a)) (s.hart.elem a) (s.hart.elem b 0, .none)
        ((s.hart.wholeActive m).filter fun q => decide (q < e))).1 (s.hart.elem a e)) (s.hart.nodup_wholeActive m)
    simp only [State.onHart, scanElems_eq _ _ _ (s.hart.pairwise_wholeActive m), List.map_map, Function.comp_def]
    simp only [foldedFrom_fst, State.onHart] at hput
    unfold WholeWrite
    simp only [foldedFrom_fst]
    exact hput

theorem orderedReductionsAndScans : Claim.OrderedReductionsAndScans := by
  intro d a b m
  have add : ∀ h : Hart, vaddElem h.rounding = Claim.byTag (fun _ p q => p + q) (fun f r p q => f.add r (f.decode p) (f.decode q)) h :=
    fun h => funext fun t => funext fun p => funext fun q => vaddElem_eq_byTag h t p q
  have max : ∀ h : Hart, vmaxElem = Claim.byTag (fun w p q => if Claim.signedOfBits w p < Claim.signedOfBits w q then q else p)
      (fun k _ p q => k.minmax true p q) h := fun h => funext fun t => funext fun p => funext fun q => vmaxElem_eq_byTag h t p q
  have min : ∀ h : Hart, vminElem = Claim.byTag (fun w p q => if Claim.signedOfBits w q < Claim.signedOfBits w p then q else p)
      (fun k _ p q => k.minmax false p q) h := fun h => funext fun t => funext fun p => funext fun q => vminElem_eq_byTag h t p q
  have scan := vscan_judged d a b m
  simp only [add] at scan
  exact ⟨reduceOrdered_judged fun s => by rw [← add]; rfl, reduceOrdered_judged fun s => by rw [← max]; rfl,
    reduceOrdered_judged fun s => by rw [← min]; rfl, scan⟩

/-! ### Sums over a free bracketing (R146) -/

section
variable {f : Nat → Nat → Nat × Raised} {l m : List Nat} {v x : Nat} {p q : Raised}

theorem bracketed_perm (h : Bracketed f l v p) (hl : l.Perm m) : Bracketed f m v p := by
  cases h with
  | one =>
    rw [List.perm_singleton.1 hl.symm]
    exact .one v
  | add hsplit h1 h2 => exact .add (hl.symm.trans hsplit) h1 h2

/-- A bracketing in which an operand is itself a bracketed sum. -/
theorem bracketed_substitute {lx : List Nat} (hx : Bracketed f lx x q) (h : Bracketed f l v p) : ∀ {m : List Nat}, l.Perm (x :: m) →
    Bracketed f (lx ++ m) v (p.or q) := by
  induction h with
  | one y =>
    intro m hm
    obtain ⟨rfl, rfl⟩ := List.cons.inj (List.singleton_perm.1 hm).symm
    rwa [List.append_nil, Raised.none_or]
  | @add l l1 l2 y z r r' hsplit h1 h2 ih1 ih2 =>
    intro m hm
    rcases List.mem_append.1 (hsplit.subset (hm.symm.subset List.mem_cons_self)) with hin | hin
    · have hperm := List.perm_cons_erase hin
      have hrest : m.Perm (l1.erase x ++ l2) :=
        ((hm.symm.trans hsplit).trans (hperm.append_right l2)).cons_inv
      have hexc : ((r.or q).or r').or (f y z).2 = ((r.or r').or (f y z).2).or q := by
        rw [Raised.or_assoc, Raised.or_assoc, Raised.or_assoc, Raised.or_assoc, Raised.or_comm q, Raised.or_assoc]
      rw [← hexc]
      exact .add ((hrest.append_left lx).trans (by rw [List.append_assoc])) (ih1 hperm) h2
    · have hperm := List.perm_cons_erase hin
      have hrest : m.Perm (l1 ++ l2.erase x) :=
        (((hm.symm.trans hsplit).trans (hperm.append_left l1)).trans List.perm_middle).cons_inv
      have hexc : (r.or (r'.or q)).or (f y z).2 = ((r.or r').or (f y z).2).or q := by
        rw [Raised.or_assoc, Raised.or_assoc, Raised.or_assoc, Raised.or_assoc, Raised.or_comm q]
      rw [← hexc]
      refine .add ((hrest.append_left lx).trans ?_) h1 (ih2 hperm)
      rw [← List.append_assoc, ← List.append_assoc]
      exact List.perm_append_comm.append_right _

end

/-- A sum of operands over a free bracketing. -/
theorem State.sumFree_bracketed (f : Nat → Nat → Nat × Raised) : ∀ {n : Nat} {l : List Nat} {r : Raised} {s : State}, l.length = n + 1 →
    ∃ v p d, s.sumFree f n l r = ((v, r.or p), { s with draws := d }) ∧ s.draws ≤ d ∧ Bracketed f l v p
  | 0, l, r, s, hl => by
    obtain ⟨x, rfl⟩ := List.length_eq_one_iff.1 hl
    exact ⟨x, .none, s.draws, by rw [Raised.or_none]; rfl, le_rfl, .one x⟩
  | n + 1, l, r, s, hl => by
    have hi : Config.free s.draws % l.length < l.length := Nat.mod_lt _ (by omega)
    set i := Config.free s.draws % l.length
    have hrest : (l.eraseIdx i).length = n + 1 := by rw [List.length_eraseIdx_of_lt hi, hl, Nat.add_sub_cancel]
    have hj : Config.free s.draws / l.length % (l.eraseIdx i).length < (l.eraseIdx i).length := Nat.mod_lt _ (by omega)
    set j := Config.free s.draws / l.length % (l.eraseIdx i).length
    have hlast : ((l.eraseIdx i).eraseIdx j).length = n := by rw [List.length_eraseIdx_of_lt hj, hrest, Nat.add_sub_cancel]
    set x := f l[i] (l.eraseIdx i)[j]
    obtain ⟨v, p, d, heq, hd, hv⟩ := State.sumFree_bracketed f (l := x.1 :: (l.eraseIdx i).eraseIdx j) (r := r.or x.2)
      (s := { s with draws := s.draws + 1 }) (by rw [List.length_cons, hlast])
    have hperm : l.Perm ([l[i], (l.eraseIdx i)[j]] ++ (l.eraseIdx i).eraseIdx j) :=
      ((List.getElem_cons_eraseIdx_perm hj).cons l[i]).trans (List.getElem_cons_eraseIdx_perm hi) |>.symm
    have hpair : Bracketed f [l[i], (l.eraseIdx i)[j]] x.1 x.2 := by
      have h := Bracketed.add (f := f) (List.Perm.refl ([l[i]] ++ [(l.eraseIdx i)[j]])) (.one _) (.one _)
      rwa [Raised.none_or, Raised.none_or] at h
    refine ⟨v, p.or x.2, d, ?_, (Nat.le_succ _).trans hd, bracketed_perm (bracketed_substitute hpair hv (.refl _)) hperm.symm⟩
    rw [Raised.or_comm p, ← Raised.or_assoc, State.sumFree]
    simp only [State.draw]
    rw [List.getD_eq_getElem _ _ hi, List.getD_eq_getElem _ _ hj]
    exact heq

/-- What an unordered sum of an initial value and operands may be: for integers the sum modulo 2^w, for FP elements a sum over some
bracketing (R146). -/
def UnorderedSum (t : Tag) (f : Nat → Nat → Nat × Raised) (init : Nat) (l : List Nat) (x : Nat × Raised) : Prop :=
  (isIntTag t = true → x = ((init + l.sum) % 2 ^ tagWidth t, .none)) ∧
    (isFpTag t = true → ∃ p, x.2 = (canonElem t init).2.or p ∧ Bracketed f ((canonElem t init).1 :: l) x.1 p)

theorem vaddElem_int {t : Tag} (ht : isFpTag t = false) (r : Rounding) (x y : Nat) : vaddElem r t x y = ((x + y) % 2 ^ tagWidth t, .none) := by
  unfold vaddElem dual
  rw [ht, if_neg Bool.false_ne_true]
  exact congrArg (·, Raised.none) (wrap_add ..)

/-- An integer sum taken in order. -/
theorem foldl_vaddElem_int {t : Tag} (ht : isFpTag t = false) (r : Rounding) : ∀ {l : List Nat} {init : Nat}, init < 2 ^ tagWidth t →
    l.foldl (stepElem (vaddElem r t)) (init, .none) = ((init + l.sum) % 2 ^ tagWidth t, .none)
  | [], init, h => by rw [List.foldl_nil, List.sum_nil, Nat.add_zero, Nat.mod_eq_of_lt h]
  | x :: l, init, h => by
    rw [List.foldl_cons, stepElem, vaddElem_int ht]
    refine (foldl_vaddElem_int ht r (Nat.mod_lt _ (by positivity))).trans ?_
    rw [Nat.mod_add_mod, List.sum_cons, Nat.add_assoc]

theorem State.sumUnordered_sum (s : State) {t : Tag} (r : Rounding) {init : Nat} (hinit : init < 2 ^ tagWidth t) (l : List Nat) :
    ∃ v d, s.sumUnordered t r init l = (v, { s with draws := d }) ∧ s.draws ≤ d ∧ (isFpTag t = false → d = s.draws) ∧
      UnorderedSum t (vaddElem r t) init l v := by
  unfold State.sumUnordered
  cases ht : isFpTag t with
  | true =>
    obtain ⟨v, p, d, heq, hd, hv⟩ := State.sumFree_bracketed (vaddElem r t) (l := (canonElem t init).1 :: l) (r := (canonElem t init).2)
      (s := s) (List.length_cons ..)
    refine ⟨_, d, by rw [if_pos rfl]; exact heq, hd, fun h => (Bool.noConfusion h), fun h => ?_, fun _ => ⟨p, rfl, hv⟩⟩
    rw [isFpTag_of_isIntTag h] at ht
    cases ht
  | false => exact ⟨_, s.draws, if_neg Bool.false_ne_true, le_rfl, fun _ => rfl, fun _ => foldl_vaddElem_int ht r hinit, fun h => by rw [ht] at h; cases h⟩

/-- The partial sums of VSCANF over an ascending list, each the sum of what was done before and of the elements up to its own. -/
theorem State.scanFree_sums {t : Tag} (r : Rounding) {init : Nat} (hinit : init < 2 ^ tagWidth t) (g : Nat → Nat) :
    ∀ {l : List Nat} (done : List Nat) (s : State), l.Pairwise (· < ·) → ∃ vs d,
      s.scanFree t r init done (l.map fun e => (e, g e)) = (vs, { s with draws := d }) ∧ s.draws ≤ d ∧ (isFpTag t = false → d = s.draws) ∧
        vs.map (·.1) = l ∧ ∀ x ∈ vs, UnorderedSum t (vaddElem r t) init (done ++ (l.filter fun q => decide (q ≤ x.1)).map g) x.2
  | [], _, s, _ => ⟨[], s.draws, rfl, le_rfl, fun _ => rfl, rfl, fun _ h => absurd h List.not_mem_nil⟩
  | e :: l, done, s, h => by
    obtain ⟨hhead, htail⟩ := List.pairwise_cons.1 h
    obtain ⟨v, d1, hsum, hd1, hint1, hv⟩ := s.sumUnordered_sum r hinit (done ++ [g e])
    obtain ⟨vs, d2, hscan, hd2, hint2, hkeys, hvs⟩ := State.scanFree_sums r hinit g (done ++ [g e]) { s with draws := d1 } htail
    refine ⟨(e, v) :: vs, d2, ?_, hd1.trans hd2, fun ht => (hint2 ht).trans (hint1 ht), by rw [List.map_cons, hkeys], fun x hx => ?_⟩
    · rw [List.map_cons, State.scanFree, hsum]
      dsimp only
      rw [hscan]
    · rcases List.mem_cons.1 hx with rfl | hx
      · have hnone : l.filter (fun q => decide (q ≤ e)) = [] := List.filter_eq_nil_iff.2 fun q hq => by simpa using hhead q hq
        rw [List.filter_cons_of_pos (by simp), hnone]
        exact hv
      · have hin : x.1 ∈ l := hkeys ▸ List.mem_map_of_mem hx
        have hle : decide (e ≤ x.1) = true := decide_eq_true (hhead _ hin).le
        rw [List.filter_cons_of_pos (p := fun q => decide (q ≤ x.1)) hle, List.map_cons]
        have hx2 := hvs x hx
        rwa [List.append_assoc] at hx2

/-! ### The unordered instructions (R149, R246, R247) -/

theorem exists_fun_of_nodup_keys {α : Type} [Inhabited α] : ∀ {l : List (Nat × α)}, (l.map (·.1)).Nodup → ∃ f : Nat → α, ∀ x ∈ l, x.2 = f x.1
  | [], _ => ⟨fun _ => default, fun _ h => absurd h List.not_mem_nil⟩
  | x :: l, h => by
    obtain ⟨hx, hl⟩ := List.nodup_cons.1 h
    obtain ⟨f, hf⟩ := exists_fun_of_nodup_keys hl
    refine ⟨fun e => if e = x.1 then x.2 else f e, fun y hy => ?_⟩
    dsimp only
    rcases List.mem_cons.1 hy with rfl | hy
    · rw [if_pos rfl]
    · have hne : y.1 ≠ x.1 := fun he => hx (List.mem_map.2 ⟨y, hy, he⟩)
      rw [if_neg hne]
      exact hf y hy

/-- A whole write of unordered sums: `ops e` are the operands that element `e` sums. -/
theorem writesV_unordered {s : State} {d : Reg} {T : Tag} {act : List Nat} {f : Nat → Nat → Nat × Raised} {init n : Nat} {ops : Nat → List Nat}
    {vs : List (Nat × (Nat × Raised))} (hn : (vs.map (·.1)).Nodup) (hkeys : ∀ e, e ∈ act ↔ e ∈ vs.map (·.1))
    (hvs : ∀ x ∈ vs, UnorderedSum T f init (ops x.1) x.2) : ∃ g, (∀ e ∈ act, UnorderedSum T f init (ops e) (g e)) ∧
      (isIntTag T = true → ∀ e, g e = ((init + (ops e).sum) % 2 ^ tagWidth T, .none)) ∧
      WritesV d T act g { s with draws := n } (({ s with draws := n } : State).onHart fun h =>
        (h.whole d T (vs.map fun x => (x.1, x.2.1))).raise (raisedOf vs)) := by
  cases ht : isIntTag T with
  | true =>
    have hint : ∀ x ∈ vs, x.2 = ((init + (ops x.1).sum) % 2 ^ tagWidth T, .none) := fun x hx => (hvs x hx).1 ht
    refine ⟨fun e => ((init + (ops e).sum) % 2 ^ tagWidth T, .none), fun e _ => ⟨fun _ => rfl, fun hf => ?_⟩, fun _ _ => rfl,
      writesV_whole hn hkeys hint⟩
    rw [isFpTag_of_isIntTag ht] at hf
    cases hf
  | false =>
    have : Inhabited (Nat × Raised) := ⟨(0, .none)⟩
    obtain ⟨g, hg⟩ := exists_fun_of_nodup_keys hn
    refine ⟨g, fun e he => ?_, fun h => Bool.noConfusion h, writesV_whole hn hkeys hg⟩
    obtain ⟨x, hx, rfl⟩ := List.mem_map.1 ((hkeys e).1 he)
    exact hg x hx ▸ hvs x hx

section
variable {s : State} {a b : Reg} (hs : OnStrand s) (ha : s.hart.tag a ≠ .i16p) (hb : s.hart.tag b = s.hart.tag a)
include hs ha hb

theorem State.reduction_deterministic (hdet : s.hart.st.det = true) (k : State → State) :
    s.reduction a b true k = .next (s.trapWord .deterministic) := by
  have hj : s.hart.judge (arithTag (s.hart.tag a) && s.hart.tag b == s.hart.tag a) true (tagMvl (s.hart.tag a)) = some .deterministic := by
    simp [Hart.judge, arithTag_eq, ha, hb, hdet]
  rw [State.reduction, hj, State.vector_trap _ _ _ hs]

theorem State.reduction_next (hdet : s.hart.st.det = false) (hpos : s.hart.vlen ≠ 0) (hle : s.hart.vlen ≤ tagMvl (s.hart.tag a)) (k : State → State) :
    s.reduction a b true k = .next (k s) := by
  have hj : s.hart.judge (arithTag (s.hart.tag a) && s.hart.tag b == s.hart.tag a) true (tagMvl (s.hart.tag a)) = none := by
    simp [Hart.judge, arithTag_eq, ha, hb, hdet, hle]
  rw [State.reduction, hj, State.vector_next _ _ hs hpos]

end

theorem initialOperand_lt {s : State} {a b : Reg} (hb : s.hart.tag b = s.hart.tag a) : s.hart.elem b 0 < 2 ^ tagWidth (s.hart.tag a) :=
  hb ▸ elemOf_lt _ _ _

/-- What VREDSUMU and VSCANF leave: sums of `ops e` at the elements `act`, and free values drawn for FP elements alone. -/
def LeavesSums (s : State) (d a b : Reg) (act : List Nat) (ops : Nat → List Nat) (t : State) : Prop :=
  ∃ (vs : List (Nat × (Nat × Raised))) (n : Nat),
    t = ({ s with draws := n } : State).onHart (fun h => (h.whole d (s.hart.tag a) (vs.map fun x => (x.1, x.2.1))).raise (raisedOf vs)) ∧
    s.draws ≤ n ∧ (isFpTag (s.hart.tag a) = false → n = s.draws) ∧ (vs.map (·.1)).Nodup ∧ (∀ e, e ∈ act ↔ e ∈ vs.map (·.1)) ∧
    ∀ x ∈ vs, UnorderedSum (s.hart.tag a) (vaddElem s.hart.rounding (s.hart.tag a)) (s.hart.elem b 0) (ops x.1) x.2

theorem vredsumu_leaves {s : State} {a b : Reg} (d m : Reg) (hb : s.hart.tag b = s.hart.tag a) : ∃ k,
    exec (.vredsumu d a b m) s = s.reduction a b true k ∧ LeavesSums s d a b [0] (fun _ => s.hart.operands a m) (k s) := by
  obtain ⟨v, n, hsum, hn, hint, hv⟩ := s.sumUnordered_sum s.hart.rounding (initialOperand_lt hb) (s.hart.operands a m)
  refine ⟨fun s =>
    let (v, s1) := s.sumUnordered (s.hart.tag a) s.hart.rounding (s.hart.elem b 0) (s.hart.operands a m)
    s1.onHart fun h => (h.whole d (s.hart.tag a) [(0, v.1)]).raise v.2, rfl, [(0, v)], n, ?_, hn, hint, List.nodup_singleton 0, fun _ => Iff.rfl, fun x hx => by rwa [List.mem_singleton.1 hx]⟩
  dsimp only
  rw [hsum, raisedOf, List.foldl_cons, List.foldl_nil, Raised.none_or]
  rfl

theorem vscanf_leaves {s : State} {a b : Reg} (d m : Reg) (hb : s.hart.tag b = s.hart.tag a) : ∃ k,
    exec (.vscanf d a b m) s = s.reduction a b true k ∧ LeavesSums s d a b (s.hart.wholeActive m)
      (fun e => ((s.hart.wholeActive m).filter fun q => decide (q ≤ e)).map (s.hart.elem a)) (k s) := by
  obtain ⟨vs, n, hscan, hn, hint, hkeys, hvs⟩ := State.scanFree_sums s.hart.rounding (initialOperand_lt hb) (s.hart.elem a) [] s
    (s.hart.pairwise_wholeActive m)
  refine ⟨fun s =>
    let (l, s1) := s.scanFree (s.hart.tag a) s.hart.rounding (s.hart.elem b 0) [] ((s.hart.wholeActive m).map fun e => (e, s.hart.elem a e))
    s1.onHart fun h => (h.whole d (s.hart.tag a) (l.map fun x => (x.1, x.2.1))).raise (raisedOf l), rfl, vs, n, ?_, hn, hint, by rw [hkeys]; exact s.hart.nodup_wholeActive m, fun e => by rw [hkeys], fun x hx => hvs x hx⟩
  dsimp only
  rw [hscan]

theorem canonElem_fp {t : Tag} (ht : isFpTag t = true) (x : Nat) : canonElem t x =
    match (tagFmt t).decode x with | .nan g => (tagFmt t).nanOf g | _ => (x, Raised.none) := if_pos ht

/-- What the claim says of an instruction that leaves unordered sums. -/
theorem unordered_completes {s : State} {d a b : Reg} {i : Instr} {act : List Nat} {ops : Nat → List Nat} (hs : OnStrand s)
    (ha : s.hart.tag a ≠ .i16p) (hb : s.hart.tag b = s.hart.tag a)
    (hi : ∃ k, exec i s = s.reduction a b true k ∧ LeavesSums s d a b act ops (k s)) :
    (s.hart.st.det = true → exec i s = .next (s.trapWord .deterministic)) ∧
    (s.hart.st.det = false ∧ s.hart.vlen ≠ 0 ∧ s.hart.vlen ≤ tagMvl (s.hart.tag a) →
      let start := match (tagFmt (s.hart.tag a)).decode (s.hart.elem b 0) with
        | .nan g => (tagFmt (s.hart.tag a)).nanOf g | _ => (s.hart.elem b 0, Raised.none)
      ∃ t f, exec i s = .next t ∧ s.draws ≤ t.draws ∧
        (isIntTag (s.hart.tag a) = true → t.draws = s.draws ∧
          ∀ e, f e = ((s.hart.elem b 0 + (ops e).sum) % 2 ^ tagWidth (s.hart.tag a), Raised.none)) ∧
        (isFpTag (s.hart.tag a) = true → ∀ e ∈ act, ∃ p, (f e).2 = start.2.or p ∧
          Bracketed (Claim.byTag (fun _ p q => p + q) (fun f r p q => f.add r (f.decode p) (f.decode q)) s.hart (s.hart.tag a))
            (start.1 :: ops e) (f e).1 p) ∧
        WritesV d (s.hart.tag a) act f { s with draws := t.draws } t) := by
  obtain ⟨k, hexec, vs, n, ht, hn, hint, hnodup, hkeys, hvs⟩ := hi
  refine ⟨fun hdet => by rw [hexec, State.reduction_deterministic hs ha hb hdet], fun ⟨hdet, hpos, hle⟩ => ?_⟩
  obtain ⟨g, hsums, htotal, hwrites⟩ := writesV_unordered (s := s) (d := d) (n := n) hnodup hkeys hvs
  rw [hexec, State.reduction_next hs ha hb hdet hpos hle, ht]
  refine ⟨_, g, rfl, hn, fun hi => ⟨hint (isFpTag_of_isIntTag hi), htotal hi⟩, fun hf e he => ?_, hwrites⟩
  obtain ⟨p, hp, hsum⟩ := (hsums e he).2 hf
  rw [canonElem_fp hf] at hp hsum
  have add : vaddElem s.hart.rounding (s.hart.tag a) = _ := funext fun p => funext fun q => vaddElem_eq_byTag s.hart (s.hart.tag a) p q
  exact ⟨p, hp, add ▸ hsum⟩

theorem unorderedReductionsCompleteOutsideDeterministicMode : Claim.UnorderedReductionsCompleteOutsideDeterministicMode :=
  fun d _ _ m _ hs ha hb =>
    ⟨unordered_completes hs ha hb (vredsumu_leaves d m hb), unordered_completes hs ha hb (vscanf_leaves d m hb)⟩

/-- Settles O20, claim by claim. -/
theorem reductionsAndScans : Obligations.ReductionsAndScans :=
  ⟨orderedReductionsAndScans, unorderedReductionsCompleteOutsideDeterministicMode⟩

end Sys2Proof.Machine
end

section
/-! Settled here: O21, conversions and random elements (R140, R142-R144, R248-R250). -/

namespace Sys2Proof.Machine

open Sys2Proof.Safety

/-! ### Vector instructions outside their judgement (R159, R222, R421) -/

theorem Hart.judge_tag (h : Hart) (det : Bool) (most : Nat) : h.judge false det most = some .tag := by
  simp [Hart.judge]

theorem Hart.judge_length {h : Hart} {most : Nat} (hlt : most < h.vlen) : h.judge true false most = some .vectorLength := by
  simp [Hart.judge, hlt]

theorem Hart.judge_none {h : Hart} {most : Nat} (hle : h.vlen ≤ most) : h.judge true false most = none := by
  simp [Hart.judge, hle]

/-! ### VCVT (R144, R248) -/

/-- A whole write of elements shifted by `base`. -/
theorem writesV_shifted (s : State) (d : Reg) (T : Tag) {act : List Nat} (hn : act.Nodup) (base : Nat) (f : Nat → Nat × Raised) :
    WritesV d T (act.map fun e => base + e) (fun e => f (e - base)) s (s.onHart fun h =>
      (h.whole d T ((act.map fun e => (base + e, f e)).map fun x => (x.1, x.2.1))).raise (raisedOf (act.map fun e => (base + e, f e)))) := by
  have hkeys : (act.map fun e => (base + e, f e)).map (·.1) = act.map fun e => base + e := List.map_map ..
  refine writesV_whole ?_ (fun e => by rw [hkeys]) fun x hx => ?_
  · rw [hkeys]
    exact hn.map fun _ _ => Nat.add_left_cancel
  · obtain ⟨e, -, rfl⟩ := List.mem_map.1 hx
    rw [Nat.add_sub_cancel_left]

section
variable {s : State} {d a m : Reg} {q : Fin 4} {T : Tag}

/-- The parts of the wider side, and the elements that it has (R248). -/
def cvtParts (u T : Tag) : Nat := max (tagWidth u) (tagWidth T) / min (tagWidth u) (tagWidth T)
def cvtElems (u T : Tag) : Nat := 8192 / max (tagWidth u) (tagWidth T)

theorem vcvt_illegal (hs : OnStrand s) (hq : cvtParts (s.hart.tag a) T ≤ q.val) :
    exec (.vcvt d a q T m) s = .next (s.trapWord .illegal) := by
  change execVcvt d a q T m s = _
  unfold execVcvt
  exact (if_pos hq).trans (State.strandOnly_strand _ _ hs)

/-- VCVT of a part that there is. -/
theorem vcvt_eq (hq : q.val < cvtParts (s.hart.tag a) T) : exec (.vcvt d a q T m) s =
    s.vectorHart (s.hart.judge (s.hart.tag a != .i16p) false (cvtElems (s.hart.tag a) T)) fun h =>
      if tagWidth (s.hart.tag a) = tagWidth T then h.elementWise d m T fun e => convertElem h.rounding (s.hart.tag a) T (h.elem a e)
      else
        let l := (h.wholeActive m).map fun e =>
          if tagWidth (s.hart.tag a) < tagWidth T
          then (e, convertElem h.rounding (s.hart.tag a) T (h.elem a (q.val * cvtElems (s.hart.tag a) T + e)))
          else (q.val * cvtElems (s.hart.tag a) T + e, convertElem h.rounding (s.hart.tag a) T (h.elem a e))
        (h.whole d T (l.map fun x => (x.1, x.2.1))).raise (raisedOf l) := by
  change execVcvt d a q T m s = _
  unfold execVcvt
  exact if_neg (not_le.2 hq)

theorem vcvt_tag (hs : OnStrand s) (hq : q.val < cvtParts (s.hart.tag a) T) (ha : s.hart.tag a = .i16p) :
    exec (.vcvt d a q T m) s = .next (s.trapWord .tag) := by
  rw [vcvt_eq hq, show (s.hart.tag a != .i16p) = false by rw [ha]; rfl, Hart.judge_tag, State.vectorHart, State.vector_trap _ _ _ hs]

theorem vcvt_length (hs : OnStrand s) (hq : q.val < cvtParts (s.hart.tag a) T) (ha : s.hart.tag a ≠ .i16p)
    (hlt : cvtElems (s.hart.tag a) T < s.hart.vlen) : exec (.vcvt d a q T m) s = .next (s.trapWord .vectorLength) := by
  rw [vcvt_eq hq, bne_iff_ne.2 ha, Hart.judge_length hlt, State.vectorHart, State.vector_trap _ _ _ hs]

theorem vcvt_next (hready : OnStrand s ∧ s.hart.tag a ≠ .i16p ∧ q.val < cvtParts (s.hart.tag a) T ∧
    s.hart.vlen ≤ cvtElems (s.hart.tag a) T ∧ s.hart.vlen ≠ 0) : ∃ t, exec (.vcvt d a q T m) s = .next t ∧
      (tagWidth (s.hart.tag a) = tagWidth T →
        ElementWise d m (fun _ => T) (fun h e => convertElem h.rounding (h.tag a) T (h.elem a e)) s t) ∧
      (tagWidth (s.hart.tag a) < tagWidth T → WholeWrite d (fun _ => T) (·.wholeActive m)
        (fun h e => convertElem h.rounding (h.tag a) T (h.elem a (q.val * cvtElems (h.tag a) T + e))) s t) ∧
      (tagWidth T < tagWidth (s.hart.tag a) → WholeWrite d (fun _ => T) (fun h => (h.wholeActive m).map fun e => q.val * cvtElems (h.tag a) T + e)
        (fun h e => convertElem h.rounding (h.tag a) T (h.elem a (e - q.val * cvtElems (h.tag a) T))) s t) := by
  obtain ⟨hs, ha, hq, hle, hpos⟩ := hready
  rw [vcvt_eq hq, bne_iff_ne.2 ha, Hart.judge_none hle, State.vectorHart, State.vector_next _ _ hs hpos]
  refine ⟨_, rfl, fun hw => ?_, fun hw => ?_, fun hw => ?_⟩
  · simp only [State.onHart, if_pos hw]
    exact elementWise_writes s d m T fun h e => convertElem h.rounding (s.hart.tag a) T (h.elem a e)
  · simp only [State.onHart, if_neg hw.ne, if_pos hw]
    exact writesV_whole (by rw [List.map_map]; exact (List.map_id _).symm ▸ s.hart.nodup_wholeActive m) (fun e => by simp) fun x hx => by
      obtain ⟨e, -, rfl⟩ := List.mem_map.1 hx
      rfl
  · simp only [State.onHart, if_neg hw.ne', if_neg hw.asymm]
    exact writesV_shifted s d T (s.hart.nodup_wholeActive m) (q.val * cvtElems (s.hart.tag a) T)
      fun e => convertElem s.hart.rounding (s.hart.tag a) T (s.hart.elem a e)

end

/-! ### VRAND and VCVTS (R140, R142, R143, R249, R250) -/

/-- What the claim says of an instruction that uses up a counter step. -/
def DrawsOnce (i : Instr) (ok : Hart → Bool) (post : State → State → Prop) : Prop :=
  (∀ s, OnStrand s → ok s.hart = false → exec i s = .next (s.trapWord .tag)) ∧
  (∀ s, OnStrand s → ok s.hart = true → 256 < s.hart.vlen → exec i s = .next (s.trapWord .vectorLength)) ∧
  (∀ s, OnStrand s → ok s.hart = true → s.hart.vlen = 0 → exec i s = .next { s with hart := s.hart.countDraw }) ∧
  Completes i (fun s => OnStrand s ∧ ok s.hart = true ∧ s.hart.vlen ≤ 256 ∧ s.hart.vlen ≠ 0) fun s t =>
    ∃ u, post s u ∧ t = { u with hart := u.hart.countDraw }

theorem State.vectorDraw_trap {s : State} (hs : OnStrand s) (c : Cause) (k : Hart → Hart) : s.vectorDraw (some c) k = .next (s.trapWord c) :=
  State.strandOnly_strand _ _ hs

theorem State.vectorDraw_next {s : State} (hs : OnStrand s) (k : Hart → Hart) :
    s.vectorDraw none k = .next { s with hart := (if s.hart.vlen = 0 then s.hart else k s.hart).countDraw } :=
  State.strandOnly_strand _ _ hs

theorem drawsOnce_of {i : Instr} {ok : Hart → Bool} {k : State → Hart → Hart} {post : State → State → Prop}
    (h : ∀ s, exec i s = s.vectorDraw (s.hart.judge (ok s.hart) false 256) (k s)) (hp : ∀ s, post s (s.onHart (k s))) : DrawsOnce i ok post := by
  refine ⟨fun s hs ho => ?_, fun s hs ho hlt => ?_, fun s hs ho hz => ?_, fun s ⟨hs, ho, hle, hpos⟩ => ⟨_, ?_, s.onHart (k s), hp s, rfl⟩⟩ <;>
    rw [h, ho]
  · rw [Hart.judge_tag, State.vectorDraw_trap hs]
  · rw [Hart.judge_length hlt, State.vectorDraw_trap hs]
  · rw [Hart.judge_none (by omega), State.vectorDraw_next hs, if_pos hz]
  · rw [Hart.judge_none hle, State.vectorDraw_next hs, if_neg hpos]
    rfl

theorem vrand_drawsOnce (d m : Reg) : DrawsOnce (.vrand d m) (fun _ => true) (ElementWise d m (fun _ => .i32) fun h e => (h.randElem e, .none)) := by
  refine drawsOnce_of (k := fun _ h => h.elementPure d m .i32 fun e => h.randElem e) (fun s => ?_) fun s => ?_
  · change execVrand d m s = _
    rw [execVrand]
  · exact elementWise_writes s d m .i32 fun h e => (h.randElem e, .none)

theorem vcvts_drawsOnce (d a m : Reg) (half : Fin 2) : DrawsOnce (.vcvts d a half m) (fun h => h.tag a == .fp32) (WholeWrite d (fun _ => .bf16)
    (fun h => (h.wholeActive m).map fun e => half.val * 256 + e) fun h e =>
      stochastic (h.elem a (e - half.val * 256)) (h.randElem (e - half.val * 256) % 65536)) := by
  refine drawsOnce_of (k := fun _ h =>
    let l := (h.wholeActive m).map fun e => (half.val * 256 + e, stochastic (h.elem a e) (h.randElem e % 65536))
    (h.whole d .bf16 (l.map fun x => (x.1, x.2.1))).raise (raisedOf l)) (fun s => ?_) fun s => ?_
  · change execVcvts d a half m s = _
    rw [execVcvts]
  · have hput := writesV_shifted s d .bf16 (s.hart.nodup_wholeActive m) (half.val * 256) fun e =>
      stochastic (s.hart.elem a e) (s.hart.randElem e % 65536)
    rw [State.onHart] at hput ⊢
    exact hput

/-- Settles O21: the part of the wider side decides which way VCVT goes; VRAND and VCVTS count one step in every case but a trap. -/
theorem conversionsAndRandomElements : Obligations.ConversionsAndRandomElements := by
  unfold Obligations.ConversionsAndRandomElements
  intro d a m q T half
  refine ⟨fun s hs hq => vcvt_illegal hs hq, fun s hs hq ha => vcvt_tag hs hq ha, fun s hs hq ha hlt => vcvt_length hs hq ha hlt,
    fun s ⟨hready, hw⟩ => ?_, fun s ⟨hready, hw⟩ => ?_, fun s ⟨hready, hw⟩ => ?_, vrand_drawsOnce d m, vcvts_drawsOnce d a m half⟩
  · obtain ⟨t, ht, hsame, -, -⟩ := vcvt_next (d := d) (m := m) hready
    exact ⟨t, ht, hsame hw⟩
  · obtain ⟨t, ht, -, hwiden, -⟩ := vcvt_next (d := d) (m := m) hready
    exact ⟨t, ht, hwiden hw⟩
  · obtain ⟨t, ht, -, -, hnarrow⟩ := vcvt_next (d := d) (m := m) hready
    exact ⟨t, ht, hnarrow hw⟩

end Sys2Proof.Machine
end

section
/-! Settled here: O23, vector loads write their active elements, widened (R130, R133, R258, R260, R263-R267). -/

namespace Sys2Proof.Machine

open Sys2Proof.Safety

/-! ### Registers written one after another -/

/-- The elements `l` names put into a register, which keeps its tag. -/
def Hart.putKept (l : Reg → List (Nat × Nat)) (h : Hart) (r : Reg) : Hart :=
  h.setV r (h.tag r) (putElems h.v[r] (tagWidth (h.tag r)) (l r))

/-- A register that keeps its tag changes its bits and its dirty bit alone. -/
theorem Hart.putKept_eq (l : Reg → List (Nat × Nat)) (h : Hart) (r : Reg) : h.putKept l r = { h with
    v := h.v.set r (putElems h.v[r] (tagWidth (h.tag r)) (l r))
    csr := { h.csr with vdirty := h.csr.vdirty ||| (1#32 <<< r.val) } } := by
  have htags : h.tags.set r (h.tag r) = h.tags := Vector.set_getElem_self _
  rw [Hart.putKept, Hart.setV, htags]

theorem getLsbD_regBit (k r : Reg) : (1#32 <<< r.val).getLsbD k.val = decide (k = r) := by
  have hlt : k.val < 32 := k.isLt
  rw [BitVec.getLsbD_shiftLeft, BitVec.getLsbD_one, Bool.eq_iff_iff]
  simp only [hlt, decide_true, Bool.true_and, Bool.and_eq_true, Bool.not_eq_true', decide_eq_false_iff_not, decide_eq_true_eq, Fin.ext_iff]
  omega

/-- What writing several registers, each named once, leaves. -/
theorem foldl_putKept (l : Reg → List (Nat × Nat)) : ∀ {regs : List Reg} (h : Hart), regs.Nodup →
    let g := regs.foldl (Hart.putKept l) h
    g = { h with v := g.v, csr := { h.csr with vdirty := g.csr.vdirty } } ∧
    (∀ k : Reg, g.csr.vdirty.getLsbD k.val = (h.csr.vdirty.getLsbD k.val || decide (k ∈ regs))) ∧
    (∀ r, r ∉ regs → g.v[r] = h.v[r]) ∧ ∀ r ∈ regs, g.v[r] = putElems h.v[r] (tagWidth (h.tag r)) (l r)
  | [], h, _ => ⟨rfl, fun k => by simp, fun _ _ => rfl, fun _ hr => absurd hr List.not_mem_nil⟩
  | r :: regs, h, hn => by
    obtain ⟨hr, htail⟩ := List.nodup_cons.1 hn
    obtain ⟨hframe, hdirty, hout, hin⟩ := foldl_putKept l (h.putKept l r) htail
    intro g
    have hother : ∀ q, q ≠ r → (h.putKept l r).v[q] = h.v[q] := fun q hq => Hart.v_setV_ne h _ _ hq
    have htag : ∀ q, (h.putKept l r).tag q = h.tag q := fun q => by rw [Hart.putKept_eq]; rfl
    refine ⟨?_, fun k => ?_, fun q hq => ?_, fun q hq => ?_⟩
    · have hg : g = regs.foldl (Hart.putKept l) (h.putKept l r) := rfl
      rw [Hart.putKept_eq] at hg hframe
      rw [hg]
      exact hframe
    · refine (hdirty k).trans ?_
      rw [Hart.putKept_eq]
      dsimp only
      rw [BitVec.getLsbD_or, getLsbD_regBit, Bool.or_assoc, ← Bool.decide_or]
      simp only [List.mem_cons]
    · obtain ⟨hqr, hqt⟩ := not_or.1 (mt List.mem_cons.2 hq)
      exact (hout q hqt).trans (hother q hqr)
    · rcases List.mem_cons.1 hq with rfl | hq
      · refine (hout q hr).trans ?_
        exact Hart.v_setV_same ..
      · have hne : q ≠ r := fun he => hr (he ▸ hq)
        refine (hin q hq).trans ?_
        rw [hother q hne, htag]

/-! ### Vector loads (R263-R267) -/

/-- What the fields of elements `act` give, by element and register, as `vload` collects it. -/
def loadedPuts (regs : List Reg) (act : List Nat) (val : Reg → Nat → Nat) : List (Reg × Nat × Nat) :=
  act.flatMap fun e => regs.map fun r => (r, e, val r e)

theorem filter_map_eq_singleton {regs : List Reg} (hn : regs.Nodup) {r : Reg} (hr : r ∈ regs) (f : Reg → Reg × Nat × Nat) (hf : ∀ q, (f q).1 = q) :
    (regs.map f).filter (fun p => p.1 == r) = [f r] := by
  rw [List.filter_map]
  have hfun : ((fun p : Reg × Nat × Nat => p.1 == r) ∘ f) = fun q => q == r := funext fun q => by rw [Function.comp_apply, hf]
  rw [hfun, List.filter_beq, List.count_eq_one_of_mem hn hr]
  rfl

/-- A register of the access takes one value of each active element. -/
theorem loadedPuts_of_mem {regs : List Reg} (hn : regs.Nodup) {r : Reg} (hr : r ∈ regs) (act : List Nat) (val : Reg → Nat → Nat) :
    ((loadedPuts regs act val).filter fun p => p.1 == r).map (fun p => (p.2.1, p.2.2)) = act.map fun e => (e, val r e) := by
  unfold loadedPuts
  rw [List.filter_flatMap]
  have hone : ∀ e, (regs.map fun q => (q, e, val q e)).filter (fun p => p.1 == r) = [(r, e, val r e)] := fun e =>
    filter_map_eq_singleton hn hr (fun q => (q, e, val q e)) fun _ => rfl
  simp only [hone, List.map_flatMap, List.map_cons, List.map_nil]
  exact List.map_eq_flatMap.symm

section
variable {s : State} {v : VShape} {val : Reg → Nat → Nat}

/-- A load all of whose fields find their data writes the active elements of its registers. -/
theorem State.vload_eq (hn : v.regs.Nodup) (hregs : ∀ e, (v.fields e).map (·.reg) = v.regs) (hdet : s.hart.st.det = false)
    (hmis : v.misaligned s.hart = false)
    (hfield : ∀ e ∈ s.hart.active v.mask, ∀ x ∈ positions (v.fields e),
      s.loadField v.fmt v.cls v.base e x.1 x.2 = .ok (x.2.reg, val x.2.reg e) s) :
    s.vload v = s.onHart fun h => if h.range = [] then h else
      v.regs.foldl (Hart.putKept fun r => (s.hart.active v.mask).map fun e => (e, val r e)) h := by
  have hforbidden : s.forbidden v true (s.hart.active v.mask) = false := by
    unfold State.forbidden
    rw [hdet]
    rfl
  have hgather : ∀ e ∈ s.hart.active v.mask, gather (fun (x : Nat × VField) (s : State) => s.loadField v.fmt v.cls v.base e x.1 x.2)
      (positions (v.fields e)) s = .ok (v.regs.map fun r => (r, val r e)) s := fun e he => by
    rw [gather_ok fun x hx => hfield e he x hx, map_positions_snd (v.fields e) fun x => (x.reg, val x.reg e), ← hregs e, List.map_map]
    rfl
  have hputs : ((s.hart.active v.mask).map fun e => (e, v.regs.map fun r => (r, val r e))).flatMap
      (fun x => x.2.map fun y => (y.1, x.1, y.2)) = loadedPuts v.regs (s.hart.active v.mask) val := by
    rw [List.flatMap_map]
    simp only [List.map_map]
    rfl
  unfold State.vload
  dsimp only
  rw [hforbidden, if_neg Bool.false_ne_true, hmis, if_neg (by simp), sweep_ok hgather, Swept.carry_none rfl rfl]
  unfold Swept.committed Swept.nothing State.stopAt State.onHart
  dsimp only
  rw [hputs]
  simp only [List.isEmpty_iff]
  congr 1
  split
  · rfl
  · refine List.foldl_ext _ _ _ fun h r hr => ?_
    rw [loadedPuts_of_mem hn hr]
    rfl

end

/-- The claim on each vector load, whatever the shape of its elements. -/
theorem loadsBy_of {i : Instr} {shape : Hart → VShape} {index : Option Reg} (hi : ∀ s, exec i s = s.vloadInstr (shape s.hart) index)
    (hn : ∀ h, (shape h).regs.Nodup) (hregs : ∀ h e, ((shape h).fields e).map (·.reg) = (shape h).regs) : Claim.LoadsBy i shape index := by
  intro s val h v hs hjudge hvl hmis hdet hfield
  have hexec : exec i s = .next (s.vload v) := by
    rw [hi, State.vloadInstr, hjudge, State.vector_next _ _ hs hvl]
  rw [State.vload_eq (hn h) (hregs h) hdet hmis hfield, State.onHart] at hexec
  obtain ⟨hframe, hdirty, hout, hin⟩ := foldl_putKept (fun r => (h.active v.mask).map fun e => (e, val r e)) h (hn h)
  by_cases hr : h.range = []
  · rw [if_pos hr] at hexec
    exact ⟨s, hexec, by rw [if_pos hr]⟩
  · rw [if_neg hr] at hexec
    refine ⟨_, hexec, ?_⟩
    rw [if_neg hr]
    refine ⟨congrArg (fun g => { s with hart := g }) hframe, hdirty, hout, fun r hr e he => ?_⟩
    have hbits := congrArg (fun b => elemOf b (tagWidth (h.tag r)) e) (hin r hr)
    refine hbits.trans ?_
    split
    next hact =>
      exact elemOf_putElems_in _ _ _ _ _ he (by rw [List.map_map]; exact (List.map_id _).symm ▸ h.nodup_active v.mask)
        (List.mem_map.2 ⟨e, hact, rfl⟩)
    next hact =>
      refine elemOf_putElems_out _ _ _ _ he fun x hx => ?_
      obtain ⟨y, hy, rfl⟩ := List.mem_map.1 hx
      exact fun hye => hact (hye ▸ hy)

theorem regRange_nodup (d : Reg) {n : Nat} (hn : n ≤ 32) : (regRange d n).Nodup := by
  unfold regRange
  refine List.nodup_range.map_on fun a ha b hb hab => ?_
  rw [List.mem_range] at ha hb
  have hval : a % 32 = b % 32 := congrArg Fin.val (add_left_cancel hab)
  omega

theorem segmentShape_regs (h : Hart) (d : Reg) (n : Fin 8) (c : Reg) (cls : Fin 16) (f : MemFmt) (m : Reg) (e : Nat) :
    ((segmentShape h d n c cls f m).fields e).map (·.reg) = (segmentShape h d n c cls f m).regs := by
  unfold segmentShape
  dsimp only
  rw [List.map_map]
  exact map_snd_positions _

theorem positions_getElem? {α : Type} {l : List α} {k : Nat} {x : α} (h : l[k]? = some x) : (positions l)[k]? = some (k, x) :=
  List.getElem?_zip_eq_some.2 ⟨List.getElem?_range (List.getElem?_eq_some_iff.1 h).1, h⟩

theorem segmentShape_field (h : Hart) (d : Reg) (n : Fin 8) (c : Reg) (cls : Fin 16) (f : MemFmt) (m : Reg) (e : Nat) {k : Nat} (hk : k < c.val) :
    ((segmentShape h d n c cls f m).fields e)[k]? =
      some ⟨d + Fin.ofNat 32 k, ((e * c.val + k : Nat) : Int), k * ((h.vlen + 31) / 32) + e / 32⟩ := by
  have hreg : (regRange d c.val)[k]? = some (d + Fin.ofNat 32 k) := by
    rw [regRange, List.getElem?_map, List.getElem?_range hk]
    rfl
  have hpos : (positions (regRange d c.val))[k]? = some (k, d + Fin.ofNat 32 k) := positions_getElem? hreg
  unfold segmentShape
  dsimp only
  rw [List.getElem?_map, hpos]
  rfl

theorem vectorLoadsWriteTheirActiveElements : Claim.VectorLoadsWriteTheirActiveElements := fun d _ _ c m n cls f =>
  ⟨loadsBy_of (fun _ => rfl) (fun _ => List.nodup_singleton d) fun _ _ => rfl,
    loadsBy_of (fun _ => rfl) (fun _ => List.nodup_singleton d) fun _ _ => rfl,
    loadsBy_of (fun _ => rfl) (fun _ => List.nodup_singleton d) fun _ _ => rfl,
    loadsBy_of (fun _ => rfl) (fun _ => regRange_nodup d c.isLt.le) fun h e => segmentShape_regs h d n c cls f m e,
    fun h e _ hk => segmentShape_field h d n c cls f m e hk, fun _ _ => ⟨rfl, rfl, rfl⟩⟩

/-! ### Widening (R130, R133, R258) -/

theorem Hart.scaleAddr_zero {h : Hart} (hs : h.csr.bscale = 0) (f : MemFmt) (k : Nat) : h.scaleAddr f k = none := by
  unfold Hart.scaleAddr
  cases f <;> simp [hs]

/-- A field's raw value in device memory: half a byte, or bytes, low bits first. -/
theorem State.readRaw_device {s : State} {va : Word} {pa : Nat} (hlead : LeadsToDevice .load s va pa) (hread : Readable s pa) {f : MemFmt}
    (hf : f ≠ .nested) (m sub : Nat) (cls : Fin 16) (key : Nat) : s.readRaw f m va sub cls key =
      .ok (if m = 4 then (s.mem.get pa).toNat / 2 ^ sub % 16 else s.mem.getNat pa (m / 8)) s := by
  have hbytes : ∀ n, s.loadBytes va n cls key = .ok (s.mem.getBytes pa n) s := fun n =>
    State.loadBytes_finds (.inl ⟨pa, hlead, hread, rfl⟩) cls key
  unfold State.readRaw
  rw [if_neg hf]
  split
  · rw [State.byteAt, hbytes]
    simp only [gotAt, Got.bind, bits, Memory.getBytes, leNat]
    rfl
  · rw [hbytes]
    rfl

theorem widen_int {f : MemFmt} {t : Tag} (ht : isIntTag t = true) (hf : f = .int8 ∨ f = .int4 ∨ f = .nested) (raw : Nat) (sc : BlockScale) :
    widen f t raw sc = Claim.bitsOfInt (tagWidth t) (Claim.signedOfBits (if f = .int4 then 4 else 8) raw) := by
  have hfp := isFpTag_of_isIntTag ht
  unfold widen
  obtain rfl | rfl | rfl := hf <;>
  · dsimp only
    rw [hfp, if_neg Bool.false_ne_true, wrap_eq_bitsOfInt]
    rfl

theorem memoryFieldsWidenToTheRegister : Claim.MemoryFieldsWidenToTheRegister := by
  intro s f cls base e k x pa T m va hf hscale hlead hread raw
  refine ⟨?_, rfl, fun ht _ => widen_int ht (.inl rfl) raw _, fun ht _ => widen_int ht (.inr (.inl rfl)) raw _, fun _ => rfl⟩
  have haddr : elemAddr f m base x.j = (va, (x.j * m % 8).toNat) := if_neg hf
  have hnone : (if isFpTag T then s.hart.scaleAddr f x.scale else none) = none := by
    rw [Hart.scaleAddr_zero hscale, ite_self]
  unfold State.loadField
  dsimp only
  rw [haddr, hnone]
  dsimp only [State.readScale, Got.bind]
  rw [State.readRaw_device hlead hread hf]

/-- Settles O23, claim by claim. -/
theorem vectorLoadsWidenTheirElements : Obligations.VectorLoadsWidenTheirElements :=
  ⟨vectorLoadsWriteTheirActiveElements, memoryFieldsWidenToTheRegister⟩

end Sys2Proof.Machine
end

section
/-! Settled here: O34, queued matrix instructions have their effect in order (R147, R285-R295, R297). -/

namespace Sys2Proof.Machine

open Sys2Proof.Safety

/-! ### An instruction completes -/

/-- The machine once the oldest instruction of an engine has left the queue, the engine being `x` after its effect. -/
def State.retireMatrix (s : State) (c : Fin 64) (r : List MatrixOp) (x : Cluster) : State :=
  { s with clusters := s.clusters.set c { x with queue := r, busy := false, stray := none } }

section
variable {c : Fin 64} {s : State} {op : MatrixOp} {r : List MatrixOp}

/-- An instruction whose effect is on its engine, and on `t` for the rest, retires it. -/
theorem execMatrixInstructionComplete_of_effect {t : State} {x : Cluster} (hbusy : s.clusters[c].busy = true)
    (hqueue : s.clusters[c].queue = op :: r)
    (heffect : s.matrixEffect c (gangOf (s.clusters[c].owner.getD s.hart.id)) op = .ok { t with clusters := t.clusters.set c x }) :
    execMatrixInstructionComplete c s = .next (t.retireMatrix c r x) := by
  simp only [execMatrixInstructionComplete, hqueue, hbusy, heffect, not_true_eq_false, if_false]
  simp [State.retireMatrix]

theorem exec_matrixInstructionBegin (hqueue : s.clusters[c].queue ≠ []) (hbusy : s.clusters[c].busy = false) :
    execMatrixInstructionBegin c s = .next { s with clusters := s.clusters.set c { s.clusters[c] with
      busy := true, owner := (s.program? c).map (·.id), stray := none } } := by
  have hidle : ¬ s.clusters[c].busy = true := by rw [hbusy]; exact Bool.false_ne_true
  rw [execMatrixInstructionBegin, if_neg (not_or.mpr ⟨mt List.isEmpty_iff.mp hqueue, hidle⟩)]

theorem exec_matrixInstructionBegin_idle (h : s.clusters[c].queue = [] ∨ s.clusters[c].busy = true) :
    execMatrixInstructionBegin c s = .next s := by
  rw [execMatrixInstructionBegin, if_pos (by simpa using h)]

theorem exec_matrixInstructionComplete_idle (h : s.clusters[c].queue = [] ∨ s.clusters[c].busy = false) :
    execMatrixInstructionComplete c s = .next s := by
  simp only [execMatrixInstructionComplete]
  rcases h with h | h
  · rw [h]
  · cases s.clusters[c].queue with
    | nil => rfl
    | cons op r => simp only [h, Bool.false_eq_true, not_false_eq_true, if_true]

end

theorem bits_eq_extractLsb' (v : Word) (lo n : Nat) : bits v.toNat lo n = (v.extractLsb' lo n).toNat := by
  simp [bits, BitVec.extractLsb'_toNat, Nat.shiftRight_eq_div_pow]

theorem ofNat_bits (v : Word) (lo n : Nat) : BitVec.ofNat n (bits v.toNat lo n) = v.extractLsb' lo n := by
  rw [bits_eq_extractLsb', BitVec.ofNat_toNat, BitVec.setWidth_eq]

theorem matrixEffect_cfg {s : State} {c : Fin 64} {g : GangId} {v : Word} (h : (v.extractLsb' 27 3).toNat ≤ 4) :
    s.matrixEffect c g (.cfg v) = .ok { s with clusters := s.clusters.set c { s.clusters[c] with
      mode := v.extractLsb' 27 3, brow := v.extractLsb' 30 3, bcol := v.extractLsb' 33 2
      trowsM1 := v.extractLsb' 35 11, tcolsM1 := v.extractLsb' 46 10 } } := by
  have hmode : ¬ 4 < bits v.toNat 27 3 := by rw [bits_eq_extractLsb']; omega
  simp only [State.matrixEffect, if_neg hmode, ofNat_bits]

theorem matrixEffect_mma {s : State} {c : Fin 64} {g : GangId} {k : Fin 4} (h : s.clusters[c].bMode = some s.clusters[c].mode) :
    s.matrixEffect c g (.mma k) = .ok { s with clusters := s.clusters.set c (s.mma s.clusters[c] k.val) } := by
  have hfilled : ¬ (s.clusters[c].bMode.isSome = true ∧ s.clusters[c].bMode ≠ some s.clusters[c].mode) := fun hother => hother.2 h
  simp only [State.matrixEffect, if_neg hfilled]

/-! ### Numbers as digits of some bits -/

/-- Numbers of `w` bits put side by side, the lowest first. -/
theorem foldl_positions_eq_ofDigits {α : Type} (w : Nat) (f : α → Nat) (l : List α) :
    (positions l).foldl (fun acc x => acc + f x.2 * 2 ^ (w * x.1)) 0 = Nat.ofDigits (2 ^ w) (l.map f) := by
  have hgen : ∀ (l : List α) (k a : Nat), ((List.range' k l.length).zip l).foldl (fun acc x => acc + f x.2 * 2 ^ (w * x.1)) a =
      a + 2 ^ (w * k) * Nat.ofDigits (2 ^ w) (l.map f) := by
    intro l
    induction l with
    | nil => simp
    | cons v l ih =>
      intro k a
      simp only [List.length_cons, List.range'_succ, List.zip_cons_cons, List.foldl_cons, ih, List.map_cons, Nat.ofDigits_cons]
      rw [show w * (k + 1) = w * k + w by ring, pow_add]
      ring
  simpa [positions, List.range_eq_range'] using hgen l 0 0

/-- Each digit stands in its own bits. -/
theorem extractLsb'_ofDigits {w W : Nat} (hw : 0 < w) {l : List Nat} (hl : ∀ v ∈ l, v < 2 ^ w) {n : Nat} (hn : w * n + w ≤ W) :
    ((BitVec.ofNat W (Nat.ofDigits (2 ^ w) l)).extractLsb' (w * n) w).toNat = l.getD n 0 := by
  have hdrop := Nat.ofDigits_div_pow_eq_ofDigits_drop n (Nat.pow_pos (n := w) Nat.two_pos) l hl
  rw [BitVec.extractLsb'_toNat, BitVec.toNat_ofNat, Nat.shiftRight_eq_div_pow,
    ← Nat.pow_sub_mul_pow 2 (show w * n ≤ W by omega), mul_comm (2 ^ (W - w * n)), Nat.mod_mul_right_div_self,
    Nat.mod_mod_of_dvd _ (Nat.pow_dvd_pow 2 (by omega)), Nat.pow_mul, hdrop]
  rcases Nat.lt_or_ge n l.length with hlt | hge
  · have hv : l[n] < 2 ^ w := hl _ (List.getElem_mem hlt)
    rw [List.drop_eq_getElem_cons hlt, Nat.ofDigits_cons, Nat.add_mul_mod_self_left, Nat.mod_eq_of_lt hv, List.getD_eq_getElem _ _ hlt]
  · simp [List.drop_eq_nil_of_le hge, List.getElem?_eq_none hge]

theorem leNat_eq_ofDigits (l : List Byte) : leNat l = Nat.ofDigits (2 ^ 8) (l.map (·.toNat)) := by
  induction l with
  | nil => rfl
  | cons b l ih => simp [leNat, ih, Nat.ofDigits_cons]

/-- Each byte of a little-endian number stands in its own bits. -/
theorem extractLsb'_leNat {W i : Nat} (l : List Byte) (hi : 8 * i + 8 ≤ W) :
    (BitVec.ofNat W (leNat l)).extractLsb' (8 * i) 8 = l.getD i 0 := by
  apply BitVec.eq_of_toNat_eq
  rw [leNat_eq_ofDigits, extractLsb'_ofDigits (by omega) (by simp; intro b _; exact b.isLt) hi]
  simp only [List.getD_eq_getElem?_getD, List.getElem?_map]
  cases l[i]? <;> rfl

/-! ### The elements and flags after an MMA (R147, R293) -/

/-- An MMA changes the working bank and the flags. -/
theorem mma_eq (s : State) (q : Cluster) (f : Nat) :
    s.mma q f = { q with working := (s.mma q f).working, flags := (s.mma q f).flags } := by
  have hmma : ∃ w g, s.mma q f = { q with working := w, flags := g } := ⟨_, _, rfl⟩
  obtain ⟨w, g, hmma⟩ := hmma
  rw [hmma]

/-- Each element of the working bank is what its own accumulation gives. -/
theorem elemOf_mma {s : State} {q : Cluster} {f : Nat} (hlt : ∀ m n, (s.mmaElem q f m n).1 < 2 ^ 32) (m n : Fin 256) :
    elemOf (s.mma q f).working[m] 32 n.val = (s.mmaElem q f m n.val).1 := by
  have hn : n.val < 256 := n.isLt
  have hrow : (s.mma q f).working[m] =
      BitVec.ofNat 8192 (Nat.ofDigits (2 ^ 32) (((List.range 256).map fun n => s.mmaElem q f m n).map (·.1))) := by
    rw [← foldl_positions_eq_ofDigits]
    simp only [State.mma, Fin.getElem_fin, Vector.getElem_map, Vector.getElem_ofFn]
  rw [elemOf, hrow, extractLsb'_ofDigits (by omega) _ (by omega)]
  · simp [hn]
  · simp only [List.map_map, List.forall_mem_map]
    exact fun n _ => hlt m n

theorem foldl_flag {α β : Type} {raise : α → β → α} {flag : α → Bool} {new : β → Bool}
    (h : ∀ a b, flag (raise a b) = (flag a || new b)) (l : List β) (a : α) :
    flag (l.foldl raise a) = (flag a || l.any new) := by
  induction l generalizing a with
  | nil => simp
  | cons b l ih => simp [ih, h, Bool.or_assoc]

/-- A flag after an MMA: it was set, or one of the accumulations raises it. -/
theorem mma_flag {flag : MatrixFlags → Bool} {new : Raised → Bool} (h : ∀ g r, flag (MatrixFlags.raise g r) = (flag g || new r))
    (s : State) (q : Cluster) (f : Nat) :
    flag (s.mma q f).flags = true ↔ flag q.flags = true ∨ ∃ m n : Fin 256, new (s.mmaElem q f m n.val).2 = true := by
  have hrow (g : MatrixFlags) (r : List (Nat × Raised)) :
      flag (r.foldl (fun g x => g.raise x.2) g) = (flag g || r.any fun x => new x.2) := foldl_flag (fun g x => h g x.2) r g
  simp only [State.mma, foldl_flag hrow, Bool.or_eq_true, List.any_eq_true, Vector.mem_toList_iff, Vector.mem_ofFn]
  refine or_congr_right ⟨?_, ?_⟩
  · rintro ⟨r, ⟨m, rfl⟩, x, hx, hnew⟩
    obtain ⟨n, hn, rfl⟩ := List.mem_map.mp hx
    exact ⟨m, ⟨n, List.mem_range.mp hn⟩, hnew⟩
  · rintro ⟨m, n, hnew⟩
    exact ⟨_, ⟨m, rfl⟩, _, List.mem_map.mpr ⟨n.val, List.mem_range.mpr n.isLt, rfl⟩, hnew⟩

/-! ### Integer accumulations -/

theorem mmaInt_lt (w : Nat) (t : Int) : (mmaInt w t).1 < 2 ^ 32 := by
  rw [mmaInt]
  exact BitVec.isLt _

/-- An integer accumulation clamps once. -/
theorem sgn_mmaInt (w : Nat) (t : Int) : sgn 32 (mmaInt w t).1 = max (-2147483648) (min 2147483647 (sgn 32 w + t)) := by
  have hlo : (-2147483648 : Int) ≤ max (-2147483648) (min 2147483647 (sgn 32 w + t)) := le_max_left ..
  have hhi : max (-2147483648) (min 2147483647 (sgn 32 w + t)) ≤ (2147483647 : Int) := by omega
  simp only [mmaInt, sgn, wrap, BitVec.ofNat_toNat, BitVec.setWidth_eq, BitVec.toInt_ofInt] at *
  rw [Int.bmod_eq_of_le (by norm_num) (by norm_num)]
  norm_num

theorem mmaInt_sat (w : Nat) (t : Int) :
    (mmaInt w t).2.sat = true ↔ sgn 32 w + t < -2147483648 ∨ 2147483647 < sgn 32 w + t := by
  simp only [mmaInt, decide_eq_true_eq]
  norm_num
  omega

/-- An element after an MMA in an integer MODE whose B latch is filled under it. -/
theorem mmaElem_int {s : State} {q : Cluster} (hmode : q.mode ≠ 0) (hb : q.bMode = some q.mode) (f : Nat) (m n : Fin 256) :
    s.mmaElem q f m n.val = mmaInt (elemOf q.working[m] 32 n.val) (((List.range (depthOf q.mode.toNat)).map fun i =>
      sgn 8 (aValue q m f i) * sgn 8 (bElem q.bLatch q.mode.toNat i n.val)).foldl (· + ·) 0) := by
  simp only [State.mmaElem, if_neg hmode, State.bValue, hb, if_true, List.foldl_map]

theorem mma_int_only_sat {s : State} {q : Cluster} (hmode : q.mode ≠ 0) (hb : q.bMode = some q.mode) (f : Nat) :
    (s.mma q f).flags = { q.flags with sat := (s.mma q f).flags.sat } := by
  have hkept (flag : MatrixFlags → Bool) (new : Raised → Bool) (h : ∀ g r, flag (MatrixFlags.raise g r) = (flag g || new r))
      (hnew : ∀ w t, new (mmaInt w t).2 = false) : flag (s.mma q f).flags = flag q.flags := by
    rw [Bool.eq_iff_iff, mma_flag h]
    simp [mmaElem_int hmode hb, hnew]
  have hnv := hkept (·.nv) (·.nv) (fun _ _ => rfl) (fun _ _ => rfl)
  have hof := hkept (·.of) (·.of) (fun _ _ => rfl) (fun _ _ => rfl)
  have huf := hkept (·.uf) (·.uf) (fun _ _ => rfl) (fun _ _ => rfl)
  have hnx := hkept (·.nx) (·.nx) (fun _ _ => rfl) (fun _ _ => rfl)
  dsimp only
  rw [← hnv, ← hof, ← huf, ← hnx]

theorem matrixInstructionsHaveTheirEffect_holds : Claim.MatrixInstructionsHaveTheirEffect := by
  intro c s q done
  refine ⟨exec_matrixInstructionBegin, exec_matrixInstructionBegin_idle, exec_matrixInstructionComplete_idle, fun hbusy r => ?_⟩
  refine ⟨fun hq => ?_, fun hq => ?_, fun v hq hv => ?_, fun k hq hmode hb => ?_⟩
  · exact execMatrixInstructionComplete_of_effect (t := s) hbusy hq rfl
  · exact execMatrixInstructionComplete_of_effect (t := s) hbusy hq rfl
  · exact execMatrixInstructionComplete_of_effect (t := s) hbusy hq (matrixEffect_cfg hv)
  · have helem (m n : Fin 256) := mmaElem_int (s := s) hmode hb k.val m n
    have hlt (m : Fin 256) (n : Nat) : (s.mmaElem q k.val m n).1 < 2 ^ 32 := by
      rw [State.mmaElem, if_neg hmode]
      exact mmaInt_lt _ _
    refine ⟨s.mma q k.val, execMatrixInstructionComplete_of_effect (t := s) hbusy hq (matrixEffect_mma hb), ?_, ?_, ?_⟩
    · exact (mma_eq s q k.val).trans (congrArg (fun g => ({ q with working := (s.mma q k.val).working, flags := g } : Cluster))
        (mma_int_only_sat hmode hb k.val))
    · intro m n
      rw [elemOf_mma hlt, helem, sgn_mmaInt]
    · rw [mma_flag (flag := (·.sat)) (new := (·.sat)) (fun _ _ => rfl)]
      simp only [helem, mmaInt_sat]

/-! ### The exact sum of a float accumulation (R147) -/

/-- One value added to an exact sum; none where that is invalid. -/
def Val.accumulate (v acc : Val) : Option Val :=
  match v, acc with
  | .nan a, b => some (.nan (a || b.isSignalling))
  | .inf a, .nan b => some (.nan (b || (Val.inf a).isSignalling))
  | .fin a, .nan b => some (.nan (b || (Val.fin a).isSignalling))
  | .inf a, .inf b => if a = b then some (.inf a) else none
  | .inf a, .fin _ => some (.inf a)
  | .fin _, .inf b => some (.inf b)
  | .fin a, .fin b => some (.fin (b.add .nearest a))

theorem exactSum_some_cons (v acc : Val) (l : List (Option Val)) :
    exactSum (some v :: l) acc = (v.accumulate acc).bind (exactSum l) := by
  cases v with
  | nan a => cases acc <;> rfl
  | fin a => cases acc <;> rfl
  | inf a =>
    cases acc with
    | nan b => rfl
    | fin b => rfl
    | inf b =>
      rw [exactSum, Val.accumulate]
      split <;> rfl

/-- The values an accumulation takes in make it invalid or a NaN. -/
def NoSum (l : List (Option Val)) : Prop :=
  none ∈ l ∨ (∃ e, some (.nan e) ∈ l) ∨ (some (.inf false) ∈ l ∧ some (.inf true) ∈ l)

/-- The values an accumulation takes in hold infinities of one sign, and nothing that makes it invalid or a NaN. -/
def OneInf (e : Bool) (l : List (Option Val)) : Prop :=
  some (.inf e) ∈ l ∧ some (.inf (! e)) ∉ l ∧ (∀ i, some (.nan i) ∉ l) ∧ none ∉ l

/-- What a value added to the sum keeps of the values that make it no sum. -/
theorem NoSum.accumulate {v acc : Val} {l : List (Option Val)} (h : NoSum (some acc :: some v :: l)) :
    v.accumulate acc = none ∨ ∃ x, v.accumulate acc = some x ∧ NoSum (some x :: l) := by
  cases v with
  | nan a => exact .inr ⟨_, rfl, .inr (.inl ⟨_, List.mem_cons_self⟩)⟩
  | fin a =>
    refine .inr ?_
    cases acc with
    | nan b => exact ⟨_, rfl, .inr (.inl ⟨_, List.mem_cons_self⟩)⟩
    | inf b => exact ⟨_, rfl, by simpa [NoSum] using h⟩
    | fin b => exact ⟨_, rfl, by simpa [NoSum] using h⟩
  | inf a =>
    cases acc with
    | nan b => exact .inr ⟨_, rfl, .inr (.inl ⟨_, List.mem_cons_self⟩)⟩
    | fin b => exact .inr ⟨_, rfl, by simpa [NoSum] using h⟩
    | inf b =>
      by_cases hab : a = b
      · exact .inr ⟨_, if_pos hab, by simpa [NoSum, hab] using h⟩
      · exact .inl (if_neg hab)

theorem OneInf.accumulate {e : Bool} {v acc : Val} {l : List (Option Val)} (h : OneInf e (some acc :: some v :: l)) :
    ∃ x, v.accumulate acc = some x ∧ OneInf e (some x :: l) := by
  obtain ⟨hinf, hother, hnan, hnone⟩ := h
  cases v with
  | nan a => exact absurd (by simp) (hnan a)
  | fin a =>
    cases acc with
    | nan b => exact absurd (by simp) (hnan b)
    | inf b => exact ⟨_, rfl, by simpa using hinf, by simpa using hother, by simpa using hnan, by simpa using hnone⟩
    | fin b => exact ⟨_, rfl, by simpa using hinf, by simpa using hother, by simpa using hnan, by simpa using hnone⟩
  | inf a =>
    have hv : a = e := by
      by_contra hne
      exact hother (by simp [Bool.eq_not_of_ne hne])
    cases acc with
    | nan b => exact absurd (by simp) (hnan b)
    | fin b => exact ⟨_, rfl, by simp [hv], by simpa using hother, by simpa using hnan, by simpa using hnone⟩
    | inf b =>
      have hacc : b = e := by
        by_contra hne
        exact hother (by simp [Bool.eq_not_of_ne hne])
      exact ⟨_, if_pos (hv.trans hacc.symm), by simp [hv], by simpa [hacc] using hother, by simpa using hnan, by simpa using hnone⟩

/-- An invalid value, a NaN, or infinities of both signs leave no sum. -/
theorem exactSum_of_noSum {l : List (Option Val)} : ∀ {acc : Val}, NoSum (some acc :: l) →
    exactSum l acc = none ∨ ∃ i, exactSum l acc = some (.nan i) := by
  induction l with
  | nil =>
    rintro acc (h | ⟨e, h⟩ | ⟨hf, ht⟩)
    · simp at h
    · exact .inr ⟨e, (List.mem_singleton.mp h).symm⟩
    · exact absurd ((List.mem_singleton.mp hf).trans (List.mem_singleton.mp ht).symm) (by simp)
  | cons t l ih =>
    intro acc h
    cases t with
    | none => exact .inl rfl
    | some v =>
      rw [exactSum_some_cons]
      obtain hinvalid | ⟨x, hx, hl⟩ := h.accumulate
      · exact .inl (by rw [hinvalid]; rfl)
      · rw [hx]
        exact ih hl

/-- Infinities of one sign and finite values sum to that infinity. -/
theorem exactSum_of_oneInf {e : Bool} {l : List (Option Val)} : ∀ {acc : Val}, OneInf e (some acc :: l) →
    exactSum l acc = some (.inf e) := by
  induction l with
  | nil =>
    intro acc h
    exact (List.mem_singleton.mp h.1).symm
  | cons t l ih =>
    intro acc h
    cases t with
    | none =>
      obtain ⟨_, _, _, hnone⟩ := h
      exact absurd (by simp) hnone
    | some v =>
      obtain ⟨x, hx, hl⟩ := h.accumulate
      rw [exactSum_some_cons, hx]
      exact ih hl

theorem exactSum_finite {α : Type} (p : α → Exact) (l : List α) (a : Exact) :
    exactSum (l.map fun k => some (.fin (p k))) (.fin a) = some (.fin (l.foldl (fun t k => t.add .nearest (p k)) a)) := by
  induction l generalizing a with
  | nil => rfl
  | cons k l ih => exact ih _

/-- A finite sum has finite values alone. -/
theorem finite_of_exactSum {v : Exact} {l : List (Option Val)} : ∀ {acc : Val}, exactSum l acc = some (.fin v) →
    ∀ t ∈ some acc :: l, ∃ x, t = some (.fin x) := by
  induction l with
  | nil =>
    intro acc h t ht
    rw [List.mem_singleton.mp ht]
    exact ⟨v, h⟩
  | cons t l ih =>
    intro acc h
    cases t with
    | none => cases h
    | some w =>
      rw [exactSum_some_cons, Option.bind_eq_some_iff] at h
      obtain ⟨x, hx, hl⟩ := h
      obtain ⟨y, hy⟩ := ih hl _ List.mem_cons_self
      have hall := fun t ht => ih hl t (List.mem_cons_of_mem _ ht)
      obtain rfl := Option.some.inj hy
      cases w with
      | nan a => cases hx
      | inf a =>
        cases acc with
        | nan b => cases hx
        | fin b => cases hx
        | inf b =>
          rw [Val.accumulate] at hx
          split at hx <;> cases hx
      | fin a =>
        cases acc with
        | nan b => cases hx
        | inf b => cases hx
        | fin b => simpa using hall

/-! ### A float accumulation (R147, R293) -/

theorem fp32_withSign_lt (e : Bool) {b : Nat} (hb : b ≤ fp32.infBits) : fp32.withSign e b < 2 ^ 32 := by
  have hinf : fp32.infBits = 0x7F800000 := rfl
  have hsign : fp32.signBit = 0x80000000 := rfl
  rw [Fmt.withSign, hsign]
  split <;> omega

/-- A rounding gives an encoding up to that of infinity, with a sign. -/
theorem Fmt.exists_round_eq (k : Fmt) (r : Rounding) (x : Exact) : ∃ e b, b ≤ k.infBits ∧ (k.round r x).1 = k.withSign e b := by
  unfold Fmt.round
  split
  · exact ⟨_, _, Nat.zero_le _, rfl⟩
  · dsimp only
    generalize max (_ : Int) _ = q
    split
    next =>
      have hle (toInf : Bool) : (if toInf then k.infBits else k.infBits - 1) ≤ k.infBits := by
        split
        · exact le_rfl
        · exact Nat.sub_le _ _
      exact ⟨_, _, hle _, rfl⟩
    next hlt => exact ⟨_, _, (not_le.1 hlt).le, rfl⟩

theorem fp32_round_lt (r : Rounding) (x : Exact) : (fp32.round r x).1 < 2 ^ 32 := by
  obtain ⟨e, b, hb, hround⟩ := fp32.exists_round_eq r x
  rw [hround]
  exact fp32_withSign_lt e hb

theorem fp32_deliver_lt (r : Rounding) (v : Val) : (fp32.deliver r v).1 < 2 ^ 32 := by
  cases v with
  | nan e => exact show fp32.nanBits < 2 ^ 32 by decide
  | inf e => exact fp32_withSign_lt e le_rfl
  | fin x => exact fp32_round_lt r x

theorem Fmt.round_sat (k : Fmt) (r : Rounding) (x : Exact) : (k.round r x).2.sat = false := by
  unfold Fmt.round
  split
  · rfl
  · dsimp only
    generalize max (_ : Int) _ = q
    split <;> rfl

section
variable {w : Nat} {l : List (Option Val)}

theorem mmaFloat_of_noSum (h : exactSum l (fp32.decode w) = none ∨ ∃ i, exactSum l (fp32.decode w) = some (.nan i)) :
    (mmaFloat w l).1 = fp32.nanBits := by
  rw [mmaFloat]
  obtain h | ⟨i, h⟩ := h <;> rw [h] <;> rfl

theorem mmaFloat_of_inf {e : Bool} (h : exactSum l (fp32.decode w) = some (.inf e)) :
    mmaFloat w l = (fp32.withSign e fp32.infBits, .none) := by
  rw [mmaFloat, h]
  rfl

theorem mmaFloat_of_fin {x : Exact} (h : exactSum l (fp32.decode w) = some (.fin x)) :
    mmaFloat w l = fp32.deliver .nearest (.fin x) := by
  rw [mmaFloat, h]

theorem mmaFloat_lt : (mmaFloat w l).1 < 2 ^ 32 := by
  rcases hsum : exactSum l (fp32.decode w) with _ | (i | e | x)
  · rw [mmaFloat_of_noSum (.inl hsum)]
    decide
  · rw [mmaFloat_of_noSum (.inr ⟨i, hsum⟩)]
    decide
  · rw [mmaFloat_of_inf hsum]
    exact fp32_withSign_lt e le_rfl
  · rw [mmaFloat_of_fin hsum]
    exact fp32_deliver_lt _ _

/-- Exceptions besides NV come from the rounding of a finite sum. -/
theorem mmaFloat_flag {flag : Raised → Bool} (hflag : ∀ b, flag { nv := b } = false) :
    flag (mmaFloat w l).2 = true ↔ ∃ x, exactSum l (fp32.decode w) = some (.fin x) ∧ flag (fp32.deliver .nearest (.fin x)).2 = true := by
  rcases hsum : exactSum l (fp32.decode w) with _ | (i | e | x)
  · simp [mmaFloat, hsum, Fmt.invalid, hflag]
  · simp [mmaFloat, hsum, Fmt.nanOf, hflag]
  · simp [mmaFloat_of_inf hsum, Raised.none, hflag]
  · simp [mmaFloat_of_fin hsum]

end

/-! ### MMA in MODE 0 -/

/-- Product `k` of row `m` and column `n`. -/
def Cluster.mmaTerm (q : Cluster) (f : Nat) (m n : Fin 256) (k : Nat) : Option Val :=
  (bf16.decode (aValue q m f k)).mul (bf16.decode (bElem q.bLatch 0 k n.val))

/-- What an accumulation adds to an element: its old value and its 32 products are numbers. -/
def Cluster.mmaFinite (q : Cluster) (f : Nat) (m n : Fin 256) (p : Nat → Exact) (a : Exact) : Prop :=
  fp32.decode (elemOf q.working[m] 32 n.val) = .fin a ∧ ∀ k, k < 32 → q.mmaTerm f m n k = some (.fin (p k))

theorem mmaElem_float {s : State} {q : Cluster} (hmode : q.mode = 0) (hb : q.bMode = some 0) (f : Nat) (m n : Fin 256) :
    s.mmaElem q f m n.val = mmaFloat (elemOf q.working[m] 32 n.val) ((List.range 32).map (q.mmaTerm f m n)) := by
  rw [State.mmaElem, if_pos hmode]
  simp only [State.bValue, hb, hmode, if_true]
  rfl

section
variable {q : Cluster} {f : Nat} {m n : Fin 256}

/-- The sum of one element is finite where its old value and all products are. -/
theorem exactSum_mmaTerm_iff {x : Exact} :
    exactSum ((List.range 32).map (q.mmaTerm f m n)) (fp32.decode (elemOf q.working[m] 32 n.val)) = some (.fin x) ↔
      ∃ p a, q.mmaFinite f m n p a ∧ x = (List.range 32).foldl (fun t k => t.add .nearest (p k)) a := by
  have hsum {p : Nat → Exact} {a : Exact} (h : q.mmaFinite f m n p a) :
      exactSum ((List.range 32).map (q.mmaTerm f m n)) (fp32.decode (elemOf q.working[m] 32 n.val)) =
        some (.fin ((List.range 32).foldl (fun t k => t.add .nearest (p k)) a)) := by
    obtain ⟨hold, hterm⟩ := h
    rw [hold, ← exactSum_finite, List.map_congr_left fun k hk => hterm k (List.mem_range.mp hk)]
  constructor
  · intro h
    have hall := finite_of_exactSum h
    have hterm : ∀ k, ∃ y, k < 32 → q.mmaTerm f m n k = some (.fin y) := by
      intro k
      by_cases hk : k < 32
      · obtain ⟨y, hy⟩ := hall (q.mmaTerm f m n k) (List.mem_cons_of_mem _ (List.mem_map_of_mem (List.mem_range.mpr hk)))
        exact ⟨y, fun _ => hy⟩
      · exact ⟨⟨false, 0, 0, false⟩, fun h => absurd h hk⟩
    choose p hp using hterm
    obtain ⟨a, ha⟩ := hall _ List.mem_cons_self
    have hfinite : q.mmaFinite f m n p a := ⟨Option.some.inj ha, hp⟩
    refine ⟨p, a, hfinite, ?_⟩
    exact Val.fin.inj (Option.some.inj (h.symm.trans (hsum hfinite)))
  · rintro ⟨p, a, h, hx⟩
    rw [hx]
    exact hsum h

/-- An element has a value among what it adds up. -/
theorem mem_mmaTerms {v : Val} : some v ∈ some (fp32.decode (elemOf q.working[m] 32 n.val)) :: (List.range 32).map (q.mmaTerm f m n) ↔
    fp32.decode (elemOf q.working[m] 32 n.val) = v ∨ ∃ k, k < 32 ∧ q.mmaTerm f m n k = some v := by
  simp [eq_comm]

theorem none_mem_mmaTerms {v : Val} : none ∈ some v :: (List.range 32).map (q.mmaTerm f m n) ↔
    ∃ k, k < 32 ∧ q.mmaTerm f m n k = none := by
  simp

end

theorem mmaAddsExactSumsOfFloats : Claim.MmaAddsExactSumsOfFloats := by
  intro c s f r q hbusy hq hmode hb
  have hb' : q.bMode = some q.mode := by rw [hb, hmode]
  have helem (m n : Fin 256) := mmaElem_float (s := s) hmode hb f.val m n
  have hnew : ∀ m n : Fin 256, elemOf (s.mma q f.val).working[m] 32 n.val =
      (mmaFloat (elemOf q.working[m] 32 n.val) ((List.range 32).map (q.mmaTerm f.val m n))).1 := by
    intro m n
    rw [elemOf_mma _ m n, helem]
    intro m n
    rw [State.mmaElem, if_pos hmode]
    exact mmaFloat_lt
  have hsticky (flag : MatrixFlags → Bool) (new : Raised → Bool) (h : ∀ g r, flag (MatrixFlags.raise g r) = (flag g || new r))
      (hnv : ∀ b, new { nv := b } = false) :
      flag (s.mma q f.val).flags = true ↔ flag q.flags = true ∨ ∃ m n p a, q.mmaFinite f.val m n p a ∧
        new (fp32.deliver .nearest (.fin ((List.range 32).foldl (fun t k => t.add .nearest (p k)) a))).2 = true := by
    simp only [mma_flag h, helem, mmaFloat_flag hnv, exactSum_mmaTerm_iff]
    refine or_congr_right (exists_congr fun m => exists_congr fun n => ⟨?_, ?_⟩)
    · rintro ⟨x, ⟨p, a, hfin, hx⟩, hraise⟩
      rw [hx] at hraise
      exact ⟨p, a, hfin, hraise⟩
    · rintro ⟨p, a, hfin, hraise⟩
      exact ⟨_, ⟨p, a, hfin, rfl⟩, hraise⟩
  have hsat : (s.mma q f.val).flags.sat = q.flags.sat := by
    rw [Bool.eq_iff_iff, hsticky (·.sat) (·.sat) (fun _ _ => rfl) fun _ => rfl]
    simp only [Fmt.deliver, Fmt.round_sat, Bool.false_eq_true, and_false, exists_false, or_false]
  refine ⟨s.mma q f.val, execMatrixInstructionComplete_of_effect (t := s) hbusy hq (matrixEffect_mma hb'), ?_, ?_⟩
  · have hflags : (s.mma q f.val).flags = { (s.mma q f.val).flags with sat := q.flags.sat } := by rw [← hsat]
    exact (mma_eq s q f.val).trans (congrArg (fun g => ({ q with working := (s.mma q f.val).working, flags := g } : Cluster)) hflags)
  refine ⟨fun m n p a hfin => ?_, fun m n hno => ?_, fun m n e hinf hother hnan hnone => ?_, ?_⟩
  · exact (hnew m n).trans (congrArg Prod.fst (mmaFloat_of_fin (exactSum_mmaTerm_iff.mpr ⟨p, a, hfin, rfl⟩)))
  · refine (hnew m n).trans (mmaFloat_of_noSum (exactSum_of_noSum ?_))
    simp only [NoSum, mem_mmaTerms, none_mem_mmaTerms]
    obtain hnan | hinf | hterm := hno
    · exact .inr (.inl hnan)
    · exact .inr (.inr hinf)
    · exact .inl hterm
  · refine (hnew m n).trans (congrArg Prod.fst (mmaFloat_of_inf (exactSum_of_oneInf ?_)))
    simp only [OneInf, mem_mmaTerms, none_mem_mmaTerms]
    exact ⟨hinf, hother, hnan, fun h => h.elim fun k hk => hnone k hk.1 hk.2⟩
  · have hof := hsticky (·.of) (·.of) (fun _ _ => rfl) fun _ => rfl
    have huf := hsticky (·.uf) (·.uf) (fun _ _ => rfl) fun _ => rfl
    have hnx := hsticky (·.nx) (·.nx) (fun _ _ => rfl) fun _ => rfl
    have hnv := (mma_flag (flag := (·.nv)) (new := (·.nv)) (fun _ _ => rfl) s q f.val).mpr
    dsimp only [Cluster.mmaFinite, Cluster.mmaTerm] at hof huf hnx ⊢
    exact ⟨hof, huf, hnx, fun h => hnv (.inl h)⟩

/-! ### The bytes an engine accesses (R59, R440, R441) -/

section
variable {s : State} {g : GangId} {read : Bool}

/-- What a byte the engine may access is, by its address. -/
theorem engineByte_iff {a : Nat} {v : Byte} : Claim.EngineByte s g read a v ↔ clusterBase ≤ a ∧ a < clusterBase + clusterSize ∧
    ∃ K, s.bank? (some g) ((a - clusterBase) / 0x40000) = some K ∧ K.switching = none ∧ K.mode = .scratch ∧
      (read = true → K.bad.contains ((a - clusterBase) % 0x40000 / 32) = false) ∧ K.bytes.get ((a - clusterBase) % 0x40000) = v := by
  have hsize : clusterSize = 48 * 0x40000 := rfl
  constructor
  · rintro ⟨b, off, K, rfl, hb, hoff, hK⟩
    have hbank : (clusterBase + b * 0x40000 + off - clusterBase) / 0x40000 = b := by omega
    have hat : (clusterBase + b * 0x40000 + off - clusterBase) % 0x40000 = off := by omega
    rw [hbank, hat]
    exact ⟨by omega, by omega, K, hK⟩
  · rintro ⟨hlo, hhi, K, hK⟩
    exact ⟨_, _, K, by omega, by omega, Nat.mod_lt _ (by norm_num), hK⟩

theorem judgeBanks_eq_ok {a n : Nat} (h : ∀ i, i < n → ∃ v, Claim.EngineByte s g read (a + i) v) : s.judgeBanks g read a n = .ok () := by
  rw [State.judgeBanks]
  dsimp only
  rw [List.findSome?_eq_none_iff.mpr, if_neg]
  · simp only [List.any_eq_true, List.mem_range, not_exists, not_and]
    intro i hi
    obtain ⟨v, hv⟩ := h i hi
    obtain ⟨_, _, K, hK, hswitch, _⟩ := engineByte_iff.mp hv
    simp [hK, hswitch]
  · intro i hi
    obtain ⟨v, hv⟩ := h i (List.mem_range.mp hi)
    obtain ⟨hlo, hhi, K, hK, hswitch, hmode, hbad, _⟩ := engineByte_iff.mp hv
    have hscratch : K.isScratch = true := by rw [Bank.isScratch, hmode]; rfl
    have hgood : ¬ (read = true ∧ K.bad.contains ((a + i - clusterBase) % 0x40000 / 32) = true) := by
      rintro ⟨hread, hbad'⟩
      rw [hbad hread] at hbad'
      cases hbad'
    rw [if_neg (show ¬ (a + i < clusterBase ∨ clusterBase + clusterSize ≤ a + i) by omega), hK]
    dsimp only
    rw [if_neg (by rw [hswitch]; exact Bool.false_ne_true), if_neg (not_not.mpr hscratch), if_neg hgood]

theorem engineRead_eq_ok {a : Word} {n : Nat} {byte : Nat → Byte}
    (h : ∀ i, i < n → Claim.EngineByte s g true (a.toNat + i) (byte (a.toNat + i))) :
    s.engineRead g a n = .ok ((List.range n).map fun i => byte (a.toNat + i)) := by
  have hwindow : s.windowBytes g a.toNat n = (List.range n).map fun i => byte (a.toNat + i) := by
    refine List.map_congr_left fun i hi => ?_
    obtain ⟨_, _, K, hK, _, _, _, hget⟩ := engineByte_iff.mp (h i (List.mem_range.mp hi))
    simp only [hK, hget]
  rw [State.engineRead, judgeBanks_eq_ok fun i hi => ⟨_, h i hi⟩, hwindow]

end

/-! ### Slices of a row of the A latch (R286, R291) -/

/-- Bits of a number with `w` of them replaced. -/
theorem getLsbD_replace {W w lo i : Nat} (r : BitVec W) (d : BitVec w) (hi : i < W) :
    ((r &&& ~~~ ((BitVec.allOnes w).setWidth W <<< lo)) ||| (d.setWidth W <<< lo)).getLsbD i =
      if lo ≤ i ∧ i < lo + w then d.getLsbD (i - lo) else r.getLsbD i := by
  by_cases hlo : lo ≤ i
  · by_cases hin : i < lo + w
    · have hw : i - lo < w := by omega
      simp [hi, hlo, hin, hw, Nat.not_lt.mpr hlo]
    · have hw : ¬ i - lo < w := by omega
      simp [hi, hlo, hin, hw, BitVec.getLsbD_of_ge d _ (Nat.not_lt.mp hw)]
  · simp [hi, hlo, Nat.lt_of_not_ge hlo]

/-- A row with slice `t` replaced by a number's 64 bytes. -/
theorem extractLsb'_putSlice (r : BitVec 2048) (d : BitVec 512) {i t k : Nat} (hi : i < 4) (hk : k < 64) :
    ((r &&& ~~~ ((BitVec.allOnes 512).setWidth 2048 <<< (512 * t))) ||| (d.setWidth 2048 <<< (512 * t))).extractLsb' (8 * (64 * i + k)) 8 =
      if i = t then d.extractLsb' (8 * k) 8 else r.extractLsb' (8 * (64 * i + k)) 8 := by
  apply BitVec.eq_of_getLsbD_eq
  intro b hb
  have hat : 8 * (64 * i + k) + b < 2048 := by omega
  rw [BitVec.getLsbD_extractLsb', getLsbD_replace r d hat]
  by_cases hit : i = t
  · have hin : 512 * t ≤ 8 * (64 * i + k) + b ∧ 8 * (64 * i + k) + b < 512 * t + 512 := by omega
    have hsub : 8 * (64 * i + k) + b - 512 * t = 8 * k + b := by omega
    rw [if_pos hin, if_pos hit, hsub, BitVec.getLsbD_extractLsb']
  · have hout : ¬ (512 * t ≤ 8 * (64 * i + k) + b ∧ 8 * (64 * i + k) + b < 512 * t + 512) := by omega
    rw [if_neg hout, if_neg hit, BitVec.getLsbD_extractLsb']

/-- The bytes of a row some slices of which are filled, from slice `f` on. -/
theorem extractLsb'_putSlices (row : BitVec 2048) (f : Nat) (d : List Byte) {j k : Nat} (hj : j < 4) (hk : k < 64) :
    ∀ {n : Nat}, n ≤ 4 → (putSlices row f n d).extractLsb' (8 * (64 * ((f + j) % 4) + k)) 8 =
      if n ≤ j then row.extractLsb' (8 * (64 * ((f + j) % 4) + k)) 8 else d.getD (64 * j + k) 0 := by
  intro n
  induction n with
  | zero => exact fun _ => (if_pos (Nat.zero_le j)).symm
  | succ n ih =>
    intro hn
    have hstep : putSlices row f (n + 1) d =
        (putSlices row f n d &&& ~~~ ((BitVec.allOnes 512).setWidth 2048 <<< (512 * ((f + n) % 4)))) |||
          ((BitVec.ofNat 512 (leNat ((d.drop (64 * n)).take 64))).setWidth 2048 <<< (512 * ((f + n) % 4))) := by
      simp only [putSlices, List.range_succ, List.foldl_append, List.foldl_cons, List.foldl_nil]
    rw [hstep, extractLsb'_putSlice _ _ (Nat.mod_lt _ (by norm_num)) hk]
    by_cases hjn : j = n
    · subst hjn
      rw [if_pos rfl, if_neg (by omega), extractLsb'_leNat _ (by omega)]
      simp [List.getD_eq_getElem?_getD, hk]
    · have hslice : (f + j) % 4 ≠ (f + n) % 4 := by omega
      have hle : n + 1 ≤ j ↔ n ≤ j := by omega
      simp only [if_neg hslice, ih (by omega), hle]

/-! ### MGATHER (R291) -/

section
variable {s : State} {g : GangId} {index base : Word} {rows stride n : Nat} {byte : Nat → Byte}

/-- The index entry of a row. -/
def gatherEntry (byte : Nat → Byte) (index : Word) (m : Nat) : Nat :=
  (byte (index + BitVec.ofNat 64 (2 * m)).toNat).toNat + 256 * (byte ((index + BitVec.ofNat 64 (2 * m)).toNat + 1)).toNat

/-- Address of the bytes an index entry selects. -/
def gatherSource (byte : Nat → Byte) (index base : Word) (stride m : Nat) : Word :=
  base + BitVec.ofNat 64 (gatherEntry byte index m * stride)

/-- The bytes MGATHER reads for a row. -/
def gatherBytes (byte : Nat → Byte) (index base : Word) (rows stride n m : Nat) : List Byte :=
  if rows ≤ m ∨ gatherEntry byte index m = 0xFFFF then List.replicate (64 * n) 0
  else (List.range (64 * n)).map fun i => byte ((gatherSource byte index base stride m).toNat + i)

theorem gatherRows_eq_ok
    (hentry : ∀ m, m < rows → ∀ i, i < 2 → Claim.EngineByte s g true ((index + BitVec.ofNat 64 (2 * m)).toNat + i)
      (byte ((index + BitVec.ofNat 64 (2 * m)).toNat + i)))
    (hsource : ∀ m, m < rows → gatherEntry byte index m ≠ 0xFFFF → ∀ i, i < 64 * n →
      Claim.EngineByte s g true ((gatherSource byte index base stride m).toNat + i) (byte ((gatherSource byte index base stride m).toNat + i))) :
    ∀ f m : Nat, s.gatherRows g index base rows stride n f m = .ok ((List.range' m f).map (gatherBytes byte index base rows stride n)) := by
  intro f
  induction f with
  | zero => exact fun m => rfl
  | succ f ih =>
    intro m
    rw [State.gatherRows, ih (m + 1), List.range'_succ, List.map_cons]
    dsimp only
    by_cases hpast : rows ≤ m
    · rw [if_pos hpast, gatherBytes, if_pos (.inl hpast)]
    · have hm : m < rows := Nat.lt_of_not_ge hpast
      have hle : leNat ((List.range 2).map fun i => byte ((index + BitVec.ofNat 64 (2 * m)).toNat + i)) = gatherEntry byte index m := by
        simp [leNat, gatherEntry, List.range_succ]
      rw [if_neg hpast, engineRead_eq_ok (hentry m hm)]
      dsimp only
      rw [hle]
      by_cases hnone : gatherEntry byte index m = 0xFFFF
      · rw [if_pos hnone, gatherBytes, if_pos (.inr hnone)]
      · rw [if_neg hnone, gatherBytes, if_neg (not_or.mpr ⟨hpast, hnone⟩)]
        have hread : s.engineRead g (base + BitVec.ofNat 64 (gatherEntry byte index m * stride)) (64 * n) =
            .ok ((List.range (64 * n)).map fun i => byte ((gatherSource byte index base stride m).toNat + i)) :=
          engineRead_eq_ok (hsource m hm hnone)
        rw [hread]

/-- A byte MGATHER reads for a row. -/
theorem gatherBytes_getD {m i : Nat} (hi : i < 64 * n) : (gatherBytes byte index base rows stride n m).getD i 0 =
    if rows ≤ m ∨ gatherEntry byte index m = 0xFFFF then 0 else byte ((gatherSource byte index base stride m).toNat + i) := by
  rw [gatherBytes]
  split
  · simp
  · simp [List.getD_eq_getElem?_getD, hi]

end

/-! ### MLDB (R292) -/

section
variable {s : State} {g : GangId}

theorem judgeLines_eq_ok : ∀ {n : Nat} {a : Word},
    (∀ o, o < n → ∃ v, Claim.EngineByte s g false (a + BitVec.ofNat 64 (128 * o)).toNat v) → s.judgeLines g n a = .ok () := by
  intro n
  induction n with
  | zero => exact fun _ => rfl
  | succ n ih =>
    intro a h
    have hfirst : ∀ i, i < 1 → ∃ v, Claim.EngineByte s g false (a.toNat + i) v := by
      intro i hi
      obtain rfl : i = 0 := by omega
      simpa using h 0 (Nat.succ_pos n)
    rw [State.judgeLines, judgeBanks_eq_ok hfirst]
    refine ih fun o ho => ?_
    have hnext : a + 128 + BitVec.ofNat 64 (128 * o) = a + BitVec.ofNat 64 (128 * (o + 1)) := by
      rw [BitVec.add_assoc, show 128 * (o + 1) = 128 + 128 * o by ring, BitVec.ofNat_add]
      rfl
    rw [hnext]
    exact h (o + 1) (Nat.succ_lt_succ ho)

/-- The bytes that pieces of a source hold, one piece after another. -/
def pieceBytes (at_ : Nat → Byte) (l : List (Nat × Nat)) : List Byte := l.flatMap fun x => (List.range x.2).map fun i => at_ (x.1 + i)

theorem readPieces_eq_ok {a : Word} {at_ : Nat → Byte} {l : List (Nat × Nat)}
    (h : ∀ x ∈ l, s.engineRead g (a + BitVec.ofNat 64 x.1) x.2 = .ok ((List.range x.2).map fun i => at_ (x.1 + i))) :
    s.readPieces g a l = .ok (pieceBytes at_ l) := by
  induction l with
  | nil => rfl
  | cons x l ih =>
    rw [State.readPieces, h x List.mem_cons_self]
    dsimp only
    rw [ih fun y hy => h y (List.mem_cons_of_mem _ hy)]
    rfl

end

/-- Where byte `o` of the latch's source in a mode lies. -/
def ldbOffset (mode o : Nat) : Nat :=
  if mode ≤ 1 then o else 1024 * (o / (128 * nestedPlanes mode)) + o % (128 * nestedPlanes mode)

theorem depthOf_cases (mode : Nat) : depthOf mode = 32 ∨ depthOf mode = 64 ∨ depthOf mode = 128 ∨ depthOf mode = 256 := by
  unfold depthOf
  split_ifs <;> simp

theorem nestedPlanes_pos (mode : Nat) : 0 < nestedPlanes mode := by
  rw [nestedPlanes]
  split
  · norm_num
  · split <;> norm_num

/-- In the nested modes the planes that are read fill the latch. -/
theorem depthOf_mul_nestedPlanes {mode : Nat} (hmode : 2 ≤ mode) : depthOf mode / 4 * (128 * nestedPlanes mode) = 16384 := by
  rw [depthOf, nestedPlanes, if_neg (by omega)]
  by_cases h2 : mode = 2
  · simp [h2]
  · rw [if_neg (by omega), if_neg h2]
    split <;> rfl

/-- The bytes that fill the B latch, by their place in it. -/
theorem pieceBytes_ldbPieces_getD (at_ : Nat → Byte) (mode : Nat) {o : Nat} (ho : o < 16384) :
    (pieceBytes at_ (ldbPieces mode)).getD o 0 = at_ (ldbOffset mode o) := by
  rw [pieceBytes, ldbPieces, ldbOffset]
  by_cases hmode : mode ≤ 1
  · simp [hmode, List.getD_eq_getElem?_getD, ho]
  · have hz : 0 < 128 * nestedPlanes mode := Nat.mul_pos (by norm_num) (nestedPlanes_pos mode)
    have hsize := depthOf_mul_nestedPlanes (mode := mode) (by omega)
    have hblock : o / (128 * nestedPlanes mode) < depthOf mode / 4 := Nat.div_lt_of_lt_mul (by rwa [mul_comm, hsize])
    have hget := getElem?_flatMap_range (f := fun b => (List.range (128 * nestedPlanes mode)).map fun i => at_ (1024 * b + i))
      (fun _ => by simp) (Nat.mod_lt o hz) hblock
    rw [Nat.div_add_mod] at hget
    rw [if_neg hmode, if_neg hmode, List.flatMap_map, List.getD_eq_getElem?_getD, hget]
    simp [Nat.mod_lt o hz]

/-- Every byte that is read lies in a line of the source that the mode reads. -/
theorem line_of_mem_ldbPieces {mode i : Nat} {x : Nat × Nat} (hx : x ∈ ldbPieces mode) (hi : i < x.2) :
    x.1 % 128 = 0 ∧ (x.1 + i) / 128 < (if mode ≤ 1 then 128 else 2 * depthOf mode) ∧
      (mode ≤ 1 ∨ (x.1 + i) / 128 % 8 < nestedPlanes mode) := by
  rw [ldbPieces] at hx
  by_cases hmode : mode ≤ 1
  · rw [if_pos hmode, List.mem_singleton] at hx
    subst hx
    exact ⟨rfl, by rw [if_pos hmode]; omega, .inl hmode⟩
  · rw [if_neg hmode] at hx ⊢
    obtain ⟨b, hb, rfl⟩ := List.mem_map.mp hx
    have hb : b < depthOf mode / 4 := List.mem_range.mp hb
    have hplanes : nestedPlanes mode ≤ 8 := by
      rw [nestedPlanes]
      split
      · exact le_rfl
      · split <;> norm_num
    dsimp only at hi ⊢
    omega

/-! ### The elements of the B latch (R286, R292) -/

theorem extractLsb'_two_bytes {W : Nat} (b : BitVec W) (e : Nat) : (b.extractLsb' (16 * e) 16).toNat =
    (b.extractLsb' (8 * (2 * e)) 8).toNat + 256 * (b.extractLsb' (8 * (2 * e + 1)) 8).toNat := by
  have hlo : 8 * (2 * e) = 16 * e := by ring
  have hhi : 8 * (2 * e + 1) = 16 * e + 8 := by ring
  rw [hlo, hhi]
  simp only [BitVec.extractLsb'_toNat, Nat.shiftRight_eq_div_pow, pow_add, ← Nat.div_div_eq_div_mul]
  omega

theorem extractLsb'_one_bit {W : Nat} (b : BitVec W) (o : Nat) {j : Nat} (hj : j < 8) :
    (b.extractLsb' (8 * o + j) 1).toNat = ((b.extractLsb' (8 * o) 8).getLsbD j).toNat := by
  rw [BitVec.getLsbD_extractLsb']
  have hbit : b.extractLsb' (8 * o + j) 1 = BitVec.ofBool (b.getLsbD (8 * o + j)) := by
    apply BitVec.eq_of_getLsbD_eq
    intro i hi
    obtain rfl : i = 0 := by omega
    simp
  rw [hbit]
  simp [hj]

theorem foldl_add_eq_sum (f : Nat → Nat) (l : List Nat) : l.foldl (fun acc q => acc + f q) 0 = (l.map f).sum := by
  rw [List.sum_eq_foldl, List.foldl_map]

section
variable {b : BitVec 131072} {at_ : Nat → Byte} {mode k n : Nat}

/-- The elements of a latch that MLDB filled, by the bytes of its source. -/
theorem bElem_of_bytes (hb : ∀ o, o < 16384 → b.extractLsb' (8 * o) 8 = at_ (ldbOffset mode o)) (hk : k < depthOf mode) (hn : n < 256) :
    bElem b mode k n =
      if mode = 0 then (at_ (2 * (256 * k + n))).toNat + 256 * (at_ (2 * (256 * k + n) + 1)).toNat
      else if mode = 1 then (at_ (256 * k + n)).toNat
      else ((List.range (nestedPlanes mode)).map fun p =>
        ((at_ (1024 * (k / 4) + 128 * p + (256 * (k % 4) + n) / 8)).getLsbD ((256 * (k % 4) + n) % 8)).toNat * 2 ^ (7 - p)).sum := by
  rw [bElem]
  by_cases h0 : mode = 0
  · subst h0
    have hk : k < 32 := hk
    rw [if_pos rfl, if_pos rfl, extractLsb'_two_bytes, hb _ (by omega), hb _ (by omega)]
    rfl
  rw [if_neg h0, if_neg h0]
  by_cases h1 : mode = 1
  · subst h1
    have hk : k < 64 := hk
    rw [if_pos rfl, if_pos rfl, hb _ (by omega)]
    rfl
  rw [if_neg h1, if_neg h1]
  have hsize := depthOf_mul_nestedPlanes (mode := mode) (by omega)
  have hdepth := depthOf_cases mode
  have hblock : k / 4 + 1 ≤ depthOf mode / 4 := by omega
  have hz : 128 * nestedPlanes mode * (k / 4) + 128 * nestedPlanes mode ≤ 16384 := by
    calc 128 * nestedPlanes mode * (k / 4) + 128 * nestedPlanes mode = (k / 4 + 1) * (128 * nestedPlanes mode) := by ring
      _ ≤ depthOf mode / 4 * (128 * nestedPlanes mode) := Nat.mul_le_mul_right _ hblock
      _ = 16384 := hsize
  dsimp only
  rw [foldl_add_eq_sum]
  congr 1
  refine List.map_congr_left fun p hp => ?_
  have hp : p < nestedPlanes mode := List.mem_range.mp hp
  have hin : 128 * p + (256 * (k % 4) + n) / 8 < 128 * nestedPlanes mode := by omega
  have hplace : 128 * (nestedPlanes mode * (k / 4) + p) + (256 * (k % 4) + n) / 8 =
      128 * nestedPlanes mode * (k / 4) + (128 * p + (256 * (k % 4) + n) / 8) := by ring
  have hoffset : ldbOffset mode (128 * nestedPlanes mode * (k / 4) + (128 * p + (256 * (k % 4) + n) / 8)) =
      1024 * (k / 4) + 128 * p + (256 * (k % 4) + n) / 8 := by
    rw [ldbOffset, if_neg (by omega), Nat.mul_add_div (by omega), Nat.mul_add_mod, Nat.mod_eq_of_lt hin, Nat.div_eq_of_lt hin]
    ring
  rw [extractLsb'_one_bit _ _ (Nat.mod_lt _ (by norm_num)), hplace, hb _ (by omega), hoffset]

end

section
variable {s : State} {c : Fin 64} {g : GangId}

theorem matrixEffect_gather {index base count : Word} {n f : Fin 4} {l : List (List Byte)}
    (hindex : index.toNat % 2 = 0) (hbase : base.toNat % 4 = 0) (hstride : (count.extractLsb' 0 32).toNat % 4 = 0)
    (hrows : s.gatherRows g index base (min (count.extractLsb' 32 9).toNat 256) (count.extractLsb' 0 32).toNat (n.val + 1) 256 0 = .ok l) :
    s.matrixEffect c g (.gather base index count n f) = .ok { s with clusters := s.clusters.set c { s.clusters[c] with
      aLatch := Vector.ofFn fun m : Fin 256 => putSlices s.clusters[c].aLatch[m] f.val (n.val + 1) (l.getD m.val []) } } := by
  have hmisaligned : ¬ (¬ aligned base 4 = true ∨ (count.extractLsb' 0 32).toNat % 4 ≠ 0) := by
    rw [aligned_iff]
    omega
  simp only [State.matrixEffect, bits_eq_extractLsb']
  rw [if_neg (not_not.mpr (aligned_iff.mpr hindex)), if_neg hmisaligned, hrows]

theorem matrixEffect_ldb {a : Word} {l : List Byte} (ha : a.toNat % 128 = 0)
    (hlines : s.judgeLines g (ldbSize s.clusters[c].mode.toNat / 128) a = .ok ())
    (hpieces : s.readPieces g a (ldbPieces s.clusters[c].mode.toNat) = .ok l) :
    s.matrixEffect c g (.ldb a) = .ok { s with clusters := s.clusters.set c { s.clusters[c] with
      bLatch := BitVec.ofNat 131072 (leNat l), bMode := some s.clusters[c].mode } } := by
  simp only [State.matrixEffect]
  rw [if_neg (not_not.mpr (aligned_iff.mpr ha)), hlines]
  dsimp only
  rw [hpieces]

/-- A number of lines, the first of which is a byte of the banks, does not wrap round. -/
theorem toNat_add_line {a : Word} {v : Byte} (h : Claim.EngineByte s g false a.toNat v) {o : Nat} (ho : o < 2 ^ 20) :
    (a + BitVec.ofNat 64 o).toNat = a.toNat + o := by
  obtain ⟨_, hhi, _⟩ := engineByte_iff.mp h
  have hbase : clusterBase = 0x20000000000000 := rfl
  have hsize : clusterSize = 0xC00000 := rfl
  rw [BitVec.toNat_add, BitVec.toNat_ofNat]
  omega

/-- MLDB reads the lines of its source that the mode names (R292). -/
theorem readPieces_ldbPieces {a : Word} {mode : Nat} {byte at_ : Nat → Byte}
    (hat : ∀ o, at_ o = byte ((a + BitVec.ofNat 64 (o / 128 * 128)).toNat + o % 128))
    (hline : ∀ o, o < (if mode ≤ 1 then 128 else 2 * depthOf mode) →
      (∀ i, i < 128 → ∃ v, Claim.EngineByte s g false ((a + BitVec.ofNat 64 (128 * o)).toNat + i) v) ∧
        (mode ≤ 1 ∨ o % 8 < nestedPlanes mode → ∀ i, i < 128 → Claim.EngineByte s g true ((a + BitVec.ofNat 64 (128 * o)).toNat + i)
          (byte ((a + BitVec.ofNat 64 (128 * o)).toNat + i)))) :
    s.readPieces g a (ldbPieces mode) = .ok (pieceBytes at_ (ldbPieces mode)) := by
  have hdepth := depthOf_cases mode
  have hlines : 0 < (if mode ≤ 1 then 128 else 2 * depthOf mode) ∧ (if mode ≤ 1 then 128 else 2 * depthOf mode) ≤ 512 := by
    split <;> omega
  obtain ⟨v, hfirst⟩ := (hline 0 hlines.1).1 0 (by norm_num)
  have hfirst : Claim.EngineByte s g false a.toNat v := by simpa using hfirst
  refine readPieces_eq_ok fun x hx => ?_
  have hread : ∀ i, i < x.2 → Claim.EngineByte s g true ((a + BitVec.ofNat 64 x.1).toNat + i) (byte ((a + BitVec.ofNat 64 x.1).toNat + i)) ∧
      byte ((a + BitVec.ofNat 64 x.1).toNat + i) = at_ (x.1 + i) := by
    intro i hi
    obtain ⟨hpiece, hin, hplane⟩ := line_of_mem_ldbPieces hx hi
    have hread := (hline _ hin).2 hplane ((x.1 + i) % 128) (Nat.mod_lt _ (by norm_num))
    rw [toNat_add_line hfirst (by omega), add_assoc, Nat.div_add_mod] at hread
    rw [hat, toNat_add_line hfirst (by omega), toNat_add_line hfirst (by omega), Nat.add_assoc _ x.1, Nat.add_assoc _ _ (_ % 128),
      Nat.div_add_mod']
    exact ⟨hread, rfl⟩
  rw [engineRead_eq_ok fun i hi => (hread i hi).1]
  exact congrArg _ (List.map_congr_left fun i hi => (hread i (List.mem_range.mp hi)).2)

end

/-- The A latch after MGATHER: the slices it names, in every row (R286, R291). -/
theorem aLatch_of_gather {c : Fin 64} {s : State} {r : List MatrixOp} {byte : Nat → Byte} {base index count : Word} {n f : Fin 4}
    (hbusy : s.clusters[c].busy = true) (hq : s.clusters[c].queue = .gather base index count n f :: r)
    (hindex : index.toNat % 2 = 0) (hbase : base.toNat % 4 = 0) (hstride : (count.extractLsb' 0 32).toNat % 4 = 0)
    (hrows : s.gatherRows (gangOf (s.clusters[c].owner.getD s.hart.id)) index base (min (count.extractLsb' 32 9).toNat 256)
      (count.extractLsb' 0 32).toNat (n.val + 1) 256 0 =
      .ok ((List.range' 0 256).map
        (gatherBytes byte index base (min (count.extractLsb' 32 9).toNat 256) (count.extractLsb' 0 32).toNat (n.val + 1)))) :
    ∃ x : Cluster, execMatrixInstructionComplete c s = .next (s.retireMatrix c r x) ∧ x = { s.clusters[c] with aLatch := x.aLatch } ∧
      ∀ (m : Fin 256) (j : Fin 4) (k : Fin 64), x.aLatch[m].extractLsb' (8 * (64 * ((f.val + j.val) % 4) + k.val)) 8 =
        if n.val < j.val then s.clusters[c].aLatch[m].extractLsb' (8 * (64 * ((f.val + j.val) % 4) + k.val)) 8
        else if min (count.extractLsb' 32 9).toNat 256 ≤ m.val ∨ gatherEntry byte index m.val = 0xFFFF then 0
        else byte ((gatherSource byte index base (count.extractLsb' 0 32).toNat m.val).toNat + 64 * j.val + k.val) := by
  refine ⟨_, execMatrixInstructionComplete_of_effect (t := s) hbusy hq (matrixEffect_gather hindex hbase hstride hrows), rfl, ?_⟩
  intro m j k
  have hm : m.val < 256 := m.isLt
  have hk : k.val < 64 := k.isLt
  have hn : n.val + 1 ≤ 4 := n.isLt
  simp only [Fin.getElem_fin, Vector.getElem_ofFn]
  rw [extractLsb'_putSlices _ _ _ j.isLt hk hn]
  by_cases hj : n.val < j.val
  · rw [if_pos hj, if_pos (Nat.succ_le_of_lt hj)]
  · rw [if_neg hj, if_neg (mt Nat.lt_of_succ_le hj), List.getD_eq_getElem?_getD (l := List.map _ _), List.getElem?_map, List.getElem?_range' hm]
    simp only [Option.map_some, Option.getD_some, one_mul, zero_add]
    rw [gatherBytes_getD (by omega), Nat.add_assoc]

/-- The B latch after MLDB, by the bytes of its source (R292). -/
theorem bLatch_of_ldb {c : Fin 64} {s : State} {r : List MatrixOp} {byte at_ : Nat → Byte} {a : Word}
    (hbusy : s.clusters[c].busy = true) (hq : s.clusters[c].queue = .ldb a :: r) (ha : a.toNat % 128 = 0)
    (hat : ∀ o, at_ o = byte ((a + BitVec.ofNat 64 (o / 128 * 128)).toNat + o % 128))
    (hline : ∀ o, o < (if s.clusters[c].mode.toNat ≤ 1 then 128 else 2 * depthOf s.clusters[c].mode.toNat) →
      (∀ i, i < 128 → ∃ v, Claim.EngineByte s (gangOf (s.clusters[c].owner.getD s.hart.id)) false
        ((a + BitVec.ofNat 64 (128 * o)).toNat + i) v) ∧
      (s.clusters[c].mode.toNat ≤ 1 ∨ o % 8 < nestedPlanes s.clusters[c].mode.toNat → ∀ i, i < 128 →
        Claim.EngineByte s (gangOf (s.clusters[c].owner.getD s.hart.id)) true ((a + BitVec.ofNat 64 (128 * o)).toNat + i)
          (byte ((a + BitVec.ofNat 64 (128 * o)).toNat + i)))) :
    ∃ x : Cluster, execMatrixInstructionComplete c s = .next (s.retireMatrix c r x) ∧
      x = { s.clusters[c] with bLatch := x.bLatch, bMode := some s.clusters[c].mode } ∧
      ∀ o, o < 16384 → x.bLatch.extractLsb' (8 * o) 8 = at_ (ldbOffset s.clusters[c].mode.toNat o) := by
  have hcount : ldbSize s.clusters[c].mode.toNat / 128 =
      if s.clusters[c].mode.toNat ≤ 1 then 128 else 2 * depthOf s.clusters[c].mode.toNat := by
    rw [ldbSize]
    split <;> omega
  have hlines : s.judgeLines (gangOf (s.clusters[c].owner.getD s.hart.id)) (ldbSize s.clusters[c].mode.toNat / 128) a = .ok () := by
    refine judgeLines_eq_ok fun o ho => ?_
    rw [hcount] at ho
    exact (hline o ho).1 0 (by norm_num)
  refine ⟨_, execMatrixInstructionComplete_of_effect (t := s) hbusy hq (matrixEffect_ldb ha hlines (readPieces_ldbPieces hat hline)), rfl,
    fun o ho => ?_⟩
  dsimp only
  rw [extractLsb'_leNat _ (by omega), pieceBytes_ldbPieces_getD _ _ ho]

theorem latchesAreFilledFromTheBanks : Claim.LatchesAreFilledFromTheBanks := by
  intro c s r byte q g done reads hbusy
  refine ⟨?_, ?_⟩
  · intro base index count n f hq rows stride entry source hindex hbase hstride hrow
    exact aLatch_of_gather hbusy hq hindex hbase hstride
      (gatherRows_eq_ok (fun m hm => (hrow m hm).1) (fun m hm => (hrow m hm).2) 256 0)
  · intro a hq ha mode depth planes at_ hline
    obtain ⟨x, hdone, hx, hbytes⟩ := bLatch_of_ldb (at_ := at_) hbusy hq ha (fun _ => rfl) hline
    exact ⟨x, hdone, hx, fun k n hk hn => bElem_of_bytes hbytes hk hn⟩

/-! ### The banks of a gang after a change of one -/

theorem State.bank?_setBank {s : State} {g : GangId} {b : Nat} {K : Bank} (hK : s.bank? (some g) b = some K) (k : Bank) (x : Nat) :
    (s.setBank (some g) b k).bank? (some g) x = if x = b then some k else s.bank? (some g) x := by
  rw [State.bank?] at hK
  simp only [Option.bind_some] at hK
  cases hg : s.gang? g with
  | none => simp [hg] at hK
  | some y =>
    simp only [hg] at hK
    have hlt : b < y.banks.length := (List.getElem?_eq_some_iff.mp hK).1
    have hid : y.id = g := (State.gang?_some hg).1
    have hset : s.setBank (some g) b k = s.setGang { y with banks := y.banks.set b k } := by simp only [State.setBank, Option.bind_some, hg]
    have hgang : (s.setGang { y with banks := y.banks.set b k }).gang? g = some { y with banks := y.banks.set b k } :=
      State.gang?_setGang_same hg rfl
    rw [hset]
    simp only [State.bank?, Option.bind_some, hgang, hg, List.getElem?_set]
    by_cases hx : x = b
    · simp [hx, hlt]
    · simp [hx, Ne.symm hx]

/-! ### Writes to banks alone -/

/-- A write that leads to a bank, with all its bits. -/
def Write.toBank (w : Write) : Prop := w.mask = 0xFF ∧ ∃ b off, w.target = .bank b off

/-- What a write leaves of bank `b`. -/
def Bank.written (b : Nat) (K : Bank) (w : Write) : Bank :=
  match w.target with
  | .bank x off =>
    if x = b then { K with
      bytes := K.bytes.setBytes off w.data
      bad := if off % 32 = 0 ∧ w.data.length = 32 then K.bad.filter (· != off / 32) else K.bad }
    else K
  | _ => K

/-- A write puts a byte at offset `off` of bank `b`. -/
def Write.puts (w : Write) (b off : Nat) (v : Byte) : Prop := ∃ base i, w.target = .bank b base ∧ off = base + i ∧ w.data[i]? = some v

section
variable {b : Nat} {ws : List Write}

theorem coversLine_toBank (hws : ∀ w ∈ ws, w.toBank) (line : Nat) : coversLine ws line = false := by
  rw [coversLine, List.all_eq_false]
  refine ⟨0, by simp, ?_⟩
  rw [List.any_eq_true]
  rintro ⟨w, hw, hcovers⟩
  obtain ⟨_, x, off, htarget⟩ := hws w hw
  simp [htarget] at hcovers

theorem State.performWrite_toBank {w : Write} (hw : w.toBank) (s : State) (p : Fin 8) (g : GangId) (blocked : List Nat) :
    s.performWrite p (some g) blocked w = { s with gangs := (s.performWrite p (some g) blocked w).gangs } ∧
      (s.performWrite p (some g) blocked w).bank? (some g) b = (s.bank? (some g) b).map fun K => K.written b w := by
  obtain ⟨hmask, x, off, htarget⟩ := hw
  rw [State.performWrite, htarget]
  dsimp only
  cases hx : s.bank? (some g) x with
  | none =>
    refine ⟨rfl, ?_⟩
    dsimp only
    by_cases hxb : x = b
    · rw [← hxb, hx]
      rfl
    · have hkept : (fun K => Bank.written b K w) = id := by
        funext K
        simp [Bank.written, htarget, hxb]
      rw [hkept, Option.map_id_apply]
  | some k =>
    refine ⟨State.setBank_eq .., ?_⟩
    dsimp only
    rw [State.bank?_setBank hx]
    by_cases hxb : b = x
    · subst hxb
      rw [if_pos rfl, hx]
      simp [Bank.written, htarget, hmask, Write.merge]
    · have hkept : (fun K => Bank.written b K w) = id := by
        funext K
        simp [Bank.written, htarget, Ne.symm hxb]
      rw [if_neg hxb, hkept, Option.map_id_apply]

theorem State.foldl_performWrite_toBank (p : Fin 8) (g : GangId) (blocked : List Nat) : ∀ {ws : List Write},
    (∀ w ∈ ws, w.toBank) → ∀ s : State,
    let t := ws.foldl (fun s w => s.performWrite p (some g) blocked w) s
    t = { s with gangs := t.gangs } ∧ ∀ b, t.bank? (some g) b = (s.bank? (some g) b).map fun K => ws.foldl (Bank.written b) K := by
  intro ws
  induction ws with
  | nil => exact fun _ s => ⟨rfl, fun b => by simp⟩
  | cons w ws ih =>
    intro hws s
    obtain ⟨hstate, hbank⟩ := ih (fun x hx => hws x (List.mem_cons_of_mem _ hx)) (s.performWrite p (some g) blocked w)
    have hw := fun b => State.performWrite_toBank (b := b) (hws w List.mem_cons_self) s p g blocked
    refine ⟨?_, fun b => ?_⟩
    · rw [List.foldl_cons, hstate, (hw 0).1]
    · rw [List.foldl_cons, hbank, (hw b).2, Option.map_map]
      rfl

/-- Writes to banks change the gang's banks alone. -/
theorem State.performWrites_toBank (hws : ∀ w ∈ ws, w.toBank) (s : State) (p : Fin 8) (g : GangId) :
    s.performWrites p (some g) ws = { s with gangs := (s.performWrites p (some g) ws).gangs } ∧
      ∀ b, (s.performWrites p (some g) ws).bank? (some g) b = (s.bank? (some g) b).map fun K => ws.foldl (Bank.written b) K := by
  rw [State.performWrites, State.cure_nothing _ (coversLine_toBank hws)]
  exact State.foldl_performWrite_toBank p g _ hws s

theorem Bank.written_eq (b : Nat) (K : Bank) (w : Write) : K.written b w = { K with bytes := (K.written b w).bytes, bad := (K.written b w).bad } := by
  unfold Bank.written
  split
  · split <;> rfl
  · rfl

theorem Bank.foldl_written_eq (b : Nat) (ws : List Write) : ∀ K : Bank, ws.foldl (Bank.written b) K =
    { K with bytes := (ws.foldl (Bank.written b) K).bytes, bad := (ws.foldl (Bank.written b) K).bad } := by
  induction ws with
  | nil => exact fun _ => rfl
  | cons w ws ih =>
    intro K
    rw [List.foldl_cons, ih, Bank.written_eq]

theorem Bank.wf_written {K : Bank} (hwf : Memory.wf K.bytes) (b : Nat) (w : Write) : Memory.wf (K.written b w).bytes := by
  unfold Bank.written
  split
  · split
    · exact Memory.wf_setBytes hwf ..
    · exact hwf
  · exact hwf

theorem Bank.get_written {K : Bank} (hwf : Memory.wf K.bytes) {w : Write} {off : Nat} :
    (∃ v, w.puts b off v ∧ (K.written b w).bytes.get off = v) ∨
      ((∀ v, ¬ w.puts b off v) ∧ (K.written b w).bytes.get off = K.bytes.get off) := by
  unfold Bank.written
  split
  next x base htarget =>
    by_cases hx : x = b
    · rw [if_pos hx]
      dsimp only
      by_cases hin : base ≤ off ∧ off < base + w.data.length
      · have hi : off - base < w.data.length := by omega
        refine .inl ⟨w.data[off - base], ⟨base, off - base, by rw [htarget, hx], by omega, List.getElem?_eq_getElem hi⟩, ?_⟩
        rw [← Memory.get_setBytes_in hwf base w.data _ hi, Nat.add_sub_cancel' hin.1]
      · refine .inr ⟨?_, Memory.get_setBytes_out _ (by omega)⟩
        rintro v ⟨base', i, htarget', hoff, hdata⟩
        rw [htarget] at htarget'
        cases htarget'
        have := (List.getElem?_eq_some_iff.mp hdata).1
        omega
    · rw [if_neg hx]
      refine .inr ⟨?_, rfl⟩
      rintro v ⟨base', i, htarget', _⟩
      rw [htarget] at htarget'
      cases htarget'
      exact hx rfl
  next hother =>
    refine .inr ⟨?_, rfl⟩
    rintro v ⟨base, i, htarget, _⟩
    exact hother _ _ htarget

/-- A byte no write puts stays. -/
theorem Bank.get_foldl_written_out {off : Nat} : ∀ {ws : List Write} {K : Bank}, Memory.wf K.bytes →
    (∀ w ∈ ws, ∀ v, ¬ w.puts b off v) → (ws.foldl (Bank.written b) K).bytes.get off = K.bytes.get off := by
  intro ws
  induction ws with
  | nil => exact fun _ _ => rfl
  | cons w ws ih =>
    intro K hwf h
    rw [List.foldl_cons, ih (Bank.wf_written hwf b w) fun x hx => h x (List.mem_cons_of_mem _ hx)]
    obtain ⟨v, hputs, _⟩ | ⟨_, hget⟩ := Bank.get_written (b := b) hwf (w := w) (off := off)
    · exact absurd hputs (h w List.mem_cons_self v)
    · exact hget

/-- A byte that is put, and by every write alike, is what was put. -/
theorem Bank.get_foldl_written_in {off : Nat} {v : Byte} : ∀ {ws : List Write} {K : Bank}, Memory.wf K.bytes →
    (∀ w ∈ ws, ∀ x, w.puts b off x → x = v) → (K.bytes.get off = v ∨ ∃ w ∈ ws, w.puts b off v) →
    (ws.foldl (Bank.written b) K).bytes.get off = v := by
  intro ws
  induction ws with
  | nil =>
    intro K _ _ h
    simpa using h
  | cons w ws ih =>
    intro K hwf hall h
    refine ih (Bank.wf_written hwf b w) (fun x hx => hall x (List.mem_cons_of_mem _ hx)) ?_
    obtain ⟨x, hputs, hget⟩ | ⟨hno, hget⟩ := Bank.get_written (b := b) hwf (w := w) (off := off)
    · exact .inl (hget.trans (hall w List.mem_cons_self x hputs))
    · obtain hold | ⟨x, hx, hputs⟩ := h
      · exact .inl (hget.trans hold)
      · obtain rfl | hx := List.mem_cons.mp hx
        · exact absurd hputs (hno v)
        · exact .inr ⟨x, hx, hputs⟩

end

/-! ### The bytes a drain puts into banks (R297) -/

/-- The write of bytes from an offset of the cluster window on, within one bank. -/
def windowWrite (o : Nat) (l : List Byte) : Write :=
  { target := .bank (o / 0x40000) (o % 0x40000), data := l, va := BitVec.ofNat 64 (clusterBase + o) }

theorem bankWrites_eq (a : Nat) (d : List Byte) : bankWrites a d =
    if d.length ≤ 0x40000 - (a - clusterBase) % 0x40000 then [windowWrite (a - clusterBase) d]
    else [windowWrite (a - clusterBase) (d.take (0x40000 - (a - clusterBase) % 0x40000)),
      windowWrite (a - clusterBase + (0x40000 - (a - clusterBase) % 0x40000)) (d.drop (0x40000 - (a - clusterBase) % 0x40000))] := rfl

theorem windowWrite_toBank (o : Nat) (l : List Byte) : (windowWrite o l).toBank := ⟨rfl, _, _, rfl⟩

theorem bankWrites_toBank {a : Nat} {d : List Byte} : ∀ w ∈ bankWrites a d, w.toBank := by
  intro w hw
  rw [bankWrites_eq] at hw
  split at hw
  · rw [List.mem_singleton.mp hw]
    exact windowWrite_toBank _ _
  · obtain rfl | hw := List.mem_cons.mp hw
    · exact windowWrite_toBank _ _
    · rw [List.mem_singleton.mp hw]
      exact windowWrite_toBank _ _

theorem windowWrite_puts {o b off : Nat} {l : List Byte} {v : Byte} (hl : o % 0x40000 + l.length ≤ 0x40000) (hoff : off < 0x40000) :
    (windowWrite o l).puts b off v ↔ ∃ i, l[i]? = some v ∧ o + i = b * 0x40000 + off := by
  constructor
  · rintro ⟨base, i, htarget, hat, hv⟩
    cases htarget
    exact ⟨i, hv, by omega⟩
  · rintro ⟨i, hv, hat⟩
    have hi : i < l.length := (List.getElem?_eq_some_iff.mp hv).1
    have hb : o / 0x40000 = b := by omega
    exact ⟨o % 0x40000, i, by rw [← hb]; rfl, by omega, hv⟩

theorem bankWrites_puts {a b off : Nat} {d : List Byte} {v : Byte} (ha : clusterBase ≤ a) (hd : d.length ≤ 0x40000) (hoff : off < 0x40000) :
    (∃ w ∈ bankWrites a d, w.puts b off v) ↔ ∃ i, d[i]? = some v ∧ a + i = clusterBase + b * 0x40000 + off := by
  have hshift (i : Nat) : a - clusterBase + i = b * 0x40000 + off ↔ a + i = clusterBase + b * 0x40000 + off := by omega
  rw [bankWrites_eq]
  generalize hroom : 0x40000 - (a - clusterBase) % 0x40000 = room
  split
  · simp only [List.mem_singleton, exists_eq_left]
    rw [windowWrite_puts (by omega) hoff]
    simp only [hshift]
  · have hfirst : (a - clusterBase) % 0x40000 + (d.take room).length ≤ 0x40000 := by
      rw [List.length_take]
      omega
    have hsecond : (a - clusterBase + room) % 0x40000 + (d.drop room).length ≤ 0x40000 := by
      rw [List.length_drop]
      omega
    simp only [List.mem_cons, List.not_mem_nil, or_false, exists_eq_or_imp, exists_eq_left]
    rw [windowWrite_puts hfirst hoff, windowWrite_puts hsecond hoff]
    constructor
    · rintro (⟨i, hv, hat⟩ | ⟨i, hv, hat⟩)
      · rw [List.getElem?_take] at hv
        split at hv
        · exact ⟨i, hv, (hshift i).mp hat⟩
        · cases hv
      · rw [List.getElem?_drop] at hv
        exact ⟨room + i, hv, by omega⟩
    · rintro ⟨i, hv, hat⟩
      by_cases hi : i < room
      · exact .inl ⟨i, by rw [List.getElem?_take, if_pos hi, hv], (hshift i).mpr hat⟩
      · exact .inr ⟨i - room, by rw [List.getElem?_drop, Nat.add_sub_cancel' (by omega), hv], by omega⟩

theorem leBytes_getElem? {z i : Nat} (hi : i < z) (v : Nat) : (leBytes z v)[i]? = some (BitVec.ofNat 8 (v / 256 ^ i)) := by
  induction z generalizing i v with
  | zero => exact absurd hi (Nat.not_lt_zero i)
  | succ z ih =>
    cases i with
    | zero => simp [leBytes]
    | succ i => rw [leBytes, List.getElem?_cons_succ, ih (Nat.lt_of_succ_lt_succ hi), Nat.div_div_eq_div_mul, pow_succ']

/-- Numbers of `z` bytes one after another: a byte of one of them. -/
theorem flatMap_leBytes_getElem? (z : Nat) (e : Nat → Nat) (n j : Nat) (v : Byte) :
    ((List.range n).flatMap fun k => leBytes z (e k))[j]? = some v ↔
      ∃ k i, k < n ∧ i < z ∧ j = k * z + i ∧ v = BitVec.ofNat 8 (e k / 256 ^ i) := by
  have hget {k i : Nat} (hk : k < n) (hi : i < z) :
      ((List.range n).flatMap fun k => leBytes z (e k))[k * z + i]? = some (BitVec.ofNat 8 (e k / 256 ^ i)) := by
    rw [mul_comm, getElem?_flatMap_range (f := fun k => leBytes z (e k)) (fun _ => length_leBytes ..) hi hk, leBytes_getElem? hi]
  constructor
  · intro h
    have hj : j < n * z := by
      have hlen := (List.getElem?_eq_some_iff.mp h).1
      rwa [length_flatMap_range (f := fun k => leBytes z (e k)) fun _ => length_leBytes ..] at hlen
    have hz : 0 < z := Nat.pos_of_mul_pos_left (Nat.lt_of_le_of_lt (Nat.zero_le j) hj)
    have hk : j / z < n := Nat.div_lt_of_lt_mul (by rwa [mul_comm])
    have hat : j / z * z + j % z = j := Nat.div_add_mod' j z
    refine ⟨j / z, j % z, hk, Nat.mod_lt j hz, hat.symm, ?_⟩
    rw [← hat, hget hk (Nat.mod_lt j hz)] at h
    exact (Option.some.inj h).symm
  · rintro ⟨k, i, hk, hi, rfl, rfl⟩
    exact hget hk hi

/-! ### The rows a drain writes (R297) -/

/-- An element of the visible bank as a drain of a format writes it, and whether it saturates. -/
def drainValue (f : DrainFmt) (x : Nat) : Nat × Bool :=
  match f with
  | .native => (x, false)
  | .bf16 => ((bf16.deliver .nearest (fp32.decode x)).1, false)
  | .e4m3 => narrow .e4m3 (fp32.decode x) 0
  | .e5m2 => narrow .e5m2 (fp32.decode x) 0
  | .int8 => (wrap 8 (max (-128) (min 127 (sgn 32 x))), decide (sgn 32 x < -128 ∨ 127 < sgn 32 x))

/-- An integer is rounded to itself. -/
theorem roundTo_exactOfInt (i : Int) : ((exactOfInt i).roundTo 0 .nearest).1 = i.natAbs := by
  simp [Exact.roundTo, exactOfInt]

theorem narrow_int8 (i : Int) : narrow .int8 (.fin (exactOfInt i)) 0 =
    (wrap 8 (max (-128) (min 127 i)), decide (i < -128 ∨ 127 < i)) := by
  have hself : ({ exactOfInt i with e := (exactOfInt i).e - 0 } : Exact) = exactOfInt i := by simp [exactOfInt]
  have hsign : (if (exactOfInt i).neg = true then -((i.natAbs : Nat) : Int) else (i.natAbs : Nat)) = i := by
    simp only [exactOfInt, decide_eq_true_eq]
    split <;> omega
  have hround : (({ exactOfInt i with e := (exactOfInt i).e - 0 } : Exact).roundTo 0 .nearest).1 = i.natAbs := by
    rw [hself, roundTo_exactOfInt]
  simp only [narrow, hround, hsign, wrap, BitVec.toNat_ofInt]
  refine Prod.ext (by norm_num) (decide_eq_decide.mpr ?_)
  norm_num
  omega

section
variable {q : Cluster} {f : DrainFmt}

theorem drainElem_eq {mode : BitVec 3} (hf : f = .native ∨ (mode = 0 ∧ f ≠ .int8) ∨ (mode ≠ 0 ∧ f = .int8)) (x : Nat) :
    drainElem mode f x = some (drainValue f x) := by
  cases f with
  | native => rfl
  | bf16 =>
    have hmode : mode = 0 := by simpa using hf
    exact if_pos hmode
  | e4m3 =>
    have hmode : mode = 0 := by simpa using hf
    exact if_pos hmode
  | e5m2 =>
    have hmode : mode = 0 := by simpa using hf
    exact if_pos hmode
  | int8 =>
    have hmode : mode ≠ 0 := by simpa using hf
    rw [drainElem, if_neg hmode, narrow_int8]
    rfl

/-- Element `n` of row `m` of the visible bank, as it is drained. -/
def Cluster.drained (q : Cluster) (f : DrainFmt) (m n : Nat) : Nat × Bool := drainValue f (elemOf q.visible[Fin.ofNat 256 m] 32 n)

/-- The bytes of a row that a drain writes. -/
def Cluster.drainBytes (q : Cluster) (f : DrainFmt) (m : Nat) : List Byte :=
  (List.range q.clip.2).flatMap fun n => leBytes (drainSize f) (q.drained f m n).1

theorem drainRows_eq (hf : f = .native ∨ (q.mode = 0 ∧ f ≠ .int8) ∨ (q.mode ≠ 0 ∧ f = .int8)) (a stride : Word) :
    q.drainRows a stride f = some (
      (List.range (if q.clip.2 = 0 then 0 else q.clip.1)).map fun m => ((a + BitVec.ofNat 64 m * stride).toNat, q.drainBytes f m),
      (List.range (if q.clip.2 = 0 then 0 else q.clip.1)).any fun m => (List.range q.clip.2).any fun n => (q.drained f m n).2) := by
  rw [Cluster.drainRows]
  simp only [drainElem_eq hf, Option.getD_some, Option.isNone_some, Bool.false_eq_true, if_false, List.map_map, List.any_map,
    List.flatMap_map]
  rfl

/-- An element of the visible bank lies in the tile. -/
def Cluster.inTile (q : Cluster) (m n : Nat) : Prop :=
  m < 256 ∧ n < 256 ∧ 256 * q.brow.toNat + m ≤ q.trowsM1.toNat ∧ 256 * q.bcol.toNat + n ≤ q.tcolsM1.toNat

theorem inTile_iff {m n : Nat} : q.inTile m n ↔ m ∈ List.range (if q.clip.2 = 0 then 0 else q.clip.1) ∧ n < q.clip.2 := by
  have hrows : q.clip.1 = min 256 (q.trowsM1.toNat + 1 - 256 * q.brow.toNat) := rfl
  have hcols : q.clip.2 = min 256 (q.tcolsM1.toNat + 1 - 256 * q.bcol.toNat) := rfl
  rw [Cluster.inTile, List.mem_range]
  split <;> omega

/-- Address of byte `i` of an element a drain writes. -/
def drainPlace (a stride : Word) (f : DrainFmt) (m n i : Nat) : Nat := (a + BitVec.ofNat 64 m * stride).toNat + n * drainSize f + i

/-- The writes of a drain. -/
def Cluster.drainWrites (q : Cluster) (a stride : Word) (f : DrainFmt) : List Write :=
  (List.range (if q.clip.2 = 0 then 0 else q.clip.1)).flatMap fun m =>
    bankWrites (a + BitVec.ofNat 64 m * stride).toNat (q.drainBytes f m)

theorem drainSize_pos (f : DrainFmt) : 0 < drainSize f ∧ drainSize f ≤ 4 := by
  cases f <;> decide

theorem drainWrites_toBank {a stride : Word} : ∀ w ∈ q.drainWrites a stride f, w.toBank := by
  intro w hw
  obtain ⟨m, _, hw⟩ := List.mem_flatMap.mp hw
  exact bankWrites_toBank w hw

theorem length_drainBytes (m : Nat) : (q.drainBytes f m).length = q.clip.2 * drainSize f :=
  length_flatMap_range (f := fun n => leBytes (drainSize f) (q.drained f m n).1) (fun _ => length_leBytes ..) _

/-- The bytes a drain puts are those of the elements in the tile, each at its place. -/
theorem drainWrites_puts {a stride : Word} (hbase : ∀ m n, q.inTile m n → clusterBase ≤ drainPlace a stride f m n 0)
    {b off : Nat} (hoff : off < 0x40000) {v : Byte} :
    (∃ w ∈ q.drainWrites a stride f, w.puts b off v) ↔ ∃ m n i, q.inTile m n ∧ i < drainSize f ∧
      drainPlace a stride f m n i = clusterBase + b * 0x40000 + off ∧ v = BitVec.ofNat 8 ((q.drained f m n).1 / 256 ^ i) := by
  have hrow {m : Nat} (hm : m ∈ List.range (if q.clip.2 = 0 then 0 else q.clip.1)) :
      (∃ w ∈ bankWrites (a + BitVec.ofNat 64 m * stride).toNat (q.drainBytes f m), w.puts b off v) ↔ ∃ n i, n < q.clip.2 ∧
        i < drainSize f ∧ drainPlace a stride f m n i = clusterBase + b * 0x40000 + off ∧
        v = BitVec.ofNat 8 ((q.drained f m n).1 / 256 ^ i) := by
    have hcols : 0 < q.clip.2 := by
      rw [Nat.pos_iff_ne_zero]
      intro h0
      simp [h0] at hm
    have hfirst := hbase m 0 (inTile_iff.mpr ⟨hm, hcols⟩)
    have hz := drainSize_pos f
    have hclip : q.clip.2 ≤ 256 := Nat.min_le_left ..
    have hlen : (q.drainBytes f m).length ≤ 0x40000 := by
      rw [length_drainBytes]
      exact (Nat.mul_le_mul hclip hz.2).trans (by norm_num)
    rw [bankWrites_puts (by simpa [drainPlace] using hfirst) hlen hoff]
    simp only [Cluster.drainBytes, flatMap_leBytes_getElem?, drainPlace, Nat.add_assoc]
    constructor
    · rintro ⟨j, ⟨n, i, hn, hi, rfl, hv⟩, hat⟩
      exact ⟨n, i, hn, hi, hat, hv⟩
    · rintro ⟨n, i, hn, hi, hat, hv⟩
      exact ⟨_, ⟨n, i, hn, hi, rfl, hv⟩, hat⟩
  simp only [Cluster.drainWrites, List.mem_flatMap, inTile_iff]
  constructor
  · rintro ⟨w, ⟨m, hm, hw⟩, hputs⟩
    obtain ⟨n, i, hn, h⟩ := (hrow hm).mp ⟨w, hw, hputs⟩
    exact ⟨m, n, i, ⟨hm, hn⟩, h⟩
  · rintro ⟨m, n, i, ⟨hm, hn⟩, h⟩
    obtain ⟨w, hw, hputs⟩ := (hrow hm).mpr ⟨n, i, hn, h⟩
    exact ⟨w, ⟨m, hm, hw⟩, hputs⟩

end

/-! ### What a drain leaves (R297) -/

theorem judgeRows_eq_ok {s : State} {g : GangId} {l : List (Nat × List Byte)}
    (h : ∀ x ∈ l, ∀ i, i < x.2.length → ∃ v, Claim.EngineByte s g false (x.1 + i) v) : s.judgeRows g l = .ok () := by
  induction l with
  | nil => rfl
  | cons x l ih =>
    rw [State.judgeRows, judgeBanks_eq_ok (h x List.mem_cons_self)]
    exact ih fun y hy => h y (List.mem_cons_of_mem _ hy)

section
variable {s : State} {q : Cluster} {g : GangId} {a stride : Word} {f : DrainFmt}

/-- Every byte of the rows a drain writes belongs to an element in the tile. -/
theorem judgeRows_drain (hbytes : ∀ m n i, q.inTile m n → i < drainSize f → ∃ v, Claim.EngineByte s g false (drainPlace a stride f m n i) v) :
    s.judgeRows g ((List.range (if q.clip.2 = 0 then 0 else q.clip.1)).map fun m =>
      ((a + BitVec.ofNat 64 m * stride).toNat, q.drainBytes f m)) = .ok () := by
  refine judgeRows_eq_ok fun x hx j hj => ?_
  obtain ⟨m, hm, rfl⟩ := List.mem_map.mp hx
  obtain ⟨n, i, hn, hi, rfl, _⟩ := (flatMap_leBytes_getElem? ..).mp (List.getElem?_eq_getElem hj)
  obtain ⟨v, hv⟩ := hbytes m n i (inTile_iff.mpr ⟨hm, hn⟩) hi
  rw [drainPlace, Nat.add_assoc] at hv
  exact ⟨v, hv⟩

end

section
variable {s : State} {q : Cluster} {g : GangId} {a stride : Word} {f : DrainFmt}

/-- Where rows do not overlap, each place a drain writes is one byte of one element. -/
theorem drainPlace_inj {m n i m' n' i' : Nat} (hi : i < drainSize f) (hi' : i' < drainSize f) (hm : m = m')
    (h : drainPlace a stride f m n i = drainPlace a stride f m' n' i') : n = n' ∧ i = i' := by
  have hz := (drainSize_pos f).1
  have hdiv {n i : Nat} (hi : i < drainSize f) : (n * drainSize f + i) / drainSize f = n := by
    rw [Nat.mul_comm, Nat.mul_add_div hz, Nat.div_eq_of_lt hi, Nat.add_zero]
  subst hm
  have hsame : n * drainSize f + i = n' * drainSize f + i' := by
    simpa only [drainPlace, Nat.add_assoc, Nat.add_left_cancel_iff] using h
  have hn : n = n' := (hdiv hi).symm.trans ((congrArg (· / drainSize f) hsame).trans (hdiv hi'))
  exact ⟨hn, by rw [hn] at hsame; exact Nat.add_left_cancel hsame⟩

section
variable (hbase : ∀ m n, q.inTile m n → clusterBase ≤ drainPlace a stride f m n 0)
include hbase

/-- A byte of an element in the tile, after the drain. -/
theorem get_drained (hrows : ∀ m n i m' n' i', q.inTile m n → q.inTile m' n' → i < drainSize f → i' < drainSize f →
    drainPlace a stride f m n i = drainPlace a stride f m' n' i' → m = m') {m n i : Nat} (ht : q.inTile m n) (hi : i < drainSize f)
    {b off : Nat} (hoff : off < 0x40000) (hat : drainPlace a stride f m n i = clusterBase + b * 0x40000 + off)
    {K : Bank} (hwf : Memory.wf K.bytes) :
    ((q.drainWrites a stride f).foldl (Bank.written b) K).bytes.get off = BitVec.ofNat 8 ((q.drained f m n).1 / 256 ^ i) := by
  refine Bank.get_foldl_written_in hwf (fun w hw x hputs => ?_) (.inr ((drainWrites_puts hbase hoff).mpr ⟨m, n, i, ht, hi, hat, rfl⟩))
  obtain ⟨m', n', i', ht', hi', hat', hx⟩ := (drainWrites_puts hbase hoff).mp ⟨w, hw, hputs⟩
  have hsame : drainPlace a stride f m' n' i' = drainPlace a stride f m n i := hat'.trans hat.symm
  have hm := hrows _ _ _ _ _ _ ht' ht hi' hi hsame
  obtain ⟨hn, hii⟩ := drainPlace_inj hi' hi hm hsame
  rw [hx, hm, hn, hii]

/-- A byte that belongs to no element in the tile stays. -/
theorem get_undrained {b off : Nat} (hoff : off < 0x40000)
    (hout : ∀ m n i, q.inTile m n → i < drainSize f → drainPlace a stride f m n i ≠ clusterBase + b * 0x40000 + off)
    {K : Bank} (hwf : Memory.wf K.bytes) : ((q.drainWrites a stride f).foldl (Bank.written b) K).bytes.get off = K.bytes.get off := by
  refine Bank.get_foldl_written_out hwf fun w hw v hputs => ?_
  obtain ⟨m, n, i, ht, hi, hat, _⟩ := (drainWrites_puts hbase hoff).mp ⟨w, hw, hputs⟩
  exact hout m n i ht hi hat

end

/-- An element in the tile saturates where it is drained. -/
def Cluster.drainSat (q : Cluster) (f : DrainFmt) : Bool :=
  (List.range (if q.clip.2 = 0 then 0 else q.clip.1)).any fun m => (List.range q.clip.2).any fun n => (q.drained f m n).2

theorem drainSat_iff : q.drainSat f = true ↔ ∃ m n, q.inTile m n ∧ (q.drained f m n).2 = true := by
  simp only [Cluster.drainSat, List.any_eq_true, inTile_iff]
  constructor
  · rintro ⟨m, hm, n, hn, h⟩
    exact ⟨m, n, ⟨hm, List.mem_range.mp hn⟩, h⟩
  · rintro ⟨m, n, ⟨hm, hn⟩, h⟩
    exact ⟨m, hm, n, List.mem_range.mpr hn, h⟩

end

theorem matrixEffect_drain {s : State} {c : Fin 64} {g : GangId} {a stride : Word} {f : DrainFmt}
    (hf : f = .native ∨ (s.clusters[c].mode = 0 ∧ f ≠ .int8) ∨ (s.clusters[c].mode ≠ 0 ∧ f = .int8))
    (ha : a.toNat % drainSize f = 0) (hstride : stride.toNat % drainSize f = 0)
    (hbytes : ∀ m n i, s.clusters[c].inTile m n → i < drainSize f → ∃ v, Claim.EngineByte s g false (drainPlace a stride f m n i) v) :
    ∃ s1 : State, s1 = { s with gangs := s1.gangs } ∧
      (∀ b, s1.bank? (some g) b = (s.bank? (some g) b).map fun K => (s.clusters[c].drainWrites a stride f).foldl (Bank.written b) K) ∧
      s.matrixEffect c g (.drain a stride f) = .ok { s1 with clusters := s1.clusters.set c { s.clusters[c] with
        flags := s.clusters[c].flags.raise { sat := s.clusters[c].drainSat f } } } := by
  have hmisaligned : ¬ (¬ aligned a (drainSize f) = true ∨ ¬ aligned stride (drainSize f) = true) := by
    rw [aligned_iff, aligned_iff]
    omega
  obtain ⟨hstate, hbank⟩ := State.performWrites_toBank (ws := s.clusters[c].drainWrites a stride f) drainWrites_toBank s
    (((s.gang? g).map (·.part)).getD 0) g
  refine ⟨_, hstate, hbank, ?_⟩
  simp only [State.matrixEffect]
  rw [drainRows_eq hf]
  dsimp only
  rw [if_neg hmisaligned, judgeRows_drain hbytes, List.flatMap_map]
  rfl

theorem drainsWriteTheTile : Claim.DrainsWriteTheTile := by
  intro c s a stride f r q g inTile z place value hbusy hq hf ha hstride hbytes hrows hwf
  have hz : z = drainSize f := by cases f <;> rfl
  have hplace : place = drainPlace a stride f := by
    funext m n i
    exact congrArg (fun z => (a + BitVec.ofNat 64 m * stride).toNat + n * z + i) hz
  have hvalue : value = q.drained f := by
    funext m n
    cases f <;> rfl
  have htile : inTile = q.inTile := rfl
  clear_value z place value inTile
  subst hz hplace hvalue htile
  obtain ⟨s1, hstate, hbank, heffect⟩ := matrixEffect_drain (g := g) hf ha hstride hbytes
  have hbase (m n : Nat) (h : q.inTile m n) : clusterBase ≤ drainPlace a stride f m n 0 := by
    obtain ⟨v, hv⟩ := hbytes m n 0 h (drainSize_pos f).1
    exact (engineByte_iff.mp hv).1
  refine ⟨s1.retireMatrix c r { q with flags := q.flags.raise { sat := q.drainSat f } }, { q with flags := q.flags.raise { sat := q.drainSat f } },
    execMatrixInstructionComplete_of_effect hbusy hq heffect, ?_, ?_, ?_, ?_, ?_⟩
  · rw [State.retireMatrix, hstate]
  · simp [MatrixFlags.raise]
  · simp [MatrixFlags.raise, drainSat_iff]
  · intro m n i ht hi
    obtain ⟨v, b, off, K, hat, hb, hoff, hK, hswitch, hmode, _, _⟩ := hbytes m n i ht hi
    have hkept := Bank.foldl_written_eq b (q.drainWrites a stride f) K
    refine ⟨b, off, (q.drainWrites a stride f).foldl (Bank.written b) K, hat, hb, hoff, (hbank b).trans (by rw [hK]; rfl), ?_, ?_,
      fun h => absurd h (by simp), get_drained hbase hrows ht hi hoff hat (hwf b K hK)⟩
    · rw [hkept]
      exact hswitch
    · rw [hkept]
      exact hmode
  · intro b K hK
    exact ⟨_, (hbank b).trans (by rw [hK]; rfl), Bank.foldl_written_eq b _ K,
      fun off hoff hout => get_undrained hbase hoff hout (hwf b K hK)⟩

/-- Settles O34: the effects of an engine's instructions, its latches, its float sums, and its drains. -/
theorem matrixInstructionsHaveTheirEffect : Obligations.MatrixInstructionsHaveTheirEffect := by
  unfold Obligations.MatrixInstructionsHaveTheirEffect
  exact ⟨matrixInstructionsHaveTheirEffect_holds, latchesAreFilledFromTheBanks, mmaAddsExactSumsOfFloats,
    drainsWriteTheTile⟩

end Sys2Proof.Machine
end
